-- ==== Sys2Proof/Word.lean ====
section
/-! DEFINITION. The word types of the OTM-48 block model: bytes, register words and the fixed-width
fields the manual treats as bits. Byte order and bit-field helpers stand in Machine/Bytes.lean. -/
namespace Sys2Proof

/-- One byte of a record, a block, a request or a register (R4). -/
abbrev Byte := BitVec 8

/-- A direct register, a doorbell or an Attendant or Conservator instruction word (R249, R319, R457). -/
abbrev Word := BitVec 32

/-- A Conservator data word (R292). -/
abbrev DWord := BitVec 36

/-- A Conservator accumulator (R292). -/
abbrev Acc := BitVec 44

end Sys2Proof
end

