-- ==== Sys2Proof/Machine/Bytes.lean ====
section
/-! DEFINITION. Byte order, bit fields and codes: little-endian fields (R4), CRC-32 and CRC-8, and the
saturating counters the manual uses. -/
namespace Sys2Proof.Machine

/-- The low `k` bytes of `n`, least significant first (R4). -/
def leBytes : Nat → Nat → List Byte
  | 0, _ => []
  | k + 1, n => BitVec.ofNat 8 n :: leBytes k (n / 256)

/-- The number that bytes spell, least significant first (R4). -/
def leNat : List Byte → Nat
  | [] => 0
  | b :: bs => b.toNat + 256 * leNat bs

/-- `size` bytes from offset `off`; bytes past the end are absent. -/
def slice (bs : List Byte) (off size : Nat) : List Byte := (bs.drop off).take size

/-- Unsigned field at `off` of `size` bytes. -/
def getU (bs : List Byte) (off size : Nat) : Nat := leNat (slice bs off size)

/-- Two's complement reading of the low `w` bits. -/
def toInt (w n : Nat) : Int :=
  let m := n % 2 ^ w
  if 2 * m < 2 ^ w then (m : Int) else (m : Int) - (2 ^ w : Nat)

/-- Two's complement bits of an integer, `w` wide. -/
def ofInt (w : Nat) (z : Int) : Nat := (z % ((2 ^ w : Nat) : Int)).toNat

/-- Signed field at `off` of `size` bytes. -/
def getI (bs : List Byte) (off size : Nat) : Int := toInt (8 * size) (getU bs off size)

/-- Consecutive little-endian fields, each (size, value). -/
def fields (l : List (Nat × Nat)) : List Byte := l.flatMap fun p => leBytes p.1 p.2

/-- Bytes of zeros. -/
def zeros (n : Nat) : List Byte := List.replicate n 0#8

/-- `bs` cut or filled with zeros to `n` bytes. -/
def padTo (n : Nat) (bs : List Byte) : List Byte := bs.take n ++ zeros (n - bs.length)

/-- `bs` with the bytes `v` at offset `off`. -/
def putBytes (bs : List Byte) (off : Nat) (v : List Byte) : List Byte :=
  bs.take off ++ v ++ bs.drop (off + v.length)

/-- `bs` with a `size`-byte field at `off`. -/
def putU (bs : List Byte) (off size n : Nat) : List Byte := putBytes bs off (leBytes size n)

/-- Bits `lo` to `lo + w - 1` of `n`. -/
def bitsOf (n lo w : Nat) : Nat := n / 2 ^ lo % 2 ^ w

/-- A flag as a number. -/
def b2n (b : Bool) : Nat := if b then 1 else 0

/-- A mask with the listed bits set. -/
def maskOf (l : List Nat) : Nat := l.foldl (fun m i => m ||| 2 ^ i) 0

/-- The set bits of `n` below `w`, rising. -/
def bitList (n w : Nat) : List Nat := (List.range w).filter n.testBit

/-- A counter of `w` bits that stays at its largest value. -/
def satAdd (w n k : Nat) : Nat := min (n + k) (2 ^ w - 1)

/-- Round up to a multiple of `m`. -/
def roundUp (n m : Nat) : Nat := (n + m - 1) / m * m

/-- Quotient rounded up. -/
def ceilDiv (n m : Nat) : Nat := (n + m - 1) / m

/-- Floor division of integers by a positive number. -/
def floorDiv (a : Int) (b : Nat) : Int := a.fdiv b

/-- Quotient rounded up, of integers. -/
def ceilDivI (a : Int) (b : Nat) : Int := -((-a).fdiv b)

/-- All fields of a list are zero. -/
def allZero (bs : List Byte) : Bool := bs.all (· == 0#8)

/-- One bit step of a reflected CRC. -/
def crcStep (poly : Nat) (c : Nat) : Nat := if c % 2 = 1 then (c / 2) ^^^ poly else c / 2

/-- One byte of a reflected CRC. -/
def crcByte (poly c : Nat) (b : Byte) : Nat :=
  (List.range 8).foldl (fun c _ => crcStep poly c) (c ^^^ b.toNat)

/-- CRC-32 of IEEE 802.3: reflected, initial and final value all ones (R104). -/
def crc32 (bs : List Byte) : Nat :=
  bs.foldl (crcByte 0xEDB88320) 0xFFFFFFFF ^^^ 0xFFFFFFFF

/-- `bs` in pieces of `n`, the last one maybe shorter; `fuel` bounds the pieces. -/
def chunksAux {α : Type} (n : Nat) : Nat → List α → List (List α)
  | 0, _ => []
  | _, [] => []
  | k + 1, x :: xs => (x :: xs).take n :: chunksAux n k ((x :: xs).drop n)

/-- A list in pieces of `n`. -/
def chunks {α : Type} (n : Nat) (l : List α) : List (List α) := chunksAux n l.length l

end Sys2Proof.Machine
end

