-- ==== Sys2Proof/Syntax.lean ====
section
/-! DEFINITION. The commands and events of the OTM-48: one constructor of `Instr` per row of
spec/opcode_table.json, with the operands the row needs. `t` is always the fs-sample index (R46) at
which the command reaches the device or the event happens. -/
namespace Sys2Proof

/-- A cadence time C(turn, slot, phase) (R5). -/
structure CT where
  turn  : Nat
  slot  : Nat
  phase : Nat
deriving DecidableEq, Repr

/-- One mailbox request (R465) together with what the host's memory answers. `params` are the LENGTH
parameter bytes, inline or at PARAM_ADDR; `payload` is what a further read at HOST_ADDR returns
(STORE_LOAD, CONSERVATOR_LOAD); `memOk` is false when a read or write of host memory failed (R466);
`rsv` is the value of the header's reserved bytes; `env` lists what the environment answers to this
command alone: for COMMIT the archive drives n that are unusable, and n + 32 for those with 4,096-byte
LBAs (R442); for MOUNT_RELEASE how the attempts at its write went, in turn: 0 done, 1 failed, 2 presence dropped (R105, R113);
for FALLOW_ENTER 1 for a link that ASPM L1 may not enter, 16 + p for a write to mount p that fails three times and 32 + p for one
in which presence drops (R537, R538); clipped fs-samples of twelve channels for WING_STATUS (R81). -/
structure Req where
  fn        : Nat
  t         : Nat
  seq       : Nat
  len       : Nat
  rsv       : Nat
  paramAddr : Nat
  respAddr  : Nat
  params    : List Byte
  memOk     : Bool
  payload   : List Byte
  env       : List Nat
deriving DecidableEq, Repr

/-- Operand fields of a format M instruction (R319). -/
structure FmtM where
  a    : Nat
  xp   : Nat
  xs   : Bool
  yp   : Nat
  ys   : Bool
  xh   : Bool
  yh   : Bool
  xsrc : Bool
  xd   : Nat
  ysrc : Bool
  yd   : Nat
  conj : Bool
deriving DecidableEq, Repr

/-- Operand fields of STA and CSTA (R319). -/
structure StaF where
  a     : Nat
  dst   : Bool
  mem   : Bool
  p     : Nat
  step  : Nat
  width : Bool
  half  : Bool
  s     : Nat
deriving DecidableEq, Repr

/-- What a source stream shows a condition at a new grid sample: the code or I component, and the Q
component (R202). -/
structure CondIn where
  cond : Nat
  re   : Int
  im   : Int
deriving DecidableEq, Repr

/-- What a gleaning measurement found (R84, R87): estimates and their standard errors (offset in nV,
gain in ppb, skew in as), and the coefficients the wing computed from them. -/
structure Meas where
  off     : Int
  offSe   : Nat
  gain    : Int
  gainSe  : Nat
  skew    : Int
  skewSe  : Nat
  newOff  : Int
  newGc   : Int
  newTrim : Int
deriving DecidableEq, Repr

/-- The end of a domain's power-up: its time and, for a wing's ADC domain, what the foreground measurement finds of
slice k of channel 12 w + i at index 17 i + k (R79, R87). -/
structure PowerUp where
  t  : Nat
  ms : List Meas := []
deriving DecidableEq, Repr

/-- One conversion of an ADC slice: the raw code, whether the slice's over-range detector fired (R80), and whether the
slice failed to complete it (R90). -/
structure Conv where
  code   : Int
  ovr    : Bool := false
  missed : Bool := false
deriving DecidableEq, Repr

/-- How one attempt at a transfer on a mount bus went (R104, R105, R113): acknowledged throughout, longest clock stretch
of a byte and longest acknowledge polling after a page write in us, presence dropped during it, and the bytes read. -/
structure MountTry where
  ack     : Bool
  stretch : Nat := 0
  poll    : Nat := 0
  gone    : Bool := false
  bytes   : List Byte := []
deriving DecidableEq, Repr

/-- What a producer hands to the merge point (R264, R440). -/
inductive RecSrc where
  /-- the oldest record waiting in the device (spectra, events, stamps, lacunae and the like) -/
  | queued
  /-- RAW samples of a channel or gang exhibit: first sample index at the stream's rate, and the conversions in
  sample order, which for a gang is gang-sample order (R94, R262) -/
  | raw (h start : Nat) (codes : List Conv)
  /-- an IQ stream: path (0 DDC, 1 fine, 2 coarse), first and count of its outputs, first index of the
  supplied input-rate conversions, and those conversions, which cover the outputs' history (R120 to R140) -/
  | iq (h path n0 count first : Nat) (codes : List Conv)
  /-- the oldest waiting record of one stream (R27) -/
  | ofStream (h stream : Nat)
  /-- a copy of the oldest waiting record made by the other placement, with its own epoch (R440) -/
  | copy (epoch : Nat)
deriving DecidableEq, Repr

/-- A hand-over to the merge point: what is written, and the rows that its writes activate (R264, R413). -/
structure Handover where
  src  : RecSrc
  rows : List (Nat × Nat) := []
deriving DecidableEq, Repr

/-- Eight beats of the 36 bit lanes of a pseudo-channel, and the rows that the read activates (R395, R413). -/
structure Burst where
  beats : List (BitVec 36)
  rows  : List (Nat × Nat) := []
deriving DecidableEq, Repr

/-- The level at a channel's input, in mV differential, for some fabric clocks (R112). -/
structure InputLevel where
  mv     : Nat
  clocks : Nat
deriving DecidableEq, Repr

/-- Result of a calibration window or of the TDC's background calibration (R387, R391): error and
standard error in 0.01 ppm, for HK_SELF also the offset's in 0.01 uV, and the temperature read. -/
structure CalResult where
  error  : Int
  stdErr : Nat
  offErr : Int
  offStd : Nat
  temp   : Int
deriving DecidableEq, Repr

/-- Codes of a calibration window's conversions (R383): HKA's two of REF_NODE, HKB's 18, and HKA's 16 of the target (for
HK_SELF eight of input 19, then eight of input 20), and the temperature of R391 in 0.01 C. -/
structure CalReading where
  refA   : List Int
  refB   : List Int
  target : List Int
  temp   : Int
deriving DecidableEq, Repr

/-- Delay steps that pass when a byte lane (0 to 3) or the check lane (4) of a pseudo-channel is trained, for reads or writes:
one mask of the 128 steps for each pin (R406). -/
structure LaneRun where
  lane  : Nat
  write : Bool
  pass  : List (BitVec 128)
deriving DecidableEq, Repr

/-- What the environment decides during start-up (R578, R580): for each attempt in turn 0 the image starts, 1 it does not
reach STATE 1 in time, 2 it fails its self-test; what training finds (stack, pseudo-channel, lane); physical
galleries whose signature differs; results of the windows HK_SELF, IREF and CMP_SCALE unit 4. -/
structure BootReport where
  attempts    : List Nat
  training    : List (Nat × Nat × LaneRun)
  failedGals  : List Nat
  cals        : List CalReading
deriving DecidableEq, Repr

/-- Answer to a host-memory read (R435): data, or an error kind 1 UR, 2 CA, 3 poisoned, 4 timeout,
5 translation with the bytes before the first failed beat and whether that was the last beat. -/
inductive HostRead where
  | data (bytes : List Byte)
  | fail (kind : Nat) (before : List Byte) (lastBeat : Bool)
deriving DecidableEq, Repr

/-- A codeword that a read of stack memory could not take as it stood (R279, R402): `key` the offset within a BAR4
read, or the Store; `pos` the record's position in its ring; where the word lies; corrected or not. -/
structure BadWord where
  key     : Nat
  pos     : Nat
  stack   : Nat
  pc      : Nat
  granule : Nat
  fixed   : Bool
deriving DecidableEq, Repr

/-- The commands and events of spec/opcode_table.json, in the table's order. -/
inductive Instr where
  -- mailbox commands (R493)
  | deviceInfo (r : Req)
  | eventRingSet (r : Req)
  | blockStage (r : Req)
  | blockRead (r : Req)
  | stageDiscard (r : Req)
  | commit (r : Req)
  | commitCancel (r : Req)
  | exhibitDefine (r : Req)
  | exhibitDelete (r : Req)
  | exhibitQuery (r : Req)
  | exhibitAssign (r : Req)
  | cadenceStatus (r : Req)
  | clockSyncArm (r : Req)
  | wingStatus (r : Req)
  | mountStatus (r : Req)
  | mountRead (r : Req)
  | mountRelease (r : Req)
  | decimationStatus (r : Req)
  | windowLoad (r : Req)
  | spectrumStatus (r : Req)
  | swardSnapshot (r : Req)
  | maskLoad (r : Req)
  | triggerArm (r : Req)
  | triggerForce (r : Req)
  | triggerStatus (r : Req)
  | attendantLoad (r : Req)
  | attendantStatus (r : Req)
  | storeStatus (r : Req)
  | storeRelease (r : Req)
  | storeLoad (r : Req)
  | conservatorLoad (r : Req)
  | conservatorParam (r : Req)
  | conservatorRead (r : Req)
  | conservatorStatus (r : Req)
  | comparatorClear (r : Req)
  | comparatorStatus (r : Req)
  | stimulusStatus (r : Req)
  | levelStatus (r : Req)
  | hkInject (r : Req)
  | calStart (r : Req)
  | calStatus (r : Req)
  | memoryStatus (r : Req)
  | courierAssign (r : Req)
  | courierResume (r : Req)
  | courierStatus (r : Req)
  | archiveStatus (r : Req)
  | collectionForm (r : Req)
  | collectionDissolve (r : Req)
  | collectionStatus (r : Req)
  | powerStatus (r : Req)
  | fallowEnter (r : Req)
  | healthLogRead (r : Req)
  | fwStage (r : Req)
  | fwVerify (r : Req)
  | fwActivate (r : Req)
  | fwStatus (r : Req)
  -- direct registers and windows
  /-- host write of `size` bytes of `v` at BAR0 offset `off` of function `fn` (R456 to R468) -/
  | registerWrite (fn off size : Nat) (v : BitVec 64) (t : Nat)
  /-- write of 0x0104; `again`: the device sets DOORBELL_LOST in the same cycle (R10, R460) -/
  | doorbellLostClear (fn : Nat) (v : Word) (again : Bool)
  /-- write of 0x0208; `set`: bits the device sets in the same cycle (R10, R461) -/
  | alertStatusClear (fn : Nat) (v set : Word)
  | eventConsumedWrite (fn : Nat) (v : Word) (t : Nat)
  /-- read of 0x030C; `same`: refusals counted in the same cycle (R10, R463) -/
  | refusalsRead (fn same : Nat)
  | doorbellTail (fn q : Nat) (v : Word)
  | doorbellAck (fn q : Nat) (v : Word)
  /-- read of BAR4; `bad`: its codewords with errors; `rows`: the (stack, row) activations it causes (R277 to
  R279, R413) -/
  | bar4Read (fn off len : Nat) (bad : List BadWord) (rows : List (Nat × Nat)) (t : Nat)
  | throttleEnd (stack requester : Nat)
  | refreshWindow (stack : Nat)
  -- cadence
  /-- a mark at the coasting or running cadence time `pos` (R55) -/
  | cadMark (pos : CT)
  | markMissing (turn : Nat)
  | refLost (t : Nat)
  /-- `phase` in 1/65,536 slot, signed (R59) -/
  | refReturned (t : Nat) (phase : Int)
  | slewEnd (t : Nat)
  | anchor
  /-- `diff`: difference of the two counts of the window (R69) -/
  | lockWindowEnd (pll diff t : Nat)
  | pllUnlock (pll t : Nat)
  | analysisResume (t : Nat)
  | syncIn (t : Nat)
  | syncAlign (t : Nat)
  -- scheduled actions reaching their sample
  | commitEffect (id : Nat)
  | latchClearAction (id : Nat)
  | swardSnapshotAction (id : Nat)
  | armAction (id : Nat)
  | forceAction (id : Nat)
  | scheduleConditionTime (h cond : Nat) (pos : CT)
  -- analysis
  | pendingFadeStart (h n : Nat)
  /-- frame `j` of the pipeline of `h`: first index of the supplied input-rate conversions, and those conversions,
  which cover the history of its N source samples (R147, R149) -/
  | fftFrame (h j first : Nat) (codes : List Conv)
  | triggerEvaluate (h i : Nat) (vs : List CondIn) (quality : Nat)
  | holdoffEnd (h i : Nat)
  -- Attendant instructions (R249) of the program of exhibit `h`
  | attendantNop (h : Nat)
  | attendantHalt (h : Nat)
  | attendantJmp (h a : Nat)
  | jct (h c a : Nat)
  | jcf (h c a : Nat)
  | jany (h m a : Nat)
  | jall (h m a : Nat)
  | jz (h k a : Nat)
  | jnz (h k a : Nat)
  | jlt (h k k2 a : Nat)
  | jto (h a : Nat)
  | jst (h st a : Nat)
  | waitc (h c mode tm : Nat) (te : Bool)
  | waitm (h m mode tm : Nat) (te : Bool)
  | waitt (h tm : Nat)
  | waitn (h n : Nat)
  /-- the waiting instruction ends at grid sample `q` (R240) -/
  | waitEnd (h q : Nat)
  | tset (h tm n : Nat)
  | tsetk (h tm k : Nat)
  | tclr (h tm : Nat)
  | ldk (h k imm : Nat)
  | addk (h k : Nat) (imm : BitVec 16)
  | ldml (h m : Nat) (imm : BitVec 16)
  | ldmh (h m : Nat) (imm : BitVec 16)
  | act (h m : Nat)
  | fire (h c : Nat)
  -- Conservator instructions (R319) of core slot `c` = 4 x position + slot
  | nop (c : Nat)
  | halt (c : Nat)
  | jmp (c cond a : Nat)
  | call (c cond a : Nat)
  | ret (c cond : Nat)
  | reti (c : Nat)
  | loop (c len count : Nat)
  | loopd (c len d : Nat)
  | ei (c : Nat)
  | di (c : Nat)
  | ld (c d : Nat) (mem : Bool) (p step : Nat)
  | st (c d : Nat) (mem : Bool) (p step : Nat)
  | ldi (c d : Nat) (half : Bool) (imm : BitVec 18)
  | mov (c dst src : Nat)
  | ldpg (c d w : Nat)
  | setr (c reg : Nat) (imm : BitVec 16)
  | modp (c p : Nat) (imm : BitVec 16)
  | addi (c d : Nat) (imm : BitVec 18)
  | logd (c d sr op : Nat)
  | mpy (c : Nat) (m : FmtM)
  | mac (c : Nat) (m : FmtM)
  | msu (c : Nat) (m : FmtM)
  | cmpy (c : Nat) (m : FmtM)
  | cmac (c : Nat) (m : FmtM)
  | cmsu (c : Nat) (m : FmtM)
  | qmpy (c : Nat) (m : FmtM)
  | qmac (c : Nat) (m : FmtM)
  | sta (c : Nat) (f : StaF)
  | csta (c : Nat) (f : StaF)
  | adda (c a b : Nat) (sub : Bool)
  | addd (c a d part : Nat) (sub : Bool)
  | sha (c a : Nat) (n : BitVec 6)
  | clra (c : Nat) (mask : BitVec 4)
  | cmpa (c a b : Nat) (zero : Bool)
  | maxa (c a b : Nat) (min : Bool)
  | inp (c d port : Nat)
  /-- a stalled IN completes after `clocks` further fabric clocks (R292) -/
  | inStallEnd (c clocks : Nat)
  | idx (c d port : Nat)
  | clrf (c : Nat) (mask : BitVec 2)
  /-- OUT d, REC_CTL whose word opens a record (R310) -/
  | recOpen (c d : Nat)
  | recData (c d : Nat)
  | recTime (c d : Nat)
  /-- OUT d, REC_CTL whose word closes the record (R311) -/
  | close (c d : Nat)
  | creditStallEnd (c clocks : Nat)
  /-- OUT d to STIM0 (port 0) or STIM1 (port 1) (R316) -/
  | outStim (c d port : Nat)
  | stimStallEnd (c clocks : Nat)
  | sig (c d : Nat)
  /-- handler entry after `clocks` fabric clocks in which the foreground was stalled (R305) -/
  | interruptEntry (c clocks : Nat)
  /-- an element of source index `n` becomes readable; `codes` are the input-rate conversions from index `first` on behind a
  KIND 1 to 3 element, and stand for nothing where the port takes a frame's bins (R307 to R309) -/
  | elementArrival (c port n first : Nat) (codes : List Conv)
  | pageSwap (c : Nat)
  -- outputs (13)
  /-- take `i` of the stimulus DAC: DAC samples of one word period are formed (R364) -/
  | stimulusTake (dac i : Nat)
  | playbackDone (dac t : Nat)
  | levelTick (dac n : Nat)
  -- wings (03)
  /-- step boundary `s` of a channel; what the measurement of the slice out of service found, with the
  wing temperature in 0.01 C (R82, R84) -/
  | gleanStep (ch s : Nat) (m : Meas) (temp : Int)
  | livenessFail (ch slice t : Nat)
  | rotationBoundary (ch t : Nat)
  /-- turn boundary at `t`: the wing's temperature in 0.01 C (R92) -/
  | driftCheck (ch t : Nat) (temp : Int)
  -- mounts (04)
  | mountPresence (pos : Nat) (present : Bool) (t : Nat)
  /-- the read of the whole record ends: how its attempts went, in turn (R105, R110) -/
  | mountReadDone (pos : Nat) (tries : List MountTry) (t : Nat)
  | mountCorrectionApply (pos t : Nat)
  /-- the input of a channel stands at a level for some fabric clocks from fs-sample `t` (R112) -/
  | overdrive (ch : Nat) (level : InputLevel) (t : Nat)
  /-- a write-back: how its attempts go, in turn (R105, R113) -/
  | writeBack (pos : Nat) (tries : List MountTry) (t : Nat)
  -- comparators and TDC (12)
  /-- the output of a comparator changes to `high` at `t`; `stamped` when the TDC stamped it (R332) -/
  | crossing (num : Nat) (high : Bool) (t : Nat) (stamped : Option Int)
  | armingEnd (num t : Nat)
  | latchClearBoundary (num : Nat) (pos : CT)
  | crossingsPeriodEnd (h stream : Nat) (pos : CT)
  /-- an edge on a TDC source: physical time in ps and position in 1/16 fine units after the source's
  calibrated delay (R342, R343) -/
  | tdcEdge (src : Nat) (rising : Bool) (ps : Nat) (e : Int)
  /-- a stamp of a source reaches a pairing unit (R347) -/
  | pair (unit src : Nat) (rising : Bool) (stamp : Int)
  | orderWindowExpiry (unit : Nat)
  /-- a FLUSH_SLOTS boundary of a STAMPS stream of `h` (unit none) or of a pairing unit (R345) -/
  | stampFlush (h stream : Nat) (unit : Option Nat) (pos : CT)
  -- housekeeping (14)
  /-- the running conversion of a converter ends at `t` with `code` (R382) -/
  | conversionEnd (conv t : Nat) (code : Int)
  | calWindowStart (t : Nat)
  | calWindowEnd (t : Nat) (r : CalReading)
  -- memory stacks (15)
  /-- the scrubber reads a codeword of a pseudo-channel: its burst, and the Store and ring position of the record that
  holds it, if one does (R273, R404) -/
  | scrubRead (stack pc : Nat) (burst : Burst) (holds : Option (Nat × Nat))
  | retrainStart (stack pc : Nat) (temp : Int)
  /-- retraining ends, with what it found on each lane (R406, R407) -/
  | retrainDone (stack pc : Nat) (runs : List LaneRun)
  | rebuildDone (stack pc : Nat)
  | relocationDone (stack : Nat)
  -- Stores (10)
  /-- a produced record passes the merge point (R264) -/
  | recordWrite (put : Handover)
  /-- a capture of an exhibit reaches a window Store: trigger sample `tr`, accession number (R269) -/
  | captureArrival (store tr acc : Nat)
  -- Couriers and archive (16)
  | descriptorFetch (q : Nat) (d : HostRead)
  | bufferHandBack (q : Nat) (rows : List (Nat × Nat)) (bad : List BadWord)
  | flushTimeout (q : Nat)
  | irqHoldoffExpiry (q : Nat)
  | loadReadCompletion (q : Nat) (d : HostRead)
  | drainTimeout (domain : Nat)
  | chunkWrite (rows : List (Nat × Nat)) (bad : List BadWord)
  | archiveFlushTimeout
  | writeCompletion (drive chunk : Nat) (status : Nat)
  | writeTimeout (drive chunk : Nat)
  /-- critical warning, percentage used, available spare, temperature, units written, media errors -/
  | smartRead (drive warn pct spare temp units media : Nat)
  -- resets
  | functionLevelReset (fn t : Nat)
  | hotReset (t : Nat)
  | linkRetrained (rate width : Nat)
  | perst (asserted : Bool) (t : Nat)
  -- collection (18)
  /-- a TRIGGER message in bus slot `v`; `ok`: sync and CRC of both words (R503 to R506) -/
  | triggerMessage (w0 w1 : BitVec 64) (v : Nat) (down ok : Bool)
  | messageTarget (i : Nat)
  /-- the head of the queue of class 0 trigger or 1 control goes out in owned bus slot `v` (R507) -/
  | messageSend (cls v : Nat)
  | prepare (w0 w1 : BitVec 64) (v t : Nat)
  | accept (w0 w1 : BitVec 64) (v : Nat)
  | refuse (w0 w1 : BitVec 64) (v : Nat)
  | go (w0 w1 : BitVec 64) (v : Nat)
  | abort (w0 w1 : BitVec 64) (v : Nat)
  | voteTimeout (id : Nat)
  | tentativeTimeout (id t : Nat)
  | stop (w0 w1 : BitVec 64) (v : Nat)
  | returnMessage (w0 w1 : BitVec 64) (v : Nat)
  /-- a PROBE of this device's neighbour is stamped as `a1` in link slot `s` (R513) -/
  | probe (s : Nat) (a1 : Int)
  /-- the ECHO to this device's PROBE of link slot `s` is stamped as `a3` (R513) -/
  | echo (w0 w1 : BitVec 64) (hop s : Nat) (a3 : Int)
  | align (w0 w1 : BitVec 64) (v : Nat)
  | laneLock (lane t : Nat)
  /-- `lost`: the devices that the loss of the lane makes unreachable (R514) -/
  | laneLoss (lane : Nat) (lost : List Nat) (t : Nat)
  -- power (19)
  | leaveStart (op unit : Nat) (up : PowerUp)
  | domainPowerDown (d t : Nat)
  | domainFault (d t : Nat)
  | domainResume (d : Nat) (up : PowerUp)
  | thermalTrip (sensor : Nat) (temp : Int) (t : Nat)
  -- faults and migration (20)
  | galleryFailure (p t : Nat)
  | warmupStart (pos t : Nat)
  | migrationSwitch (pos t : Nat)
  -- Curator and start-up (17, 20, 21)
  | lockstepMismatch (t : Nat)
  | watchdogExpiry (t : Nat)
  /-- a restart of `us` microseconds ends; `damaged`: the journal's staged part is lost (R483, R551) -/
  | curatorRestartDone (us : Nat) (damaged : Bool) (t : Nat)
  | activationTimeout (reason t : Nat)
  | heartbeat (t : Nat)
  /-- fallow exit: the stacks' temperature calls for training, and what it finds (stack, pseudo-channel, run; R406, R415,
  R542) -/
  | fallowWake (retrain : Bool) (runs : List (Nat × Nat × LaneRun))
  | suppliesGood (b : BootReport)
  | coldReset (straps : Nat) (strapPerst : Bool)
  | bootAttemptTimeout
  /-- an uncorrectable word (R403): place 0 link of wing `unit`, 1 buffers of physical gallery `unit` (0xFF:
  fabric, for the exhibit `key`), 2 Courier or Store write buffer that holds the oldest finished record of
  stream `key`, 3 playback Store `unit` at sample `key`, 4 control state -/
  | uncorrectableWord (place unit key t : Nat)
  /-- the TDC's background calibration: `pass`, and its result (R344, R391) -/
  | tdcCalibration (pass : Bool) (r : CalResult) (t : Nat)
  | trigOutPulseEnd (line fc : Nat)
  | linkL1Exit
  | linkL1Entry
  | supplyOutOfRange (sup : Nat)
  | boundaryScanInstruction (drives : Bool)
deriving DecidableEq, Repr

end Sys2Proof
end

