-- ==== Sys2Proof/Machine/AttendantCode.lean ====
section
/-! DEFINITION. The encoding of Attendant instructions (R249): one 32-bit word each, opcode in bits 31 to 26. -/
namespace Sys2Proof.Machine

/-- A field of an instruction word. -/
def fieldAt (lo v : Nat) : Nat := v * 2 ^ lo

/-- Word of opcode `op` with the given fields (R249). -/
def attWord (op : Nat) (fs : List (Nat × Nat)) : Nat := fs.foldl (fun w f => w + fieldAt f.1 f.2) (fieldAt 26 op)

/-- Fields in range: (value, width). -/
def fits (l : List (Nat × Nat)) : Bool := l.all fun f => decide (f.1 < 2 ^ f.2)

/-- The word of an Attendant instruction (R249); none for anything else or a field out of range. -/
def attEncode : Instr → Option Nat
  | .attendantNop _ => some (attWord 0x00 [])
  | .attendantHalt _ => some (attWord 0x01 [])
  | .attendantJmp _ a => if fits [(a, 8)] then some (attWord 0x02 [(0, a)]) else none
  | .jct _ c a => if fits [(c, 5), (a, 8)] then some (attWord 0x03 [(8, c), (0, a)]) else none
  | .jcf _ c a => if fits [(c, 5), (a, 8)] then some (attWord 0x04 [(8, c), (0, a)]) else none
  | .jany _ m a => if fits [(m, 2), (a, 8)] then some (attWord 0x05 [(8, m), (0, a)]) else none
  | .jall _ m a => if fits [(m, 2), (a, 8)] then some (attWord 0x06 [(8, m), (0, a)]) else none
  | .jz _ k a => if fits [(k, 4), (a, 8)] then some (attWord 0x07 [(8, k), (0, a)]) else none
  | .jnz _ k a => if fits [(k, 4), (a, 8)] then some (attWord 0x08 [(8, k), (0, a)]) else none
  | .jlt _ k k2 a => if fits [(k, 4), (k2, 4), (a, 8)] then some (attWord 0x09 [(12, k2), (8, k), (0, a)]) else none
  | .jto _ a => if fits [(a, 8)] then some (attWord 0x0A [(0, a)]) else none
  | .jst _ st a => if st < 3 && fits [(a, 8)] then some (attWord 0x0B [(8, st), (0, a)]) else none
  | .waitc _ c mode tm te =>
    if mode < 3 && fits [(c, 5), (tm, 3)] && (te || tm == 0) then
      some (attWord 0x10 [(19, b2n te), (16, tm), (13, mode), (8, c)]) else none
  | .waitm _ m mode tm te =>
    if mode < 3 && fits [(m, 2), (tm, 3)] && (te || tm == 0) then
      some (attWord 0x11 [(19, b2n te), (16, tm), (13, mode), (8, m)]) else none
  | .waitt _ tm => if fits [(tm, 3)] then some (attWord 0x12 [(16, tm)]) else none
  | .waitn _ n => if n != 0 && fits [(n, 16)] then some (attWord 0x13 [(0, n)]) else none
  | .tset _ tm n => if fits [(tm, 3), (n, 16)] then some (attWord 0x18 [(16, tm), (0, n)]) else none
  | .tsetk _ tm k => if fits [(tm, 3), (k, 4)] then some (attWord 0x19 [(16, tm), (8, k)]) else none
  | .tclr _ tm => if fits [(tm, 3)] then some (attWord 0x1A [(16, tm)]) else none
  | .ldk _ k imm => if fits [(k, 4), (imm, 20)] then some (attWord 0x1C [(20, k), (0, imm)]) else none
  | .addk _ k imm => if fits [(k, 4)] then some (attWord 0x1D [(20, k), (0, imm.toNat)]) else none
  | .ldml _ m imm => if fits [(m, 2)] then some (attWord 0x1E [(20, m), (0, imm.toNat)]) else none
  | .ldmh _ m imm => if fits [(m, 2)] then some (attWord 0x1F [(20, m), (0, imm.toNat)]) else none
  | .act _ m => if fits [(m, 2)] then some (attWord 0x20 [(8, m)]) else none
  | .fire _ c => if fits [(c, 5)] then some (attWord 0x30 [(8, c)]) else none
  | _ => none

/-- The instruction that a word of opcode `op` would be, before reserved bits are looked at (R249). -/
def attFields (h w : Nat) : Option Instr :=
  let a := bitsOf w 0 8
  let c := bitsOf w 8 5
  let m := bitsOf w 8 2
  let k := bitsOf w 8 4
  let tm := bitsOf w 16 3
  let mode := bitsOf w 13 2
  let te := w.testBit 19
  let n := bitsOf w 0 16
  match bitsOf w 26 6 with
  | 0x00 => some (.attendantNop h)
  | 0x01 => some (.attendantHalt h)
  | 0x02 => some (.attendantJmp h a)
  | 0x03 => some (.jct h c a)
  | 0x04 => some (.jcf h c a)
  | 0x05 => some (.jany h m a)
  | 0x06 => some (.jall h m a)
  | 0x07 => some (.jz h k a)
  | 0x08 => some (.jnz h k a)
  | 0x09 => some (.jlt h k (bitsOf w 12 4) a)
  | 0x0A => some (.jto h a)
  | 0x0B => some (.jst h m a)
  | 0x10 => some (.waitc h c mode tm te)
  | 0x11 => some (.waitm h m mode tm te)
  | 0x12 => some (.waitt h tm)
  | 0x13 => some (.waitn h n)
  | 0x18 => some (.tset h tm n)
  | 0x19 => some (.tsetk h tm k)
  | 0x1A => some (.tclr h tm)
  | 0x1C => some (.ldk h (bitsOf w 20 4) (bitsOf w 0 20))
  | 0x1D => some (.addk h (bitsOf w 20 4) (BitVec.ofNat 16 n))
  | 0x1E => some (.ldml h (bitsOf w 20 2) (BitVec.ofNat 16 n))
  | 0x1F => some (.ldmh h (bitsOf w 20 2) (BitVec.ofNat 16 n))
  | 0x20 => some (.act h m)
  | 0x30 => some (.fire h c)
  | _ => none

/-- The Attendant instruction of a word; none for a reserved opcode, field value or bit (R249, R250). -/
def attDecode (h w : Nat) : Option Instr :=
  match attFields h w with
  | some i => if attEncode i = some w then some i else none
  | none => none

/-- Jump target of an instruction. -/
def attTarget : Instr → Option Nat
  | .attendantJmp _ a => some a
  | .jct _ _ a => some a
  | .jcf _ _ a => some a
  | .jany _ _ a => some a
  | .jall _ _ a => some a
  | .jz _ _ a => some a
  | .jnz _ _ a => some a
  | .jlt _ _ _ a => some a
  | .jto _ a => some a
  | .jst _ _ a => some a
  | _ => none

/-- Counters and timers that an instruction names (R250). -/
def attUses : Instr → List Nat × List Nat
  | .jz _ k _ => ([k], [])
  | .jnz _ k _ => ([k], [])
  | .jlt _ k k2 _ => ([k, k2], [])
  | .waitc _ _ _ tm te => ([], if te then [tm] else [])
  | .waitm _ _ _ tm te => ([], if te then [tm] else [])
  | .waitt _ tm => ([], [tm])
  | .tset _ tm _ => ([], [tm])
  | .tsetk _ tm k => ([k], [tm])
  | .tclr _ tm => ([], [tm])
  | .ldk _ k _ => ([k], [])
  | .addk _ k _ => ([k], [])
  | _ => ([], [])

/-- The last word of a program is JMP or HALT (R250). -/
def attEnds : Instr → Bool
  | .attendantJmp _ _ => true
  | .attendantHalt _ => true
  | _ => false

/-- The checks of R250 on a program of LENGTH words. -/
def programOk (words : List Nat) (counters timers : Nat) : Bool :=
  let is := words.map (attDecode 0)
  (is.all fun o => match o with
    | none => false
    | some i =>
      (match attTarget i with | some a => decide (a < words.length) | none => true) &&
        (attUses i).1.all (fun k => decide (k < counters)) && (attUses i).2.all fun t => decide (t < timers)) &&
    match is.getLast? with | some (some i) => attEnds i | _ => false

end Sys2Proof.Machine
end

