-- ==== Sys2Proof/Machine/ConservatorCode.lean ====
section
/-! DEFINITION. The Conservator's instruction words (11): the encoder and decoder of R319, and the checks of
R303 and R321 on a program. -/
namespace Sys2Proof.Machine

/-- A flag as a field. -/
def bf (lo : Nat) (b : Bool) : Nat × Nat := (lo, b2n b)

/-- Fields of a format M word (R319). -/
def fmtM (m : FmtM) : List (Nat × Nat) :=
  [(24, m.a), (22, m.xp), bf 21 m.xs, (19, m.yp), bf 18 m.ys, bf 17 m.xh, bf 16 m.yh, bf 15 m.xsrc, (12, m.xd),
   bf 11 m.ysrc, (8, m.yd), bf 7 m.conj]

/-- Widths of the numeric fields of format M. -/
def fmtMFits (m : FmtM) : List (Nat × Nat) := [(m.a, 2), (m.xp, 2), (m.yp, 2), (m.xd, 3), (m.yd, 3)]

/-- Fields of STA and CSTA (R319). -/
def staFields (f : StaF) : List (Nat × Nat) :=
  [(24, f.a), bf 23 f.dst, bf 22 f.mem, (19, f.p), (17, f.step), bf 16 f.width, bf 15 f.half, (10, f.s)]

/-- Widths of the numeric fields of STA. -/
def staFits (f : StaF) : List (Nat × Nat) := [(f.a, 2), (f.p, 3), (f.step, 2), (f.s, 5)]

/-- Opcode, fields, and the widths that its operands must fit, of a Conservator instruction (R319). An OUT to
REC_CTL opens or closes by the data it carries (R310). -/
def consParts : Instr → Option (Nat × List (Nat × Nat) × List (Nat × Nat))
  | .nop _ => some (0x00, [], [])
  | .halt _ => some (0x01, [], [])
  | .jmp _ cd a => some (0x02, [(14, cd), (0, a)], [(cd, 3), (a, 14)])
  | .call _ cd a => some (0x03, [(14, cd), (0, a)], [(cd, 3), (a, 14)])
  | .ret _ cd => some (0x04, [(14, cd)], [(cd, 3)])
  | .reti _ => some (0x05, [], [])
  | .loop _ len n => some (0x06, [(16, len), (0, n)], [(len, 4), (n, 16)])
  | .loopd _ len d => some (0x07, [(16, len), (0, d)], [(len, 4), (d, 3)])
  | .ei _ => some (0x08, [], [])
  | .di _ => some (0x09, [], [])
  | .ld _ d m p k => some (0x10, [(23, d), bf 22 m, (19, p), (17, k)], [(d, 3), (p, 3), (k, 2)])
  | .st _ d m p k => some (0x11, [(23, d), bf 22 m, (19, p), (17, k)], [(d, 3), (p, 3), (k, 2)])
  | .ldi _ d h imm => some (0x12, [(23, d), bf 22 h, (0, imm.toNat)], [(d, 3)])
  | .mov _ dst src => some (0x13, [(6, dst), (0, src)], [(dst, 6), (src, 6)])
  | .ldpg _ d w => some (0x14, [(23, d), (0, w)], [(d, 3), (w, 8)])
  | .setr _ r imm => some (0x15, [(16, r), (0, imm.toNat)], [(r, 6)])
  | .modp _ p imm => some (0x16, [(19, p), (0, imm.toNat)], [(p, 3)])
  | .addi _ d imm => some (0x17, [(23, d), (0, imm.toNat)], [(d, 3)])
  | .logd _ d r op => some (0x18, [(23, d), (20, r), (18, op)], [(d, 3), (r, 3), (op, 2)])
  | .mpy _ m => some (0x20, fmtM m, fmtMFits m)
  | .mac _ m => some (0x21, fmtM m, fmtMFits m)
  | .msu _ m => some (0x22, fmtM m, fmtMFits m)
  | .cmpy _ m => some (0x23, fmtM m, fmtMFits m)
  | .cmac _ m => some (0x24, fmtM m, fmtMFits m)
  | .cmsu _ m => some (0x25, fmtM m, fmtMFits m)
  | .qmpy _ m => some (0x26, fmtM m, fmtMFits m)
  | .qmac _ m => some (0x27, fmtM m, fmtMFits m)
  | .sta _ f => some (0x28, staFields f, staFits f)
  | .csta _ f => some (0x29, staFields f, staFits f)
  | .adda _ a b sub => some (0x2A, [(24, a), (22, b), bf 21 sub], [(a, 2), (b, 2)])
  | .addd _ a d part sub => some (0x2B, [(24, a), (21, d), (19, part), bf 18 sub], [(a, 2), (d, 3), (part, 2)])
  | .sha _ a n => some (0x2C, [(24, a), (0, n.toNat)], [(a, 2)])
  | .clra _ m => some (0x2D, [(0, m.toNat)], [])
  | .cmpa _ a b z => some (0x2E, [(24, a), (22, b), bf 21 z], [(a, 2), (b, 2)])
  | .maxa _ a b m => some (0x2F, [(24, a), (22, b), bf 21 m], [(a, 2), (b, 2)])
  | .inp _ d p => some (0x38, [(23, d), (20, p)], [(d, 3), (p, 3)])
  | .recData _ d => some (0x39, [(23, d), (20, 0)], [(d, 3)])
  | .recOpen _ d => some (0x39, [(23, d), (20, 1)], [(d, 3)])
  | .close _ d => some (0x39, [(23, d), (20, 1)], [(d, 3)])
  | .recTime _ d => some (0x39, [(23, d), (20, 2)], [(d, 3)])
  | .outStim _ d p => some (0x39, [(23, d), (20, 3 + p)], [(d, 3), (p, 1)])
  | .sig _ d => some (0x39, [(23, d), (20, 5)], [(d, 3)])
  | .idx _ d p => some (0x3A, [(23, d), (20, p)], [(d, 3), (p, 3)])
  | .clrf _ m => some (0x3C, [(0, m.toNat)], [])
  | _ => none

/-- The word of a Conservator instruction; none for anything else or a field out of range (R319). -/
def consEncode (i : Instr) : Option Nat :=
  match consParts i with
  | some (op, fs, ws) => if fits ws then some (attWord op fs) else none
  | none => none

/-- The format M fields of a word. -/
def wordM (w : Nat) : FmtM :=
  { a := bitsOf w 24 2, xp := bitsOf w 22 2, xs := w.testBit 21, yp := bitsOf w 19 2, ys := w.testBit 18,
    xh := w.testBit 17, yh := w.testBit 16, xsrc := w.testBit 15, xd := bitsOf w 12 3, ysrc := w.testBit 11,
    yd := bitsOf w 8 3, conj := w.testBit 7 }

/-- The STA fields of a word. -/
def wordSta (w : Nat) : StaF :=
  { a := bitsOf w 24 2, dst := w.testBit 23, mem := w.testBit 22, p := bitsOf w 19 3, step := bitsOf w 17 2,
    width := w.testBit 16, half := w.testBit 15, s := bitsOf w 10 5 }

/-- The instruction that a word of core slot `c` would be, before reserved bits are looked at (R319); an OUT to
REC_CTL reads as its opening form. -/
def consFields (c w : Nat) : Option Instr :=
  match bitsOf w 26 6 with
  | 0x00 => some (.nop c)
  | 0x01 => some (.halt c)
  | 0x02 => some (.jmp c (bitsOf w 14 3) (bitsOf w 0 14))
  | 0x03 => some (.call c (bitsOf w 14 3) (bitsOf w 0 14))
  | 0x04 => some (.ret c (bitsOf w 14 3))
  | 0x05 => some (.reti c)
  | 0x06 => some (.loop c (bitsOf w 16 4) (bitsOf w 0 16))
  | 0x07 => some (.loopd c (bitsOf w 16 4) (bitsOf w 0 3))
  | 0x08 => some (.ei c)
  | 0x09 => some (.di c)
  | 0x10 => some (.ld c (bitsOf w 23 3) (w.testBit 22) (bitsOf w 19 3) (bitsOf w 17 2))
  | 0x11 => some (.st c (bitsOf w 23 3) (w.testBit 22) (bitsOf w 19 3) (bitsOf w 17 2))
  | 0x12 => some (.ldi c (bitsOf w 23 3) (w.testBit 22) (BitVec.ofNat 18 w))
  | 0x13 => some (.mov c (bitsOf w 6 6) (bitsOf w 0 6))
  | 0x14 => some (.ldpg c (bitsOf w 23 3) (bitsOf w 0 8))
  | 0x15 => some (.setr c (bitsOf w 16 6) (BitVec.ofNat 16 w))
  | 0x16 => some (.modp c (bitsOf w 19 3) (BitVec.ofNat 16 w))
  | 0x17 => some (.addi c (bitsOf w 23 3) (BitVec.ofNat 18 w))
  | 0x18 => some (.logd c (bitsOf w 23 3) (bitsOf w 20 3) (bitsOf w 18 2))
  | 0x20 => some (.mpy c (wordM w))
  | 0x21 => some (.mac c (wordM w))
  | 0x22 => some (.msu c (wordM w))
  | 0x23 => some (.cmpy c (wordM w))
  | 0x24 => some (.cmac c (wordM w))
  | 0x25 => some (.cmsu c (wordM w))
  | 0x26 => some (.qmpy c (wordM w))
  | 0x27 => some (.qmac c (wordM w))
  | 0x28 => some (.sta c (wordSta w))
  | 0x29 => some (.csta c (wordSta w))
  | 0x2A => some (.adda c (bitsOf w 24 2) (bitsOf w 22 2) (w.testBit 21))
  | 0x2B => some (.addd c (bitsOf w 24 2) (bitsOf w 21 3) (bitsOf w 19 2) (w.testBit 18))
  | 0x2C => some (.sha c (bitsOf w 24 2) (BitVec.ofNat 6 w))
  | 0x2D => some (.clra c (BitVec.ofNat 4 w))
  | 0x2E => some (.cmpa c (bitsOf w 24 2) (bitsOf w 22 2) (w.testBit 21))
  | 0x2F => some (.maxa c (bitsOf w 24 2) (bitsOf w 22 2) (w.testBit 21))
  | 0x38 => some (.inp c (bitsOf w 23 3) (bitsOf w 20 3))
  | 0x39 =>
    match bitsOf w 20 3 with
    | 0 => some (.recData c (bitsOf w 23 3))
    | 1 => some (.recOpen c (bitsOf w 23 3))
    | 2 => some (.recTime c (bitsOf w 23 3))
    | 3 => some (.outStim c (bitsOf w 23 3) 0)
    | 4 => some (.outStim c (bitsOf w 23 3) 1)
    | 5 => some (.sig c (bitsOf w 23 3))
    | _ => none
  | 0x3A => some (.idx c (bitsOf w 23 3) (bitsOf w 20 3))
  | 0x3C => some (.clrf c (BitVec.ofNat 2 w))
  | _ => none

/-- The Conservator instruction of a word; none for a reserved opcode, a non-zero reserved bit, or an OUT to
port 6 or 7 (R319, R321). -/
def consDecode (c w : Nat) : Option Instr :=
  match consFields c w with
  | some i => if consEncode i = some w then some i else none
  | none => none

/-- Complex and CSTA instructions take an even accumulator (R321). -/
def consEven : Instr → Bool
  | .cmpy _ m => m.a % 2 == 0
  | .cmac _ m => m.a % 2 == 0
  | .cmsu _ m => m.a % 2 == 0
  | .csta _ f => f.a % 2 == 0
  | _ => true

/-- Body length less one of a LOOP or LOOPD. -/
def consLoop : Instr → Option Nat
  | .loop _ len _ => some len
  | .loopd _ len _ => some len
  | _ => none

/-- Instructions that a loop body must not hold (R303). -/
def consNoLoop : Instr → Bool
  | .jmp _ _ _ => true
  | .call _ _ _ => true
  | .ret _ _ => true
  | .reti _ => true
  | .halt _ => true
  | _ => false

/-- One word of a program at address `a` passes R303 and R321; `word` reads the program. -/
def consWordOk (word : Nat → Nat) (a : Nat) : Bool :=
  match consDecode 0 (word a) with
  | none => false
  | some i =>
    consEven i &&
      match consLoop i with
      | none => true
      | some len =>
        decide (a + 1 + len ≤ 16383) && (List.range (len + 1)).all fun k =>
          match consDecode 0 (word (a + 1 + k)) with
          | none => false
          | some j => !consNoLoop j && (match consLoop j with | some l => decide (k + 1 + l ≤ len) | none => true)

end Sys2Proof.Machine
end

