-- ==== Sys2Proof/WellFormed.lean ====
section
/-! DEFINITION. Which terms of `Instr` are commands or events of the OTM-48: units, registers and fields in the ranges
that spec/ gives. The meanings are total on every term. -/
namespace Sys2Proof

/-- A cadence time: 48-bit TURN, 16-bit SLOT and PHASE (R5). -/
def CT.wf (t : CT) : Bool := t.turn < 2 ^ 48 && t.slot < 65536 && t.phase < 65536

/-- A request (R17, R465, R466): functions 0 to 15, a 32-bit SEQ and LENGTH, 64-bit addresses, LENGTH parameter bytes
where the host's memory answers. -/
def Req.wf (r : Req) : Bool :=
  r.fn < 16 && r.seq < 2 ^ 32 && r.len < 2 ^ 32 && r.paramAddr < 2 ^ 64 && r.respAddr < 2 ^ 64 &&
    (r.params.length == r.len || !r.memOk || decide (1052672 < r.len) || decide (r.paramAddr = 0 ∧ 2016 < r.len))

/-- A codeword in a stack (R394, R402). -/
def BadWord.wf (w : BadWord) : Bool := w.stack < 2 && w.pc < 32

/-- A row activation names one of the two stacks (R394, R413). -/
def rowWf (r : Nat × Nat) : Bool := r.1 < 2

/-- A read of a mount record has 512 bytes (R106). -/
def MountTry.wf (x : MountTry) : Bool := x.bytes.length ≤ 512

/-- A conversion is a 12-bit code (R79). -/
def Conv.wf (c : Conv) : Bool := -2048 ≤ c.code && c.code < 2048

/-- A trained lane has a mask for each of its pins (R394, R406). -/
def LaneRun.wf (r : LaneRun) : Bool := r.lane < 5 && r.pass.length == (if r.lane < 4 then 8 else 4)

/-- What a producer hands over: handles of 16 bits, paths 0 to 2, 12-bit codes (R17, R79, R119). -/
def RecSrc.wf : RecSrc → Bool
  | .queued => true
  | .raw h _ codes => h < 65536 && codes.all Conv.wf
  | .iq h path _ _ _ codes => h < 65536 && path < 3 && codes.all Conv.wf
  | .ofStream h stream => h < 65536 && stream < 255
  | .copy _ => true

open Sys2Proof.Machine in
/-- The term is a command or event of the block. -/
def wellFormed : Instr → Bool
  | .deviceInfo r => r.wf
  | .eventRingSet r => r.wf
  | .blockStage r => r.wf
  | .blockRead r => r.wf
  | .stageDiscard r => r.wf
  | .commit r => r.wf
  | .commitCancel r => r.wf
  | .exhibitDefine r => r.wf
  | .exhibitDelete r => r.wf
  | .exhibitQuery r => r.wf
  | .exhibitAssign r => r.wf
  | .cadenceStatus r => r.wf
  | .clockSyncArm r => r.wf
  | .wingStatus r => r.wf
  | .mountStatus r => r.wf
  | .mountRead r => r.wf
  | .mountRelease r => r.wf
  | .decimationStatus r => r.wf
  | .windowLoad r => r.wf
  | .spectrumStatus r => r.wf
  | .swardSnapshot r => r.wf
  | .maskLoad r => r.wf
  | .triggerArm r => r.wf
  | .triggerForce r => r.wf
  | .triggerStatus r => r.wf
  | .attendantLoad r => r.wf
  | .attendantStatus r => r.wf
  | .storeStatus r => r.wf
  | .storeRelease r => r.wf
  | .storeLoad r => r.wf
  | .conservatorLoad r => r.wf
  | .conservatorParam r => r.wf
  | .conservatorRead r => r.wf
  | .conservatorStatus r => r.wf
  | .comparatorClear r => r.wf
  | .comparatorStatus r => r.wf
  | .stimulusStatus r => r.wf
  | .levelStatus r => r.wf
  | .hkInject r => r.wf
  | .calStart r => r.wf
  | .calStatus r => r.wf
  | .memoryStatus r => r.wf
  | .courierAssign r => r.wf
  | .courierResume r => r.wf
  | .courierStatus r => r.wf
  | .archiveStatus r => r.wf
  | .collectionForm r => r.wf
  | .collectionDissolve r => r.wf
  | .collectionStatus r => r.wf
  | .powerStatus r => r.wf
  | .fallowEnter r => r.wf
  | .healthLogRead r => r.wf
  | .fwStage r => r.wf
  | .fwVerify r => r.wf
  | .fwActivate r => r.wf
  | .fwStatus r => r.wf
  | .registerWrite fn off size _ _ => fn < 16 && [1, 2, 4, 8].contains size && off + size ≤ if fn = 0 then 2 ^ 20 else 2 ^ 16
  | .doorbellLostClear fn _ _ => fn < 16
  | .alertStatusClear fn _ _ => fn < 16
  | .eventConsumedWrite fn _ _ => fn < 16
  | .refusalsRead fn _ => fn < 16
  | .doorbellTail fn q _ => fn < 16 && q < 64
  | .doorbellAck fn q _ => fn < 16 && q < 64
  | .bar4Read fn _ _ bad rows _ => fn < 16 && bad.all (·.wf) && rows.all rowWf
  | .throttleEnd stack requester => stack < 2 && requester < 256
  | .refreshWindow stack => stack < 2
  | .cadMark pos => pos.wf
  | .markMissing turn => turn < 2 ^ 48
  | .refLost _ => true
  | .refReturned _ phase => -32768 ≤ phase && phase < 32768
  | .slewEnd _ => true
  | .anchor => true
  | .lockWindowEnd pll _ _ => pll < 5
  | .pllUnlock pll _ => pll < 5
  | .analysisResume _ => true
  | .syncIn _ => true
  | .syncAlign _ => true
  | .commitEffect _ => true
  | .latchClearAction _ => true
  | .swardSnapshotAction _ => true
  | .armAction _ => true
  | .forceAction _ => true
  | .scheduleConditionTime h cond pos => h < 65536 && cond < 32 && pos.wf
  | .pendingFadeStart h _ => h < 65536
  | .fftFrame h _ _ codes => h < 65536 && codes.all Conv.wf
  | .triggerEvaluate h _ vs _ => h < 65536 && vs.all fun v => v.cond < 32
  | .holdoffEnd h _ => h < 65536
  | .attendantNop h => h < 65536 && (attEncode (.attendantNop h)).isSome
  | .attendantHalt h => h < 65536 && (attEncode (.attendantHalt h)).isSome
  | .attendantJmp h a => h < 65536 && (attEncode (.attendantJmp h a)).isSome
  | .jct h c a => h < 65536 && (attEncode (.jct h c a)).isSome
  | .jcf h c a => h < 65536 && (attEncode (.jcf h c a)).isSome
  | .jany h m a => h < 65536 && (attEncode (.jany h m a)).isSome
  | .jall h m a => h < 65536 && (attEncode (.jall h m a)).isSome
  | .jz h k a => h < 65536 && (attEncode (.jz h k a)).isSome
  | .jnz h k a => h < 65536 && (attEncode (.jnz h k a)).isSome
  | .jlt h k k2 a => h < 65536 && (attEncode (.jlt h k k2 a)).isSome
  | .jto h a => h < 65536 && (attEncode (.jto h a)).isSome
  | .jst h st a => h < 65536 && (attEncode (.jst h st a)).isSome
  | .waitc h c mode tm te => h < 65536 && (attEncode (.waitc h c mode tm te)).isSome
  | .waitm h m mode tm te => h < 65536 && (attEncode (.waitm h m mode tm te)).isSome
  | .waitt h tm => h < 65536 && (attEncode (.waitt h tm)).isSome
  | .waitn h n => h < 65536 && (attEncode (.waitn h n)).isSome
  | .waitEnd h _ => h < 65536
  | .tset h tm n => h < 65536 && (attEncode (.tset h tm n)).isSome
  | .tsetk h tm k => h < 65536 && (attEncode (.tsetk h tm k)).isSome
  | .tclr h tm => h < 65536 && (attEncode (.tclr h tm)).isSome
  | .ldk h k imm => h < 65536 && (attEncode (.ldk h k imm)).isSome
  | .addk h k imm => h < 65536 && (attEncode (.addk h k imm)).isSome
  | .ldml h m imm => h < 65536 && (attEncode (.ldml h m imm)).isSome
  | .ldmh h m imm => h < 65536 && (attEncode (.ldmh h m imm)).isSome
  | .act h m => h < 65536 && (attEncode (.act h m)).isSome
  | .fire h c => h < 65536 && (attEncode (.fire h c)).isSome
  | .nop c => c < 32 && (consEncode (.nop c)).isSome
  | .halt c => c < 32 && (consEncode (.halt c)).isSome
  | .jmp c cond a => c < 32 && (consEncode (.jmp c cond a)).isSome
  | .call c cond a => c < 32 && (consEncode (.call c cond a)).isSome
  | .ret c cond => c < 32 && (consEncode (.ret c cond)).isSome
  | .reti c => c < 32 && (consEncode (.reti c)).isSome
  | .loop c len count => c < 32 && (consEncode (.loop c len count)).isSome
  | .loopd c len d => c < 32 && (consEncode (.loopd c len d)).isSome
  | .ei c => c < 32 && (consEncode (.ei c)).isSome
  | .di c => c < 32 && (consEncode (.di c)).isSome
  | .ld c d mem p step => c < 32 && (consEncode (.ld c d mem p step)).isSome
  | .st c d mem p step => c < 32 && (consEncode (.st c d mem p step)).isSome
  | .ldi c d half imm => c < 32 && (consEncode (.ldi c d half imm)).isSome
  | .mov c dst src => c < 32 && (consEncode (.mov c dst src)).isSome
  | .ldpg c d w => c < 32 && (consEncode (.ldpg c d w)).isSome
  | .setr c reg imm => c < 32 && (consEncode (.setr c reg imm)).isSome
  | .modp c p imm => c < 32 && (consEncode (.modp c p imm)).isSome
  | .addi c d imm => c < 32 && (consEncode (.addi c d imm)).isSome
  | .logd c d sr op => c < 32 && (consEncode (.logd c d sr op)).isSome
  | .mpy c m => c < 32 && (consEncode (.mpy c m)).isSome
  | .mac c m => c < 32 && (consEncode (.mac c m)).isSome
  | .msu c m => c < 32 && (consEncode (.msu c m)).isSome
  | .cmpy c m => c < 32 && (consEncode (.cmpy c m)).isSome
  | .cmac c m => c < 32 && (consEncode (.cmac c m)).isSome
  | .cmsu c m => c < 32 && (consEncode (.cmsu c m)).isSome
  | .qmpy c m => c < 32 && (consEncode (.qmpy c m)).isSome
  | .qmac c m => c < 32 && (consEncode (.qmac c m)).isSome
  | .sta c f => c < 32 && (consEncode (.sta c f)).isSome
  | .csta c f => c < 32 && (consEncode (.csta c f)).isSome
  | .adda c a b sub => c < 32 && (consEncode (.adda c a b sub)).isSome
  | .addd c a d part sub => c < 32 && (consEncode (.addd c a d part sub)).isSome
  | .sha c a n => c < 32 && (consEncode (.sha c a n)).isSome
  | .clra c mask => c < 32 && (consEncode (.clra c mask)).isSome
  | .cmpa c a b zero => c < 32 && (consEncode (.cmpa c a b zero)).isSome
  | .maxa c a b min => c < 32 && (consEncode (.maxa c a b min)).isSome
  | .inp c d port => c < 32 && (consEncode (.inp c d port)).isSome
  | .inStallEnd c _ => c < 32
  | .idx c d port => c < 32 && (consEncode (.idx c d port)).isSome
  | .clrf c mask => c < 32 && (consEncode (.clrf c mask)).isSome
  | .recOpen c d => c < 32 && (consEncode (.recOpen c d)).isSome
  | .recData c d => c < 32 && (consEncode (.recData c d)).isSome
  | .recTime c d => c < 32 && (consEncode (.recTime c d)).isSome
  | .close c d => c < 32 && (consEncode (.close c d)).isSome
  | .creditStallEnd c _ => c < 32
  | .outStim c d port => c < 32 && (consEncode (.outStim c d port)).isSome
  | .stimStallEnd c _ => c < 32
  | .sig c d => c < 32 && (consEncode (.sig c d)).isSome
  | .interruptEntry c _ => c < 32
  | .elementArrival c port _ _ codes => c < 32 && port < 8 && codes.all Conv.wf
  | .pageSwap c => c < 32
  | .stimulusTake dac _ => dac < 8
  | .playbackDone dac _ => dac < 8
  | .levelTick dac _ => dac < 16
  | .gleanStep ch _ _ _ => ch < 48
  | .livenessFail ch slice _ => ch < 48 && slice < 17
  | .rotationBoundary ch _ => ch < 48
  | .driftCheck ch _ _ => ch < 48
  | .mountPresence pos _ _ => pos < 12
  | .mountReadDone pos tries _ => pos < 12 && tries.all MountTry.wf
  | .mountCorrectionApply pos _ => pos < 12
  | .overdrive ch _ _ => ch < 48
  | .writeBack pos _ _ => pos < 12
  | .crossing num _ _ _ => num < 64
  | .armingEnd num _ => num < 64
  | .latchClearBoundary num pos => num < 64 && pos.wf
  | .crossingsPeriodEnd h stream pos => h < 65536 && stream < 255 && pos.wf
  | .tdcEdge src _ _ _ => src < 93
  | .pair unit src _ _ => unit < 16 && src < 93
  | .orderWindowExpiry unit => unit < 16
  | .stampFlush h stream unit pos => h < 65536 && stream < 255 && pos.wf && (unit.all fun u => u < 16)
  | .conversionEnd conv _ _ => conv < 2
  | .calWindowStart _ => true
  | .calWindowEnd _ r => r.refA.length == 2 && r.refB.length == 18 && r.target.length == 16
  | .scrubRead stack pc burst _ => stack < 2 && pc < 32 && burst.beats.length == 8 && burst.rows.all rowWf
  | .retrainStart stack pc _ => stack < 2 && pc < 32
  | .retrainDone stack pc runs => stack < 2 && pc < 32 && runs.all LaneRun.wf
  | .rebuildDone stack pc => stack < 2 && pc < 32
  | .relocationDone stack => stack < 2
  | .recordWrite put => put.src.wf && put.rows.all rowWf
  | .captureArrival store _ _ => store < 1024
  | .descriptorFetch q _ => q < 64
  | .bufferHandBack q rows bad => q < 64 && rows.all rowWf && bad.all (·.wf)
  | .flushTimeout q => q < 64
  | .irqHoldoffExpiry q => q < 64
  | .loadReadCompletion q _ => q < 64
  | .drainTimeout domain => domain < 31
  | .chunkWrite rows bad => rows.all rowWf && bad.all (·.wf)
  | .archiveFlushTimeout => true
  | .writeCompletion drive _ _ => drive < 32
  | .writeTimeout drive _ => drive < 32
  | .smartRead drive warn pct spare _ _ _ => drive < 32 && warn < 256 && pct < 256 && spare < 256
  | .functionLevelReset fn _ => fn < 16
  | .hotReset _ => true
  | .linkRetrained _ width => [1, 2, 4, 8, 16].contains width
  | .perst _ _ => true
  | .triggerMessage _ _ _ _ _ => true
  | .messageTarget _ => true
  | .messageSend cls _ => cls < 2
  | .prepare _ _ _ _ => true
  | .accept _ _ _ => true
  | .refuse _ _ _ => true
  | .go _ _ _ => true
  | .abort _ _ _ => true
  | .voteTimeout _ => true
  | .tentativeTimeout _ _ => true
  | .stop _ _ _ => true
  | .returnMessage _ _ _ => true
  | .probe _ _ => true
  | .echo _ _ hop _ _ => hop < 4
  | .align _ _ _ => true
  | .laneLock lane _ => lane < 4
  | .laneLoss lane lost _ => lane < 4 && lost.all fun d => d < 16
  | .leaveStart op _ _ => op < 16
  | .domainPowerDown d _ => d < 31
  | .domainFault d _ => d < 31
  | .domainResume d _ => d < 31
  | .thermalTrip _ _ _ => true
  | .galleryFailure p _ => p < 9
  | .warmupStart pos _ => pos < 8
  | .migrationSwitch pos _ => pos < 8
  | .lockstepMismatch _ => true
  | .watchdogExpiry _ => true
  | .curatorRestartDone _ _ _ => true
  | .activationTimeout _ _ => true
  | .heartbeat _ => true
  | .fallowWake _ runs => runs.all fun l => l.1 < 2 && l.2.1 < 32 && l.2.2.wf
  | .suppliesGood b => b.attempts.all (fun a => a < 3) && b.training.all fun l => l.1 < 2 && l.2.1 < 32 && l.2.2.wf
  | .coldReset straps _ => straps < 4
  | .bootAttemptTimeout => true
  | .uncorrectableWord place _ _ _ => place < 5
  | .tdcCalibration _ _ _ => true
  | .trigOutPulseEnd line _ => line < 8
  | .linkL1Exit => true
  | .linkL1Entry => true
  | .supplyOutOfRange _ => true
  | .boundaryScanInstruction _ => true

end Sys2Proof
end

