-- ==== Sys2Proof/Decode.lean ====
section
/-! DEFINITION. Decoding of table words. No row of spec/opcode_table.json has bits: the block takes commands and events,
and its two instruction sets, Attendant and Conservator words, are decoded in Machine/AttendantCode.lean and
Machine/ConservatorCode.lean. -/
namespace Sys2Proof

/-- The command that a word of `nbits` bits spells by the table's bits: no row gives any. -/
def decodeTableWord (_nbits _w : Nat) : Option Instr := none

end Sys2Proof
end

