-- ==== Sys2Proof/Machine/Arith.lean ====
section
/-! DEFINITION. Arithmetic of results: roundings, clamps, binary32 and binary64 by correct rounding of
exact values, and real functions as integers scaled by 2^128 (DESIGN CHOICE, log 33). -/
namespace Sys2Proof.Machine

/-- n / d rounded half to even, d positive. -/
def rhe (n : Int) (d : Nat) : Int :=
  let q := n.fdiv d
  let r := n - q * d
  if 2 * r < d then q else if (d : Int) < 2 * r then q + 1 else if q % 2 = 0 then q else q + 1

/-- Clamp to signed `w` bits. -/
def sat (w : Nat) (z : Int) : Int :=
  if z < -(2 ^ (w - 1) : Nat) then -(2 ^ (w - 1) : Nat) else if (2 ^ (w - 1) : Nat) ≤ z then (2 ^ (w - 1) : Nat) - 1 else z

/-- The clamp of `sat` acts. -/
def satHit (w : Nat) (z : Int) : Bool := sat w z != z

/-- Integer square root by halving, `fuel` bits. -/
def isqrtAux : Nat → Nat → Nat → Nat
  | 0, _, r => r
  | k + 1, n, r => isqrtAux k n (if (r + 2 ^ k) * (r + 2 ^ k) ≤ n then r + 2 ^ k else r)

/-- Floor of the square root. -/
def isqrt (n : Nat) : Nat := isqrtAux (n.log2 / 2 + 1) n 0

/-- Square root of n/d rounded to the nearest integer. -/
def rootNear (n d : Nat) : Nat :=
  let r := isqrt (n / d)
  -- r or r + 1: compare with (r + 1/2)^2
  if (4 * r * r + 4 * r + 1) * d ≤ 4 * n then r + 1 else r

/-- Number of bits of n: 0 for 0. -/
def bitLen (n : Nat) : Nat := if n = 0 then 0 else n.log2 + 1

/-- An exact value m x 2^e. -/
structure Dy where
  m : Int
  e : Int
deriving DecidableEq, Repr

/-- m x 2^k for k ≥ 0. -/
def shl (m : Int) (k : Nat) : Int := m * (2 ^ k : Nat)

/-- Sum of exact values. -/
def Dy.add (a b : Dy) : Dy :=
  let e := min a.e b.e
  ⟨shl a.m (a.e - e).toNat + shl b.m (b.e - e).toNat, e⟩

/-- Product of exact values. -/
def Dy.mul (a b : Dy) : Dy := ⟨a.m * b.m, a.e + b.e⟩

/-- a < b. -/
def Dy.lt (a b : Dy) : Bool :=
  let e := min a.e b.e
  shl a.m (a.e - e).toNat < shl b.m (b.e - e).toNat

/-- Sum of a list of exact values. -/
def Dy.sum (l : List Dy) : Dy := l.foldl Dy.add ⟨0, 0⟩

/-- The value num x 2^e / den in a binary format of `p` significand bits and smallest exponent `emin` of
the last place, to nearest with ties to even, as (significand, exponent): gradual underflow. -/
def roundBin (p : Nat) (emin : Int) (num : Nat) (den : Nat) (e : Int) : Nat × Int :=
  if num = 0 then (0, emin)
  else
    -- quotient of about p bits: scale so that num 2^k / den has p or p + 1 bits
    let est : Int := (bitLen num : Int) - bitLen den
    let q0 : Int := max emin (est + e - p)
    let k := e - q0
    let r := if 0 ≤ k then rhe (shl num k.toNat) den else rhe num (den * 2 ^ (-k).toNat)
    if r.natAbs < 2 ^ p then (r.natAbs, q0)
    else
      -- one bit too many: round once from the exact value
      let k := k - 1
      let r := if 0 ≤ k then rhe (shl num k.toNat) den else rhe num (den * 2 ^ (-k).toNat)
      if r.natAbs < 2 ^ p then (r.natAbs, q0 + 1) else (2 ^ (p - 1), q0 + 2)

/-- Bits of the IEEE 754 value with `p` significand bits, `w` exponent bits, from sign and magnitude. -/
def packFloat (p w : Nat) (neg : Bool) (mag : Nat × Int) : Nat :=
  let bias : Int := (2 ^ (w - 1) : Nat) - 1
  let emin : Int := 2 - bias - p
  let s := if neg then 2 ^ (p + w - 1) else 0
  if mag.1 < 2 ^ (p - 1) then s + mag.1
  else
    let ex := mag.2 - emin + 1
    if ex ≥ ((2 ^ w : Nat) : Int) - 1 then s + (2 ^ w - 1) * 2 ^ (p - 1)
    else s + ex.toNat * 2 ^ (p - 1) + (mag.1 - 2 ^ (p - 1))

/-- binary32 nearest to num x 2^e / den, ties to even. -/
def f32 (num : Int) (den : Nat) (e : Int) : Nat :=
  packFloat 24 8 (num < 0) (roundBin 24 (-149) num.natAbs den e)

/-- binary64 nearest to num x 2^e / den, ties to even. -/
def f64 (num : Int) (den : Nat) (e : Int) : Nat :=
  packFloat 53 11 (num < 0) (roundBin 53 (-1074) num.natAbs den e)

/-- Value of finite float bits with `p` significand and `w` exponent bits. -/
def floatVal (p w : Nat) (n : Nat) : Dy :=
  let ex := n / 2 ^ (p - 1) % 2 ^ w
  let fr := n % 2 ^ (p - 1)
  let emin : Int := 3 - (2 ^ (w - 1) : Nat) - p
  let m : Nat := if ex = 0 then fr else fr + 2 ^ (p - 1)
  ⟨if n.testBit (p + w - 1) then -(m : Int) else m, emin + ((ex : Int) - 1).toNat⟩

/-- Value of finite binary32 bits. -/
def f32Val (n : Nat) : Dy := floatVal 24 8 n
/-- Value of finite binary64 bits. -/
def f64Val (n : Nat) : Dy := floatVal 53 11 n

/-- binary64 bits of the exact value, correctly rounded. -/
def f64Dy (d : Dy) : Nat := f64 d.m 1 d.e
/-- binary32 bits of the exact value, correctly rounded. -/
def f32Dy (d : Dy) : Nat := f32 d.m 1 d.e

/-- binary64 sum. -/
def f64Add (a b : Nat) : Nat := f64Dy ((f64Val a).add (f64Val b))
/-- binary64 product. -/
def f64Mul (a b : Nat) : Nat := f64Dy ((f64Val a).mul (f64Val b))

/-- A quiet NaN as the manual writes it, 0x7FC0_0000 (R163). -/
def f32NaN : Nat := 0x7FC00000

/-- A binary32 that is NaN. -/
def f32IsNaN (n : Nat) : Bool := n / 2 ^ 23 % 256 == 255 && n % 2 ^ 23 != 0

/-- Order key of a binary32 that is no NaN: a < b exactly when key a < key b, with both zeros equal. -/
def f32Key (n : Nat) : Int := if n.testBit 31 then -((n % 2 ^ 31 : Nat) : Int) else n

/-! ### Real functions scaled by 2^128 -/

/-- 1.0 -/
def fxOne : Int := 2 ^ 128
/-- pi -/
def fxPi : Int := 1069028584064966747859680373161870783300
/-- ln 2 -/
def fxLn2 : Int := 235865763225513294137944142764154484399
/-- ln 10 -/
def fxLn10 : Int := 783529105480883066805338482703447369891

/-- Product of scaled numbers. -/
def fxMul (a b : Int) : Int := (a * b).fdiv (2 ^ 128)

/-- n/d as a scaled number. -/
def fxRat (n : Int) (d : Nat) : Int := (n * 2 ^ 128).fdiv d

/-- Taylor sum: term i is the term before it times x2 / ((a+i)(b+i)) in steps of two, signs alternating when `alt`. -/
def fxTaylor : Nat → Nat → Int → Int → Int → Bool → Int
  | 0, _, _, _, acc, _ => acc
  | k + 1, i, x2, term, acc, alt =>
    let t := (fxMul term x2).fdiv ((i + 1) * (i + 2) : Nat)
    let t := if alt then -t else t
    fxTaylor k (i + 2) x2 t (acc + t) alt

/-- cos and sin of a scaled angle of at most pi/4 or so. -/
def fxCosSin (x : Int) : Int × Int :=
  let x2 := fxMul x x
  (fxTaylor 22 0 x2 fxOne fxOne true, fxTaylor 22 1 x2 x x true)

/-- cos and sin of n/d turns. -/
def fxTurn (n : Int) (d : Nat) : Int × Int :=
  let r := n % d
  -- octant-reduced: 4r = q d + s with |s| at most d/2
  let q := rhe (4 * r) d
  let s := 4 * r - q * d
  let (c, si) := fxCosSin ((fxPi * s).fdiv (2 * d : Nat))
  match (q % 4).toNat with
  | 0 => (c, si) | 1 => (-si, c) | 2 => (-c, -si) | _ => (si, -c)

/-- e^x of a scaled x with |x| below 1. -/
def fxExpSmall (x : Int) : Int :=
  let x2 := fxMul x x
  fxTaylor 22 0 x2 fxOne fxOne false + fxTaylor 22 1 x2 x x false

/-- 10^(n/d) as an exact-looking value m x 2^e with m scaled by 2^128. -/
def pow10 (n : Int) (d : Nat) : Dy :=
  let x := (fxLn10 * n).fdiv d
  let k := x.fdiv fxLn2.natAbs
  ⟨fxExpSmall (x - k * fxLn2), k - 128⟩

/-- Series of atanh: sum of y^(2i+1)/(2i+1). -/
def fxAtanhAux : Nat → Nat → Int → Int → Int → Int
  | 0, _, _, _, acc => acc
  | k + 1, i, y2, t, acc => fxAtanhAux k (i + 2) y2 (fxMul t y2) (acc + t.fdiv i)

/-- ln of a positive value m x 2^e, scaled. -/
def fxLn (v : Dy) : Int :=
  let n := v.m.natAbs
  let b := bitLen n - 1
  -- n = f 2^b with 1 ≤ f < 2
  let f := (n * 2 ^ 128 / 2 ^ b : Nat)
  let y := (((f : Int) - fxOne) * 2 ^ 128).fdiv ((f + 2 ^ 128 : Nat))
  2 * fxAtanhAux 45 1 (fxMul y y) y 0 + ((b : Int) + v.e) * fxLn2

/-- 2000 log10 of a positive value, rounded half to even: hundredths of 1 dB of an amplitude. -/
def centiDb (v : Dy) : Int := rhe (2000 * fxLn v) fxLn10.natAbs

/-- Square root of a positive scaled number. -/
def fxSqrt (x : Int) : Int := isqrt (x.natAbs * 2 ^ 128)

end Sys2Proof.Machine
end

