-- ==== Sys2Proof/Config.lean ====
section
/-! DEFINITION. What one part or one implementation fixes, and the free values: constants with no body,
of which nothing can be proved. -/
namespace Sys2Proof.Config

/-- STEPPING of the die (R459: per die). -/
opaque stepping : Nat
/-- GRADE of the part, 0 C or 1 E (R459: per part). -/
opaque grade : Nat
/-- Serial number of the part (R459: per part). -/
opaque serial : Nat
/-- Boot ROM version of the part (R494). -/
opaque bootRom : Nat

/-- Free byte number `n`: the manual states no value (DESIGN CHOICE, log 7). -/
opaque freeByte : Nat → Byte
/-- Free integer number `n`: the manual states no value (DESIGN CHOICE, log 7). -/
opaque freeInt : Nat → Int
/-- Free number number `n`: the manual states no value (DESIGN CHOICE, log 7). -/
opaque freeNat : Nat → Nat

/-- Taps of the DDC half-band filter h, h[0] to h[47] (R122 states only form and sums). -/
opaque ddcTap : Nat → Int
/-- Taps of the pre-decimator (R124 states only form and sums). -/
opaque preTap : Nat → Int
/-- Taps of a decimation stage: preset, tap number (R125, R126). -/
opaque chainTap : Nat → Nat → Int

/-- Chunks being written beyond which the archive writer's staging is full (R447; DESIGN CHOICE, log 129). -/
opaque archiveStaging : Nat

/-- SHA-384 of some bytes (R575). -/
opaque sha384 : List Byte → List Byte
/-- Whether an ECDSA signature verifies under the fused key (R575). -/
opaque signatureOk : List Byte → Bool

/-- Trim and last passed error (gain, offset) of a calibration in the factory's calibration store, by
256 x kind + unit (R574). -/
opaque storedTrim : Nat → Int
opaque storedError : Nat → Int
opaque storedOffset : Nat → Int
/-- Code that the target of a calibration should give at the current I_REF, by 256 x kind + unit and IREF_TRIM (R387; PRESUMED, log 126). -/
opaque refCode : Nat → Int → Int
/-- Whether REF_MISMATCH counts HKB above HKA as positive (R390 gives no sign). -/
opaque mismatchFlip : Bool

end Sys2Proof.Config
end

