-- ==== Sys2Proof/Machine/Flags.lean ====
section
/-! DEFINITION. Flag computations: the quality word of R32, the alert bits of R461, the cause codes of
lacunae (R34) and the record types and element formats of R30 and R31. -/
namespace Sys2Proof.Machine

/-! ### Quality bits (R32) -/
def qAdcClip := 2 ^ 0
def qCalStale := 2 ^ 1
def qMountUnknown := 2 ^ 2
def qMountExpired := 2 ^ 3
def qHoldover := 2 ^ 4
def qJump := 2 ^ 5
def qLate := 2 ^ 6
def qUnsettled := 2 ^ 7
def qCoarse := 2 ^ 8
def qSatStage := 2 ^ 9
def qFftOvf := 2 ^ 10
def qSwardSat := 2 ^ 11
def qAccOvf := 2 ^ 12
def qStoreSat := 2 ^ 13
def qCorrected := 2 ^ 14
def qShortPre := 2 ^ 15
def qExtended := 2 ^ 16
def qUnresolved := 2 ^ 17
def qOrder := 2 ^ 18
def qOrphan := 2 ^ 19

/-- A quality bit when its condition holds. -/
def qIf (c : Bool) (q : Nat) : Nat := if c then q else 0

/-- The conditions of two contributions together (R32). -/
def qOr (a b : Nat) : Nat := a ||| b

/-! ### Alert bits (R461) -/
def alHealth := 1
def alThermal := 2
def alSupply := 4
def alRestart := 8

/-! ### Lacuna causes (R34) -/
def caBackpressure := 1
def caArchiveFull := 2
def caOverrun := 3
def caClock := 4
def caDomain := 5
def caUncorrectable := 6
def caMigration := 7
def caForced := 8

/-! ### Record types (R30) and element formats (R31) -/
def rtRaw := 0x0001
def rtIq := 0x0002
def rtBins := 0x0010
def rtPower := 0x0011
def rtTrace := 0x0012
def rtSpectrogram := 0x0013
def rtSward := 0x0020
def rtConcordance := 0x0021
def rtTrigger := 0x0030
def rtStamps := 0x0040
def rtIntervals := 0x0041
def rtStats := 0x0042
def rtCrossings := 0x0043
def rtConservator := 0x0050
def rtSliceQuality := 0x0060
def rtCalReport := 0x0061
def rtHousekeeping := 0x0062
def rtLacuna := 0x00F0
def rtDiscontinuity := 0x00F1

def elNone := 0
def elR12P := 1
def elCI16 := 2
def elCI24 := 3
def elF32 := 4
def elCF32 := 5
def elU24 := 6
def elU32 := 7
def elI32 := 8
def elStamp := 9
def elInterval := 10

/-- Bytes of one element of a format; R12P counts 64 elements in 96 bytes (R31). -/
def elemBytes (e : Nat) : Nat := [0, 0, 4, 6, 4, 8, 3, 4, 4, 16, 16].getD e 0

end Sys2Proof.Machine
end

