-- ==== Sys2Proof/Machine/Operands.lean ====
section
/-! DEFINITION. Operand forms: the error codes of R492, and the parameter blocks of R476 with their
sizes, keys, owners, defaults and the checks of R477 that need only the block's own bytes. -/
namespace Sys2Proof.Machine

/-! ### Error codes (R492) -/
def eOk := 0x0000
def eOpcode := 0x0001
def eLength := 0x0002
def eSeq := 0x0003
def eReserved := 0x0004
def eHostAccess := 0x0005
def eRespTooLong := 0x0006
def eNotPf := 0x0007
def eNotOwner := 0x0008
def eRestarted := 0x0009
def eBlockType := 0x000A
def eRange := 0x0010
def eActive := 0x0011
def eTimePast := 0x0012
def eTimeConflict := 0x0013
def eScheduleFull := 0x0014
def eNotPending := 0x0015
def eUndefined := 0x0020
def eKind := 0x0021
def eCycle := 0x0022
def eEpoch := 0x0023
def eNoHandle := 0x0024
def eGangMember := 0x0025
def eStaleRole := 0x0026
def eMemBudget := 0x0030
def eLinkBudget := 0x0031
def eLeaveRefused := 0x0032
def eConcordMismatch := 0x0038
def eConcordLoad := 0x0039
def eTrigResource := 0x003A
def eStoreSpace := 0x0040
def eStoreBusy := 0x0041
def eArchiveDrive := 0x0042
def eCollectionState := 0x0048
def eMajorMismatch := 0x0049
def eFwImage := 0x0050
def eFwState := 0x0051

/-- A refusal: ERROR and DETAIL of the response (R470, R492), with result bytes where R470 gives some. -/
structure Err where
  code   : Nat
  detail : Nat := 0
  result : List Byte := []
deriving DecidableEq, Repr

/-! ### Block types (R476) -/
def btCadence := 0x0001
def btClockOutput := 0x0002
def btChannelInput := 0x0003
def btMount := 0x0004
def btDdc := 0x0005
def btDecimation := 0x0006
def btSpectrum := 0x0007
def btSpectralStream := 0x0008
def btSward := 0x0009
def btConcordance := 0x000A
def btCondition := 0x000B
def btTrigger := 0x000C
def btMask := 0x000D
def btTrigOut := 0x000E
def btProgram := 0x000F
def btStore := 0x0010
def btRaw := 0x0011
def btConservator := 0x0012
def btComparator := 0x0013
def btTdcSource := 0x0014
def btStampStream := 0x0015
def btPairing := 0x0016
def btCrossings := 0x0017
def btStimulus := 0x0018
def btLevel := 0x0019
def btHousekeeping := 0x001A
def btCalSchedule := 0x001B
def btMemory := 0x001C
def btCourierQueue := 0x001D
def btArchive := 0x001E
def btArchiveDrive := 0x001F
def btCollection := 0x0020
def btCommons := 0x0021
def btGalleryMap := 0x0022

/-- Size of a block type in bytes; 0 for a type that is not listed (R476, R511, R543, R556). -/
def blockSize (t : Nat) : Nat :=
  [0, 48, 16, 16, 8, 32, 32, 32, 32, 32, 32, 64, 64, 16, 16, 16, 48, 16, 160, 16, 16, 32, 32, 16, 96,
   32, 96, 16, 16, 80, 144, 32, 32, 16, 8].getD t 0

/-- Key fields of a block type, (offset, size) (R476). A CONSERVATOR block's handle stands for its
logical position, which the Curator resolves (R290). -/
def blockKey (t : Nat) : List (Nat × Nat) :=
  [[], [], [(0, 1)], [(0, 1)], [(0, 1)], [(0, 2)], [(0, 2)], [(0, 2)], [(0, 2), (2, 1)], [(0, 2)],
   [(0, 2)], [(0, 2), (2, 1)], [(0, 2)], [(0, 2)], [(0, 1)], [(0, 2)], [(0, 2)], [(0, 2)],
   [(0, 2), (2, 1)], [(0, 1)], [(0, 1)], [(0, 2), (2, 1)], [(0, 1)], [(0, 2), (2, 1)], [(0, 1)],
   [(0, 1)], [], [(0, 1), (1, 1)], [], [(0, 1)], [], [(0, 1)], [], [], [(0, 1)]].getD t []

/-- Block types whose key begins with an exhibit handle. -/
def handleKeyed (t : Nat) : Bool :=
  [btDdc, btDecimation, btSpectrum, btSpectralStream, btSward, btConcordance, btCondition, btTrigger,
   btMask, btProgram, btRaw, btConservator, btStampStream, btCrossings].contains t

/-- Block types that only PF0 may stage (R476). -/
def pfOwned (t : Nat) : Bool :=
  [btCadence, btClockOutput, btMount, btTrigOut, btComparator, btTdcSource, btPairing, btStimulus,
   btLevel, btHousekeeping, btCalSchedule, btMemory, btArchive, btArchiveDrive, btCollection, btCommons,
   btGalleryMap].contains t

/-- A parameter block: its type and its bytes. -/
structure Block where
  typ  : Nat
  data : List Byte
deriving DecidableEq, Repr

/-- Field of a block. -/
def Block.u (b : Block) (off size : Nat) : Nat := getU b.data off size
/-- Signed field of a block. -/
def Block.i (b : Block) (off size : Nat) : Int := getI b.data off size

/-- The key bytes of a block (R476). -/
def Block.key (b : Block) : List Nat := (blockKey b.typ).map fun p => b.u p.1 p.2

/-! ### Defaults -/

/-- Default fields other than zero, (offset, size, value), as each chapter's block table gives them;
a field with no default reads 0 (DESIGN CHOICE, log 30). -/
def blockDefaults (t : Nat) : List (Nat × Nat × Nat) :=
  if t = btCadence then [(1, 1, 1), (2, 2, 50000), (4, 2, 1), (6, 2, 100), (8, 4, 102), (12, 4, 0x66666666),
    (16, 8, 100000000000000), (30, 2, 0x0400), (38, 1, 3)]
  else if t = btClockOutput then [(2, 2, 2)]
  else if t = btChannelInput then [(3, 1, 1), (4, 1, 22), (5, 1, 3), (6, 1, 10), (7, 1, 0xFF)]
  else if t = btDdc then [(2, 6, 0x400000000000), (14, 1, 0xFF), (15, 1, 2), (16, 4, 4096)]
  else if t = btDecimation then [(3, 1, 1), (4, 8, 0x7777777777777777), (12, 1, 2), (13, 1, 0xFF), (14, 1, 0xFF),
    (16, 4, 4096)]
  else if t = btSpectrum then [(2, 1, 10), (4, 1, 2), (5, 1, 1), (6, 1, 1), (8, 4, 0x3FF)]
  else if t = btSpectralStream then [(20, 4, 1)]
  else if t = btSward then [(3, 1, 0xFF), (4, 1, 10), (8, 4, 0xFFFFFE00), (12, 4, 1), (17, 1, 2), (20, 4, 1)]
  else if t = btConcordance then [(3, 1, 0xFF), (4, 1, 10), (6, 2, 1), (8, 4, 0xFFFFFE00), (12, 4, 1)]
  else if t = btTrigger then [(10, 1, 0xFF)]
  else if t = btMask then [(2, 1, 10), (4, 4, 0xFFFFFE00), (8, 4, 1)]
  else if t = btTrigOut then [(6, 2, 16)]
  else if t = btProgram then [(2, 2, 1)]
  else if t = btStore then [(8, 4, 1)]
  else if t = btRaw then [(2, 1, 0xFF), (4, 4, 65536)]
  else if t = btConservator then [(8, 4, 0xFFFFFFFF), (12, 2, 512), (14, 2, 0xFFFF)]
  else if t = btComparator then [(2, 1, 1), (7, 1, 2), (8, 2, 1)]
  else if t = btStampStream then [(3, 1, 3), (4, 2, 1024), (6, 2, 1)]
  else if t = btPairing then [(12, 1, 0xFF), (13, 1, 0xFF), (14, 2, 1024), (16, 4, 1024), (20, 2, 1)]
  else if t = btCrossings then [(3, 1, 1)]
  else if t = btStimulus then [(5, 1, 2), (8, 2, 40)]
  else if t = btLevel then [(16, 2, 1)]
  else if t = btHousekeeping then [(2, 1, 0xFF), (3, 1, 0xFF)]
  else if t = btMemory then [(0, 2, 2048), (2, 1, 20), (3, 1, 12)]
  else if t = btCourierQueue then [(3, 1, 2), (4, 4, 8), (17, 1, 1), (18, 2, 1), (24, 4, 100)]
  else if t = btArchive then [(4, 4, 100)]
  else if t = btArchiveDrive then [(1, 1, 64)]
  else if t = btCollection then [(1, 1, 1), (4, 4, 4096), (9, 1, 0xFF), (10, 1, 0xFF), (11, 1, 0xFF), (12, 1, 0xFF),
    (13, 1, 0xFF), (14, 1, 0xFF), (15, 1, 0xFF), (16, 8, 0xFFFFFFFFFFFFFFFF)]
  else if t = btCommons then [(4, 4, 50000)]
  else []

/-- A block never staged or committed: its defaults with the key fields filled in (R478). SPECTRUM and
GALLERY_MAP defaults that depend on the key are filled too (R556: position g is served by Pg). -/
def defaultBlock (t : Nat) (key : List Nat) : Block :=
  let b := (blockDefaults t).foldl (fun bs f => putU bs f.1 f.2.1 f.2.2) (zeros (blockSize t))
  let b := ((blockKey t).zip key).foldl (fun bs f => putU bs f.1.1 f.1.2 f.2) b
  ⟨t, if t = btGalleryMap then putU b 1 1 (getU b 0 1) else b⟩

/-! ### Checks on a block's own fields (R477, R603) -/

/-- One check on the bytes of a block. -/
inductive Chk where
  /-- unsigned field within bounds -/
  | rng (off size lo hi : Nat)
  /-- signed field within bounds -/
  | srng (off size : Nat) (lo hi : Int)
  /-- reserved bytes are zero (R12) -/
  | rsv (off size : Nat)
  /-- reserved bits of a field are zero (R12) -/
  | rsvBits (off size mask : Nat)
  /-- field is a multiple of `m` -/
  | mult (off size m : Nat)
  /-- field is a power of two -/
  | pow2 (off size : Nat)
  /-- the check applies only where the field at `off` has one of the values (R603) -/
  | used (off size : Nat) (vals : List Nat) (c : Chk)
deriving DecidableEq, Repr

/-- The refusal of a check, with the offset of the offending field as DETAIL (R470). -/
def Chk.run : Chk → List Byte → Option Err
  | .rng o n lo hi, b => if lo ≤ getU b o n ∧ getU b o n ≤ hi then none else some ⟨eRange, o, []⟩
  | .srng o n lo hi, b => if lo ≤ getI b o n ∧ getI b o n ≤ hi then none else some ⟨eRange, o, []⟩
  | .rsv o n, b => if getU b o n = 0 then none else some ⟨eReserved, o, []⟩
  | .rsvBits o n m, b => if getU b o n &&& m = 0 then none else some ⟨eReserved, o, []⟩
  | .mult o n m, b => if getU b o n % m = 0 then none else some ⟨eRange, o, []⟩
  | .pow2 o n, b => let v := getU b o n
    if v ≠ 0 ∧ v &&& (v - 1) = 0 then none else some ⟨eRange, o, []⟩
  | .used o n vs c, b => if vs.contains (getU b o n) then c.run b else none

/-- The first failing check of a list. -/
def firstErr (l : List Chk) (b : List Byte) : Option Err := l.findSome? (·.run b)

/-- A refusal unless the condition holds. -/
def need (c : Bool) (code : Nat) (detail : Nat := 0) : Option Err := if c then none else some ⟨code, detail, []⟩

open Chk in
/-- The field checks of a block type, in offset order (R99, R117, R141, R142, R171, R172, R193, R231 to
R195, R234, R253, R286, R287, R326, R354, R375, R376, R392, R416, R451, R454, R511, R543, R556). -/
def blockChecks (t : Nat) : List Chk :=
  if t = btCadence then [rng 0 1 0 1, rng 1 1 0 1, used 0 1 [1] (rng 2 2 1 65535), used 0 1 [1] (rng 4 2 1 4096),
    used 1 1 [0] (rng 6 2 16 2048), used 1 1 [1] (rng 8 4 16 0xFFFFFFFF),
    used 0 1 [1] (rng 16 8 5000000000000 500000000000000), rng 30 2 1 0x7FFF, rng 36 1 0 1, rng 37 1 0 1,
    rng 38 1 2 255, rsv 39 9]
  else if t = btClockOutput then [rng 0 1 0 5, rng 1 1 0 1, rng 2 2 2 4096, rng 6 1 0 63, rng 7 1 0 1, rsv 8 8]
  else if t = btChannelInput then [rng 0 1 0 47, rng 1 1 0 18, rng 2 1 0 3, rng 3 1 0 1, rng 4 1 19 26, rng 5 1 1 15,
    rng 6 1 2 40, rsv 8 8]
  else if t = btMount then [rng 0 1 0 11, rng 1 1 0 1, rsvBits 2 1 0xF0, rng 3 1 0 1, rsv 4 4]
  else if t = btDdc then [rng 15 1 2 3, rng 16 4 16 1048576, mult 16 4 16, rsv 20 12]
  else if t = btDecimation then [rng 2 1 0 16, rng 3 1 0 3, rng 12 1 2 3, rng 15 1 0 1, rng 16 4 16 1048576,
    mult 16 4 16, rsv 20 12]
  else if t = btSpectrum then [rng 2 1 8 16, rng 3 1 0 1, rng 4 1 0 4, rng 5 1 0 8, rng 6 1 0 1, rng 7 1 0 1,
    used 5 1 [8] (rng 12 4 0 65535), rsv 20 12]
  else if t = btSpectralStream then [rng 2 1 0 254, rng 3 1 0 4, rng 8 4 1 65536, pow2 12 4,
    used 3 1 [3] (rng 16 1 0 6), used 3 1 [3] (rng 17 1 0 1), used 3 1 [3] (used 17 1 [1] (rng 18 2 1 65535)),
    rng 20 4 1 16777216, rsv 24 8]
  else if t = btSward then [rng 2 1 0 1, rng 4 1 4 10, rng 5 1 0 1, srng 6 2 (-20000) 2000, pow2 12 4, rng 16 1 0 16,
    rng 17 1 0 2, rng 18 1 0 1, rng 19 1 0 1, rng 20 4 1 16777216, used 17 1 [0] (rng 24 4 1 16777216),
    used 17 1 [1] (rng 28 2 1 65535), rsv 30 2]
  else if t = btConcordance then [rng 2 1 0 1, rng 4 1 10 12, rng 5 1 0 1, rng 6 2 1 65535, pow2 12 4, rsv 16 8,
    rsv 24 8]
  else if t = btCondition then [rng 2 1 0 31, rng 3 1 0 12,
    used 3 1 [7] (rng 4 2 0 63), used 3 1 [8] (rng 4 2 0 15), used 3 1 [9] (rng 4 2 0 7), used 3 1 [10] (rng 4 2 1 255),
    used 3 1 [1, 2, 3] (rng 6 1 0 3), used 3 1 [1, 2, 3] (used 6 1 [1, 2, 3] (rng 7 1 0 2)),
    used 3 1 [4] (rng 7 1 0 2),
    used 3 1 [1, 3, 4, 8] (rng 8 1 0 1), used 3 1 [2] (rng 8 1 0 2),
    used 3 1 [7, 9] (rng 9 1 0 1), used 3 1 [7, 9] (used 9 1 [1] (rng 8 1 0 2)),
    used 3 1 [7, 9] (used 9 1 [0] (rng 8 1 0 1)), rsv 10 2,
    used 3 1 [2] (srng 20 8 0 (2 ^ 63 - 1)), used 3 1 [6] (srng 20 8 1 (2 ^ 63 - 1)),
    used 3 1 [3] (rng 28 4 1 4096), used 3 1 [4] (rng 28 4 1 65536), used 3 1 [5] (rng 28 4 1 64),
    used 3 1 [5] (rng 32 4 1 64), rsv 39 1, rsv 42 22]
  else if t = btTrigger then [rng 2 1 0 2, rng 3 1 0 2, rng 8 1 0 1, rng 9 1 0 1, rsv 18 2, rsv 32 32]
  else if t = btMask then [rng 2 1 4 10, rsv 3 1, pow2 8 4, rsv 12 4]
  else if t = btTrigOut then [rng 0 1 0 7, rng 1 1 0 3, rng 2 1 0 1, rsv 3 1, rng 6 2 1 65535, rng 8 4 0 1048576,
    rsv 12 4]
  else if t = btProgram then [rng 2 2 1 256, rng 4 1 0 16, rng 5 1 0 8, rsv 6 10]
  else if t = btStore then [rng 0 2 0 1023, rng 2 1 0 1, rng 3 1 0 2, used 3 1 [0, 1] (rng 6 1 0 254), rng 7 1 0 2,
    rng 8 4 1 49152, used 3 1 [1] (rng 12 4 1 1048576), used 3 1 [0, 2] (rng 12 4 0 0), rng 16 1 0 1,
    used 3 1 [1] (rng 17 1 0 7), rng 18 1 0 1, rsv 19 1, used 3 1 [1] (rng 32 8 1 (2 ^ 64 - 1)), rsv 40 8]
  else if t = btRaw then [rsv 3 1, rng 4 4 64 16777216, mult 4 4 64, rsv 8 8]
  else if t = btConservator then
    [rng 2 1 0 3, rng 3 1 0 1, rng 4 2 0 16383, rng 6 2 0 16383, rng 12 2 1 512, rsv 25 7] ++
    (List.range 8).flatMap fun p =>
      let o := 32 + 16 * p
      [rng o 1 0 5, used o 1 [1, 2, 3, 4, 5] (rng (o + 1) 1 0 5), used o 1 [2, 3, 4] (rng (o + 2) 1 0 7),
       used o 1 [1, 2, 3] (rng (o + 4) 2 1 65535), used o 1 [4, 5] (rng (o + 6) 2 1 4096),
       used o 1 [4, 5] (rng (o + 12) 2 1 65535), rsv (o + 14) 2]
  else if t = btComparator then [rng 0 1 0 63, rng 1 1 0 1, rng 2 1 0 3, rng 3 1 0 5, rng 6 1 0 2, rng 7 1 0 2,
    rng 8 2 1 65535, rng 10 1 0 1, rng 11 1 0 1, rsv 12 4]
  else if t = btTdcSource then [rng 0 1 0 92, rsv 1 3, rsv 8 8]
  else if t = btStampStream then [rsvBits 3 1 0xFC, rng 4 2 1 4096, rng 6 2 1 65535, rsvBits 19 1 0xE0, rsv 20 4,
    rsv 24 8]
  else if t = btPairing then [rng 0 1 0 15, rng 1 1 0 1, rng 4 1 0 92, rng 5 1 0 1, rng 6 1 0 92, rng 7 1 0 1,
    rng 8 4 0 4096, rng 14 2 1 4096, rng 16 4 2 16777216, rng 20 2 1 65535, rsv 22 10]
  else if t = btCrossings then [rng 3 1 1 2, used 3 1 [2] (rng 4 2 1 65535), rsv 6 2]
  else if t = btStimulus then
    [rng 0 1 0 7, rng 1 1 0 1, rng 2 1 0 1, rng 3 1 0 3, rng 4 1 0 1, rng 5 1 2 16, rsvBits 6 1 0xFE, rsv 7 1,
     used 3 1 [2] (rng 10 2 0 1023), used 3 1 [2] (mult 16 8 16), used 3 1 [2] (rng 24 8 16 (2 ^ 64 - 1)),
     used 3 1 [2] (mult 24 8 16)] ++
    (List.range 4).flatMap fun i => [rng (44 + 16 * i) 2 0 8191, rsv (46 + 16 * i) 2]
  else if t = btLevel then [rng 0 1 0 15, rng 1 1 0 1, rng 2 1 0 3, rng 3 1 0 1, rng 16 2 1 65535, rsv 18 2]
  else if t = btHousekeeping then
    [rng 4 1 0 31, rng 5 1 0 8] ++
    ((List.range 39).map fun i => rsvBits (8 + 2 * i) 2 0xF0E0) ++ [rsv 86 8, rsv 94 2]
  else if t = btCalSchedule then [rng 0 1 0 5, rsv 2 2, rsv 12 4]
  else if t = btMemory then [rng 0 2 256 8192, rng 2 1 4 40, rng 3 1 1 48, rsv 4 8, rsv 12 4]
  else if t = btCourierQueue then
    [rng 0 1 0 63, rng 1 1 0 1, rng 2 1 0 1, rng 3 1 2 255, rng 4 4 8 65536, pow2 4 4, mult 8 8 64, rng 16 1 0 1,
     rng 17 1 1 16, rng 18 2 1 65535, rng 24 4 0 1000000, used 2 1 [0] (rng 28 1 1 16), used 2 1 [1] (rng 28 1 1 1),
     rsv 29 3, used 2 1 [1] (mult 64 8 16), rsv 72 8]
  else if t = btArchive then [rng 0 1 0 1, rng 1 1 1 32, rng 2 1 0 1, rng 3 1 1 64, rng 4 4 1 10000]
  else if t = btArchiveDrive then [rng 0 1 0 31, rng 1 1 2 255, rsv 2 2]
  else if t = btCollection then [rng 0 1 0 15, rng 1 1 1 16, rng 2 1 0 15, rsv 3 1, rng 4 4 0 1048576, rsv 24 8]
  else if t = btCommons then [rng 0 2 100 25000, rng 2 1 0 1, rsv 3 1, rng 4 4 1 0xFFFFFFFF, rsv 8 8]
  else if t = btGalleryMap then [rng 0 1 0 7, rng 1 1 0 8, rsv 2 6]
  else []

/-- A list has no repeats. -/
def distinct (l : List Nat) : Bool :=
  match l with
  | [] => true
  | x :: xs => !xs.contains x && distinct xs

/-- R x 2^32 of a CADENCE block (R46). -/
def cadRnum (b : Block) : Nat :=
  if b.u 1 1 = 0 then b.u 6 2 * 2 ^ 32 else b.u 8 4 * 2 ^ 32 + b.u 12 4

/-- SLOTS_PER_TURN in effect (R40). -/
def cadSpt (b : Block) : Nat := if b.u 0 1 = 0 then 50000 else b.u 2 2

/-- Slot rate in uHz times SLOT_DIV, and SLOT_DIV (R45). -/
def cadFreq (b : Block) : Nat × Nat := if b.u 0 1 = 0 then (100000000000000, 1) else (b.u 16 8, b.u 4 2)

/-- Decimation of a pipeline: hop = N / 2^OVERLAP (R146). -/
def spectrumHop (b : Block) : Nat := 2 ^ b.u 2 1 / 2 ^ b.u 4 1

/-- Calibration units that exist, by kind (R387, R391). -/
def calUnitOk (kind unit : Nat) : Bool :=
  match kind with
  | 0 => unit == 0xFF
  | 5 => unit == 0xFF
  | 3 => unit < 5
  | _ => unit < 4

/-- THRESHOLD of a comparator: -512 to 511 on an input tap, 0 to 1,023 on an auxiliary (R331). -/
def thresholdOk (n : Nat) (v : Int) : Bool :=
  if n < 48 then decide (-512 ≤ v) && decide (v ≤ 511) else decide (0 ≤ v) && decide (v ≤ 1023)

/-- The relations among a block's own fields (R477). -/
def blockRelations (b : Block) : Option Err :=
  let t := b.typ
  if t = btCadence then
    let (f, d) := cadFreq b
    -- turn rate at most 2 MHz (R42); fs from 6.0 to 10.5 GS/s (R45)
    (need (f ≤ 2000000000000 * d * cadSpt b) eRange 2).orElse fun _ =>
      need (6000000000000000 * d * 2 ^ 32 ≤ f * cadRnum b && f * cadRnum b ≤ 10500000000000000 * d * 2 ^ 32) eRange
        (if b.u 1 1 = 0 then 6 else 8)
  else if t = btClockOutput then need (b.u 4 2 < b.u 2 2) eRange 4
  else if t = btDecimation then
    -- bit 4i+3 reserved in every field, those above STAGES too, whose SHIFT is ignored (R142, R603)
    (need ((List.range 16).all fun i => !(b.u 4 8).testBit (4 * i + 3)) eReserved 4).orElse fun _ =>
      need (b.u 13 1 = 0xFF || b.u 13 1 != b.u 14 1) eRange 14
  else if t = btSpectrum then
    let m := b.u 2 1
    (need (b.u 8 4 < 2 ^ m) eReserved 8).orElse fun _ =>
    (need (b.u 5 1 != 8 || b.u 12 4 % 2 ^ m == 0) eRange 12).orElse fun _ =>
      need (b.u 16 4 < spectrumHop b) eRange 16
  else if t = btSpectralStream then
    let k := b.u 3 1
    -- R159
    (need (k != 3 || (b.u 8 4 &&& (b.u 8 4 - 1) == 0 && 16 ≤ b.u 8 4 && b.u 8 4 ≤ 16384)) eRange 8).orElse fun _ =>
      need (!(k == 1 || k == 2) || b.u 12 4 == 1) eRange 12
  else if t = btConcordance then need (b.u 4 1 != 11) eRange 4
  else if t = btCondition then
    let y := b.u 3 1
    if y = 5 then need (b.u 28 4 ≤ b.u 32 4) eRange 28
    else if y = 6 then
      (need (b.u 30 2 == 0) eRange 28).orElse fun _ =>
      (need (bitsOf (b.u 28 4) 0 8 ≤ bitsOf (b.u 28 4) 8 8) eRange 28).orElse fun _ =>
      (need (b.u 32 4 &&& 0xFC00FC00 == 0) eRange 32).orElse fun _ =>
        need (bitsOf (b.u 32 4) 0 10 ≤ bitsOf (b.u 32 4) 16 10) eRange 32
    else if y = 8 then need (b.i 12 8 ≤ b.i 20 8) eRange 12
    else if y = 10 then need (b.u 12 8 < 65536) eRange 12
    else if y = 11 then need (b.u 12 8 < 2 ^ 48) eRange 12
    else none
  else if t = btConservator then
    (List.range 2).findSome? fun i => need (b.u (14 + i) 1 ≤ 7 || b.u (14 + i) 1 == 0xFF) eRange (14 + i)
  else if t = btComparator then
    let n := b.u 0 1
    (need (thresholdOk n (b.i 4 2)) eRange 4).orElse fun _ =>
    -- R333, R340
    (need (b.u 10 1 == 0 || (48 ≤ n && n % 2 == 0)) eRange 10).orElse fun _ =>
      need (b.u 11 1 == 0 || (48 ≤ n && b.u 2 1 == 3 && b.u 3 1 != 0)) eRange 11
  else if t = btHousekeeping then
    let ha := b.u 4 1
    (List.range (ha + b.u 5 1)).findSome? fun i =>
      let e := b.u (8 + 2 * i) 2
      (need (bitsOf e 8 4 ≤ 8) eRange (8 + 2 * i)).orElse fun _ =>
        -- an HKA entry names no input 21 to 23; an HKB entry none below 24 (R392)
        if i < ha then need (!(21 ≤ e % 32 && e % 32 ≤ 23)) eRange (8 + 2 * i)
        else need (24 ≤ e % 32) eRange (8 + 2 * i)
  else if t = btCalSchedule then
    (need (calUnitOk (b.u 0 1) (b.u 1 1)) eRange 1).orElse fun _ =>
      need (b.u 4 4 == 0 || b.u 8 4 < b.u 4 4) eRange 8
  else if t = btArchiveDrive then none
  -- R255
  else if t = btStore then need (b.u 7 1 != 2 || b.u 8 4 % 2 == 0) eRange 8
  else if t = btCollection then
    let d := b.u 1 1
    let ord := (List.range 16).map fun i => b.u (8 + i) 1
    (need (distinct (ord.take d) && (ord.take d).all (· < 16) && (ord.drop d).all (· == 0xFF)) eRange 8).orElse fun _ =>
    (need ((ord.take d).contains (b.u 0 1)) eRange 0).orElse fun _ =>
    (need ((ord.take d).contains (b.u 2 1)) eRange 2).orElse fun _ =>
      need (d != 1 || (b.u 0 1 == 0 && b.u 2 1 == 0 && b.u 8 1 == 0)) eRange 0
  else none

/-- Every check of R477 on a block of the right size. -/
def stageCheck (b : Block) : Option Err := (firstErr (blockChecks b.typ) b.data).orElse fun _ => blockRelations b

end Sys2Proof.Machine
end

