-- ==== Sys2Proof/Machine/Table.lean ====
section
/-! DEFINITION. Keyed tables of the block's units, and memories of cells in one canonical form:
addresses strictly rising and no entry equal to what an unlisted address reads as. -/
namespace Sys2Proof.Machine

/-- Units by number: a unit that is not listed is in its reset state. -/
abbrev Table (α : Type) := List (Nat × α)

/-- The entry of key `k`, if listed. -/
def tfind {α : Type} : Table α → Nat → Option α
  | [], _ => none
  | (a, v) :: t, k => if a = k then some v else tfind t k

/-- The entry of key `k`, or `d`. -/
def tget {α : Type} (d : α) (t : Table α) (k : Nat) : α := (tfind t k).getD d

/-- The table with `v` at key `k`, keys rising. -/
def tset {α : Type} : Table α → Nat → α → Table α
  | [], k, v => [(k, v)]
  | (a, w) :: t, k, v =>
    if k < a then (k, v) :: (a, w) :: t
    else if a = k then (k, v) :: t
    else (a, w) :: tset t k v

/-- The table without key `k`. -/
def tdel {α : Type} (t : Table α) (k : Nat) : Table α := t.filter fun e => e.1 != k

/-- The table with `f` applied at key `k`. -/
def tmod {α : Type} (d : α) (t : Table α) (k : Nat) (f : α → α) : Table α := tset t k (f (tget d t k))

/-- The table with `f` applied to every listed entry. -/
def tmap {α : Type} (t : Table α) (f : Nat → α → α) : Table α := t.map fun e => (e.1, f e.1 e.2)

/-- A memory of `w`-bit cells: (address, value) pairs. -/
abbrev Cells (w : Nat) := List (Nat × BitVec w)

/-- The cell at `a`; `d` is what an unlisted address reads as. -/
def cget {w : Nat} (d : Nat → BitVec w) (m : Cells w) (a : Nat) : BitVec w := tget (d a) m a

/-- Write the cell at `a`, keeping the canonical form. -/
def cset {w : Nat} (d : Nat → BitVec w) : Cells w → Nat → BitVec w → Cells w
  | [], a, v => if v = d a then [] else [(a, v)]
  | (b, x) :: m, a, v =>
    if a < b then (if v = d a then (b, x) :: m else (a, v) :: (b, x) :: m)
    else if b = a then (if v = d a then m else (a, v) :: m)
    else (b, x) :: cset d m a v

/-- Write consecutive cells from `a`. -/
def csetAll {w : Nat} (d : Nat → BitVec w) (m : Cells w) (a : Nat) (vs : List (BitVec w)) : Cells w :=
  (vs.foldl (fun p v => (p.1 + 1, cset d p.2 p.1 v)) (a, m)).2

/-- Read `n` consecutive cells from `a`. -/
def cgetAll {w : Nat} (d : Nat → BitVec w) (m : Cells w) (a n : Nat) : List (BitVec w) :=
  (List.range n).map fun i => cget d m (a + i)

/-- Drop the cells whose address fails `keep`. -/
def ckeep {w : Nat} (keep : Nat → Bool) (m : Cells w) : Cells w := m.filter fun e => keep e.1

/-- The canonical form: addresses above `lo`, strictly rising, no entry of the unlisted value. -/
def cellsFrom {w : Nat} (d : Nat → BitVec w) : Nat → Cells w → Bool
  | _, [] => true
  | lo, (a, v) :: m => decide (lo ≤ a) && decide (v ≠ d a) && cellsFrom d (a + 1) m

/-- The canonical form of a memory. -/
def cellsWf {w : Nat} (d : Nat → BitVec w) (m : Cells w) : Bool := cellsFrom d 0 m

/-- Keys strictly rising from `lo`. -/
def tableFrom {α : Type} : Nat → Table α → Bool
  | _, [] => true
  | lo, (a, _) :: t => decide (lo ≤ a) && tableFrom (a + 1) t

/-- The canonical form of a table. -/
def tableWf {α : Type} (t : Table α) : Bool := tableFrom 0 t

end Sys2Proof.Machine
end

