-- ==== Sys2Proof/Machine/State.lean ====
section
/-! DEFINITION. The state of the OTM-48 as plain data: everything spec/ gives the block, and the queue
of waiting commands. A table entry that is not listed is the unit's reset state. -/
namespace Sys2Proof.Machine

/-! ### Records (01) -/

/-- A produced record: the common header of R25 and the body; LENGTH follows from the body (R24). `lo`
and `hi` bound the fs-samples it covers (R70), `deps` the synthesisers its stream depends on (R71). -/
structure Rec where
  typ       : Nat := 0
  handle    : Nat := 0
  stream    : Nat := 0
  chan      : Nat := 0xFF
  epoch     : Nat := 0
  seq       : Nat := 0
  time      : CT := ⟨0, 0, 0⟩
  rate      : Int := 0
  elem      : Nat := 0
  quality   : Nat := 0
  sample    : Nat := 0
  accession : Nat := 0
  count     : Nat := 0
  body      : List Byte := []
  lo        : Nat := 0
  hi        : Nat := 0
  deps      : List Nat := []
  /-- data type of its stream, in a LACUNA or CADENCE_DISCONTINUITY record -/
  of        : Nat := 0
deriving DecidableEq, Repr

/-! ### Decimation (05) -/

/-- DDC, DECIMATION, RAW and the lead's CHANNEL_INPUT blocks of an exhibit from an input-rate sample on
(R49, R133, R262). -/
structure ChainCfg where
  start : Nat
  ddc   : List Byte
  dec   : List Byte
  raw   : List Byte
  inp   : List Byte := []
deriving DecidableEq, Repr

/-- A change of the chain at the fine output centred on input-rate index `pos`: kind 0 a start without flags, 1 a
synchronising reset, 2 a cross-fade between presets (R134, R137). -/
structure ChainEv where
  kind : Nat
  pos  : Nat
  old  : Nat
  new  : Nat
deriving DecidableEq, Repr

/-- The decimation state of a channel or gang (05). -/
structure Chain where
  cfgs     : List ChainCfg := []
  evs      : List ChainEv := []
  /-- pending preset (R138) -/
  wait     : Option Nat := none
  replaced : Nat := 0
  sats     : Nat := 0
  /-- input-rate index up to which clamps of the fine path are counted (R127) -/
  counted  : Nat := 0
  /-- input-rate sample at which every history is zero (R135) -/
  resume   : Option Nat := none
deriving DecidableEq, Repr

/-- Samples of a stream that an event has put behind it and whose records are not yet complete (R36, R133, R139, R262,
R604): path (0 DDC, 1 fine, 2 coarse, 3 RAW), start of the next record, end of the last, the configuration and the chain
as they were; after a re-anchoring all of it counts on the old index. -/
structure Tail where
  path  : Nat
  next  : Nat
  limit : Option Nat
  cfg   : ChainCfg
  chain : Chain
  /-- quality that channels, mounts and cadence give these samples, on the old index -/
  carry : Option Nat := none
  moved : Bool := false
  /-- lacuna and discontinuity records that follow -/
  after : List Rec := []
deriving DecidableEq, Repr

/-- A gap of a stream that is still open: cause, UNIT of R34, first missing fs-sample, SEQ values of
records it replaces and the first of them. -/
structure Gap where
  cause  : Nat
  unit   : Nat := 0
  start  : Nat
  seqs   : Nat := 0
  first  : Nat := 0
deriving DecidableEq, Repr

/-- A stream: next SEQ (R26), the open gap (R33), records of the stream since the last boundary. -/
structure Stream where
  seq    : Nat := 0
  gap    : Option Gap := none
  /-- first sample of the record in progress, at the stream's rate (R262, R604) -/
  next   : Nat := 0
  tails  : List Tail := []
deriving DecidableEq, Repr

/-! ### Cadence (02) -/

/-- Reference divider P_ref and feedback divide ratio D = int + num / den of a synthesiser (R65). -/
structure Divider where
  pref : Nat := 1
  int  : Nat := 102
  num  : Nat := 0x66666666
  den  : Nat := 2 ^ 32
deriving DecidableEq, Repr

/-- One synthesiser (R65, R69, R70): its dividers, good windows in a row, still acquiring, first sample of the window in
which loss was declared while the CLOCK lacuna runs. -/
structure Pll where
  fb        : Divider := {}
  locked    : Bool := false
  good      : Nat := 0
  acquiring : Bool := true
  lossFrom  : Option Nat := none
  /-- sample at which that loss was declared -/
  lossAt    : Nat := 0
  /-- first sample of the lock window that runs now -/
  winFrom   : Nat := 0
  /-- sample at which lock was declared last -/
  lockAt    : Nat := 0
deriving DecidableEq, Repr

/-- The cadence: map, reference, marks, synthesisers, SYNC_IN (02). -/
structure Cad where
  /-- fs-sample index of the latest step (R43, R46) -/
  now        : Nat := 0
  anchored   : Bool := false
  turnInit   : Nat := 0
  /-- R x 2^32 in effect (R46) -/
  rnum       : Nat := 102 * 2 ^ 32 + 0x66666666
  /-- CADENCE_OFFSET in effect, in 1/64 fs-sample periods (R48) -/
  offset     : Int := 0
  /-- calibrated fine delays of the ADC clocks A to D, then of the DAC clocks A to D, before the share of R48 (R66) -/
  align      : List Nat := [0, 0, 0, 0, 0, 0, 0, 0]
  /-- SLOTS_PER_TURN in effect (R40) -/
  spt        : Nat := 50000
  /-- 0 internal, 1 external (R41) -/
  source     : Nat := 0
  refPresent : Bool := false
  coasting   : Bool := false
  /-- first sample taken while coasting or slewing, for HOLDOVER (R57, R60) -/
  holdFrom   : Option Nat := none
  /-- closed spans of HOLDOVER -/
  holdSpans  : List (Nat × Nat) := []
  slewing    : Bool := false
  slewPpb    : Int := 0
  /-- measured phase of a returned reference, in 1/65,536 slot, until the next mark (R59) -/
  returned   : Option Int := none
  returnedAt : Nat := 0
  /-- run of misplaced marks: length, slot and turn of the last (R56) -/
  markRun    : Nat := 0
  markLast   : CT := ⟨0, 0, 0⟩
  markFaults : Nat := 0
  markMissing : Nat := 0
  jumps      : Nat := 0
  unlocks    : Nat := 0
  plls       : Table Pll := []
  /-- span of CADENCE_JUMP: anchor sample and the first sample after it (R63) -/
  jumpSpan   : Option (Nat × Nat) := none
  /-- a commit changed the cadence and the new anchor is awaited (R43, R72) -/
  awaitAnchor : Bool := true
  /-- turn count kept in PD00 through fallow mode, for the next anchor (R43, R539) -/
  keptTurn   : Option Nat := none
  syncArmed  : Bool := false
  syncDue    : Bool := false
  /-- sample of the last SYNC_IN alignment, and whether one completed since the CADENCE commit (R512) -/
  syncAt     : Int := 0
  synced     : Bool := false
deriving DecidableEq, Repr

/-- One CLK_OUT output as it runs (R66, R67, R585). -/
structure ClkOut where
  enable  : Bool := false
  divider : Nat := 2
  coarse  : Nat := 0
  fine    : Nat := 0
  std     : Nat := 0
  /-- in 1/64 VCO period: end of the pulse that runs on from the setting before, and first rising edge of this one (R67) -/
  fall    : Int := 0
  rise    : Int := 0
deriving DecidableEq, Repr

/-! ### Curator (17) -/

/-- What the device has sent, in order: the model's own field (DESIGN CHOICE, log 6). -/
inductive Sent where
  /-- a write to host memory on behalf of a function -/
  | hostWrite (fn addr : Nat) (bytes : List Byte)
  /-- MSI-X message of a function's vector -/
  | msix (fn vector : Nat)
  /-- read request for a descriptor or for load data: queue, bus address, length -/
  | hostRead (queue addr len : Nat)
  /-- a trigger-bus word pair -/
  | bus (w0 w1 : BitVec 64)
  /-- NVMe write of a chunk: drive, first LBA, chunk number, records' bytes -/
  | nvmeWrite (drive lba chunk : Nat) (bytes : List Byte)
  /-- NVMe flush of a drive -/
  | nvmeFlush (drive : Nat)
  /-- answer to a read of BAR4: bytes, and the offsets among them that are poisoned -/
  | readData (fn off : Nat) (bytes : List Byte) (poisoned : List Nat)
  /-- answer to a register read -/
  | regData (fn off : Nat) (v : Nat)
  /-- samples that leave a stimulus DAC, from the given DAC sample -/
  | dac (dac sample : Nat) (codes : List Int)
  /-- a TRIG_OUT line is driven high or low from fabric clock `fc` on -/
  | trigOut (line : Nat) (high : Bool) (fc : Nat)
  /-- a page write to the identity memory at an address of a wing's mount bus, `slow` at 400 kHz: word address, bytes
  (R104, R105, R113) -/
  | mountPage (wing addr : Nat) (slow : Bool) (word : Nat) (bytes : List Byte)
  /-- a read of the whole record from an address of a wing's mount bus (R104, R105, R110) -/
  | mountFetch (wing addr : Nat) (slow : Bool)
deriving DecidableEq, Repr

/-- A stored response: its header fields and result, and where the result went (R467, R470). -/
structure Resp where
  opcode : Nat := 0
  seq    : Nat := 0
  error  : Nat := 0
  detail : Nat := 0
  time   : CT := ⟨0, 0, 0⟩
  result : List Byte := []
  /-- RESP_ADDR of a result over 2,016 bytes; 0 inline -/
  addr   : Nat := 0
deriving DecidableEq, Repr

/-- The mailbox, event ring and MSI-X table of one function (R456 to R470, R486, R420). -/
structure Mbox where
  /-- request area, 2,048 bytes -/
  req       : Cells 8 := []
  busy      : Bool := false
  respValid : Bool := false
  lost      : Bool := false
  replay    : Bool := false
  lastSeq   : Nat := 0
  /-- response area -/
  area      : List Byte := []
  stored    : Option Resp := none
  ringAddr  : Nat := 0
  /-- ENTRIES of the event ring; 0 while none is set -/
  ringSize  : Nat := 0
  produced  : Nat := 0
  consumed  : Nat := 0
  lostCount : Nat := 0
  lostFirst : Nat := 0
  /-- MSI-X table, four words an entry; vector control masked at reset (PRESUMED, log 5) -/
  msix      : Cells 32 := []
  /-- MSI-X pending bits set -/
  pba       : List Nat := []
deriving DecidableEq, Repr

/-- One item of a staged set or of a pending commit (R476, R484, R485, R474, R327). -/
inductive Item where
  | block (b : Block)
  | define (h kind : Nat) (members : List Nat)
  | delete (h : Nat)
  | assign (h fn : Nat)
deriving DecidableEq, Repr

/-- A staged item and the function whose staged set holds it (R478). -/
structure Staged where
  fn   : Nat
  item : Item
deriving DecidableEq, Repr

/-- A pending commit (R480, R481). `shadow` lists the handles whose shadow copies it applies. -/
structure Pending where
  id     : Nat
  fn     : Nat
  time   : CT
  sT     : Nat
  items  : List Item
  /-- handles and positions in its scope, for the shadow copies of R151, R206, R250, R321 -/
  all    : Bool
  scope  : List Nat
  /-- archive drives whose namespace has 4,096-byte LBAs (R442) -/
  big    : List Nat := []
  /-- the collection transaction it belongs to (R519) -/
  txn    : Option Nat := none
  /-- loaded words that it puts into effect: programs and mask limits by exhibit, windows by position (R151, R206, R250) -/
  progs  : Table (Cells 32) := []
  masks  : Table (Cells 32) := []
  wins   : Table (Cells 18) := []
deriving DecidableEq, Repr

/-- Kinds of scheduled actions other than commits (R53). -/
inductive Act where
  /-- comparator clear: mask of comparators (R336) -/
  | clear (mask : Nat)
  /-- calibration window (R389): kind, unit, by CAL_SCHEDULE -/
  | cal (kind unit : Nat) (sched : Bool)
  /-- injected conversion (R382): converter, input, rate code -/
  | inject (conv input rate : Nat)
  /-- Sward snapshot with its ACTION bits (R180, R194) -/
  | snapshot (bits : Nat)
  /-- TRIGGER_ARM with its ARM value -/
  | arm (v : Nat)
  /-- TRIGGER_FORCE -/
  | force
deriving DecidableEq, Repr

/-- A pending scheduled action (R49 to R53). -/
structure Action where
  id     : Nat
  fn     : Nat
  time   : CT
  handle : Option Nat
  act    : Act
  txn    : Option Nat := none
  /-- a CLOCK lacuna or a forward jump took its time: its records carry LATE_ACTION (R54, R63) -/
  late   : Bool := false
deriving DecidableEq, Repr

/-- An event held during a restart (R497). -/
structure Held where
  fn : Nat
  code : Nat
  time : CT
  handle : Nat
  epoch : Nat
  payload : List Byte
deriving DecidableEq, Repr

/-- The Curator (17). -/
structure Cur where
  staged     : List Staged := []
  committed  : List Block := []
  pending    : List Pending := []
  actions    : List Action := []
  nextCommit : Nat := 1
  nextAction : Nat := 1
  held       : List Held := []
  /-- cause and start of a restart or activation under way (R497) -/
  restart    : Option (Nat × Nat) := none
  alert      : Nat := 0
  alertMask  : Nat := 0xF
  restarts   : Nat := 0
  mismatches : Nat := 0
  refusals   : Nat := 0
deriving DecidableEq, Repr

/-- An exhibit (R17 to R22): `st` 0 free, 1 defined but not committed, 2 committed. -/
structure Exhibit where
  kind    : Nat := 0
  owner   : Nat := 0
  epoch   : Nat := 0
  st      : Nat := 0
  members : List Nat := []
deriving DecidableEq, Repr

/-- Exhibit of a local number that is not listed: a channel exhibit of PF0 or a free number (R18). -/
def Exhibit.reset (n : Nat) : Exhibit := if n < 48 then ⟨0, 0, 1, 2, []⟩ else {}

/-- One firmware image in flash (R574 to R577, R495). -/
structure Image where
  /-- VERSION: PATCH, MINOR, MAJOR -/
  patch  : Nat := 0
  minor  : Nat := 0
  major  : Nat := 0
  svn    : Nat := 0
  valid  : Bool := false
  bytes  : List Byte := []
  /-- STATE of R495: 0 empty, 1 partly staged, 2 verified, 3 activating -/
  st     : Nat := 0
  /-- the next FW_STAGE erases the slot first (R495) -/
  erase  : Bool := true
deriving DecidableEq, Repr

/-- Start-up, reset, link and firmware (21, 16). -/
structure Boot where
  /-- STATE of R459 -/
  st        : Nat := 0
  heartbeat : Nat := 0
  /-- running image, 0 A, 1 B (R459) -/
  image     : Nat := 0
  imgA      : Image := { major := 3, valid := true }
  imgB      : Image := {}
  /-- ACTIVE, PENDING and GENERATION of the selection record (R577) -/
  select    : Nat := 0
  tryFirst  : Option Nat := none
  gen       : Nat := 0
  minSvn    : Nat := 0
  /-- negotiated link (R418, R450) -/
  rate      : Nat := 64
  width     : Nat := 16
  /-- programmed Max payload size and Max read request size (R418; PRESUMED, log 128) -/
  mps       : Nat := 128
  mrrs      : Nat := 512
  numVfs    : Nat := 15
  /-- supplies in range and RESET_N high (R569) -/
  supplies  : Bool := false
  /-- PERST# is asserted (R573) -/
  perst     : Bool := true
  /-- what start-up finds, from supplies good until STATE 1 or recovery (R580) -/
  report    : Option BootReport := none
  /-- reason of an EV_FW_ROLLBACK that waits for the first event ring (R579) -/
  rollback  : Option Nat := none
  straps    : Nat := 0
  /-- STRAP_PERST sampled at cold reset (R571, R573) -/
  strapPerst : Bool := false
  /-- recovery mode (R578) -/
  recovery  : Bool := false
  tries     : Nat := 0
  /-- EXTEST or CLAMP drives the pins (R584) -/
  scan      : Bool := false
deriving DecidableEq, Repr

/-! ### Wings and mounts (03, 04) -/

/-- A span of samples in which a quality condition of one cause holds; `hi` none while it still holds. -/
structure QSpan where
  tag : Nat
  q   : Nat
  lo  : Nat
  hi  : Option Nat
deriving DecidableEq, Repr

/-- One ADC slice (R79, R84 to R92): coefficients, residuals at its latest measurement (offset in 1/128 nV, gain in
1 / (10^9 x 2^20), skew in as), estimates of its last passed measurement (offset nV, gain ppb, skew as). -/
structure Slice where
  off    : Int := 0
  gc     : Int := 0
  trim   : Int := 0
  fails  : Nat := 0
  /-- position 0-15, 0x10 out of service, 0x11 retired -/
  pos    : Nat := 0
  /-- failed in its position with no replacement: POSITION reads 0x12 (R86, R91) -/
  dead   : Bool := false
  rOff   : Int := 0
  rGain  : Int := 0
  rSkew  : Int := 0
  lOff   : Int := 0
  lGain  : Int := 0
  lSkew  : Int := 0
  passed : Bool := false
  /-- sample and wing temperature (0.01 C) of the last passed measurement -/
  passAt : Nat := 0
  temp   : Int := 0
deriving DecidableEq, Repr

/-- At power-up SLp is in position p and SL16 is out of service (R79). -/
def Slice.reset (k : Nat) : Slice := { pos := k }

/-- The slice that a position holds from an fs-sample on, with its coefficients there (R78, R79, R82, R91). -/
structure Placed where
  start : Nat
  pos   : Nat
  slice : Nat
  off   : Int
  gc    : Int
  dead  : Bool := false
deriving DecidableEq, Repr

/-- One channel of a wing (03). -/
structure Chan where
  slices    : Table Slice := []
  /-- which slice each position has held since when, oldest first; the same on the index before the last re-anchoring -/
  hist      : List Placed := []
  was       : List Placed := []
  rotations : Nat := 0
  /-- steps measured since the last rotation boundary (R82, R86) -/
  steps     : Nat := 0
  /-- wing temperature at the channel's latest measurement, 0.01 C (R86) -/
  measTemp  : Int := 0
  clip      : Nat := 0
  retired   : Option Nat := none
  second    : Bool := false
  /-- gleaning rotates (R93) -/
  rotating  : Bool := false
  /-- first sample of the running CAL_STALE of R88, of R92, and of a loopback (R98) -/
  stale     : Option Nat := none
  drift     : Option Nat := none
  loop      : Option Nat := none
  /-- ended loopbacks (R98) -/
  loops     : List (Nat × Nat) := []
  /-- spans of quality conditions, and ended ones of the three above (tag 0) -/
  marks     : List QSpan := []
deriving DecidableEq, Repr

/-- One wing: die temperature in 0.01 C and the trims of the calibration chain in ppm (R92, R386). -/
structure Wing where
  temp : Int := 0
  /-- the wing has been powered since the cold reset, and its first windows are due or done (R583) -/
  first : Bool := false
deriving DecidableEq, Repr

/-- One mount position (04). -/
structure Mount where
  /-- MODE, CTL and BUS_SPEED in effect (R117) -/
  mode      : Nat := 0
  ctl       : Nat := 0
  speed     : Nat := 0
  present   : Bool := false
  /-- record bytes last read; empty when none was (R118) -/
  record    : List Byte := []
  valid     : Bool := false
  released  : Bool := false
  /-- GENERATION of the current counter copy and whether it is copy B (R107) -/
  gen       : Nat := 0
  copyB     : Bool := false
  /-- current counts: relay operations, overdrive events (32 bits), overdrive time in fabric clocks
  with its whole part in us kept as time (R112) -/
  relay     : List Nat := [0, 0, 0, 0]
  events    : List Nat := [0, 0, 0, 0]
  timeUs    : List Nat := [0, 0, 0, 0]
  frac      : List Nat := [0, 0, 0, 0]
  /-- counts as they stand on the mount (R111, R113) -/
  wRelay    : List Nat := [0, 0, 0, 0]
  wEvents   : List Nat := [0, 0, 0, 0]
  wTime     : List Nat := [0, 0, 0, 0]
  /-- sample of the last write-back (R113) -/
  wroteAt   : Option Nat := none
  /-- a read of the record runs; whether it began at 400 kHz (R110, R117) -/
  xfer      : Option Bool := none
  /-- fs-sample at which each channel's input last fell below its threshold (R112) -/
  below     : List (Option Nat) := [none, none, none, none]
  warned    : Bool := false
  expired   : Bool := false
  failing   : Bool := false
  /-- mount whose correction is applied now: its record, or none for a generic or direct position -/
  applied   : Option (List Byte) := none
  /-- corrections that applied before, each up to an fs-sample, oldest first -/
  past      : List (Nat × Option (List Byte)) := []
  /-- first sample of MOUNT_UNKNOWN and MOUNT_EXPIRED as they apply now, and the ended spans of both -/
  unknown   : Option Nat := some 0
  expiredOn : Option Nat := none
  spans     : List QSpan := []
  /-- a change waits for the next turn boundary (R110, R111, R114); with a record read, whose boundary marks UNSETTLED -/
  due       : Bool := false
  fresh     : Bool := false
deriving DecidableEq, Repr

/-! ### Power (19) -/

/-- A grant in the Commons' ledger (R527): operation code, unit, peak in mW, first and one past the last
fs-sample (none: until released), the commit it belongs to. -/
structure Grant where
  op     : Nat
  unit   : Nat
  peak   : Nat
  start  : Nat
  stop   : Option Nat := none
  commit : Nat := 0
deriving DecidableEq, Repr

/-- Power domains, the Commons and fallow mode (19). -/
structure Pow where
  /-- bit d set while PDd is powered (R463) -/
  domains : Nat := 1
  /-- faults of each domain: count, and samples of the recent ones (R536) -/
  faults  : Table (Nat × List Nat) := []
  /-- domains left down after a third fault (R554) -/
  down    : List Nat := []
  ledger  : List Grant := []
  delayed : Nat := 0
  refused : Nat := 0
  fallows : Nat := 0
  /-- 0 running, 1 fallow-cold, 2 fallow-kept (R537) -/
  fallow  : Nat := 0
  /-- comparator that woke the device, in fallow mode (R541) -/
  wake    : Option Nat := none
  /-- fallow mode whose entry waits for the Couriers to drain (R436, R538) -/
  entering : Option Nat := none
  /-- a host request woke the device, in fallow mode (R541, R573) -/
  rung    : Bool := false
  /-- PD24 is up in fallow mode (R540) -/
  link    : Bool := false
  /-- a die sensor has read 115 C (R589) -/
  tripped : Bool := false
  /-- PD29 has been powered since the cold reset (R583) -/
  outs    : Bool := false
deriving DecidableEq, Repr

/-! ### Health (20) -/

/-- One entry of the health log (R567). -/
structure LogEntry where
  index  : Nat
  kind   : Nat
  unit   : Nat
  sub    : Nat
  cycle  : Nat
  onTime : Nat
  detail : Nat
deriving DecidableEq, Repr

/-- The non-volatile health log and the state its entries establish; they outlive every reset (R461,
R564 to R566; factory state: DESIGN CHOICE, log 11). -/
structure Health where
  /-- cause bits, as in HEALTH (R564) -/
  causes    : Nat := 0
  /-- the newest 4,096 entries, oldest first -/
  entries   : List LogEntry := []
  total     : Nat := 0
  cycles    : Nat := 0
  /-- powered time in ms since manufacture (DEDUCED, log 34) -/
  onMs      : Nat := 0
  /-- retired slice of a channel; (channel, slice) of later failures; failed galleries -/
  slices    : Table Nat := []
  seconds   : List (Nat × Nat) := []
  galleries : List Nat := []
  /-- failed lanes: stack, pseudo-channel, lane, spare that replaces it -/
  lanes     : List (Nat × Nat × Nat × Option Nat) := []
  /-- retired pseudo-channels: stack, pseudo-channel -/
  pcs       : List (Nat × Nat) := []
  /-- powered times (ms) of lock-step mismatches (R564) -/
  mismatches : List Nat := []
deriving DecidableEq, Repr

/-- Galleries in use and migrations (15, 20). -/
structure Migration where
  pos    : Nat
  target : Nat
  /-- sample at which warm-up begins, and Tm as a sample -/
  warm   : Nat
  tm     : Nat
  planned : Bool
  warming : Bool := false
  /-- MIGRATION leave in mW (R525) and the gallery it comes from -/
  peak    : Nat := 0
  source  : Nat := 0
deriving DecidableEq, Repr

/-- Logical positions out of service and migrations under way (R558 to R561). -/
structure Gal where
  out   : List Nat := []
  migr  : List Migration := []
  /-- turns (as turn counts) with uncorrectable words, per physical gallery, with their samples (R555) -/
  bad   : Table (List (Nat × Nat)) := []
deriving DecidableEq, Repr

/-! ### Spectral engine, Sward, Concordance (06, 07) -/

/-- Blocks that govern a pipeline from its first frame at or after a commit on (R164). -/
structure PipeCfg where
  /-- S_T as an fs-sample -/
  at0   : Nat := 0
  spec  : List Byte := []
  strs  : List (List Byte) := []
  sward : List Byte := []
  mask  : List Byte := []
  ddc   : List Byte := []
  dec   : List Byte := []
  /-- user window words in effect (R151) and mask limits in effect: UPPER and LOWER by segment (R206) -/
  win   : List (BitVec 18) := []
  lims  : Cells 32 := []
  /-- the commit clears the Sward plane (R179) -/
  clear : Bool := false
deriving DecidableEq, Repr

/-- An open accumulation period of a TRACE stream (R160 to R162): its key, accumulators of the elements
(binary32 or binary64 bits), frames, clamped frames, first frame, quality. -/
structure Trace where
  key     : Nat
  acc     : List Nat
  frames  : Nat
  ovf     : Nat
  first   : Nat
  quality : Nat
deriving DecidableEq, Repr

/-- A Sward plane (R174 to R184): counters at row x C + column, frames since the origin. -/
structure Plane where
  cells   : Table Nat := []
  first   : Nat := 0
  last    : Nat := 0
  frames  : Nat := 0
  quality : Nat := 0
  /-- the plane restarted after a failed placement: snapshots carry UNSETTLED until it is cleared (R184) -/
  failed  : Bool := false
  /-- snapshots that wait for their frame boundary: (source index n0, action bits, bit 8 late) (R180) -/
  asked   : List (Nat × Nat) := []
  /-- frame after which the latest record was taken (R181) -/
  snapped : Option Nat := none
deriving DecidableEq, Repr

/-- An FFT pipeline (06). -/
structure Pipe where
  cfg     : PipeCfg := {}
  /-- configurations that wait for the last frame before their n0 (R164) -/
  waiting : List PipeCfg := []
  /-- next frame of the grid -/
  next    : Nat := 0
  lastExp : Int := 0
  frames  : Nat := 0
  ovf     : Nat := 0
  /-- open periods by stream number -/
  traces  : Table Trace := []
  /-- streams whose next period carries UNSETTLED, and that skip the period a lacuna cut (R165) -/
  fresh   : List Nat := []
  /-- slot count of the first cadence period of each stream that is not accounted for (R163) -/
  upTo    : Table Nat := []
  /-- frames against the mask: (source index of the frame, failed, quality), newest last (R204, R205, R230) -/
  fails   : List (Nat × Bool × Nat) := []
deriving DecidableEq, Repr

/-- The user window memory of an exhibit and its shadow copy, which a commit puts into effect (R151). -/
structure WindowMem where
  cur    : Cells 18 := []
  shadow : Cells 18 := []
  dirty  : Bool := false
deriving DecidableEq, Repr

/-- A memory of 32-bit words and its shadow copy: mask limits (R206), program words (R250). -/
structure WordMem where
  cur    : Cells 32 := []
  shadow : Cells 32 := []
  dirty  : Bool := false
deriving DecidableEq, Repr

/-- An exact complex sum (re + j im) x 2^e of one product and output bin (R189). -/
structure CSum where
  re : Int := 0
  im : Int := 0
  e  : Int := 0
deriving DecidableEq, Repr

/-- One member's frame that waits for the other members': its first fs-sample, the member's place, bins and exponent
(R189). -/
structure Part where
  frame   : Nat
  lo      : Nat
  member  : Nat
  exp     : Int
  bins    : List (Int × Int)
  quality : Nat
deriving DecidableEq, Repr

/-- What governs a Concordance from fs-sample `at0` on (R185, R189, R191): its block, its members' handles and lead channels
in order, the configuration of the first and its RATE, and D of each member. -/
structure ConcCfg where
  at0   : Nat := 0
  blk   : List Byte := []
  ms    : List Nat := []
  chans : List Nat := []
  lead  : PipeCfg := {}
  exp   : Int := 0
  scale : List (Int × Int) := []
deriving DecidableEq, Repr

/-- A Concordance (R189 to R191): interval key, sums by product and output bin, frames, first frame and
quality; `fresh`: a lacuna cut the interval that runs. -/
structure Interval where
  key     : Nat := 0
  isOpen  : Bool := false
  sums    : List CSum := []
  frames  : Nat := 0
  first   : Nat := 0
  quality : Nat := 0
  fresh   : Bool := false
  parts   : List Part := []
  cfg     : ConcCfg := {}
  waiting : List ConcCfg := []
  /-- slot count of the first interval that is not accounted for (R163, R191) -/
  upTo    : Nat := 0
deriving DecidableEq, Repr

/-! ### Triggers (08) -/

/-- A result of a condition that waits for its grid sample: a level from `pos` on, or an occurrence. -/
structure Push where
  pos     : Nat
  set     : Option Bool := none
  lead    : Int := 0
  quality : Nat := 0
  dev     : Nat := 0xFF
  acc     : Nat := 0
  /-- TDC source and stamp that it came from; 0xFFFF none -/
  src     : Nat := 0xFFFF
  stamp   : Int := 0
deriving DecidableEq, Repr

/-- A condition as it runs (R201 to R213): value at the last evaluated sample, EDGE re-arm states, source
history newest first with its quality, source samples since its restart, value and quality behind its latest result. -/
structure CondSt where
  start   : Nat := 0
  value   : Bool := false
  up      : Bool := false
  down    : Bool := false
  hist    : List ((Int × Int) × Nat) := []
  seen    : Nat := 0
  lead    : Int := 0
  quality : Nat := 0
  dev     : Nat := 0xFF
  acc     : Nat := 0
  waiting : List Push := []
deriving DecidableEq, Repr

/-- Blocks of a trigger from grid sample n0 on (R231, R251): TRIGGER, CONDITION blocks, PROGRAM and its
words; `restart` names conditions that restart there, `reprog` a program that restarts, `arm` an ARM value
that the commit sets. -/
structure TrigCfg where
  n0      : Nat := 0
  trig    : List Byte := []
  conds   : List (List Byte) := []
  prog    : List Byte := []
  words   : Cells 32 := []
  restart : List Nat := []
  reprog  : Bool := false
  arm     : Option Nat := none
  /-- levels that stamp-based conditions start from (R213) -/
  init    : List (Nat × Bool) := []
deriving DecidableEq, Repr

/-- A capture started by an event of a trigger, on the trigger's own grid: Store, trigger sample and end
of its post-trigger window (R216, R218). -/
structure Run where
  store : Nat
  start : Nat
  stop  : Nat
  acc   : Nat
  /-- post-trigger length on the trigger's grid, and the trigger sample on the Store's grid -/
  post  : Nat
  tr    : Nat
deriving DecidableEq, Repr

/-- A capture on its way to a Store: trigger sample on the Store's grid and accession (R218, R269). -/
structure CapReq where
  store : Nat
  tr    : Nat
  acc   : Nat
  /-- (handle, epoch) that the request carries (R23) -/
  pair  : Nat × Nat := (0, 0)
  /-- samples of the first and of the latest extend that came before the capture arrived -/
  ext   : Option (Nat × Nat) := none
deriving DecidableEq, Repr

/-- An Attendant program as it runs (R239 to R247): `st` 0 stopped, 1 running, 2 halted, 3 fault. -/
structure Prog where
  st      : Nat := 0
  pc      : Nat := 0
  p       : Nat := 0
  k       : List Nat := List.replicate 16 0
  t       : List (Option Nat) := List.replicate 8 none
  m       : List Nat := List.replicate 4 0
  act     : Nat := 0
  tmo     : Bool := false
  /-- a waiting instruction runs; no wait has ended since the restart; its p' (R240, R606) -/
  waiting : Bool := false
  first   : Bool := true
  pp      : Nat := 0
  /-- beat and instructions executed in it (R247) -/
  beat    : Nat := 0
  count   : Nat := 0
  fires   : Nat := 0
  /-- sample of the latest FIRE (R245) -/
  fired   : Option Nat := none
deriving DecidableEq, Repr

/-- The trigger of an exhibit (R216 to R221, R236). -/
structure Trig where
  cfg      : TrigCfg := {}
  waiting  : List TrigCfg := []
  arm      : Nat := 0
  /-- disarmed by its own event under ARM 2 (R221) -/
  spent    : Bool := false
  /-- ARM values of TRIGGER_ARM that wait for their grid sample -/
  arms     : List (Nat × Nat) := []
  conds    : Table CondSt := []
  /-- next grid sample to evaluate; conditions true, and edge-type ones true, at the one before -/
  next     : Nat := 0
  bits     : Nat := 0
  edges    : Nat := 0
  /-- latest time of each SCHEDULE condition that has occurred (R50, R211) -/
  times    : Table CT := []
  /-- expression at the last evaluated sample -/
  expr     : Bool := false
  /-- hold-off: its fixed end and the occurrences that it still waits for (R220) -/
  holdEnd  : Option Nat := none
  holdLeft : Nat := 0
  runs     : List Run := []
  hSup     : Nat := 0
  bSup     : Nat := 0
  hTot     : Nat := 0
  bTot     : Nat := 0
  events   : Nat := 0
  lastAcc  : Nat := 0
  prog     : Prog := {}
deriving DecidableEq, Repr

/-- A TRIG_OUT line (R226, R227): logical level, end of its pulse, clock of the latest toggle. -/
structure Line where
  active : Bool := false
  stop   : Option Nat := none
  togAt  : Option Nat := none
deriving DecidableEq, Repr

/-! ### Stores (10) -/

/-- A held record: its position and its bytes' record. -/
structure Kept where
  pos : Nat
  r   : Rec
  /-- stack of the uncorrectable word found in it (R273, R279) -/
  bad : Option Nat := none
deriving DecidableEq, Repr

/-- A segment (R261, R269): `st` 1 filling, 2 complete, 3 released, 4 lost. -/
structure Seg where
  n     : Nat
  st    : Nat := 1
  short : Bool := false
  ext   : Option Nat := none
  /-- HEAD_LACUNA, and what follows it where it covers all the SEQ values it can (R274) -/
  head  : List Rec := []
  acc   : Nat := 0
  start : Nat := 0
  stop  : Nat := 0
  trig  : Nat := 0
  lo    : Int := 0
  hi    : Nat := 0
  first : Nat := 0
  post  : Nat := 0
deriving DecidableEq, Repr

/-- A Store (10). -/
structure Store where
  /-- the STORE block that defined it, with PRE, POST, CAPTURE, SEG_LIMIT as committed; empty: not defined -/
  blk      : List Byte := []
  base     : Nat := 0
  epoch    : Nat := 0
  /-- fs-sample of the commit that defined it -/
  since    : Nat := 0
  /-- policy in effect, and one that waits for the next capture (R280) -/
  policy   : Nat := 0
  nextPol  : Option Nat := none
  gen      : Nat := 0
  write    : Nat := 0
  oldest   : Nat := 0
  release  : Nat := 0
  segNext  : Nat := 0
  segRel   : Nat := 0
  /-- SEQ and fs-position of the first record written since the restart (R259, R271) -/
  firstSeq : Option Nat := none
  h0       : Nat := 0
  dropped  : Nat := 0
  overrun  : Nat := 0
  refused  : Nat := 0
  ignored  : Nat := 0
  bad      : Nat := 0
  /-- HEAD_LACUNA and HEAD_LACUNA2, each with the lacunae that follow it where it covers all the SEQ values it can (R266,
  R274) -/
  head     : List Rec := []
  head2    : List Rec := []
  recs     : List Kept := []
  /-- headers of records no longer held, oldest first (R271, R438) -/
  gone     : List Rec := []
  /-- records in the ring beyond WRITE (R70, R264) -/
  ahead    : List Rec := []
  /-- lacuna of dropped records that waits for the next record that fits (R267, R274) -/
  drop     : List Rec := []
  segs     : List Seg := []
  stopped  : Bool := false
  /-- bytes of the record at the delivery point that a consumer has already taken (R428) -/
  part     : Nat := 0
  /-- window mode: position after the last record delivered (R275) -/
  done     : Nat := 0
  /-- LAST_RETURNED of its queue (R433) -/
  last     : Option Nat := none
  /-- lacuna that the consumer delivers before anything else (R283, R436, R438) -/
  first    : List Rec := []
  /-- SEQ below which a resumed queue delivers nothing again (R438) -/
  redo     : List Rec := []
  /-- sample area of a playback Store -/
  samples  : Cells 16 := []
deriving DecidableEq, Repr

/-! ### Couriers and archive (16) -/

/-- A descriptor in flight (R426). -/
structure Desc where
  index : Nat
  addr  : Nat
  len   : Nat
  swap  : Nat
  ctrl  : Nat
deriving DecidableEq, Repr

/-- A Courier queue (R424 to R438, R453): `st` 0 disabled, 1 running, 2 HALTED, 3 STOPPED. -/
structure Queue where
  fn      : Nat := 0
  st      : Nat := 0
  head    : Nat := 0
  tail    : Nat := 0
  desc    : Option Desc := none
  /-- a descriptor fetch is outstanding -/
  asked   : Bool := false
  lastSt  : Nat := 0
  fetch   : Nat := 0
  descs   : Nat := 0
  bytes   : Nat := 0
  merged  : Nat := 0
  stale   : Nat := 0
  /-- completions that wait for an interrupt (R432) -/
  waiting : Nat := 0
  /-- KIND 1: next sample (R437) -/
  sample  : Nat := 0
  /-- a domain it uses drains (R436) -/
  drain   : Bool := false
  /-- KIND 1: outstanding reads of the buffer, offset and length, and bytes of it asked for (R437) -/
  reads   : List (Nat × Nat) := []
  next    : Nat := 0
deriving DecidableEq, Repr

/-- An archive drive (R441 to R449, R455), as its latest SMART / Health log read shows it. -/
structure Drive where
  failed  : Bool := false
  /-- LBAs of 4,096 bytes -/
  big     : Bool := false
  warn    : Nat := 0
  pct     : Nat := 0
  spare   : Nat := 0
  temp    : Nat := 0
  units   : Nat := 0
  media   : Nat := 0
  chunks  : Nat := 0
  retries : Nat := 0
  warned  : Bool := false
deriving DecidableEq, Repr

/-- A chunk that a drive is writing: its number, bytes, records that have a byte in it, and whether it was
retried (R447). -/
structure Chunk where
  drive : Nat
  num   : Nat
  bytes : List Byte
  recs  : List (Nat × Rec)
  again : Bool := false
deriving DecidableEq, Repr

/-- The archive writer (R444 to R449): `st` 0 off, 1 writing, 2 full. -/
structure Archive where
  st      : Nat := 0
  next    : Nat := 0
  dropped : Nat := 0
  drives  : Table Drive := []
  flying  : List Chunk := []
  /-- records lost, by Store, that the next chunk replaces by lacunae -/
  lost    : List (Nat × Rec) := []
  /-- bytes of a record that continues in the next chunk, its Store and the record -/
  rest    : List (Nat × Rec × List Byte) := []
deriving DecidableEq, Repr

/-! ### Collections (18) -/

/-- A trigger-bus message (R505); `q` is its target in quarter fs-samples (KIND 5: the TIME field it copies),
`clock` the fabric clock in which it was queued, `ord` its place among those of one clock (R507), `slot` the bus
slot that carried it. -/
structure BusMsg where
  kind   : Nat
  sender : Nat
  code   : Nat
  arg    : Nat
  handle : Nat
  tag    : Nat
  q      : Nat
  clock  : Nat := 0
  ord    : Nat := 0
  slot   : Nat := 0
deriving DecidableEq, Repr

/-- A collection-wide action between PREPARE and GO (R519): on the lead the command that waits and its votes, on a
member the action that it holds as tentative. `refused`: device index, error, handle. -/
structure Txn where
  id      : Nat
  lead    : Bool
  kind    : Nat
  action  : Nat := 0
  handle  : Nat
  time    : CT
  op      : Nat := 0
  fn      : Nat := 0
  seq     : Nat := 0
  plan    : Option Pending := none
  migr    : List Migration := []
  votes   : List Nat := []
  refused : List (Nat × Nat × Nat) := []
  /-- fs-sample of PREPARE -/
  sent    : Nat := 0
deriving DecidableEq, Repr

/-- The collection (18): `st` 0 standalone, 1 forming, 2 formed, 3 broken. -/
structure Coll where
  st       : Nat := 0
  trgQ     : List BusMsg := []
  ctlQ     : List BusMsg := []
  /-- messages held until their target -/
  held     : List BusMsg := []
  sent     : Nat := 0
  received : Nat := 0
  dropped  : Nat := 0
  crcErr   : Nat := 0
  staleIn  : Nat := 0
  staleRet : Nat := 0
  corr     : Int := 0
  /-- locked lanes TB_IN0 to TB_IN3, and devices that cannot be reached -/
  lanes    : List Nat := []
  lost     : List Nat := []
  /-- the lead's epoch tag of a collection exhibit (R518) -/
  tags     : Table Nat := []
  staleRun : Nat := 0
  staleAt  : Option Nat := none
  /-- ALIGN messages: device index, Limupen major, CADENCE CRC, next turn start (R505, R512) -/
  aligns   : Table (Nat × Nat × Nat) := []
  formed   : Table (Nat × Nat × Nat) := []
  /-- twice the offsets measured of the hop below, newest last (R513) -/
  offsets  : List Int := []
  txns     : List Txn := []
  /-- action number of the next collection-wide SCHEDULE (R519) -/
  actions  : Nat := 0
  /-- first bus slots not yet used, trigger and control class (R507) -/
  nextTrg  : Nat := 0
  nextCtl  : Nat := 0
deriving DecidableEq, Repr

/-! ### Comparators and TDC (12) -/

/-- A span in which a latch was set, in 1/1,024 fs-sample (R337). -/
structure LatchSpan where
  set   : Int
  clear : Int
deriving DecidableEq, Repr

/-- A comparator (R332 to R340): output; arming 0 unarmed, 1 in the arming interval since `since`, 2 armed;
set instant of a set latch and the last span it was set, in 1/1,024 fs-sample; instant of the last clear;
running total. -/
structure Comp where
  out     : Bool := false
  arming  : Nat := 0
  since   : Nat := 0
  latch   : Option Int := none
  was     : Option LatchSpan := none
  cleared : Int := -(2 ^ 80)
  total   : Nat := 0
deriving DecidableEq, Repr

/-- A stamp (R342): value, source, edge, physical time, edges discarded on the source up to it. -/
structure Stamp where
  t       : Int
  src     : Nat
  falling : Bool
  ps      : Nat
  disc    : Nat
deriving DecidableEq, Repr

/-- A TDC source (R343): physical time of its previous edge, whether that one is stamped, whether the next
edge is the partner of a discarded one, four converters' busy ends and the next in rotation, edges
discarded, level after the latest edge. -/
structure TdcSrc where
  prev  : Option Nat := none
  last  : Option Stamp := none
  force : Bool := false
  conv  : List Nat := [0, 0, 0, 0]
  rot   : Nat := 0
  disc  : Nat := 0
  high  : Bool := false
deriving DecidableEq, Repr

/-- An entry of a STAMPS or INTERVALS record that is not closed: t (the stop's), source, FLAGS, interval, and
edges discarded on the source up to it. -/
structure Entry where
  t     : Int
  src   : Nat := 0
  flags : Nat := 0
  x     : Int := 0
  disc  : Nat := 0
deriving DecidableEq, Repr

/-- Entries of a stream in order, discards seen by its latest entry of each source, the boundary up to which
records are flushed (in 2^-48 fs-sample), the smallest t it takes (R345, R352). -/
structure Entries where
  list  : List Entry := []
  seen  : Table Nat := []
  flush : Int := -(2 ^ 80)
  since : Int := -(2 ^ 80)
deriving DecidableEq, Repr

/-- A statistics block (R351). -/
structure StatBlock where
  n     : Nat := 0
  sum   : Int := 0
  sq    : Int := 0
  lo    : Int := 0
  hi    : Int := 0
  first : Int := 0
  last  : Int := 0
  orph  : Nat := 0
  disc  : Nat := 0
  unres : Nat := 0
  q     : Nat := 0
deriving DecidableEq, Repr

/-- A pairing unit (R346 to R351): unpaired starts newest first, waiting stops earliest first, stamps not yet
taken, entries, the block, starts discarded in all. -/
structure Pairer where
  stack : List Int := []
  waits : List Int := []
  queue : List Stamp := []
  ents  : Entries := {}
  blk   : StatBlock := {}
  disc  : Nat := 0
deriving DecidableEq, Repr

/-- A CROSSINGS stream (R339): first sample of its period, cut short, crossings not yet reported as
(comparator, position); a lacuna took part of the period, and analysis has resumed (R352). -/
structure CrossStream where
  start   : Nat := 0
  cut     : Bool := true
  marks   : List (Nat × Nat) := []
  lost    : Bool := false
  resumed : Bool := false
deriving DecidableEq, Repr

/-! ### Conservator cores (11) -/

/-- Where a delayed write of a bank lands (R300): a D register, half of one (low half when the flag is set), the
source view of an accumulator, a register by its number (R293), a pointer, Z and N, AOV, SOV. -/
inductive Tgt where
  | d (i : Nat) (v : DWord)
  | half (i : Nat) (low : Bool) (v : Int)
  | src (i : Nat) (v : Int)
  | reg (num : Nat) (v : DWord)
  | ptr (i : Nat) (v : BitVec 14)
  | zn (z n : Bool)
  | aov
  | sov
deriving DecidableEq, Repr

/-- A write that becomes visible to the bank's instruction number `due` (R300). -/
structure Late where
  due : Nat
  tgt : Tgt
deriving DecidableEq, Repr

/-- A loop under way: first and last address of its body, passes left (R302). -/
structure Loop where
  start : Nat
  stop  : Nat
  left  : Nat
deriving DecidableEq, Repr

/-- A branch that transfers before the bank's instruction number `due` (R301). -/
structure Branch where
  due  : Nat
  dest : Nat
deriving DecidableEq, Repr

/-- A record that a bank builds (R310 to R312): stream number, ELEM, reference port, body words newest first,
SAMPLE as the OPEN fixed it (none: the port's first element to come), SAMPLE as REC_TIME set it. -/
structure OpenRec where
  stream : Nat
  elem   : Nat
  ref    : Nat
  words  : List (BitVec 32) := []
  sample : Option Nat := none
  time   : Option Nat := none
deriving DecidableEq, Repr

/-- One register bank of a core (R292 to R302). `acc` is what an accumulating instruction continues from, `src`
what a source reads (R300); `issued` counts the bank's instructions; `stall` 1 IN, 2 OUT to a stimulus
port, 3 CLOSE. -/
structure Bank where
  pc      : Nat := 0
  d       : List DWord := List.replicate 8 0
  acc     : List Int := [0, 0, 0, 0]
  src     : List Int := [0, 0, 0, 0]
  pt      : List (BitVec 14) := List.replicate 8 0
  md      : List (BitVec 16) := List.replicate 8 1
  ln      : List (BitVec 14) := List.replicate 8 0
  bs      : List (BitVec 14) := List.replicate 8 0
  am      : BitVec 16 := 0
  z       : Bool := false
  n       : Bool := false
  aov     : Bool := false
  sov     : Bool := false
  loops   : List Loop := []
  calls   : List Nat := []
  issued  : Nat := 0
  late    : List Late := []
  branch  : List Branch := []
  stall   : Nat := 0
  opened  : Option OpenRec := none
  /-- since the bank's previous CLOSE: quality of elements read, AOV and SOV set, end of the newest element -/
  quality : Nat := 0
  sawAov  : Bool := false
  sawSov  : Bool := false
  upTo    : Nat := 0
deriving DecidableEq, Repr

/-- An element of an input port (R307, R308). -/
structure Elem where
  n       : Nat
  v       : DWord
  quality : Nat
deriving DecidableEq, Repr

/-- An input port (R307 to R309): elements held, index most recently read, elements read since the start, index of the
latest and of the first arrival, and elements of frames on their way to the port. -/
structure Port where
  elems   : List Elem := []
  last    : Option Nat := none
  read    : Nat := 0
  arrived : Option Nat := none
  first   : Option Nat := none
  coming  : List Elem := []
deriving DecidableEq, Repr

/-- A word in a stimulus port and the fabric clock from which it is held (R316, R364). -/
structure StimWord where
  clock : Nat
  v     : DWord
deriving DecidableEq, Repr

/-- A page swap that waits: commit sample, the page that becomes active, and whether the core halts (R322,
R323). -/
structure Swap where
  at0  : Nat
  page : Cells 36
  halt : Bool
deriving DecidableEq, Repr

/-- A Conservator core slot (11). `st` 0 halted, 1 running, 2 fault; `bank` true in the shadow bank; `irq`: the
handler issues next; `credit` in 1/256 byte; `origin` the fabric clock of its start. -/
structure Core where
  blk     : List Byte := []
  st      : Nat := 0
  bank    : Bool := false
  fg      : Bank := {}
  sh      : Bank := {}
  ie      : Bool := false
  intc    : BitVec 10 := 0
  cyc     : Nat := 0
  pseq    : Nat := 0
  origin  : Nat := 0
  /-- sample from which its ports deliver -/
  since   : Nat := 0
  irq     : Bool := false
  /-- a RETI has been executed, and no foreground instruction has issued since (R306) -/
  resumed : Bool := false
  ports   : List Port := List.replicate 8 {}
  stim    : List (List StimWord) := [[], []]
  under   : List Nat := [0, 0]
  credit  : Nat := 0
  prog    : Cells 32 := []
  x       : Cells 36 := []
  y       : Cells 36 := []
  imgX    : Cells 36 := []
  imgY    : Cells 36 := []
  page    : Cells 36 := []
  shadow  : Cells 36 := []
  swaps   : List Swap := []
  fault   : Nat := 0
  fbank   : Bool := false
  fpc     : Nat := 0
  fport   : Nat := 0
  records : Nat := 0
  stalled : Nat := 0
  /-- its records carry UNSETTLED until port 0 has delivered SETTLE elements (R325) -/
  rough   : Bool := false
deriving DecidableEq, Repr

/-! ### Stimulus and level DACs (13) -/

/-- A stimulus DAC (R356 to R367): its block in effect with the POFF words that R362 replaced, DAC samples at
which the playback and the take grid began, next take, playback done, clamped samples, passes of earlier
playbacks, sample up to which clamps are counted, first sample of a running loss of lock, playback words
that play as 0 (as n / 16). -/
structure Dac where
  blk    : List Byte := []
  play   : Nat := 0
  grid   : Nat := 0
  take   : Nat := 0
  done   : Bool := false
  clip   : Nat := 0
  passes : Nat := 0
  formed : Nat := 0
  held   : Option Nat := none
  bad    : List Nat := []
deriving DecidableEq, Repr

/-- A LEVEL block that waits for its tick (R376). -/
structure LevelCfg where
  tick : Nat
  blk  : List Byte
deriving DecidableEq, Repr

/-- A level DAC (R369 to R374): switch open, span in effect, set-point and code, clamped ticks, last tick formed;
`seq` 0 none, 1 slewing to SAFE, 2 holding with `left` ticks to go, 3 final slew. -/
structure Level where
  blk     : List Byte := []
  waiting : List LevelCfg := []
  isOn    : Bool := false
  span    : Nat := 0
  sp      : Int := 0
  code    : Int := 0
  clamps  : Nat := 0
  next    : Nat := 0
  seq     : Nat := 0
  left    : Nat := 0
  held    : Bool := false
deriving DecidableEq, Repr

/-! ### Housekeeping and calibration (14) -/

/-- The running conversion of a converter (R378, R382): input, rate code, `kind` 0 scan entry, 1 injected, 2 window, 3 of a scan that a commit replaced;
first and one past its last fs-sample; `bad` once a lacuna or a fault has touched it (R384). -/
structure HkJob where
  input : Nat
  rate  : Nat
  kind  : Nat
  start : Nat
  stop  : Nat
  bad   : Bool := false
  late  : Bool := false
deriving DecidableEq, Repr

/-- An entry of a HOUSEKEEPING record (R390): sample of its start, and code. -/
structure HkEntry where
  input : Nat
  rate  : Nat
  start : Nat
  code  : Int
deriving DecidableEq, Repr

/-- A housekeeping converter: running conversion, boundary since which it is idle, next scan entry, entries of the
running pass and whether the pass is cut (R381, R384). -/
structure HkConv where
  job     : Option HkJob := none
  ready   : Nat := 0
  pos     : Nat := 0
  entries : List HkEntry := []
  cut     : Bool := false
deriving DecidableEq, Repr

/-- A calibration window that is due or runs (R383, R389): named sample, or first sample once it runs; `sched` by
CAL_SCHEDULE; `leave` held for it; `again` after a lacuna cut it (R384). -/
structure CalWin where
  at0   : Nat
  kind  : Nat
  unit  : Nat
  sched : Bool := false
  leave : Bool := false
  again : Bool := false
  late  : Bool := false
deriving DecidableEq, Repr

/-- Housekeeping and calibration (14): converters 0 HKA and 1 HKB, latest REF_NODE codes, the window that runs,
windows due that are no scheduled action, turns whose window got no leave, trims, errors at the last pass (gain or
only error, offset) and the latest CAL_REPORT bodies; tables by 256 x kind + unit. -/
structure Hk where
  isOn     : Bool := false
  convs    : Table HkConv := []
  refs     : Table Int := []
  mismatch : Bool := false
  win      : Option CalWin := none
  due      : List CalWin := []
  skipped  : Table Nat := []
  trims    : Table Int := []
  errs     : Table Int := []
  offErrs  : Table Int := []
  reports  : Table (List Byte) := []
deriving DecidableEq, Repr

/-! ### Memory stacks (15) -/

/-- A pseudo-channel (R406 to R410): lane that is being rebuilt onto its spare, retraining and the temperature it
runs at, temperature of the last training, uncorrectable words of the running scrub pass, delay setting of each lane by
2 x lane + 1 for writes; 0.01 C. -/
structure PseudoCh where
  rebuild : Option Nat := none
  train   : Option Int := none
  temp    : Int := 0
  uncorr  : Nat := 0
  taps    : Table Nat := []
deriving DecidableEq, Repr

/-- A memory stack (R394 to R417): `st` 0 active, 1 self-refresh, 3 unpowered; relocations under way; codewords read
in the running scrub pass; row counts and throttled requesters. -/
structure Stack where
  st       : Nat := 3
  pcs      : Table PseudoCh := []
  moving   : List Nat := []
  corr     : Nat := 0
  uncorr   : Nat := 0
  passes   : Nat := 0
  word     : Nat := 0
  bad      : List Nat := []
  throttles : Nat := 0
  targeted : Nat := 0
  temp     : Int := 0
  counts   : Table Nat := []
  slowed   : List Nat := []
deriving DecidableEq, Repr

/-- A loss that a fault of a domain or an uncorrectable word causes (R403, R536, R560): UNIT of its lacunae, cause,
handles it takes (none: every exhibit), its first sample, and the sample of resumption when it is known. -/
structure Loss where
  unit   : Nat
  cause  : Nat
  hs     : Option (List Nat)
  start  : Nat
  resume : Option Nat
deriving DecidableEq, Repr

/-- The whole block. -/
structure State where
  cad       : Cad := {}
  clkOut    : Table ClkOut := []
  boot      : Boot := {}
  mbox      : Table Mbox := []
  cur       : Cur := {}
  exh       : Table Exhibit := []
  streams   : Table Stream := []
  produced  : List Rec := []
  chan      : Table Chan := []
  wing      : Table Wing := []
  mount     : Table Mount := []
  pow       : Pow := {}
  health    : Health := {}
  gal       : Gal := {}
  chain     : Table Chain := []
  pipe      : Table Pipe := []
  sward     : Table Plane := []
  wram      : Table WindowMem := []
  mask      : Table WordMem := []
  conc      : Table Interval := []
  trig      : Table Trig := []
  /-- last number given to an event (R223) -/
  accession : Nat := 0
  /-- the last evaluation of any trigger: position in quarter fs-samples and handle (R223) -/
  lastEval  : Nat × Nat := (0, 0)
  caps      : List CapReq := []
  lines     : Table Line := []
  prog      : Table WordMem := []
  store     : Table Store := []
  /-- exhibits whose epoch a migration changes: old epoch, new epoch, Tm as a sample (R439, R440) -/
  merge     : Table (Nat × Nat × Nat) := []
  queue     : Table Queue := []
  archive   : Archive := {}
  coll      : Coll := {}
  comp      : Table Comp := []
  tdc       : Table TdcSrc := []
  stampStr  : Table Entries := []
  pairer    : Table Pairer := []
  cross     : Table CrossStream := []
  /-- spans in which a calibration is stale, by tag 256 x kind + unit (R388, R344, R583) -/
  calSpans  : List QSpan := []
  /-- Conservator cores by 4 x logical position + slot -/
  core      : Table Core := []
  dac       : Table Dac := []
  level     : Table Level := []
  hk        : Hk := {}
  stack     : Table Stack := []
  /-- losses under way (R403, R536, R554, R560, R561) -/
  losses    : List Loss := []
  sent      : List Sent := []
  /-- number of free values drawn so far (DESIGN CHOICE, log 7) -/
  free      : Nat := 0
  /-- commands waiting, first in first out (DESIGN CHOICE, log 8) -/
  pending   : List Instr := []
deriving DecidableEq, Repr

/-- Why a step stops. The manual reports every error of a command in its response, so only an access to an address
that does not exist stops a step. -/
inductive Fault where
  /-- a read of BAR4 beyond its 64 GiB window: no such address exists (R277); raised by BAR4_READ; safe -/
  | noSuchAddress
deriving DecidableEq, Repr

/-- Why a command has no meaning. No arm of Dispatch.lean raises one. -/
inductive Refusal where
  /-- raised by an arm of Dispatch.lean whose meaning is not written yet; safe -/
  | notModelled (mnemonic : String)
deriving DecidableEq, Repr

/-- The block right after a cold reset begins (R571, R11): every field at the value the manual states,
or at the value that the log names. -/
def State.reset : State := {}

end Sys2Proof.Machine
end

