-- ==== Sys2Proof/Machine/Time.lean ====
section
/-! DEFINITION. The map between cadence time and fs-sample index in exact integer arithmetic on R x 2^32
(R43 to R47), the comparison of cadence times (R44), and the lead of scheduled actions (R51). -/
namespace Sys2Proof.Machine

/-- Turn difference a - b modulo 2^48, from -2^47 to 2^47 - 1 (R44). -/
def turnDiff (a b : Nat) : Int := toInt 48 (ofInt 48 ((a : Int) - b))

/-- Whether cadence time a lies before b (R44). -/
def ctLt (a b : CT) : Bool :=
  let d := turnDiff a.turn b.turn
  d < 0 || (d == 0 && (a.slot < b.slot || (a.slot == b.slot && a.phase < b.phase)))

/-- a at or before b (R44). -/
def ctLe (a b : CT) : Bool := !ctLt b a

/-- Slot count since the anchor at position n/k fs-samples (R46). -/
def slotAt (c : Cad) (n k : Nat) : Nat := n * 2 ^ 32 / (k * c.rnum)

/-- Cadence time of position n/k fs-samples after the anchor (R46, R47). -/
def ctAt (c : Cad) (n k : Nat) : CT :=
  let j := slotAt c n k
  ⟨(c.turnInit + j / c.spt) % 2 ^ 48, j % c.spt, (n * 2 ^ 32 - j * (k * c.rnum)) * 2 ^ 16 / (k * c.rnum)⟩

/-- Cadence time of fs-sample S (R46). -/
def ctOf (c : Cad) (S : Nat) : CT := ctAt c S 1

/-- Slot count of the boundary that begins (turn, slot), counted on from the present turn so that a
wrap of the turn counter changes nothing (R44, R46). -/
def slotCount (c : Cad) (turn slot : Nat) : Int :=
  let j := slotAt c c.now 1
  let e := j / c.spt
  ((e : Int) + turnDiff turn ((c.turnInit + e) % 2 ^ 48)) * c.spt + slot

/-- Position of a cadence time in units of 2^-48 fs-sample (R46). -/
def ctPos (c : Cad) (t : CT) : Int := (slotCount c t.turn t.slot * 2 ^ 16 + t.phase) * c.rnum

/-- Index of the first fs-sample at or after a cadence time (R46, R49); 0 for one before the anchor. -/
def sampleOf (c : Cad) (t : CT) : Nat := (ceilDivI (ctPos c t) (2 ^ 48)).toNat

/-- Cadence time of the boundary that begins slot `j` after the anchor. -/
def ctOfSlot (c : Cad) (j : Nat) : CT := ⟨(c.turnInit + j / c.spt) % 2 ^ 48, j % c.spt, 0⟩

/-- First fs-sample of slot `j` (R46). -/
def slotStart (c : Cad) (j : Nat) : Nat := ceilDiv (j * c.rnum) (2 ^ 32)

/-- First fs-sample of the turn after the one that holds sample S. -/
def nextTurn (c : Cad) (S : Nat) : Nat := slotStart c ((slotAt c S 1 / c.spt + 1) * c.spt)

/-- First fs-sample of a turn boundary at or after S. -/
def turnAtOrAfter (c : Cad) (S : Nat) : Nat :=
  let j := slotAt c S 1
  let a := slotStart c (j / c.spt * c.spt)
  if S ≤ a then a else nextTurn c S

/-- The lead of R51: 10 us at nominal fs is 102,400 fs-samples at every fs (R8). -/
def leadSamples := 102400

/-- A scheduled time is less than `lead` samples after acceptance (R51). -/
def tooSoon (c : Cad) (t : CT) (lead : Nat := leadSamples) : Bool :=
  ctPos c t < ((c.now + lead : Nat) : Int) * 2 ^ 48

/-- The earliest permitted time, rounded up to the start of a slot (R212, R479). -/
def asapTime (c : Cad) (lead : Nat := leadSamples) : CT :=
  ctOfSlot c (ceilDiv ((c.now + lead) * 2 ^ 32) c.rnum)

/-- Advance of the latest sample: time never runs backwards but at an anchor (DESIGN CHOICE, log 12). -/
def Cad.at (c : Cad) (t : Nat) : Cad := { c with now := max c.now t }

/-- The state with time advanced to `t`. -/
def State.tick (s : State) (t : Nat) : State := { s with cad := s.cad.at t }

/-- Present cadence time. -/
def State.time (s : State) : CT := ctOf s.cad s.cad.now

/-- Default of a synthesiser; the tables list those that changed. -/
def pllOf (c : Cad) (k : Nat) : Pll := tget {} c.plls k

/-- All five synthesisers locked and none coasting (R459 CADENCE_LOCKED). -/
def allLocked (c : Cad) : Bool := (List.range 5).all (fun k => (pllOf c k).locked) && !c.coasting

/-- HOLDOVER holds at some sample of [lo, hi) (R34, R57, R60). -/
def heldOver (c : Cad) (lo hi : Nat) : Bool :=
  (match c.holdFrom with | some f => decide (f < hi) | none => false) ||
    c.holdSpans.any fun p => p.1 < hi && lo < p.2

/-- CADENCE_JUMP holds for what begins at sample `lo` (R63). -/
def jumpAt (c : Cad) (lo : Nat) : Bool :=
  match c.jumpSpan with | some (a, b) => decide (a ≤ lo ∧ lo < b) | none => false

/-- HOLDOVER and CADENCE_JUMP of a record that covers [lo, hi) (R57, R63). -/
def cadQuality (c : Cad) (lo hi : Nat) : Nat := qIf (heldOver c lo hi) qHoldover ||| qIf (jumpAt c lo) qJump

/-- A CLOCK lacuna runs for a set of synthesisers: its first missing sample (R70, R71). -/
def clockLoss (c : Cad) (deps : List Nat) : Option Nat :=
  deps.foldl (fun m k => match m, (pllOf c k).lossFrom with
    | none, x => x | some a, some b => some (min a b) | some a, none => some a) none

end Sys2Proof.Machine
end

