-- ==== Sys2Proof/Machine/Exhibits.lean ====
section
/-! DEFINITION. Exhibits, groups and handles (R16 to R23), and a view of the configuration: the blocks
and the exhibits as they stand now or at a later cadence time (R480). -/
namespace Sys2Proof.Machine

/-- Configuration at one instant: committed blocks, exhibits, and the BAR4 ranges of the Stores as (Store, base, size)
in MiB (R277, R480). -/
structure View where
  blocks : List Block
  exh    : Table Exhibit
  ranges : List (Nat × Nat × Nat) := []
deriving DecidableEq, Repr

/-- The BAR4 ranges of the Stores as they stand (R277). -/
def State.storeRanges (s : State) : List (Nat × Nat × Nat) :=
  s.store.filterMap fun e => if e.2.blk.isEmpty then none else some (e.1, e.2.base / 2 ^ 20, getU e.2.blk 8 4)

/-- The committed configuration. -/
def State.view (s : State) : View := ⟨s.cur.committed, s.exh, s.storeRanges⟩

/-- The exhibit of a local number. -/
def View.ex (v : View) (n : Nat) : Exhibit := tget (Exhibit.reset n) v.exh n

/-- The block of a type and key as committed, or its defaults (R478). -/
def View.block (v : View) (t : Nat) (key : List Nat) : Block :=
  (v.blocks.find? fun b => b.typ == t && b.key == key).getD (defaultBlock t key)

/-- All committed blocks of a type. -/
def View.ofType (v : View) (t : Nat) : List Block := v.blocks.filter (·.typ == t)

/-- The committed block of a type and key. -/
def State.block (s : State) (t : Nat) (key : List Nat) : Block := s.view.block t key

/-- Device index in the collection: bits [15:12] of this device's handles (R17). -/
def View.index (v : View) : Nat := (v.block btCollection []).u 0 1

/-- Device index of the collection's lead: bits [15:12] of collection exhibits' handles (R516). -/
def View.lead (v : View) : Nat := (v.block btCollection []).u 2 1

/-- Handle of a local number of this device (R17, R516). On a member device the collection exhibit that the lead's
handle lead × 4,096 + n names takes this device's own local number n (DESIGN CHOICE, log 94). -/
def View.handle (v : View) (n : Nat) : Nat := (if (v.ex n).kind = 3 then v.lead else v.index) * 4096 + n

/-- A handle that names an exhibit of this device. -/
def View.isOwn (v : View) (h : Nat) : Bool := h == v.handle (h % 4096)

/-- The exhibit that a handle names, committed or defined. -/
def View.find (v : View) (h : Nat) : Option Exhibit :=
  if v.isOwn h && (v.ex (h % 4096)).st != 0 then some (v.ex (h % 4096)) else none

/-- The exhibit that a handle names, if it is committed. -/
def View.committed (v : View) (h : Nat) : Option Exhibit :=
  match v.find h with | some e => if e.st == 2 then some e else none | none => none

/-- The handle and every member at every depth (R20); `fuel` bounds the depth. -/
def View.deep (v : View) : Nat → List Nat → List Nat
  | 0, hs => hs
  | k + 1, hs =>
    let below := hs.flatMap fun h => match v.find h with | some e => e.members | none => []
    if below.isEmpty then hs else (hs ++ v.deep k below).eraseDups

/-- A handle with all its members. -/
def View.reach (v : View) (h : Nat) : List Nat := v.deep 4096 [h]

/-- The channels that a handle reaches, rising, each once. -/
def View.channels (v : View) (h : Nat) : List Nat :=
  let l := (v.reach h).filterMap fun m =>
    if v.isOwn m && m % 4096 < 48 then some (m % 4096) else none
  (List.range 48).filter l.contains

/-- The committed gang that holds a channel (R96). -/
def View.gangOf (v : View) (ch : Nat) : Option Nat :=
  (v.exh.find? fun e => e.2.kind == 1 && e.2.st == 2 && e.2.members.contains (v.handle ch)).map fun e => v.handle e.1

/-- The handle names a channel that is a committed gang member (R96). -/
def View.gangMember (v : View) (h : Nat) : Bool :=
  match v.find h with | some e => e.kind == 0 && (v.gangOf (h % 4096)).isSome | none => false

/-- Channel or gang exhibit: the kinds with a sample stream of their own. -/
def View.isSampler (v : View) (h : Nat) : Bool :=
  match v.find h with | some e => e.kind ≤ 1 | none => false

/-- Number of member channels of a channel (1) or gang (2 or 4) exhibit. -/
def View.ganged (v : View) (h : Nat) : Nat :=
  match v.find h with | some e => if e.kind == 1 then max 1 e.members.length else 1 | none => 1

/-- RATE of an exhibit's input-rate grid: 0, -1 or -2 (R199, R25). -/
def View.gridExp (v : View) (h : Nat) : Int :=
  match v.ganged h with | 2 => -1 | 4 => -2 | _ => 0

/-- CHAN of a record header: the lead channel, or 0xFF for an array or collection (R25). -/
def View.chan (v : View) (h : Nat) : Nat :=
  if v.isSampler h then (v.channels h).headD 0xFF else 0xFF

/-- The one logical position that every channel of the exhibit lies in, if there is one (R196). -/
def View.position (v : View) (h : Nat) : Option Nat :=
  match v.channels h with
  | [] => none
  | c :: cs => if cs.all (fun d => d / 6 == c / 6) then some (c / 6) else none

/-- Groups that name the handle as a member, as handles: the groups whose set R21 makes part of a role. A group that
contains the handle only at a deeper level is none of them (DESIGN CHOICE, log 95). -/
def View.groupsOf (v : View) (h : Nat) : List Nat :=
  v.exh.filterMap fun e => if e.2.st == 2 && e.2.members.contains h then some (v.handle e.1) else none

/-- Groups that contain the handle at any depth (R21). -/
def View.ancestors (v : View) : Nat → List Nat → List Nat
  | 0, hs => hs
  | k + 1, hs =>
    let up := hs.flatMap v.groupsOf
    if up.isEmpty then hs else (hs ++ v.ancestors k up).eraseDups

/-- Physical gallery of a logical position in a view (R15, R556). -/
def View.gallery (v : View) (p : Nat) : Nat := (v.block btGalleryMap [p]).u 1 1

/-- Synthesisers that a stream of the handle depends on: its channels' wings and FPLL (R71). -/
def View.deps (v : View) (h : Nat) : List Nat := ((v.channels h).map (· / 12)).eraseDups ++ [4]

/-- Owner function of a handle. -/
def View.owner (v : View) (h : Nat) : Nat := match v.find h with | some e => e.owner | none => 0

/-- Epoch of a handle. -/
def View.epoch (v : View) (h : Nat) : Nat := match v.find h with | some e => e.epoch | none => 0

/-- Handles of every committed exhibit, rising. -/
def View.allHandles (v : View) : List Nat :=
  ((List.range 48).map v.handle) ++
    v.exh.filterMap fun e => if 48 ≤ e.1 ∧ e.2.st = 2 then some (v.handle e.1) else none

end Sys2Proof.Machine
end

