-- ==== Sys2Proof/Machine/Ops.lean ====
section
/-! DEFINITION. The named operations over the state: outputs of the block, MSI-X, events and the event
ring (R420, R486 to R491), records, streams, lacunae and free values. The block has no exception entry:
raising an event, an alert bit or a line is part of a command's effect. -/
namespace Sys2Proof.Machine

/-! ### Mailbox table and outputs -/

/-- The mailbox of a function. -/
def State.mb (s : State) (fn : Nat) : Mbox := tget {} s.mbox fn

/-- Replace the mailbox of a function. -/
def State.setMb (s : State) (fn : Nat) (m : Mbox) : State := { s with mbox := tset s.mbox fn m }

/-- The device sends one thing more (DESIGN CHOICE, log 6). -/
def State.send (s : State) (x : Sent) : State := { s with sent := s.sent ++ [x] }

/-- What an unwritten word of the MSI-X table reads as: vector control masked (PRESUMED, log 5). -/
def msixDefault (a : Nat) : BitVec 32 := if a % 4 = 3 then 1 else 0

/-- A vector is masked: bit 0 of its vector-control word. -/
def Mbox.masked (m : Mbox) (v : Nat) : Bool := (cget msixDefault m.msix (4 * v + 3)).getLsbD 0

/-- Send a function's MSI-X vector, or set its pending bit while it is masked (R420). -/
def State.msix (s : State) (fn v : Nat) : State :=
  let m := s.mb fn
  if m.masked v then s.setMb fn { m with pba := if m.pba.contains v then m.pba else v :: m.pba }
  else s.send (.msix fn v)

/-! ### Events -/
def evLost := 0x0001
def evCommitDone := 0x0002
def evStageDiscarded := 0x0003
def evRestart := 0x0004
def evFwActivated := 0x0005
def evFwRollback := 0x0006
def evDeaccession := 0x0007
def evLinkRetrained := 0x0008
def evRefLost := 0x0010
def evRefRestored := 0x0011
def evJump := 0x0012
def evMarkFault := 0x0013
def evPllUnlock := 0x0014
def evPllLock := 0x0015
def evSyncDone := 0x0016
def evSliceFail := 0x0020
def evSliceRetired := 0x0021
def evMountInserted := 0x0028
def evMountReleased := 0x0029
def evMountRemoved := 0x002A
def evMountWriteFail := 0x002B
def evMountWarn := 0x002C
def evMountExpired := 0x002D
def evAccessionWrap := 0x0030
def evTriggerDisarmed := 0x0031
def evAttendantFault := 0x0032
def evCaptureRefused := 0x0038
def evStoreLost := 0x0039
def evPlaybackError := 0x003A
def evPlaybackDone := 0x003B
def evConservatorFault := 0x0040
def evHkMismatch := 0x0048
def evCalFail := 0x0049
def evCalAbandoned := 0x004A
def evMemUncorrectable := 0x0050
def evLaneFailed := 0x0051
def evLaneRepaired := 0x0052
def evPcRetired := 0x0053
def evTrample := 0x0054
def evCourierHalt := 0x0058
def evDriveFail := 0x0059
def evArchiveFull := 0x005A
def evDriveWarn := 0x005B
def evFormed := 0x0060
def evMemberLost := 0x0061
def evStale := 0x0062
def evLeaveDelayed := 0x0068
def evLeaveRefused := 0x0069
def evDomainFault := 0x006A
def evFallowExit := 0x006B
def evMigrationDone := 0x0070
def evGalleryFailed := 0x0071
def evThermal := 0x0078

/-- The 64 bytes of an event record (R490); PHASE under R487. -/
def eventBytes (size n code : Nat) (t : CT) (handle epoch : Nat) (payload : List Byte) : List Byte :=
  padTo 64 (fields [(2, code), (1, 1), (1, (n / size + 1) % 2), (4, n), (6, t.turn), (2, t.slot), (2, t.phase),
    (2, handle), (4, epoch)] ++ payload)

/-- Space in the event ring of a mailbox (R488). -/
def Mbox.room (m : Mbox) : Bool := m.ringSize != 0 && (m.produced + 2 ^ 32 - m.consumed) % 2 ^ 32 < m.ringSize

/-- Write the next event record: bytes 4 to 63, bytes 0 to 3, EVENT_PRODUCED, vector 1 (R487). -/
def State.writeEvent (s : State) (e : Held) : State :=
  let m := s.mb e.fn
  let b := eventBytes m.ringSize m.produced e.code e.time e.handle e.epoch e.payload
  let a := m.ringAddr + 64 * (m.produced % m.ringSize)
  (((s.send (.hostWrite e.fn (a + 4) (b.drop 4))).send (.hostWrite e.fn a (b.take 4))).setMb e.fn
    { m with produced := (m.produced + 1) % 2 ^ 32 }).msix e.fn 1

/-- EV_EVENTS_LOST as the next record once there is space again (R486, R488). -/
def State.flushLost (s : State) (fn : Nat) : State :=
  let m := s.mb fn
  if m.lostCount != 0 && m.room then
    (s.setMb fn { m with lostCount := 0, lostFirst := 0 }).writeEvent
      ⟨fn, evLost, s.time, 0xFFFF, 0, fields [(4, m.lostCount), (2, m.lostFirst)]⟩
  else s

/-- Count an event that cannot be written (R486, R488). -/
def State.loseEvent (s : State) (fn code : Nat) : State :=
  let m := s.mb fn
  s.setMb fn { m with lostCount := satAdd 32 m.lostCount 1,
                      lostFirst := if m.lostCount = 0 then code else m.lostFirst }

/-- Write an event, or count it while the ring is full or not set (R486 to R488). -/
def State.deliverEvent (s : State) (e : Held) : State :=
  let s := s.flushLost e.fn
  if (s.mb e.fn).room then s.writeEvent e else s.loseEvent e.fn e.code

/-- Post an event to one function: held while the Curator restarts, up to 4,096 (R497). -/
def State.postTo (s : State) (e : Held) : State :=
  if s.boot.st = 2 ∨ s.boot.st = 3 then
    if s.cur.held.length < 4096 then { s with cur := { s.cur with held := s.cur.held ++ [e] } }
    else s.loseEvent e.fn e.code
  else s.deliverEvent e

/-- Post an event that concerns no exhibit to PF0 (R489, R490). -/
def State.post (s : State) (code : Nat) (payload : List (Nat × Nat)) (fn : Nat := 0) : State :=
  s.postTo ⟨fn, code, s.time, 0xFFFF, 0, fields payload⟩

/-- Post an event to every function (R489). -/
def State.postAll (s : State) (code : Nat) (payload : List (Nat × Nat)) : State :=
  (List.range (s.boot.numVfs + 1)).foldl (fun s f => s.post code payload f) s

/-- Post an event about an exhibit to the function that owns it (R489). -/
def State.postEx (s : State) (h code : Nat) (payload : List (Nat × Nat)) : State :=
  s.postTo ⟨s.view.owner h, code, s.time, h, s.view.epoch h, fields payload⟩

/-- Set alert bits (R461). -/
def State.alert (s : State) (bits : Nat) : State := { s with cur := { s.cur with alert := s.cur.alert ||| bits } }

/-! ### Records and streams -/

/-- Key of a stream. -/
def skey (h st : Nat) : Nat := h * 256 + st

/-- State of a stream. -/
def State.stream (s : State) (k : Nat) : Stream := tget {} s.streams k

/-- Replace the state of a stream. -/
def State.setStream (s : State) (k : Nat) (x : Stream) : State := { s with streams := tset s.streams k x }

/-- Key of the stream of a record. -/
def Rec.key (r : Rec) : Nat := skey r.handle r.stream

/-- LENGTH of a record (R24). -/
def Rec.length (r : Rec) : Nat := roundUp (64 + r.body.length) 32

/-- The bytes of a record: common header, body, zeros to the unit (R24, R25). -/
def Rec.bytes (r : Rec) : List Byte :=
  padTo r.length (fields [(2, r.typ), (1, 1), (1, 2), (4, r.length), (2, r.handle), (1, r.stream), (1, r.chan),
    (4, r.epoch), (8, r.seq), (6, r.time.turn), (2, r.time.slot), (2, r.time.phase), (1, ofInt 8 r.rate), (1, r.elem),
    (4, r.quality), (8, r.sample), (6, r.accession), (2, 0), (4, r.count), (4, 0)] ++ r.body)

/-- fs-sample position of index n at rate fs/2^e, as numerator and denominator (R47). -/
def ratePos (e : Int) (n : Nat) : Nat × Nat := if 0 ≤ e then (n * 2 ^ e.toNat, 1) else (n, 2 ^ (-e).toNat)

/-- Cadence time of index n at rate fs/2^e (R47). -/
def ctRate (c : Cad) (e : Int) (n : Nat) : CT := ctAt c (ratePos e n).1 (ratePos e n).2

/-- First fs-sample at or after index n of rate fs/2^e. -/
def fsCeil (e : Int) (n : Nat) : Nat := ceilDiv (ratePos e n).1 (ratePos e n).2

/-- First index at rate fs/2^e at or after fs-sample S (R49). -/
def rateCeil (e : Int) (S : Nat) : Nat := if 0 ≤ e then ceilDiv S (2 ^ e.toNat) else S * 2 ^ (-e).toNat

/-- A stream as the configuration defines it: exhibit, number, record type, RATE (R25). -/
structure StreamDef where
  h    : Nat
  st   : Nat
  typ  : Nat
  rate : Int
deriving DecidableEq, Repr

/-- RATE of a path of a channel or gang (R25, R119, R124): DDC 1, chain output 4 + STAGES, less one for
each doubling of the input rate by a gang. -/
def View.pathRate (v : View) (h path : Nat) : Int :=
  if path = 0 then v.gridExp h + 1
  else v.gridExp h + 4 + (v.block btDecimation [h]).u 2 1

/-- RATE of the source path of a pipeline (R145). -/
def View.sourceRate (v : View) (h : Nat) : Int :=
  if (v.block btSpectrum [h]).u 3 1 = 0 then v.pathRate h 0 else v.pathRate h 1

/-- Lead member of an array in the order of R185, for the rate of a Concordance. -/
def View.concordMembers (v : View) (h : Nat) : List Nat :=
  let l := (v.reach h).filter fun m => v.isSampler m && !v.gangMember m
  (List.range 48).filterMap fun c => l.find? fun m => v.chan m == c

/-- The streams that a list of stream bytes turns on. -/
def onStreams (h typ : Nat) (rate : Int) (st : Nat) : List StreamDef := if st = 0xFF then [] else [⟨h, st, typ, rate⟩]

/-- The streams that a block defines (R142, R159, R180, R192, R230, R287, R310, R339, R345, R346, R351). -/
def View.blockStreams (v : View) (b : Block) : List StreamDef :=
  let t := b.typ
  let h := b.u 0 2
  if t = btRaw then onStreams h rtRaw (v.gridExp h) (b.u 2 1)
  else if t = btDdc then onStreams h rtIq (v.pathRate h 0) (b.u 14 1)
  else if t = btDecimation then
    onStreams h rtIq (v.pathRate h 1) (b.u 13 1) ++ onStreams h rtIq (v.pathRate h 2) (b.u 14 1)
  else if t = btSpectralStream then
    match b.u 3 1 with
    | 1 => [⟨h, b.u 2 1, rtBins, v.sourceRate h⟩]
    | 2 => [⟨h, b.u 2 1, rtPower, v.sourceRate h⟩]
    | 3 => [⟨h, b.u 2 1, rtTrace, v.sourceRate h⟩]
    | 4 => [⟨h, b.u 2 1, rtSpectrogram, v.sourceRate h⟩]
    | _ => []
  else if t = btSward then onStreams h rtSward (v.sourceRate h) (b.u 3 1)
  else if t = btConcordance then
    onStreams h rtConcordance (v.sourceRate ((v.concordMembers h).headD 0)) (b.u 3 1)
  else if t = btTrigger then onStreams h rtTrigger (v.gridExp h) (b.u 10 1)
  else if t = btStampStream then onStreams h rtStamps 0 (b.u 2 1)
  else if t = btPairing then
    if b.u 1 1 = 0 then []
    else onStreams (b.u 2 2) rtIntervals 0 (b.u 12 1) ++ onStreams (b.u 2 2) rtStats 0 (b.u 13 1)
  else if t = btCrossings then onStreams h rtCrossings 0 (b.u 2 1)
  else if t = btChannelInput then onStreams (v.handle (b.u 0 1)) rtSliceQuality 0 (b.u 7 1)
  else if t = btHousekeeping then onStreams h rtHousekeeping 0 (b.u 2 1) ++ onStreams h rtCalReport 0 (b.u 3 1)
  else if t = btConservator then
    (List.range 4).flatMap fun i => onStreams h rtConservator 0 (b.u (8 + i) 1)
  else []

/-- Every stream of the configuration, each (exhibit, number) once. -/
def View.streams (v : View) : List StreamDef :=
  (v.blocks.flatMap v.blockStreams).eraseDups

/-- The definition of a stream. -/
def View.streamDef (v : View) (h st : Nat) : Option StreamDef := v.streams.find? fun d => d.h == h && d.st == st

/-- RAW and IQ streams carry sample elements (R604). -/
def isSampleType (t : Nat) : Bool := t == rtRaw || t == rtIq

/-- STAMPS, INTERVALS, INTERVAL_STATS and CROSSINGS streams (R34, R352). -/
def isTdcType (t : Nat) : Bool := t == rtStamps || t == rtIntervals || t == rtStats || t == rtCrossings

/-- A Store is fed by the stream in this configuration (R256). -/
def View.feeds (v : View) (h st : Nat) : List Block :=
  (v.ofType btStore).filter fun b => b.u 2 1 == 1 && b.u 3 1 != 2 && b.u 4 2 == h && b.u 6 1 == st

/-- An analysis stream is active: it feeds a Store (R72; DEDUCED, log 31). -/
def View.active (v : View) (h st : Nat) : Bool := !(v.feeds h st).isEmpty

/-- Some stream of the configuration is active (R68, R72, R511). -/
def View.anyActive (v : View) : Bool := v.streams.any fun d => v.active d.h d.st

/-- The exhibit has an active stream (R485). -/
def View.exActive (v : View) (h : Nat) : Bool := v.streams.any fun d => d.h == h && v.active d.h d.st

/-- Epoch of an exhibit for a record that begins at fs-sample `lo`: until Tm the old placement's (R439). -/
def State.epochAt (s : State) (h lo : Nat) : Nat :=
  match tfind s.merge h with
  | some (old, new, tm) => if lo < tm then old else new
  | none => s.view.epoch h

/-- A record with its stream's next SEQ, epoch, channel and synthesisers (R25, R26, R71, R384). -/
def State.number (s : State) (r : Rec) : Rec :=
  { r with seq := (s.stream r.key).seq, epoch := s.epochAt r.handle r.lo, chan := s.view.chan r.handle,
           deps := if r.typ = rtHousekeeping ∨ r.typ = rtCalReport then [4] else s.view.deps r.handle }

/-- The stream of a record takes its next SEQ (R26). -/
def State.bumpSeq (s : State) (k : Nat) : State :=
  let x := s.stream k
  s.setStream k { x with seq := (x.seq + 1) % 2 ^ 64 }

/-- Stores fed by a stream, rising (R256); none after a thermal trip (R589). -/
def State.fed (s : State) (h st : Nat) : List Nat :=
  if s.pow.tripped then [] else s.store.filterMap fun e =>
    if !e.2.blk.isEmpty && getU e.2.blk 3 1 != 2 && getU e.2.blk 4 2 == h && getU e.2.blk 6 1 == st then some e.1
    else none

/-- A loss that starts at fs-sample `lo` replaces the record: a sample record that begins before `lo` is
cut instead (R70, R604). -/
def lostAt (lo : Nat) (r : Rec) : Bool :=
  if r.typ = rtLacuna || r.typ = rtDiscontinuity then false
  else if isSampleType r.typ then decide (lo ≤ r.lo) else decide (lo < r.hi)

/-- Give a record its stream's next SEQ and put it among the produced records (R26). A stream that feeds no
Store produces none (R256), and a record that falls into an open gap is part of it (R33). -/
def State.produce (s : State) (r : Rec) : State :=
  let lost := match (s.stream r.key).gap with | some g => lostAt g.start r | none => false
  if (s.fed r.handle r.stream).isEmpty || lost then s
  else { s.bumpSeq r.key with produced := s.produced ++ [s.number r] }

/-- QUALITY of a LACUNA record (R34): HOLDOVER and CADENCE_JUMP over the missing span [lo, hi); for a stream without
samples at the instant of index `n` of rate fs/2^e. -/
def lacunaQuality (c : Cad) (sampled : Bool) (e : Int) (n lo hi : Nat) : Nat :=
  if sampled then cadQuality c lo (max (lo + 1) hi)
  else let p := (ratePos e n).1 / (ratePos e n).2; cadQuality c p (p + 1)

/-- A LACUNA record of a stream for [lo, hi) in fs-samples (R34). `seqs` SEQ values from `first`. -/
def lacunaRec (c : Cad) (v : View) (h st cause unit lo hi first seqs : Nat) : Rec :=
  let d := (v.streamDef h st).getD ⟨h, st, rtTrigger, 0⟩
  let n := rateCeil d.rate lo
  let span := if isSampleType d.typ then rateCeil d.rate hi - n else if isTdcType d.typ then hi - lo else 0
  { typ := rtLacuna, of := d.typ, handle := h, stream := st, seq := first, time := ctRate c d.rate n, rate := d.rate,
    quality := lacunaQuality c (isSampleType d.typ) d.rate n lo hi, sample := n, lo := lo, hi := hi,
    body := fields [(8, span), (4, seqs), (1, cause), (1, unit), (18, 0)] }

/-- Stream number of a path of a configuration: 0 DDC, 1 fine, 2 coarse, 3 RAW; 0xFF none (R141, R142, R262). -/
def ChainCfg.stream (c : ChainCfg) (path : Nat) : Nat :=
  match path with | 0 => getU c.ddc 14 1 | 1 => getU c.dec 13 1 | 2 => getU c.dec 14 1 | _ => getU c.raw 2 1

/-- The samples of stream `st` from the record in progress up to index `limit`, if there are any. -/
def State.tailTo (s : State) (h st limit : Nat) : Option Tail :=
  let x := s.stream (skey h st)
  let ch : Chain := tget {} s.chain h
  match ch.cfgs.getLast? with
  | none => none
  | some c =>
    match (List.range 4).find? fun p => c.stream p == st with
    | some p => if x.next < limit then some { path := p, next := x.next, limit := some limit, cfg := c, chain := ch } else none
    | none => none

/-- A record that follows samples not yet taken waits behind them (R36, R604). -/
def Stream.behind (x : Stream) (r : Rec) : Stream :=
  match x.tails.getLast? with
  | some t => { x with tails := x.tails.dropLast ++ [{ t with after := t.after ++ [r] }] }
  | none => x

/-- Close the open gap of a stream at fs-sample `hi`: its LACUNA record is produced, behind the samples before the gap
(R33, R34, R604). -/
def State.closeGap (s : State) (h st hi : Nat) : State :=
  let k := skey h st
  let x := s.stream k
  match x.gap with
  | none => s
  | some g =>
    let first := if g.seqs = 0 then x.seq else g.first
    let r := lacunaRec s.cad s.view h st g.cause g.unit g.start (max g.start hi) first (max 1 g.seqs)
    let r := { r with epoch := if g.cause = caMigration then s.view.epoch h else s.epochAt h g.start, chan := s.view.chan h, deps := [] }
    let x : Stream := { x with gap := none, next := (lacunaRec s.cad s.view h st 0 0 hi hi 0 0).sample,
                               tails := x.tails ++ (s.tailTo h st r.sample).toList }
    if x.tails.isEmpty then
      { s.setStream k { x with seq := if g.seqs = 0 then (x.seq + 1) % 2 ^ 64 else x.seq } with produced := s.produced ++ [r] }
    else s.setStream k (x.behind r)

/-- The CADENCE_DISCONTINUITY record of a stream at an anchor sample (R36). -/
def discontinuityRec (c : Cad) (d : StreamDef) (old : CT) (backward : Bool) (oldSample : Nat) : Rec :=
  let n := rateCeil d.rate c.now
  { typ := rtDiscontinuity, of := d.typ, handle := d.h, stream := d.st, time := ctOf c c.now, rate := d.rate, quality := qJump,
    sample := n, lo := c.now, hi := c.now,
    body := fields [(6, old.turn), (2, old.slot), (2, old.phase), (1, b2n backward), (5, 0),
      (8, rateCeil d.rate oldSample), (8, 0)] }

/-! ### Free values (DESIGN CHOICE, log 7) -/

/-- The next free number, of which nothing is known. -/
def State.freeNat (s : State) : Nat × State := (Config.freeNat s.free, { s with free := s.free + 1 })
/-- The next free integer. -/
def State.freeInt (s : State) : Int × State := (Config.freeInt s.free, { s with free := s.free + 1 })
/-- The next `n` free bytes. -/
def State.freeBytes (s : State) (n : Nat) : List Byte × State :=
  ((List.range n).map fun i => Config.freeByte (s.free + i), { s with free := s.free + n })

/-- A step that the state does not call for changes nothing but the time (DESIGN CHOICE, log 12). -/
def State.unless (s : State) (c : Bool) (s' : State) : State := if c then s' else s

end Sys2Proof.Machine
end

