-- ==== Sys2Proof/Machine/Mailbox.lean ====
section
/-! DEFINITION. The mailbox protocol of one command (R465 to R473): submission, SEQ and replay, the
checks every command shares, atomic execution and the completion of R469. -/
namespace Sys2Proof.Machine

/-- A command's effect: the state it leaves and its result bytes, or the refusal (R471). -/
abbrev Effect := Except Err (State × List Byte)

/-- Refuse with an error code. -/
def refuse {α : Type} (code : Nat) (detail : Nat := 0) : Except Err α := .error ⟨code, detail, []⟩

/-- Refuse unless the condition holds. -/
def ensure (c : Bool) (code : Nat) (detail : Nat := 0) : Except Err Unit := if c then .ok () else refuse code detail

/-- Refuse with the error of a check that fails. -/
def pass (e : Option Err) : Except Err Unit := match e with | none => .ok () | some x => .error x

end Sys2Proof.Machine

namespace Sys2Proof
open Sys2Proof.Machine

/-- Parameter bytes as LENGTH counts them (R465). -/
def Req.bytes (r : Req) : List Byte := padTo r.len r.params

/-- Parameter field. -/
def Req.u (r : Req) (off size : Nat) : Nat := getU r.params off size

/-- LENGTH as the command wants it (R466, R493). -/
def Req.lenIs (r : Req) (n : Nat) : Except Err Unit := ensure (r.len == n) eLength

/-- Reserved parameter bytes are zero (R12). -/
def Req.rsvIs (r : Req) (off size : Nat) : Except Err Unit := ensure (r.u off size == 0) eReserved off

/-- A command that takes one number or handle (R473). -/
def Req.oneNum (r : Req) : Except Err Nat := do
  r.lenIs 8; r.rsvIs 2 6; return r.u 0 2

/-- A command that takes two numbers (R473). -/
def Req.twoNum (r : Req) : Except Err (Nat × Nat) := do
  r.lenIs 8; r.rsvIs 4 4; return (r.u 0 2, r.u 2 2)

end Sys2Proof

namespace Sys2Proof.Machine

/-- A cadence time in parameter bytes: TURN 6, SLOT 2, PHASE 2 (R475, R479). -/
def ctOfBytes (b : List Byte) (off : Nat) : CT := ⟨getU b off 6, getU b (off + 6) 2, getU b (off + 8) 2⟩

/-- A cadence time as TURN, SLOT, PHASE fields. -/
def ctFields (t : CT) : List (Nat × Nat) := [(6, t.turn), (2, t.slot), (2, t.phase)]

/-- The exhibit that a command names belongs to the function (R472, R493). -/
def ownedHandle (s : State) (fn h : Nat) (off : Nat := 0) : Except Err Exhibit :=
  match s.view.find h with
  | none => refuse eUndefined off
  | some e => if e.owner = fn then .ok e else refuse eNotOwner off

/-- Bytes of a response header (R470). -/
def Resp.header (p : Resp) (replay : Bool) : List Byte :=
  fields ([(2, p.opcode), (2, b2n replay + 2 * b2n (p.addr != 0)), (4, p.seq), (4, p.result.length), (2, p.error),
    (2, p.detail)] ++ ctFields p.time ++ [(6, 0)])

/-- The completion of R469: response, LAST_SEQ, BUSY and RESP_VALID, vector 0. -/
def State.complete (s : State) (fn : Nat) (p : Resp) (replay : Bool) (lastSeq : Nat) (stored : Option Resp) : State :=
  let s := if p.addr = 0 then s else s.send (.hostWrite fn p.addr p.result)
  let m := s.mb fn
  let area := putBytes (padTo 2048 m.area) 0 (p.header replay ++ (if p.addr = 0 then p.result else []))
  (s.setMb fn { m with area := area, stored := stored, lastSeq := lastSeq, busy := false, respValid := true,
                       replay := replay }).msix fn 0

/-- Commands that recovery mode still answers (R578). -/
def recoveryOps : List Nat := [0x0001, 0x00B0, 0x00C0, 0x00C1, 0x00C2, 0x00C3]

/-- Limupen takes requests: STATE 1, or STATE 4 in recovery mode, and the Curator is powered (R459, R537, R578). -/
def State.accepting (s : State) : Bool :=
  (s.boot.st == 1 || (s.boot.st == 4 && s.boot.recovery)) && s.pow.fallow == 0 && s.pow.entering.isNone

/-- The checks that every command shares, then its body (R465, R466, R493); the order is DESIGN CHOICE, log 32. -/
def checked (op : Nat) (pf : Bool) (r : Req) (s : State) (body : State → Effect) : Effect := do
  ensure (s.boot.st == 1 || recoveryOps.contains op) eFwState
  ensure (!pf || r.fn == 0) eNotPf
  ensure (r.rsv == 0) eReserved
  ensure (r.len ≤ 1052672 && (r.paramAddr != 0 || r.len ≤ 2016)) eLength
  ensure (r.paramAddr == 0 || r.memOk) eHostAccess
  let (s', res) ← body s
  ensure (res.length ≤ 2016 || r.respAddr != 0) eRespTooLong
  ensure (res.length ≤ 2016 || r.memOk) eHostAccess
  return (s', res)

/-- One mailbox request, from its submission (if RING has not been written yet) to its completion; `onErr` is
what a refusal leaves beside its response. -/
def runWith (onErr : Err → State → State) (op : Nat) (pf : Bool) (r : Req) (s : State) (body : State → Effect) :
    State :=
  let s := s.tick r.t
  if !s.accepting then s
  else
    let m := s.mb r.fn
    let resp (e d : Nat) (res : List Byte) (addr : Nat) : Resp :=
      { opcode := op, seq := r.seq, error := e, detail := d, time := s.time, result := res, addr := addr }
    if r.seq = (m.lastSeq + 1) % 2 ^ 32 then
      match checked op pf r s body with
      | .ok (s', res) =>
        let p := resp eOk 0 res (if res.length ≤ 2016 then 0 else r.respAddr)
        s'.complete r.fn p false r.seq (some p)
      | .error e =>
        let p := resp e.code e.detail e.result 0
        (onErr e s).complete r.fn p false r.seq (some p)
    else if r.seq = m.lastSeq then
      -- R467: the stored response once more
      let p := m.stored.getD (resp eOk 0 [] 0)
      s.complete r.fn p true m.lastSeq m.stored
    else
      s.complete r.fn (resp eSeq ((m.lastSeq + 1) % 2 ^ 16) [] 0) false m.lastSeq m.stored

/-- One mailbox request whose refusal leaves nothing but its response. -/
def runCommand (op : Nat) (pf : Bool) (r : Req) (s : State) (body : State → Effect) : State :=
  runWith (fun _ s => s) op pf r s body

/-- A command that acts once its response is complete: `after` follows a fresh command that is not refused. -/
def runThen (op : Nat) (pf : Bool) (r : Req) (s : State) (body : State → Effect) (after : State → State) : State :=
  let s' := runCommand op pf r s body
  let s0 := s.tick r.t
  let done := s0.accepting && r.seq == ((s0.mb r.fn).lastSeq + 1) % 2 ^ 32 && (checked op pf r s0 body).toBool
  if done then after s' else s'

end Sys2Proof.Machine
end

