-- ==== Sys2Proof/Machine/Cadence.lean ====
section
/-! DEFINITION. Cadence and clock synthesis (02): reference, marks, lock detection, SYNC_IN, and the
parts of re-anchoring and loss of lock that concern the cadence itself. -/
namespace Sys2Proof.Machine

/-- Replace the cadence state. -/
def State.setCad (s : State) (c : Cad) : State := { s with cad := c }

/-- Replace one synthesiser. -/
def Cad.setPll (c : Cad) (k : Nat) (p : Pll) : Cad := { c with plls := tset c.plls k p }

/-! ### Clock outputs (R48, R65 to R68) -/

/-- Frequency of the selected reference in uHz (R45). -/
def refMicroHz (b : Block) : Nat := if b.u 0 1 = 1 then b.u 16 8 else 100000000000000

/-- P_ref and D = R x P_ref / SLOT_DIV of a CADENCE block, with the smallest P_ref that keeps the PFD at 250 MHz or less
(R65). -/
def dividerOf (b : Block) : Divider :=
  let f := refMicroHz b
  let p := if f ≤ 250000000000000 then 1 else if f ≤ 500000000000000 then 2 else 4
  let den := 2 ^ 32 * (if b.u 0 1 = 1 then b.u 4 2 else 1)
  { pref := p, int := cadRnum b * p / den, num := cadRnum b * p % den, den := den }

/-- Every synthesiser acquires from sample `t` on, with the dividers of a CADENCE block (R65, R69). -/
def acquirePlls (b : Block) (t : Nat) : Table Pll :=
  (List.range 5).map fun k => (k, { fb := dividerOf b, acquiring := true, winFrom := t })

/-- The conversion after the anchor's reference edge that carries an fs-sample index (R48). -/
def conversionOf (c : Cad) (S : Int) : Int := S + c.offset / 64

/-- Fine delay steps of ADC clock `k` (0 to 3) or DAC clock `k - 4`: the calibrated alignment and the fraction of
CADENCE_OFFSET (R48, R66). -/
def clockFine (c : Cad) (k : Nat) : Nat := (c.align.getD k 0 + (c.offset % 64).toNat) % 64

/-- Limupen sets the delays that align the sampling instants, at start-up and after every SYNC_IN; the values are free (R66;
DESIGN CHOICE, log 7). -/
def alignClocks (s : State) : State :=
  (List.range 8).foldl (fun s k =>
    let (x, s) := s.freeNat
    s.setCad { s.cad with align := s.cad.align.set k (x % 64) }) s

/-- Outputs of the synthesisers that Limupen manages (R66). -/
inductive UnitClk where
  | adc (w : Nat)
  | dac (w : Nat)
  | link (w : Nat)
  | fabric
deriving DecidableEq, Repr

/-- Divider, fine delay and enable of such an output (R66). -/
def unitClock (s : State) (u : UnitClk) : Nat × Nat × Bool :=
  let d := s.pow.domains
  match u with
  | .adc w => (1, clockFine s.cad w, d.testBit (5 + w))
  | .dac w => (1, clockFine s.cad (4 + w), d.testBit 29)
  | .link w => (8, 0, d.testBit (9 + w))
  | .fabric => (8, 0, d.testBit 26)

/-- First rising edge at or after `u` (1/64 VCO period) of a setting that has applied since the last SYNC_IN (R67, R68). -/
def clkFirst (c : Cad) (o : ClkOut) (u : Int) : Int :=
  let base := 64 * c.syncAt + 64 * o.coarse + o.fine
  base + ceilDivI (u - base) (64 * o.divider) * (64 * o.divider)

/-- Level of a CLK_OUT output at instant `u` (1/64 VCO period): high for the first half of each period (DESIGN CHOICE,
DESIGN CHOICE, log 116). -/
def ClkOut.high (o : ClkOut) (u : Int) : Bool :=
  decide (u < o.fall) || (o.enable && decide (o.rise ≤ u) && decide ((u - o.rise) % (64 * o.divider) < 32 * o.divider))

/-- End of the latest or running high pulse at instant `u`. -/
def ClkOut.lastFall (o : ClkOut) (u : Int) : Int :=
  if o.fall ≤ u ∧ o.enable = true ∧ o.rise ≤ u then u - (u - o.rise) % (64 * o.divider) + 32 * o.divider else o.fall

/-- An output changes to a new setting at instant `u` with no pulse shorter than half the shorter period (R67). -/
def ClkOut.change (c : Cad) (u : Int) (o new : ClkOut) : ClkOut :=
  let fall := o.lastFall u
  { new with fall := fall, rise := clkFirst c new (max u (fall + 32 * min o.divider new.divider)) }

/-- The committed CADENCE block. -/
def State.cadBlock (s : State) : Block := s.block btCadence []

/-- HOLDOVER ends at sample `t`: the open span is closed (R57, R60). -/
def Cad.endHold (c : Cad) (t : Nat) : Cad :=
  match c.holdFrom with
  | some f => { c with holdFrom := none, holdSpans := c.holdSpans ++ [(f, t)] }
  | none => c

/-- R57, R64: the reference is lost; every synthesiser coasts from the frozen word. -/
def refLost (t : Nat) (s : State) : State :=
  let s := s.tick t
  if s.cad.coasting then s
  else
    let c := s.cad
    (s.setCad { c with coasting := true, refPresent := false, returned := none, slewing := false, slewPpb := 0,
                       holdFrom := some (c.holdFrom.getD c.now) }).post evRefLost [(1, s.cad.source)]

/-- R58, R59: the reference counts as returned; `phase` was measured against the coasting slots. -/
def refReturned (t : Nat) (phase : Int) (s : State) : State :=
  let s := s.tick t
  let c := s.cad
  if !c.coasting then s
  else
    let jw := s.cadBlock.u 30 2
    let c := { c with coasting := false, refPresent := true, returned := if c.anchored then some phase else none,
                      returnedAt := c.now }
    s.setCad (if phase.natAbs ≤ jw ∧ c.anchored then c else c.endHold c.now)

/-- R60: slewing ends, fs returns to its locked value. -/
def slewEnd (t : Nat) (s : State) : State :=
  let s := s.tick t
  if !s.cad.slewing then s
  else (s.setCad { s.cad.endHold s.cad.now with slewing := false, slewPpb := 0 }).post evRefRestored [(1, 0)]

/-- R55: a missing mark is counted, and counting continues. -/
def markMissing (s : State) : State :=
  let c := s.cad
  if c.anchored ∧ c.source = 1 ∧ !c.coasting then s.setCad { c with markMissing := satAdd 32 c.markMissing 1 } else s

/-- Cadence time of the slot boundary that a reference edge defines, where the count reads `pos` at the edge: it lies
CADENCE_OFFSET/64 fs-samples after the edge (R48; DESIGN CHOICE, log 112). -/
def edgeTime (c : Cad) (pos : CT) : CT :=
  if c.offset = 0 then pos
  else
    let q := (ceilDivI (ctPos c pos + c.offset * 2 ^ 42) c.rnum).toNat
    { ctOfSlot c (q / 2 ^ 16) with phase := q % 2 ^ 16 }

/-- Signed distance of a mark from the nearest slot-0 boundary, in 1/65,536 slot, when its slot is the
first or the last of a turn (R60). -/
def markOffset (c : Cad) (pos : CT) : Option Int :=
  if pos.slot = 0 ∧ (c.spt > 1 ∨ pos.phase < 32768) then some pos.phase
  else if pos.slot + 1 = c.spt then some ((pos.phase : Int) - 65536)
  else none

/-- The mark lies within JUMP_WINDOW of a boundary that begins slot 0 (R60). -/
def markWithin (c : Cad) (jw : Nat) (pos : CT) : Bool :=
  match markOffset c pos with | some d => d.natAbs ≤ jw | none => false

/-- Reference periods in a slot. -/
def slotDiv (b : Block) : Nat := if b.u 0 1 = 1 then b.u 4 2 else 1

/-- The mark lies within JUMP_WINDOW of a slot-0 boundary, on the reference edge at the measured phase: nearer to it than to
the next edge, one reference period away (R60; DESIGN CHOICE, log 114). -/
def markAtPhase (s : State) (phase : Int) (pos : CT) : Bool :=
  markWithin s.cad (s.cadBlock.u 30 2) pos &&
    match markOffset s.cad pos with
    | some d => decide ((d - phase).natAbs * (2 * slotDiv s.cadBlock) < 65536)
    | none => false

/-- R60: slewing begins; the direction follows the measured phase. -/
def beginSlew (phase : Int) (s : State) : State :=
  s.setCad { s.cad with returned := none, slewing := true,
                        slewPpb := if phase < 0 then 1000 else if 0 < phase then -1000 else 0 }

/-- R55, R56: a misplaced mark is counted and reported; true when it ends a run that re-anchors. -/
def misplaced (pos : CT) (s : State) : State × Bool :=
  let c := s.cad
  let same := c.markRun != 0 && c.markLast.slot == pos.slot && c.markLast.phase == pos.phase &&
    turnDiff pos.turn c.markLast.turn == 1
  let run := if same then c.markRun + 1 else 1
  let n := satAdd 32 c.markFaults 1
  let s := (s.setCad { c with markFaults := n, markRun := run, markLast := pos }).post evMarkFault
    [(2, pos.slot), (4, n)]
  (s, s.cadBlock.u 38 1 ≤ run)

/-- The new cadence time at a re-anchoring mark (R62). -/
def anchorTime (c : Cad) (pos : CT) : CT :=
  ⟨if 2 * pos.slot < c.spt then pos.turn else (pos.turn + 1) % 2 ^ 48, 0, 0⟩

/-- R62, R63: the cadence reads the new time at the mark; answers the new state, and whether the jump
is backward. Streams and pending actions follow in reanchor (Sequence.lean). EV_REF_RESTORED follows only where a loss of the
reference came before, not at the end of a run of misplaced marks (R74; DESIGN CHOICE, log 118). -/
def moveAnchor (pos : CT) (s : State) : State × Bool :=
  let c := s.cad
  let new := anchorTime c pos
  let S := sampleOf c new
  let back := !ctLt pos new
  let c' := match c.holdFrom with
    | some _ => c.endHold (if c.returned.isSome then c.returnedAt else c.now)
    | none => c
  let restored := c.returned.isSome || c.slewing
  let c' := { c' with now := S, returned := none, slewing := false, slewPpb := 0, coasting := false,
                      markRun := 0, jumps := satAdd 32 c.jumps 1, jumpSpan := some (S, nextTurn c S) }
  let s := (s.setCad c').post evJump
    [(1, b2n back), (6, pos.turn), (2, pos.slot), (2, pos.phase), (8, S)]
  (if restored then s.post evRefRestored [(1, 1)] else s, back)

/-- R43: the anchor. In the model every lock is declared and the anchor awaited. Pending times take
their index on the new map. -/
def anchor (s : State) : State :=
  let c := s.cad
  if !(c.awaitAnchor && allLocked c) then s
  else
    let b := s.cadBlock
    let c := { c with now := 0, anchored := true, awaitAnchor := false, keptTurn := none,
                      turnInit := c.keptTurn.getD (b.u 24 6), rnum := cadRnum b, spt := cadSpt b,
                      jumpSpan := none, holdFrom := none, holdSpans := [], markRun := 0,
                      plls := (List.range 5).foldl (fun t k => tset t k { tget {} t k with winFrom := 0, lockAt := 0 })
                        c.plls }
    { s with cad := c,
             cur := { s.cur with pending := s.cur.pending.map fun p => { p with sT := sampleOf c p.time } } }

/-- A synthesiser declares lock (R69). -/
def declareLock (k : Nat) (s : State) : State :=
  let p := pllOf s.cad k
  (s.setCad (s.cad.setPll k { p with locked := true, acquiring := false, lockAt := s.cad.now })).post evPllLock [(1, k)]

/-- A synthesiser declares loss of lock: the CLOCK lacuna starts with the window of the declaration
(R70). Streams follow in pllLoss (Sequence.lean). -/
def declareLoss (k : Nat) (s : State) : State :=
  let p := pllOf s.cad k
  let c := s.cad.setPll k { p with locked := false, good := 0, lossFrom := some (p.lossFrom.getD p.winFrom), lossAt := s.cad.now }
  (s.setCad { c with unlocks := satAdd 32 c.unlocks 1 }).post evPllUnlock [(1, k)]

/-- What a lock window's end does to one synthesiser (R58, R69): answers the state, and whether a loss is
declared. -/
def windowEnd (k diff t : Nat) (s : State) : State × Bool :=
  let s := s.tick t
  let c := s.cad
  let p := pllOf c k
  if c.coasting then (s.setCad (c.setPll k { p with winFrom := c.now }), false)
  else
    let s := s.setCad { c with refPresent := true }
    if p.locked then
      if 8 < diff then (declareLoss k s, true) else (s.setCad (s.cad.setPll k { p with winFrom := c.now }), false)
    else
      let good := if diff ≤ 2 then p.good + 1 else 0
      let s := s.setCad (s.cad.setPll k { p with good := good, winFrom := c.now })
      (if 4 ≤ good then declareLock k s else s, false)

/-- First turn boundary after relock plus 100 us of settling, 1,024,000 fs-samples (R8, R70). -/
def resumeAt (c : Cad) (p : Pll) : Nat := turnAtOrAfter c (p.lockAt + 1024000)

/-- Synthesisers whose analysis resumes at sample `t` (R70). -/
def resumable (c : Cad) (t : Nat) : List Nat :=
  (List.range 5).filter fun k => let p := pllOf c k
    p.lossFrom.isSome && p.locked && decide (resumeAt c p ≤ t)

/-- R68: SYNC_IN found high on a reference edge while armed. -/
def syncIn (t : Nat) (s : State) : State :=
  let s := s.tick t
  if s.cad.syncArmed then s.setCad { s.cad with syncDue := true } else s

/-- R68: eight reference cycles later every output divider restarts. -/
def syncAlign (t : Nat) (s : State) : State :=
  let s := s.tick t
  if s.cad.syncDue then
    let s := s.setCad { s.cad with syncDue := false, syncArmed := false, syncAt := s.cad.now, synced := true }
    let s := { s with clkOut := tmap s.clkOut fun _ o =>
      { o with fall := 64 * s.cad.now, rise := clkFirst s.cad o (64 * s.cad.now) } }
    (alignClocks s).post evSyncDone []
  else s

/-- STATE of CADENCE_STATUS (R74). -/
def cadState (c : Cad) : Nat :=
  if c.coasting then 3 else if c.slewing then 4 else if allLocked c then 2 else if c.refPresent then 1 else 0

/-- Result of CADENCE_STATUS (R74). -/
def cadenceStatusBytes (s : State) : List Byte :=
  let c := s.cad
  fields (ctFields s.time ++ [(1, cadState c),
    (1, maskOf ((List.range 5).filter fun k => (pllOf c k).locked && !c.coasting)), (8, c.now), (4, c.markFaults),
    (4, c.markMissing), (4, c.jumps), (4, c.unlocks), (4, ofInt 32 c.slewPpb), (8, 0)])

/-- CADENCE_STATUS (R74). -/
def cadenceStatusBody (r : Req) (s : State) : Effect := do
  r.lenIs 0
  return (s, cadenceStatusBytes s)

/-- CLOCK_SYNC_ARM (R68). -/
def clockSyncArmBody (r : Req) (s : State) : Effect := do
  r.lenIs 0
  ensure (!s.view.anyActive) eActive
  return (s.setCad { s.cad with syncArmed := true }, [])

/-- Two CADENCE blocks differ in a field other than JUMP_WINDOW and MARK_LIMIT (R72). -/
def cadenceChanges (a b : Block) : Bool :=
  let mask (d : List Byte) := putU (putU d 30 2 0) 38 1 0
  mask a.data != mask b.data

/-- Commit check of a CADENCE block against the view at T (R72). -/
def chkCadence (v : View) (b : Block) : Option Nat :=
  if cadenceChanges (v.block btCadence []) b && v.anyActive then some eActive else none

/-- A CADENCE block takes effect: locks are released and a new anchor is awaited (R48, R65, R69, R72). A device that coasts
goes on coasting, so that acquisition waits for its reference (DESIGN CHOICE, log 117). -/
def applyCadence (old new : Block) (s : State) : State :=
  if cadenceChanges old new then
    s.setCad { s.cad with
      source := new.u 0 1, anchored := false, awaitAnchor := true, synced := false, returned := none,
      slewing := false, slewPpb := 0, markRun := 0, offset := toInt 32 (new.u 32 4), plls := acquirePlls new s.cad.now }
  else s

/-- A CLOCK_OUTPUT block takes effect (R66, R67, R585). -/
def applyClockOutput (b : Block) (s : State) : State :=
  let new : ClkOut := { enable := b.u 1 1 == 1, divider := b.u 2 2, coarse := b.u 4 2, fine := b.u 6 1, std := b.u 7 1 }
  let o := ClkOut.change s.cad (64 * s.cad.now) (tget {} s.clkOut (b.u 0 1)) new
  { s with clkOut := tset s.clkOut (b.u 0 1) o }

end Sys2Proof.Machine
end

