-- ==== Sys2Proof/Machine/Health.lean ====
section
/-! DEFINITION. The health log and deaccession (R461, R462, R564 to R567). -/
namespace Sys2Proof.Machine

/-- HEALTH cause bits (R461). -/
def hcReserve := 1
def hcSlice := 2
def hcRepair := 3
def hcPc := 4
def hcLockstep := 5

/-- Replace the health state. -/
def State.setHealth (s : State) (h : Health) : State := { s with health := h }

/-- Write an entry into the ring of 4,096 (R566). -/
def logEntry (kind unit sub detail : Nat) (s : State) : State :=
  let h := s.health
  let e : LogEntry := ⟨h.total, kind, unit, sub, h.cycles, h.onMs / 1000, detail⟩
  let l := h.entries ++ [e]
  s.setHealth { h with entries := l.drop (l.length - 4096), total := h.total + 1 }

/-- Physical galleries usable, 0 to 9 (R461). -/
def Health.usable (h : Health) : Nat := 9 - h.galleries.length

/-- Pseudo-channels in service in a stack (R461). -/
def Health.inService (h : Health) (stack : Nat) : Nat := 32 - (h.pcs.filter (·.1 == stack)).length

/-- Register 0x0200 (R461). -/
def healthReg (h : Health) : Nat := b2n (h.causes != 0) + h.causes + h.usable * 2 ^ 16

/-- Register 0x0204 (R461). -/
def capacityReg (h : Health) : Nat := h.inService 0 + h.inService 1 * 2 ^ 8

/-- DEACC_N is driven low (R462, R565). -/
def State.deaccLow (s : State) : Bool := s.health.causes != 0

/-- ALERT_N is driven low (R462). -/
def State.alertLow (s : State) : Bool := s.cur.alert &&& s.cur.alertMask != 0

/-- A deaccession notice for a cause that first occurs (R564, R565). -/
def deaccession (cause : Nat) (s : State) : State :=
  if s.health.causes.testBit cause then s
  else
    let c := s.health.causes ||| 2 ^ cause
    logEntry 8 0xFF 0 c (((s.setHealth { s.health with causes := c }).alert alHealth).postAll evDeaccession [(4, c)])

/-- Result of HEALTH_LOG_READ (R567). -/
def healthLogBytes (h : Health) (first count : Nat) : List Byte :=
  let oldest := h.total - h.entries.length
  fields [(4, h.total), (4, oldest), (4, h.cycles), (4, 0)] ++
    (List.range count).flatMap fun i =>
      match h.entries.find? (·.index == first + i) with
      | some e => fields [(4, e.index), (1, e.kind), (1, e.unit), (2, e.sub), (4, e.cycle), (8, e.onTime),
          (8, e.detail), (4, 0)]
      | none => zeros 32

/-- HEALTH_LOG_READ (R567). -/
def healthLogReadBody (r : Req) (s : State) : Effect := do
  r.lenIs 16
  r.rsvIs 8 8
  ensure (1 ≤ r.u 4 4 && r.u 4 4 ≤ 64) eRange 4
  ensure (s.health.total - s.health.entries.length ≤ r.u 0 4) eRange 0
  return (s, healthLogBytes s.health (r.u 0 4) (r.u 4 4))

end Sys2Proof.Machine
end

