-- ==== Sys2Proof/Machine/Wings.lean ====
section
/-! DEFINITION. Converter wings (03): slices, gleaning, quality figures and the quality that channels
give their records. -/
namespace Sys2Proof.Machine

/-- The state of a channel. -/
def State.ch (s : State) (c : Nat) : Chan := tget {} s.chan c

/-- Replace the state of a channel. -/
def State.setCh (s : State) (c : Nat) (x : Chan) : State := { s with chan := tset s.chan c x }

/-- A slice of a channel. -/
def Chan.slice (x : Chan) (k : Nat) : Slice := tget (Slice.reset k) x.slices k

/-- Replace a slice. -/
def Chan.setSlice (x : Chan) (k : Nat) (v : Slice) : Chan := { x with slices := tset x.slices k v }

/-- The slice at a position, or out of service (16). -/
def Chan.at (x : Chan) (pos : Nat) : Option Nat := (List.range 17).find? fun k => (x.slice k).pos == pos

/-- Add a span of a quality condition to a channel. -/
def Chan.mark (x : Chan) (tag q lo : Nat) (hi : Option Nat) : Chan := { x with marks := x.marks ++ [⟨tag, q, lo, hi⟩] }

/-- A condition with start `f` ends at `t`: its span is kept. -/
def Chan.ended (x : Chan) (f : Option Nat) (q t : Nat) : Chan :=
  match f with | some a => x.mark 0 q a (some t) | none => x

/-- A running condition with start `f` covers a sample below `hi`. -/
def runs (f : Option Nat) (hi : Nat) : Bool := match f with | some a => decide (a < hi) | none => false

/-- Some sample of [lo, hi) lies in the span. -/
def QSpan.hits (p : QSpan) (lo hi : Nat) : Bool :=
  decide (p.lo < hi) && (match p.hi with | some e => decide (lo < e) | none => true)

/-- CAL_STALE of the calibrations with the given tags over [lo, hi) (R388). -/
def State.staleQ (s : State) (tags : List Nat) (lo hi : Nat) : Nat :=
  qIf (s.calSpans.any fun p => tags.contains p.tag && p.hits lo hi) qCalStale

/-- Tag of a calibration kind and unit. -/
def calTag (kind unit : Nat) : Nat := 256 * kind + unit

/-- A calibration is stale from sample `t` (R388). -/
def State.staleFrom (s : State) (tag t : Nat) : State :=
  if s.calSpans.any fun p => p.tag == tag && p.hi.isNone then s
  else { s with calSpans := s.calSpans ++ [⟨tag, qCalStale, t, none⟩] }

/-- A calibration is good again from sample `t` (R388). -/
def State.staleEnd (s : State) (tag t : Nat) : State :=
  { s with calSpans := s.calSpans.map fun p => if p.tag == tag && p.hi.isNone then { p with hi := some t } else p }

/-- Calibrations that records derived from a comparator's crossings rest on (R388). -/
def cmpTags (n : Nat) : List Nat := [calTag 0 0xFF, calTag 3 (if n < 48 then n / 12 else 4)]

/-- Calibrations that records derived from stamps of a source rest on (R344, R388). -/
def stampTags (src : Nat) : List Nat := calTag 6 0xFF :: (if src < 64 then cmpTags src else [])

/-- Quality of some spans over [lo, hi). -/
def marksQ (l : List QSpan) (lo hi : Nat) : Nat := l.foldl (fun q p => if p.hits lo hi then q ||| p.q else q) 0

/-- Mount position that serves a channel (R101). -/
def mountPos (ch : Nat) : Nat := ch / 4

/-- The channel takes a sample in loopback (R98). -/
def Chan.looped (x : Chan) (S : Nat) : Bool :=
  (match x.loop with | some f => decide (f ≤ S) | none => false) || x.loops.any fun p => decide (p.1 ≤ S ∧ S < p.2)

/-- Some sample of [lo, hi) is not taken in loopback: if one is, so is `lo` or the first sample after some loopback. -/
def Chan.unlooped (x : Chan) (lo hi : Nat) : Bool :=
  (lo :: x.loops.map (·.2)).any fun S => decide (lo ≤ S ∧ S < hi) && !x.looped S

/-- Mount quality of a channel's samples: not set for samples taken in loopback (R98, R108, R114). -/
def mountQ (s : State) (ch lo hi : Nat) : Nat :=
  let x := s.ch ch
  let m : Mount := tget {} s.mount (mountPos ch)
  let on (p : QSpan) : Bool := p.hits lo hi && x.unlooped (max lo p.lo) (match p.hi with | some e => min e hi | none => hi)
  let now (f : Option Nat) (q : Nat) : List QSpan := match f with | some a => [⟨0, q, a, none⟩] | none => []
  (m.spans ++ now m.unknown qMountUnknown ++ now m.expiredOn qMountExpired).foldl (fun q p => if on p then q ||| p.q else q) 0

/-- The channel's front end is taken from this channel: the lead of its gang, else itself (R95). -/
def View.leadOf (v : View) (ch : Nat) : Nat :=
  match v.gangOf ch with | some g => (v.channels g).headD ch | none => ch

/-- Tag of a mark that a change of GAIN or SOURCE leaves (R76). -/
def tagInput := 1

/-- Quality that a channel's state gives records over [lo, hi): its own slices' calibration (R88, R90 to R92, R388), and
settling and loopback of the front end that feeds it, the lead's in a gang (R76, R95). -/
def chanQ (s : State) (ch lo hi : Nat) : Nat :=
  let x := s.ch ch
  let front := s.ch (s.view.leadOf ch)
  let looped := runs front.loop hi || front.loops.any fun p => decide (p.1 < hi ∧ lo < p.2)
  let tags := [calTag 0 0xFF, calTag 1 (ch / 12)] ++ (if looped then [calTag 4 (ch / 12)] else [])
  let marks := x.marks.filter (·.tag != tagInput) ++ front.marks.filter (·.tag == tagInput)
  marksQ marks lo hi ||| s.staleQ tags lo hi ||| qIf (runs x.stale hi || runs x.drift hi) qCalStale

/-- Quality of an exhibit's records over [lo, hi) from channels, mounts and cadence. A gang's samples take the lead's
mount, as a member's own records do (R95, R97). -/
def exQuality (s : State) (h lo hi : Nat) : Nat :=
  let v := s.view
  let chs := v.channels h
  let own := chs.foldl (fun q c => q ||| chanQ s c lo hi) 0
  ((chs.map v.leadOf).eraseDups).foldl (fun q c => q ||| mountQ s c lo hi) own ||| cadQuality s.cad lo hi

/-- The CHANNEL_INPUT block of a channel as committed. -/
def State.inputBlock (s : State) (ch : Nat) : Block := s.block btChannelInput [ch]

/-! ### Samples (R78 to R80, R90, R91, R94) -/

/-- The slice that converts fs-sample S: the one in position S mod 16 (R78); `old`: S counts on the index before the
last re-anchoring. -/
def Chan.converter (x : Chan) (old : Bool) (S : Nat) : Placed :=
  let p := S % 16
  ((if old then x.was else x.hist).foldl (fun (a : Option Placed) e => if e.pos = p ∧ e.start ≤ S then some e else a) none).getD
    { start := 0, pos := p, slice := p, off := 0, gc := 0 }

/-- A corrected sample: its code and the quality bits that its conversion gives. -/
structure Code where
  y : Int
  q : Nat
deriving DecidableEq, Repr

/-- The corrected code of a conversion and its quality (R79, R80, R90, R91). -/
def Placed.sample (p : Placed) (c : Conv) : Code :=
  if c.missed || p.dead then ⟨0, qCalStale⟩
  else
    let y := rhe ((16 * c.code - p.off) * (2 ^ 20 + p.gc)) (2 ^ 24)
    ⟨sat 12 y, qIf (c.ovr || satHit 12 y) qAdcClip⟩

/-- The corrected samples of an exhibit from input-rate index `first`: gang sample m is fs-sample floor(m / k) of member
m mod k (R94). -/
def State.samples (s : State) (h : Nat) (old : Bool) (first : Nat) (l : List Conv) : List Code :=
  let chs := (s.view.channels h).map s.ch
  let k := max 1 chs.length
  l.zipIdx.map fun p => let m := first + p.2; ((chs.getD (m % k) {}).converter old (m / k)).sample p.1

/-- A position holds a slice from fs-sample `t` on. -/
def Chan.record (x : Chan) (t p : Nat) : Chan :=
  match x.at p with
  | some k => let v := x.slice k; { x with hist := x.hist ++ [⟨t, p, k, v.off, v.gc, v.dead⟩] }
  | none => x

/-- What the positions hold, from fs-sample `t` on: the history of an index that begins there. -/
def Chan.placedFrom (x : Chan) (t : Nat) : List Placed :=
  ((List.range 16).foldl (fun (y : Chan) p => y.record t p) { x with hist := [] }).hist

/-- A CHANNEL_INPUT block takes effect (R76, R98, R99). -/
def applyChannelInput (old new : Block) (s : State) : State :=
  let c := new.u 0 1
  let S := s.cad.now
  let x := s.ch c
  let x := if old.u 1 2 != new.u 1 2 then x.mark tagInput qUnsettled S (some (S + 1024)) else x
  let was := old.u 2 1 == 1 || old.u 2 1 == 2
  let is := new.u 2 1 == 1 || new.u 2 1 == 2
  let x := if is then { x with loop := some (if was then x.loop.getD S else S) }
    else { x with loop := none, loops := x.loops ++ x.loop.toList.map fun f => (f, S) }
  -- GLEAN_ENABLE 0 halts gleaning (R93)
  let x := if new.u 3 1 == 0 then { x with rotating := false } else x
  s.setCh c x

/-- Length of a gleaning step in fs-samples (R82). -/
def stepLen (dwell : Nat) : Nat := 2 ^ (dwell + 3)

/-- Which estimates of a measurement fail: bit 0 offset, 1 gain, 2 skew (R87). Offsets in nV, gains in
ppb, skews in as. Before a slice has passed there is no value to compare with; the foreground measurement compares none. -/
def measFails (x : Slice) (m : Meas) (foreground : Bool := false) : Nat :=
  let chk (e se : Int) (abs chg big last : Int) : Bool :=
    e.natAbs > abs || se > big || (!foreground && x.passed && (e - last).natAbs > chg)
  b2n (chk m.off m.offSe 2000000 250000 5000 x.lOff) +
    2 * b2n (chk m.gain m.gainSe 20000000 500000 5000 x.lGain) +
    4 * b2n (chk m.skew m.skewSe 5000000 250000 10000 x.lSkew)

/-- A slice takes a measurement's result: residuals always, coefficients when it passes (R84, R88). The residuals are what
the estimates leave of the slice's errors with the coefficients it ran with (R79, R85): OFF in 1/16 LSB of an ADC input of
1 V full scale, GC in 2^-20, TRIM in steps of 12 fs (DESIGN CHOICE, log 96). -/
def Slice.judge (x : Slice) (m : Meas) (t : Nat) (temp : Int) (foreground : Bool := false) : Slice :=
  let x := { x with rOff := 128 * m.off - 1953125 * x.off,
                    rGain := (10 ^ 9 + m.gain) * (2 ^ 20 + x.gc) - 10 ^ 9 * 2 ^ 20,
                    rSkew := m.skew - 12000 * x.trim }
  if measFails x m foreground = 0 then
    { x with off := m.newOff, gc := m.newGc, trim := m.newTrim, fails := 0, lOff := m.off, lGain := m.gain,
             lSkew := m.skew, passed := true, passAt := t, temp := temp }
  else { x with fails := x.fails + 1 }

/-- CAL_STALE of R88 holds while a slice that is not retired has failed since it last passed. -/
def Chan.refreshStale (x : Chan) (t : Nat) : Chan :=
  let on := (List.range 17).any fun k => (x.slice k).fails != 0 && (x.slice k).pos ≤ 16
  if on then { x with stale := some (x.stale.getD t) }
  else { x.ended x.stale qCalStale t with stale := none }

/-- Retire a slice (R89): rotation stops, the health log is written, EV_SLICE_RETIRED. -/
def retireSlice (ch k : Nat) (s : State) : State :=
  let x := s.ch ch
  let x := (x.setSlice k { x.slice k with pos := 0x11 })
  let x := { x.refreshStale s.cad.now with retired := some k, rotating := false }
  let s := s.setCh ch x
  let s := s.setHealth { s.health with slices := tset s.health.slices ch k }
  (logEntry 1 ch k 0 s).postEx (s.view.handle ch) evSliceRetired [(1, ch), (1, k), (1, 0)]

/-- A CLOCK lacuna runs on the channel's wing (R93). -/
def chanClockLost (s : State) (ch : Nat) : Bool := (clockLoss s.cad [ch / 12, 4]).isSome

/-- THERMAL is set within 5 K of the grade's largest junction temperature (R1, R461); 0.01 C. -/
def State.noteTemp (s : State) (temp : Int) : State :=
  if temp < (if Config.grade = 0 then 10000 else 10500) - 500 then s else s.alert alThermal

/-- A wing's die temperature as just read. -/
def State.setWingTemp (s : State) (w : Nat) (temp : Int) : State :=
  ({ s with wing := tset s.wing w { tget ({} : Wing) s.wing w with temp := temp } } : State).noteTemp temp

/-- At a rotation boundary, step 17 r, a rotation is complete when all its steps were measured (R82, R86). -/
def Chan.turned (x : Chan) (n : Nat) : Chan :=
  if n % 17 ≠ 0 then x
  else { x with steps := 0, rotations := if 17 ≤ x.steps then satAdd 32 x.rotations 1 else x.rotations }

/-- Step boundary `n` of a channel (R82 to R89): the measurement is judged, and the slice out of service
enters position n mod 16. -/
def gleanStep (ch n : Nat) (m : Meas) (temp : Int) (s : State) : State :=
  let b := s.inputBlock ch
  let s := s.tick (n * stepLen (b.u 4 1))
  let s := s.setWingTemp (ch / 12) temp
  let x := s.ch ch
  let t := s.cad.now
  if !s.pow.domains.testBit (5 + ch / 12) || chanClockLost s ch then s
  else if b.u 3 1 == 0 || x.retired.isSome then s.setCh ch { x with rotating := false }
  else
    match x.at 16 with
    | none => s
    | some out =>
      let enter (x : Chan) (s : State) : State :=
        let p := n % 16
        let x := match x.at p with
          | some l => ((x.setSlice l { x.slice l with pos := 16 }).setSlice out { x.slice out with pos := p }).record t p
          | none => x
        s.setCh ch ({ x with rotating := true }.refreshStale t)
      if !x.rotating then enter { x with steps := 0 } s
      else
        let v := (x.slice out).judge m t temp
        let x := ({ x.setSlice out v with measTemp := temp, steps := x.steps + 1 }).turned n
        if v.fails = 0 then enter x s
        else
          let s := (s.setCh ch x).postEx (s.view.handle ch) evSliceFail
            [(1, ch), (1, out), (1, v.fails), (1, measFails (x.slice out) m)]
          if b.u 5 1 ≤ v.fails then retireSlice ch out s else enter x s

/-- A slice misses its 16th conversion in a row at fs-sample `t` (R90, R91): from the first miss, 240 fs-samples before, to
the exchange, 64 after, records carry CAL_STALE. -/
def livenessFail (ch k t : Nat) (s : State) : State :=
  let s := s.tick t
  let x := s.ch ch
  let v := x.slice k
  if 17 ≤ v.pos || v.dead then s
  else
    let now := s.cad.now
    let s := s.postEx (s.view.handle ch) evSliceFail [(1, ch), (1, k), (1, v.fails), (1, 8)]
    if x.retired.isSome then
      -- second failure: no replacement (R91)
      let x := (x.setSlice k { v with dead := true })
      let x := (if v.pos < 16 then x.record now v.pos else x).mark 2 qCalStale (now - 240) none
      let s := s.setCh ch { x with second := true, rotating := false }
      let s := s.setHealth { s.health with seconds := ((ch, k) :: s.health.seconds).eraseDups }
      let s := (logEntry 2 ch k 0 s).postEx (s.view.handle ch) evSliceRetired [(1, ch), (1, k), (1, 1)]
      deaccession hcSlice s
    else if v.pos = 16 then retireSlice ch k s
    else
      let x := x.mark 2 qCalStale (now - 240) (some (now + 64))
      let x := match x.at 16 with
        | some o => ((x.setSlice k { v with pos := 0x11 }).setSlice o { x.slice o with pos := v.pos }).record (now + 64) v.pos
        | none => x
      retireSlice ch k (s.setCh ch x)

/-- Slices in service in position order. -/
def Chan.inService (x : Chan) : List Slice := (List.range 16).filterMap fun p => (x.at p).map x.slice

/-- Root mean square of residuals minus their mean, over `den`, to the nearest integer (R85). -/
def rmsOver (den : Nat) (l : List Int) : Nat :=
  let n := l.length
  let sum := l.foldl (· + ·) 0
  let sq := l.foldl (fun a g => a + ((n : Int) * g - sum) * ((n : Int) * g - sum)) 0
  rootNear sq.natAbs (n * n * n * (den * den))

/-- Squared magnitude, scaled, of (1/16) sum of (a_p + j b_p) e^(-j 2 pi k p / 16). -/
def imageSq (k : Nat) (l : List (Int × Int)) : Int :=
  let terms := l.zipIdx.map fun p =>
    let (c, si) := fxTurn (k * p.2) 16
    (fxMul p.1.1 c + fxMul p.1.2 si, fxMul p.1.2 c - fxMul p.1.1 si)
  let re := terms.foldl (fun a p => a + p.1) 0
  let im := terms.foldl (fun a p => a + p.2) 0
  (fxMul re re + fxMul im im).fdiv 256

/-- SPUR in 0.01 dBFS (R85): f_test 4.0 GHz, gain G in dB. A figure above +327.67 dBFS reads +327.67 (DESIGN CHOICE, log 97). -/
def spur (l : List Slice) (gdB : Nat) : Int :=
  let e := l.map fun v => (fxRat v.rGain (10 ^ 9 * 2 ^ 20), 2 * fxMul fxPi (fxRat (4 * v.rSkew) 1000000000))
  let full := pow10 gdB 20
  -- volts over FS(G)/2 = 10^(-G/20)/2
  let o := l.map fun v => (2 * shl (fxMul (fxRat v.rOff (128 * 10 ^ 9)) full.m) (full.e + 128).toNat, (0 : Int))
  let mag (l : List (Int × Int)) : Int := (List.range 15).foldl (fun m k => max m (imageSq (k + 1) l)) 0
  let top := max (mag e) (mag o)
  let r := fxSqrt top
  if r ≤ 0 then -32768
  else let d := centiDb ⟨r, -128⟩
    if d < -32767 then -32768 else min d 32767

/-- POSITION of a slice (R86). -/
def Slice.place (v : Slice) : Nat := if v.dead then 0x12 else v.pos

/-- Body of a SLICE_QUALITY record (R86). A figure above 65,535 reads 65,535 (DESIGN CHOICE, log 97). -/
def sliceQualityBody (s : State) (ch : Nat) : List Byte :=
  let x := s.ch ch
  let b := s.inputBlock ch
  let l := x.inService
  let cap (n : Nat) : Nat := min n 65535
  let out := (x.at 16).getD 0xFF
  fields [(2, ofInt 16 (spur l ((s.inputBlock (s.view.leadOf ch)).u 1 1))), (2, cap (rmsOver (10 ^ 3 * 2 ^ 20) (l.map (·.rGain)))),
      (2, cap (rmsOver (10 ^ 3) (l.map (·.rSkew)))), (2, cap (rmsOver (128 * 10 ^ 3) (l.map (·.rOff)))), (4, x.rotations),
      (2, ofInt 16 x.measTemp), (1, out), (1, x.retired.getD 0xFF),
      (1, b.u 3 1 + 2 * b2n x.rotating + 4 * b2n x.drift.isSome + 8 * b2n x.second)] ++ zeros 15 ++
    ((List.range 17).flatMap fun k => let v := x.slice k
      fields [(2, ofInt 16 v.off), (2, ofInt 16 v.gc), (2, ofInt 16 v.trim), (1, v.place), (1, v.fails)]) ++ zeros 24

/-- Rotation boundary of a channel at `t` (R86): a QUALITY_STREAM gets its record. -/
def rotationBoundary (ch t : Nat) (s : State) : State :=
  let s := s.tick t
  let b := s.inputBlock ch
  if s.cad.now % (17 * stepLen (b.u 4 1)) ≠ 0 then s
  else
    if b.u 7 1 = 0xFF then s
    else
      let S := s.cad.now
      let h := s.view.handle ch
      s.produce { typ := rtSliceQuality, handle := h, stream := b.u 7 1, time := ctOf s.cad S, rate := 0, sample := S,
                  quality := exQuality s h S (S + 1), body := sliceQualityBody s ch, lo := S, hi := S + 1 }

/-- Drift reference: the wing temperature at the oldest last-passed measurement in service (R92). -/
def driftRef (x : Chan) : Int :=
  match x.inService with
  | [] => 0
  | v :: vs => (vs.foldl (fun (o : Slice) w => if w.passAt < o.passAt then w else o) v).temp

/-- Turn boundary: the drift limit of a channel (R92); DRIFT_TEMP is in 0.5 K, temperatures in 0.01 C. -/
def driftCheck (ch t : Nat) (temp : Int) (s : State) : State :=
  let s := s.tick t
  let s := s.setWingTemp (ch / 12) temp
  let x := s.ch ch
  let d := (temp - driftRef x).natAbs
  let lim := (s.inputBlock ch).u 6 1 * 50
  if lim < d then s.setCh ch { x with drift := some (x.drift.getD s.cad.now) }
  else if d + 100 ≤ lim then s.setCh ch { x.ended x.drift qCalStale s.cad.now with drift := none }
  else s

/-- Gleaning halts and the step is abandoned (R93). -/
def haltGleaning (chs : List Nat) (s : State) : State :=
  chs.foldl (fun s c => s.setCh c { s.ch c with rotating := false, steps := 0 }) s

/-! ### Power-up (R79) -/

/-- Slices of a channel as an ADC domain comes up (R79, R89, R91): those not retired fill positions 0 to 15 in increasing
number, and the next is out of service. -/
def powerUpChan (h : Health) (c : Nat) (x : Chan) : Chan :=
  let retired := tfind h.slices c
  let dead (k : Nat) : Bool := h.seconds.contains (c, k)
  let place := (List.range 17).filter fun k => retired != some k
  { x with
    slices := (place.zipIdx.map fun p => (p.1, ({ pos := p.2, dead := dead p.1 } : Slice))) ++
      retired.toList.map fun k => (k, ({ pos := 0x11 } : Slice))
    retired := retired, second := h.seconds.any (·.1 == c), rotations := 0, steps := 0, rotating := false,
    stale := none, drift := none, hist := [] }

/-- The foreground measurement of a channel with what it found of its slices (R79, R87, R88): absolute limits alone. A
slice that fails stays in service (DEDUCED, log 98). -/
def foreground (c : Nat) (ms : List Meas) (s : State) : State :=
  let t := s.cad.now
  let temp := (tget ({} : Wing) s.wing (c / 12)).temp
  let s := (ms.take 17).zipIdx.foldl (fun s p =>
    let x := s.ch c
    let v := x.slice p.2
    if v.pos = 0x11 || v.dead then s
    else
      let w := v.judge p.1 t temp true
      let s := s.setCh c { x.setSlice p.2 w with measTemp := temp }
      if w.fails = 0 then s
      else s.postEx (s.view.handle c) evSliceFail [(1, c), (1, p.2), (1, w.fails), (1, measFails v p.1 true)]) s
  let x := (s.ch c).refreshStale t
  s.setCh c ((List.range 16).foldl (fun x p => x.record t p) (if x.second then x.mark 2 qCalStale t none else x))

/-- The channels of a wing as its ADC domain comes up (R79); `ms` as in LEAVE_START. -/
def channelsUp (w : Nat) (ms : List Meas) (s : State) : State :=
  (List.range 12).foldl (fun s i =>
    let c := 12 * w + i
    foreground c (ms.drop (17 * i)) (s.setCh c (powerUpChan s.health c (s.ch c)))) s

/-- Result of WING_STATUS (R100). -/
def wingStatusBytes (s : State) (w : Nat) : List Byte :=
  let d := s.pow.domains
  let chs := (List.range 12).map fun i => s.ch (12 * w + i)
  let mask (f : Chan → Bool) : Nat := maskOf ((List.range 12).filter fun i => f (chs.getD i {}))
  fields ([(1, w), (1, b2n (d.testBit (1 + w)) + 2 * b2n (d.testBit (5 + w)) + 4 * b2n (d.testBit (9 + w))),
    (2, ofInt 16 (tget ({} : Wing) s.wing w).temp), (2, mask (·.retired.isSome)), (2, mask (·.second)),
    (2, mask (·.drift.isSome)), (2, mask fun x => (List.range 17).any fun k => (x.slice k).fails != 0), (4, 0)] ++
    chs.map fun x => (4, x.clip))

/-- R81: `n` clipped fs-samples of a channel. -/
def countClips (ch n : Nat) (s : State) : State :=
  s.setCh ch { s.ch ch with clip := satAdd 32 (s.ch ch).clip n }

/-- WING_STATUS (R100). The request's `env` lists the clipped fs-samples of the twelve channels since the
last WING_STATUS (R81; DESIGN CHOICE, log 35). -/
def wingStatusBody (r : Req) (s : State) : Effect := do
  let w ← r.oneNum
  ensure (w < 4) eRange
  let s := r.env.zipIdx.foldl (fun s p => if p.2 < 12 then countClips (12 * w + p.2) p.1 s else s) s
  return (s, wingStatusBytes s w)

end Sys2Proof.Machine
end

