-- ==== Sys2Proof/Machine/Mounts.lean ====
section
/-! DEFINITION. Mounts and provenance records (04): validity, wear counters, life states, corrections. -/
namespace Sys2Proof.Machine

/-- The state of a mount position. -/
def State.mt (s : State) (p : Nat) : Mount := tget {} s.mount p

/-- Replace the state of a mount position. -/
def State.setMt (s : State) (p : Nat) (m : Mount) : State := { s with mount := tset s.mount p m }

/-- A counter copy is valid when its CRC matches (R107). -/
def copyOk (b : List Byte) : Bool := b.length == 80 && getU b 76 4 == crc32 (b.take 76)

/-- Offset of the current counter copy: the valid one with the larger GENERATION (R107). Of two valid copies with equal
GENERATION, or 2^31 apart, copy A is taken: R107 leaves that open (DESIGN CHOICE, log 100). -/
def currentCopy (r : List Byte) : Option Nat :=
  let a := slice r 352 80
  let b := slice r 432 80
  match copyOk a, copyOk b with
  | false, false => none
  | true, false => some 352
  | false, true => some 432
  | true, true => some (if 0 < toInt 32 (ofInt 32 ((getU b 0 4 : Int) - getU a 0 4)) then 432 else 352)

/-- A provenance record is valid (R108). -/
def recordOk (r : List Byte) : Bool :=
  let od := getU r 16 2
  r.length == 512 && getU r 0 4 == 0x504D585A && getU r 4 2 == 1 && getU r 300 4 == crc32 (r.take 300) &&
    getU r 20 4 != 0 && (od == 0 || (100 ≤ od && od ≤ 5000)) && (currentCopy r).isSome

/-- Four counters of a copy. -/
def counters (b : List Byte) (off size : Nat) : List Nat := (List.range 4).map fun i => getU b (off + size * i) size

/-- The mount is read and neither direct nor released: its record governs the position (R108, R109, R111). -/
def Mount.governs (m : Mount) : Bool := m.mode == 0 && m.present && m.valid && !m.released

/-- The twelve life counters with their limits in the counter's unit; 0 no limit (R114). -/
def Mount.life (m : Mount) : List (Nat × Nat) :=
  let r := m.record
  m.relay.map (·, getU r 288 4) ++ m.events.map (·, getU r 292 4) ++ m.timeUs.map (·, getU r 296 4 * 1000000)

/-- Counter with the largest life fraction, as (number, count, limit) (R114); of several with one fraction the
lowest-numbered, relay lines first (DESIGN CHOICE, log 106). -/
def Mount.worst (m : Mount) : Option (Nat × Nat × Nat) :=
  m.life.zipIdx.foldl (fun w p =>
    if p.1.2 = 0 then w
    else match w with
      | none => some (p.2, p.1.1, p.1.2)
      | some (k, n, l) => if n * p.1.2 < p.1.1 * l then some (p.2, p.1.1, p.1.2) else some (k, n, l)) none

/-- Warning at 0.90 and expiry at 1.00 of the life fraction (R114). -/
def lifeCheck (p : Nat) (s : State) : State :=
  let m := s.mt p
  if !m.governs then s
  else match m.worst with
    | none => s
    | some (k, n, l) =>
      let s := if 9 * l ≤ 10 * n ∧ !m.warned then
          (s.setMt p { m with warned := true }).post evMountWarn [(1, p), (1, k), (2, 0), (8, n)]
        else s
      let m := s.mt p
      if l ≤ n ∧ !m.expired then
        (s.setMt p { m with expired := true, due := true }).post evMountExpired [(1, p), (1, k)]
      else s

/-! ### The mount bus (R104, R105, R117) -/

/-- Whether the mount bus of a wing runs at 400 kHz (R117). -/
def State.busSlow (s : State) (w : Nat) : Bool := (List.range 3).any fun m => (s.mt (3 * w + m)).speed == 1

/-- Address of a position's identity memory: 0x50 + m (R105). -/
def mountAddr (p : Nat) : Nat := 0x50 + p % 3

/-- An attempt succeeds: acknowledged, no byte stretched beyond 1 ms, each page write done within 10 ms (R104, R105). -/
def tryOk (x : MountTry) : Bool := x.ack && x.stretch ≤ 1000 && x.poll ≤ 10000 && !x.gone

/-- How a transfer ends: attempts made, the one that succeeded, and whether presence dropped in it. -/
structure MountXfer where
  made : Nat
  done : Option MountTry := none
  gone : Bool := false
deriving DecidableEq, Repr

/-- A transfer that fails is retried twice (R105); one during which presence drops is abandoned (R113). An attempt that the
row does not list succeeds (DESIGN CHOICE, log 13). -/
def mountXfer (l : List MountTry) : MountXfer :=
  let x (i : Nat) : MountTry := l.getD i { ack := true }
  match (List.range 3).find? fun i => tryOk (x i) || (x i).gone with
  | some i => if (x i).gone then { made := i + 1, gone := true } else { made := i + 1, done := some (x i) }
  | none => { made := 3 }

/-- A read of the whole record goes out on the mount bus, at the speed it now runs at (R105, R110, R117). -/
def State.fetchMount (s : State) (p : Nat) : State := s.send (.mountFetch (p / 3) (mountAddr p) (s.busSlow (p / 3)))

/-- Presence is asserted at a position that expects a mount: the read of its whole record begins (R110). -/
def mountInsert (p : Nat) (s : State) : State :=
  (s.setMt p { s.mt p with present := true, released := false, valid := false, warned := false, expired := false,
                           xfer := some (s.busSlow (p / 3)) }).fetchMount p

/-- The counts of a position with no mount, and nothing on a mount: what was counted for one mount or while generic is
not carried to the next (DESIGN CHOICE, log 101). -/
def Mount.restart (m : Mount) : Mount :=
  { m with relay := [0, 0, 0, 0], events := [0, 0, 0, 0], timeUs := [0, 0, 0, 0], frac := [0, 0, 0, 0],
           wRelay := [0, 0, 0, 0], wEvents := [0, 0, 0, 0], wTime := [0, 0, 0, 0] }

/-- Presence changed and held for 10 ms (R102, R110, R111); a direct position ignores it (R109). OD_TIME_MS of
EV_MOUNT_REMOVED rounds down and saturates (DESIGN CHOICE, log 103). -/
def mountPresence (p : Nat) (present : Bool) (t : Nat) (s : State) : State :=
  let s := s.tick t
  let m := s.mt p
  if present = m.present then s
  else if m.mode = 1 then s.setMt p { m with present := present }
  else if present then mountInsert p s
  else
    let s := s.setMt p { m.restart with present := false, valid := false, released := false, due := true, xfer := none,
                                        warned := false, expired := false, failing := false }
    if m.released then s
    else
      let un (a b : List Nat) : List Nat := (a.zip b).map fun q => q.1 - q.2
      s.post evMountRemoved ([(1, p), (3, 0)] ++ (un m.relay m.wRelay).map (4, ·) ++ (un m.events m.wEvents).map (4, ·) ++
        [(4, min ((un m.timeUs m.wTime).foldl max 0 / 1000) 0xFFFFFFFF)])

/-- The read of the whole record ends (R105, R108, R110): an attempt that succeeded gives its bytes, a third failure an
invalid record. The counts of a valid record replace those of the position (DESIGN CHOICE, log 101). TYPE_CODE and SERIAL of the event
are 0 for an invalid record (DESIGN CHOICE, log 102). -/
def mountReadDone (p : Nat) (tries : List MountTry) (t : Nat) (s : State) : State :=
  let s := s.tick t
  let m := s.mt p
  if m.xfer.isNone then s
  else
    let x := mountXfer tries
    let s := (List.range (x.made - 1)).foldl (fun (s : State) _ => s.fetchMount p) s
    let m := { m with xfer := none }
    if m.mode = 1 ∨ m.released then s.setMt p m
    else
      let m := match x.done with
        | some a => { m with record := padTo 512 a.bytes }
        | none => m
      let r := m.record
      let ok := x.done.isSome && recordOk r
      let m := { m with valid := ok, due := true, fresh := true }
      let m := match ok, currentCopy r with
        | true, some o =>
          let c := slice r o 80
          let re := counters c 4 4
          let ev := counters c 20 4
          let ti := counters c 36 8
          { m with gen := getU c 0 4, copyB := o == 432, relay := re, events := ev, timeUs := ti, frac := [0, 0, 0, 0],
                   wRelay := re, wEvents := ev, wTime := ti }
        | _, _ => m
      lifeCheck p ((s.setMt p m).post evMountInserted
        [(1, p), (1, b2n ok), (2, if ok then getU r 6 2 else 0), (8, if ok then getU r 8 8 else 0)])

/-- The four channels of a position. -/
def mountChannels (p : Nat) : List Nat := [4 * p, 4 * p + 1, 4 * p + 2, 4 * p + 3]

/-- Flags and correction of a position as its state gives them, from sample `t` (R108 to R111, R114); `unsettled`: a
record read makes the change, and records over the boundary say so (R110). -/
def mountSettle (p t : Nat) (unsettled : Bool) (s : State) : State :=
  let m := s.mt p
  let unknown := m.mode == 0 && !m.governs
  let exp := m.governs && m.expired
  let ended (on : Bool) (f : Option Nat) (q : Nat) : List QSpan :=
    match on, f with | false, some a => [⟨0, q, a, some t⟩] | _, _ => []
  let now := if m.governs then some m.record else none
  let s := if unsettled then (mountChannels p).foldl (fun s c => s.setCh c ((s.ch c).mark 3 qUnsettled t (some (t + 1)))) s else s
  s.setMt p { m with
    due := false, fresh := false, applied := now, past := if now = m.applied then m.past else m.past ++ [(t, m.applied)],
    spans := m.spans ++ ended unknown m.unknown qMountUnknown ++ ended exp m.expiredOn qMountExpired,
    unknown := if unknown then some (m.unknown.getD t) else none,
    expiredOn := if exp then some (m.expiredOn.getD t) else none }

/-- First turn boundary after a change at a position (R110, R111, R114). -/
def mountCorrectionApply (p t : Nat) (s : State) : State :=
  let s := s.tick t
  if (s.mt p).due && turnAtOrAfter s.cad s.cad.now == s.cad.now then mountSettle p s.cad.now (s.mt p).fresh s else s

/-- Threshold of the overdrive detector in mV differential; none where it is off (R112). -/
def Mount.overLevel (m : Mount) : Option Nat :=
  if m.mode = 1 then none
  else if m.governs then (if getU m.record 16 2 = 0 then none else some (getU m.record 16 2))
  else some 1000

/-- 1 us at nominal fs, in fs-samples (R8, R112). -/
def microsecond := 10240

/-- The input of a channel stands at `mv` mV for `clocks` fabric clocks from fs-sample `t` (R112): time counts while it
exceeds the threshold, 1,280 clocks to the us, and an event where it had stayed below for 1 us. -/
def overdrive (c mv clocks t : Nat) (s : State) : State :=
  let s := s.tick t
  let p := mountPos c
  let m := s.mt p
  let i := c % 4
  match m.overLevel with
  | none => s
  | some level =>
    if mv < level then s
    else
      let below := m.below.set i (some (s.cad.now + 8 * clocks))
      if mv = level then s.setMt p { m with below := below }
      else
        let begins := match m.below.getD i none with | some b => decide (b + microsecond ≤ s.cad.now) | none => true
        let f := m.frac.getD i 0 + clocks
        lifeCheck p (s.setMt p { m with
          below := below,
          events := if begins then m.events.set i (satAdd 32 (m.events.getD i 0) 1) else m.events,
          timeUs := m.timeUs.set i (satAdd 64 (m.timeUs.getD i 0) (f / 1280)),
          frac := m.frac.set i (f % 1280) })

/-- Bytes of a counter copy with the present counts (R106). -/
def copyBytes (m : Mount) (gen : Nat) : List Byte :=
  let b := fields ([(4, gen)] ++ m.relay.map (4, ·) ++ m.events.map (4, ·) ++ m.timeUs.map (8, ·) ++ [(8, 0)])
  b ++ leBytes 4 (crc32 b)

/-- The page writes of a counter copy: five of 16 bytes on 16-byte boundaries (R105, R106). -/
def State.sendCopy (s : State) (p off : Nat) (b : List Byte) : State :=
  (List.range 5).foldl (fun (s : State) i =>
    s.send (.mountPage (p / 3) (mountAddr p) (s.busSlow (p / 3)) (off + 16 * i) (slice b (16 * i) 16))) s

/-- A write-back of the counts as they stand: to the other copy, GENERATION one greater (R107, R113). One that presence
ends is abandoned: the copy last written stays current. -/
def writeCounts (p : Nat) (tries : List MountTry) (s : State) : State :=
  let m := s.mt p
  if !m.governs then s
  else
    let x := mountXfer tries
    let g := (m.gen + 1) % 2 ^ 32
    let s := (List.range x.made).foldl (fun (s : State) _ => s.sendCopy p (if m.copyB then 352 else 432) (copyBytes m g)) s
    let m := { m with wroteAt := some s.cad.now }
    if x.done.isSome then
      s.setMt p { m with gen := g, copyB := !m.copyB, wRelay := m.relay, wEvents := m.events, wTime := m.timeUs, failing := false }
    else if x.gone then s.setMt p m
    else (s.setMt p { m with failing := true }).post evMountWriteFail [(1, p)]

/-- Ten minutes at nominal fs, in fs-samples (R8, R113). -/
def tenMinutes := 600 * 10240000000

/-- A write-back of its own accord: counts changed, and ten minutes since the last write (R113). -/
def writeBack (p : Nat) (tries : List MountTry) (t : Nat) (s : State) : State :=
  let s := s.tick t
  let m := s.mt p
  let changed := m.relay != m.wRelay || m.events != m.wEvents || m.timeUs != m.wTime
  let late := match m.wroteAt with | some w => decide (w + tenMinutes ≤ s.cad.now) | none => true
  if changed && late then writeCounts p tries s else s

/-- MOUNT block at its commit (R103, R109, R117). A relay operation counts in a direct position too: R112 counts nothing
there of overdrive, and R103 counts every line (DEDUCED, log 104). A position that becomes one that expects a mount takes
the presence it finds as just asserted (DESIGN CHOICE, log 105). -/
def applyMount (new : Block) (s : State) : State :=
  let p := new.u 0 1
  let m := s.mt p
  let ctl := new.u 2 1
  let relay := m.relay.zipIdx.map fun q => if (m.ctl ^^^ ctl).testBit q.2 then satAdd 32 q.1 1 else q.1
  let s := s.setMt p { m with mode := new.u 1 1, ctl := ctl, speed := new.u 3 1, relay := relay }
  if m.mode = new.u 1 1 then lifeCheck p s
  else if new.u 1 1 = 0 then
    let m := s.mt p
    let s := if m.present then mountInsert p s else s.setMt p { m with valid := false, released := false }
    mountSettle p s.cad.now false s
  else mountSettle p s.cad.now false s

/-- STATE of MOUNT_STATUS (R118). -/
def Mount.state (m : Mount) : Nat :=
  if m.mode = 1 then 0 else if !m.present then 1 else if m.released then 4 else if m.valid then 3 else 2

/-- Result of MOUNT_STATUS (R118). -/
def mountStatusBytes (s : State) (p : Nat) : List Byte :=
  let m := s.mt p
  let life := match m.governs, m.worst with | true, some (_, n, l) => min (n * 10000 / l) 0xFFFF | _, _ => 0
  fields ([(1, p), (1, m.state), (1, b2n m.warned + 2 * b2n m.expired + 4 * b2n m.failing), (1, 0), (2, life),
      (2, if m.governs then getU m.record 6 2 else 0), (8, if m.governs then getU m.record 8 8 else 0)] ++
    ((List.range 4).map fun i => (4, m.relay.getD i 0)) ++ ((List.range 4).map fun i => (4, m.events.getD i 0)) ++
    (List.range 4).map fun i => (8, m.timeUs.getD i 0))

/-- MOUNT_STATUS (R118). -/
def mountStatusBody (r : Req) (s : State) : Effect := do
  let p ← r.oneNum
  ensure (p < 12) eRange
  return (s, mountStatusBytes s p)

/-- MOUNT_READ (R118): the 512 bytes last read; zeros before any read (DESIGN CHOICE, log 1). -/
def mountReadBody (r : Req) (s : State) : Effect := do
  let p ← r.oneNum
  ensure (p < 12) eRange
  return (s, padTo 512 (s.mt p).record)

/-- Attempts at a write-back that a request's `env` codes describe: 1 failed, 2 presence dropped, else done. -/
def envTries (l : List Nat) : List MountTry := l.map fun c => { ack := c != 1, gone := c == 2 }

/-- MOUNT_RELEASE (R111, R113). -/
def mountReleaseBody (r : Req) (s : State) : Effect := do
  let p ← r.oneNum
  ensure (p < 12) eRange
  let s := writeCounts p (envTries r.env) s
  let m := s.mt p
  let s := s.setMt p { m with released := m.present, due := true }
  return (s.post evMountReleased [(1, p)], [])

/-! ### The calibration (R115, R116) -/

/-- Signed 16-bit table entry: gain (part 0) in 0.001 dB or phase (part 1) in 0.01 degree of a point. -/
def calPoint (r : List Byte) (i part : Nat) : Int := getI r (32 + 4 * i + 2 * part) 2

/-- Value of a table at n/d kHz, as a fraction over d x F_STEP (R115). -/
def calAt (r : List Byte) (part n d : Nat) : Int × Nat :=
  let step := getU r 20 4
  let den := d * step
  let i := n / den
  if 63 ≤ i then (calPoint r 63 part * den, den)
  else
    let a := calPoint r i part
    (a * den + ((n % den : Nat) : Int) * (calPoint r (i + 1) part - a), den)

/-- The coefficient round(2^14 x 10^(-G/20) x e^(-j phi)) at n/d kHz for channel `i` of the mount,
clamped to 131,071 (R115, R116, R157). -/
def mountCoef (r : List Byte) (i n d : Nat) : Int × Int :=
  let (g, gd) := calAt r 0 n d
  let g := g + getI r (24 + 2 * i) 2 * gd
  let (ph, pd) := calAt r 1 n d
  let mag := pow10 (-g) (20000 * gd)
  let (c, si) := fxTurn ph (36000 * pd)
  let part (x : Int) : Int :=
    let m := fxMul mag.m x
    let k := mag.e + 14
    let z := if 0 ≤ k then shl m k.toNat else rhe m (2 ^ (-k).toNat)
    max (-131071) (min 131071 z)
  (part c, part (-si))

/-- The record whose correction applies to an exhibit's signal at fs-sample `S`, and the channel's place on its mount:
none in loopback, and the lead's mount for a gang (R95, R98, R110). -/
def mountAt (s : State) (h S : Nat) : Option (List Byte × Nat) :=
  match (s.view.channels h).head? with
  | none => none
  | some c =>
    if (s.ch c).looped S then none
    else
      let m := s.mt (mountPos c)
      (match m.past.find? fun (p : Nat × Option (List Byte)) => decide (S < p.1) with | some p => p.2 | none => m.applied).map fun r => (r, c % 4)

end Sys2Proof.Machine
end

