-- ==== Sys2Proof/Machine/Decimation.lean ====
section
/-! DEFINITION. Down-conversion and the decimation chain (05). The arithmetic is exact; the taps that the
manual gives only by bounds are free values of Config, held to the form the manual states (DESIGN CHOICE, log 36). -/
namespace Sys2Proof.Machine

/-! ### Signals -/

/-- One complex sample, the quality bits of what it was computed from, and whether this operation clamped it (R80, R90,
R127). -/
structure Smp where
  re  : Int := 0
  im  : Int := 0
  q   : Nat := 0
  own : Bool := false
deriving DecidableEq, Repr, Inhabited

/-- Consecutive samples from index `first`; every other sample is zero. -/
structure Sig where
  first : Nat
  v     : Array Smp

/-- Sample at an index. -/
def Sig.at (x : Sig) (i : Int) : Smp :=
  if i < x.first then {} else x.v.getD (i - x.first).toNat {}

/-- The signal with everything before index `lo` zero (R134, R135). -/
def Sig.from (x : Sig) (lo : Nat) : Sig := if lo ≤ x.first then x else ⟨lo, x.v.extract (lo - x.first) x.v.size⟩

/-! ### Taps -/

/-- A half-band filter with outermost tap `n` (odd): centre 2^18, even taps zero, symmetric, sum 2^19;
the other taps are free (R122, R126). -/
def halfTap (free : Nat → Int) (n : Nat) (k : Int) : Int :=
  let a := k.natAbs
  if a = 0 then 2 ^ 18
  else if a % 2 = 0 ∨ n < a then 0
  else if a < n then free a
  else 2 ^ 17 - ((List.range n).filter (· % 2 = 1)).foldl (fun t i => t + free i) 0

/-- Outermost tap of a preset's stage filter (R125). -/
def presetSpan (p : Nat) : Nat := [17, 23, 29, 37].getD p 17

/-- Settling length U in output samples (R125). -/
def settleLen (stages preset : Nat) : Nat := if stages = 0 then 8 else [21, 27, 33, 41].getD preset 21

/-- Taps of the fifth-order CIC by 4, (1 + x + x^2 + x^3)^5, at -8 to 7 from its output's centre: gain 2^10 (R124; which of
the two middle samples the even length centres on is a DESIGN CHOICE, log 36). -/
def cicTap (k : Int) : Int :=
  if k < -8 then 0 else ([1, 5, 15, 35, 65, 101, 135, 155, 155, 135, 101, 65, 35, 15, 5, 1].getD (k + 8).toNat 0)

/-- Taps of the compensating filter behind the CIC, k = -10 to 10: symmetric, sum 2^19, otherwise free (R124). The two span
48 DDC-rate samples either side. -/
def compTap (k : Int) : Int :=
  let a := k.natAbs
  if 10 < a then 0
  else if a ≠ 0 then Config.preTap a
  else 2 ^ 19 - 2 * (List.range 10).foldl (fun t i => t + Config.preTap (i + 1)) 0

/-- Sum of taps times samples at indices c - k, k from -n to n, as exact components. -/
def convolve (tap : Int → Int) (n : Nat) (x : Sig) (c : Int) : Smp :=
  (List.range (2 * n + 1)).foldl (fun (s : Smp) (i : Nat) =>
    let k : Int := (i : Int) - n
    let t := tap k
    let y := x.at (c - k)
    ⟨s.re + t * y.re, s.im + t * y.im, if t = 0 then s.q else s.q ||| y.q, false⟩) {}

/-- Round by 2^b half to even and clamp to `w` bits; a clamp sets SAT_STAGE (R127). -/
def Smp.narrow (x : Smp) (b w : Nat) : Smp :=
  let r := rhe x.re (2 ^ b)
  let i := rhe x.im (2 ^ b)
  let own := satHit w r || satHit w i
  ⟨sat w r, sat w i, x.q ||| qIf own qSatStage, own⟩

/-! ### Mixer, DDC and pre-decimator -/

/-- Oscillator components of a phase word (R121). -/
def ncoAt (phase : Nat) : Int × Int :=
  let p : Nat := phase / 2 ^ 28 % 2 ^ 20
  let (c, s) := fxTurn p (2 ^ 20)
  (rhe (131071 * c) (2 ^ 128), rhe (-131071 * s) (2 ^ 128))

/-- Configuration in effect at input-rate sample S (R49, R136). -/
def cfgAt (l : List ChainCfg) (S : Nat) : Option ChainCfg :=
  l.foldl (fun a c => if c.start ≤ S then some c else a) none

/-- Mixer output at input-rate sample S (R120, R121). -/
def mix (l : List ChainCfg) (S : Nat) (x : Code) : Smp :=
  let d := match cfgAt l S with | some c => c.ddc | none => (defaultBlock btDdc [0]).data
  let (ci, cq) := ncoAt ((getU d 2 6 * S + getU d 8 6) % 2 ^ 48)
  ⟨x.y * ci, x.y * cq, x.q, false⟩

/-- The DDC output of input-rate codes that start at index `first` (R122). -/
def ddcSig (l : List ChainCfg) (first : Nat) (codes : List Code) : Sig :=
  let m : Sig := ⟨first, (codes.zipIdx.map fun p => mix l (first + p.2) p.1).toArray⟩
  let lo := (first + 1) / 2
  let n := (first + codes.length + 1) / 2 - lo
  ⟨lo, ((List.range n).map fun i =>
    (convolve (halfTap Config.ddcTap 29) 29 m (2 * (lo + i) : Nat)).narrow 30 18).toArray⟩

/-- The pre-decimator output of a DDC signal (R124): the CIC by 4, then the compensating half-band by 2, rounded once. -/
def preSig (d : Sig) : Sig :=
  let lo4 := (d.first + 3) / 4
  let n4 := (d.first + d.v.size + 3) / 4 - lo4
  let cic : Sig := ⟨lo4, ((List.range n4).map fun i => convolve cicTap 8 d (4 * (lo4 + i) : Nat)).toArray⟩
  let lo := (lo4 + 1) / 2
  let n := (lo4 + n4 + 1) / 2 - lo
  ⟨lo, ((List.range n).map fun i => (convolve compTap 10 cic (2 * (lo + i) : Nat)).narrow 23 24).toArray⟩

/-! ### The chain -/

/-- SHIFT of stage i, from 1 (R126, R142). -/
def shiftOf (dec : List Byte) (i : Nat) : Nat := bitsOf (getU dec 4 8) (4 * (i - 1)) 3

/-- Total gain exponent of the fine path: sum of 7 - SHIFT (R126, R158). -/
def chainGain (dec : List Byte) : Nat := (List.range (getU dec 2 1)).foldl (fun g i => g + (7 - shiftOf dec (i + 1))) 0

/-- First output at `ratio` input-rate samples an output at or after the event. -/
def ChainEv.at (e : ChainEv) (ratio : Nat) : Nat := ceilDiv e.pos ratio

/-- Events that govern fine output n: those at or before it, from its latest reset or start on (R134, R137). -/
def evsAt (evs : List ChainEv) (ratio n : Nat) : List ChainEv :=
  evs.foldl (fun l e => if n < e.at ratio then l else if e.kind = 2 then l ++ [e] else [e]) []

/-- Preset in effect at fine output n; during a fade the preset faded to (R134, R137). -/
def presetAt (evs : List ChainEv) (ratio n : Nat) : Nat := ((evsAt evs ratio n).getLast?.map (·.new)).getD 1

/-- The cross-fade that fine output n lies in (R137). -/
def fadeAt (evs : List ChainEv) (ratio n : Nat) : Option ChainEv :=
  match (evsAt evs ratio n).getLast? with
  | some e => if e.kind = 2 ∧ n < e.at ratio + 64 then some e else none
  | none => none

/-- The reset or start that fine output n counts its stage histories from: its output index (R134). -/
def zeroAt (evs : List ChainEv) (ratio n : Nat) : Nat :=
  match (evsAt evs ratio n).head? with | some e => if e.kind = 1 then e.at ratio else 0 | none => 0

/-- Preset of a cascade at fine position m / 2^k: a cascade takes its taps from the events before it (R137). -/
def cascadePreset (evs : List ChainEv) (ratio m k : Nat) : Nat :=
  evs.foldl (fun p e => if e.at ratio * 2 ^ k ≤ m then e.new else p) ((evs.head?.map (·.new)).getD 1)

/-- A span of input-rate positions, in which clamped outputs are counted. -/
structure ClipSpan where
  lo : Nat
  hi : Nat

/-- Stages `i` to `s` of a cascade on the stage's input signal, `k` stages left; `z` the fine output before which stage
histories are zero. Answers the output and how many stage outputs in `w` clamped (R126, R127). -/
def runStages (dec : List Byte) (evs : List ChainEv) (ratio z : Nat) (w : ClipSpan) : Nat → Nat → Nat → Sig → Sig × Nat
  | _, 0, hits, x => (x, hits)
  | i, k + 1, hits, x =>
    let x := x.from (z * 2 ^ (k + 1))
    let lo := (x.first + 1) / 2
    let n := (x.first + x.v.size + 1) / 2 - lo
    let out := (List.range n).map fun j =>
      let p := cascadePreset evs ratio (lo + j) k
      (convolve (halfTap (Config.chainTap p) (presetSpan p)) (presetSpan p) x (2 * (lo + j) : Nat)).narrow (12 + shiftOf dec i) 24
    let step := ratio / 2 ^ k
    let own := (out.zipIdx.filter fun y => y.1.own && decide (w.lo ≤ (lo + y.2) * step ∧ (lo + y.2) * step < w.hi)).length
    runStages dec evs ratio z w (i + 1) k (hits + own) ⟨lo, out.toArray⟩

/-- Fine outputs n0 to n0 + count - 1 before OUT_FORMAT, which lie in one configuration and wholly in a fade or outside one
(R126, R134, R137), and the clamped outputs in `w` (R127). -/
def fineRun (dec : List Byte) (evs : List ChainEv) (pre : Sig) (w : ClipSpan) (n0 count : Nat) : List Smp × Nat :=
  let s := getU dec 2 1
  let ratio := 16 * 2 ^ s
  let z := zeroAt evs ratio n0
  let upTo := evsAt evs ratio n0
  let (new, hits) := runStages dec upTo ratio z w 1 s 0 pre
  let idx := List.range count
  match fadeAt evs ratio n0 with
  | none => (idx.map fun i => new.at (n0 + i : Nat), hits)
  | some f =>
    let (old, oldHits) := runStages dec (upTo.filter fun e => e != f) ratio z w 1 s 0 pre
    let out := idx.map fun i =>
      let w := n0 + i - f.at ratio
      let a := old.at (n0 + i : Nat)
      let b := new.at (n0 + i : Nat)
      Smp.narrow ⟨(64 - w : Nat) * a.re + w * b.re, (64 - w : Nat) * a.im + w * b.im, a.q ||| b.q, false⟩ 6 24
    (out, hits + oldHits + (out.filter (·.own)).length)

/-- Fine outputs from n0 on that lie before the next configuration with other SHIFTS, reset, or fade boundary. -/
def fineBound (x : Chain) (stages n0 stop : Nat) : Nat :=
  let ratio := 16 * 2 ^ stages
  let marks := (x.cfgs.map fun c => ceilDiv c.start ratio) ++ x.evs.flatMap fun e => [e.at ratio, e.at ratio + 64]
  marks.foldl (fun m n => if n0 < n then min m n else m) stop

/-- Fine outputs n0 to `stop` - 1 with `stages` stages, each in the configuration and fade that govern it; past a commit that
changes STAGES the outputs go on as they were (DESIGN CHOICE, log 107). -/
def fineOut (x : Chain) (stages : Nat) (dec : List Byte) (pre : Sig) (w : ClipSpan) : Nat → Nat → Nat → List Smp × Nat
  | 0, _, _ => ([], 0)
  | f + 1, n0, stop =>
    if stop ≤ n0 then ([], 0)
    else
      let b := fineBound x stages n0 stop
      let ratio := 16 * 2 ^ stages
      let d := x.cfgs.foldl (fun d c => if ceilDiv c.start ratio ≤ n0 ∧ getU c.dec 2 1 = stages then c.dec else d) dec
      let (l, hits) := fineRun d x.evs pre ⟨max w.lo (n0 * ratio), min w.hi (b * ratio)⟩ n0 (b - n0)
      let (l', hits') := fineOut x stages dec pre w f b stop
      (l ++ l', hits + hits')

/-- Coarse outputs (R129). -/
def coarseOut (dec : List Byte) (pre : Sig) (n0 count : Nat) : List Smp :=
  let s := getU dec 2 1
  (List.range count).map fun i =>
    if s = 0 then { pre.at (n0 + i : Nat) with own := false }
    else
      let lo : Int := (2 ^ s * (n0 + i) : Nat) - (2 ^ (s - 1) : Nat)
      let sum := (List.range (2 ^ s)).foldl (fun (a : Smp) (j : Nat) =>
        let y := pre.at (lo + j)
        (⟨a.re + y.re, a.im + y.im, a.q ||| y.q, false⟩ : Smp)) {}
      let g := chainGain dec
      if s ≤ g then Smp.narrow ⟨sum.re * (2 ^ (g - s) : Nat), sum.im * (2 ^ (g - s) : Nat), sum.q, false⟩ 0 24
      else sum.narrow (s - g) 24

/-! ### IQ records -/

/-- Product with a mount coefficient, by 2^14, to `w` bits (R116). -/
def Smp.correct (x : Smp) (c : Int × Int) (w : Nat) : Smp :=
  Smp.narrow ⟨x.re * c.1 - x.im * c.2, x.re * c.2 + x.im * c.1, x.q, false⟩ 14 w

/-- Format conversion of an IQ element (R128): CI24 unchanged, CI16 by 2^8 (chain) or 2^2 (DDC). -/
def Smp.format (x : Smp) (fmt path : Nat) : Smp :=
  if fmt = 3 then x else x.narrow (if path = 0 then 2 else 8) 16

/-- Bytes of IQ elements (R31). -/
def iqBytes (fmt : Nat) (l : List Smp) : List Byte :=
  l.flatMap fun x => if fmt = 3 then leBytes 3 (ofInt 24 x.re) ++ leBytes 3 (ofInt 24 x.im)
    else leBytes 2 (ofInt 16 x.re) ++ leBytes 2 (ofInt 16 x.im)

/-- Record length in output samples of a path (R141, R142). -/
def iqRecordLen (c : ChainCfg) (path : Nat) : Nat := if path = 0 then getU c.ddc 16 4 else getU c.dec 16 4

/-- Input-rate samples per output sample of a path (R119). -/
def iqRatio (c : ChainCfg) (path : Nat) : Nat := if path = 0 then 2 else 16 * 2 ^ getU c.dec 2 1

/-- Output n of a path carries UNSETTLED (R134 to R137). -/
def iqUnsettled (x : Chain) (c : ChainCfg) (path n : Nat) : Bool :=
  let s := getU c.dec 2 1
  let ratio := iqRatio c path
  let u := settleLen s (presetAt x.evs ratio n)
  let changes := (x.cfgs.zip x.cfgs.tail).filterMap fun p =>
    if slice p.1.ddc 2 12 = slice p.2.ddc 2 12 then none else some p.2.start
  -- the output's span around its centre holds samples on both sides of S, in input-rate samples
  let spans (before after S : Nat) : Bool := decide (S ≤ n * ratio + after) && decide (n * ratio < S + before)
  match path with
  | 0 => changes.any (spans 29 29) || (match x.resume with | some r => r ≤ 2 * n && 2 * n < r + 29 | none => false)
  | 1 =>
    (s != 0 && (fadeAt x.evs ratio n).isSome) ||
      x.evs.any (fun e => e.kind = 1 && e.at ratio ≤ n && n < e.at ratio + u) ||
      changes.any (fun S => let n0 := ceilDiv S ratio; decide (n0 ≤ n + u) && decide (n < n0 + u)) ||
      (match x.resume with | some r => let n0 := ceilDiv r ratio; decide (n0 ≤ n ∧ n < n0 + u) | none => false)
  | _ =>
    -- its boxcar, 16 input-rate samples a chain-input sample, and eight of those either side; the last lies at half - 16
    let half := if s = 0 then 0 else 16 * 2 ^ (s - 1)
    let last := if s = 0 then 0 else half - 16
    changes.any (spans (half + 128) (last + 128)) ||
      (match x.resume with | some r => decide (n * ratio < r + 128 + half) && decide (r ≤ n * ratio + last) | none => false)

/-- NCO frequency as a fraction of the input rate, f_NCO in kHz times (2^48, its denominator), clamped to
0 to fs (R116, R120): input rate = k fs. -/
def ncoKhz (s : State) (h ftw : Nat) : Nat × Nat :=
  let b := s.cadBlock
  let (f, d) := cadFreq b
  -- fs in uHz = f x rnum / (d 2^32); kHz = uHz / 10^9
  let fsN := f * s.cad.rnum
  let fsD := d * 2 ^ 32 * 1000000000
  let n := min (ftw * s.view.ganged h) (2 ^ 48)
  (fsN * n, fsD * 2 ^ 48)

/-- Codes from the sample on at which histories are zero, with the index of the first (R135). -/
def sinceResume (x : Chain) (first : Nat) (codes : List Code) : Nat × List Code :=
  match x.resume with
  | some r => if first < r then (r, codes.drop (r - first)) else (first, codes)
  | none => (first, codes)

/-- Outputs n0 to n0 + count - 1 of a path of configuration `c` before correction and format, and the outputs that clamped
among those not yet counted (R120 to R137). -/
def pathOut (x : Chain) (c : ChainCfg) (path first : Nat) (codes : List Code) (n0 count : Nat) : List Smp × Nat :=
  let (first, codes) := sinceResume x first codes
  let d := ddcSig x.cfgs first codes
  let ratio := iqRatio c path
  match path with
  | 0 => ((List.range count).map fun i => d.at (n0 + i : Nat), 0)
  | 1 => fineOut x (getU c.dec 2 1) c.dec (preSig d) ⟨max x.counted (n0 * ratio), (n0 + count) * ratio⟩ (count + 1) n0 (n0 + count)
  | _ => let l := coarseOut c.dec (preSig d) n0 count; (l, (l.filter (·.own)).length)

/-- The chain after outputs of a path up to index `n` have been formed, `hits` of them clamped: SAT_COUNT (R127, R144). -/
def Chain.count (x : Chain) (c : ChainCfg) (path n hits : Nat) : Chain :=
  { x with sats := satAdd 32 x.sats hits, counted := if path = 1 then max x.counted (n * iqRatio c path) else x.counted }

/-- Quality of an exhibit's samples over [lo, hi): as they were kept through a re-anchoring, else as the state gives it. -/
def tailQuality (s : State) (t : Tail) (h lo hi : Nat) : Nat := match t.carry with | some q => q | none => exQuality s h lo hi

/-- The IQ record of a path for outputs n0 to n0 + count - 1 (R119 to R140), without SEQ and epoch, and the outputs that
clamped. `codes` start at input-rate index `first`. -/
def iqRecord (s : State) (h n0 count first : Nat) (codes : List Conv) (t : Tail) : Rec × Nat :=
  let v := s.view
  let x := t.chain
  let c := t.cfg
  let path := t.path
  let (out, hits) := pathOut x c path first (s.samples h t.moved first codes) n0 count
  let fmt := if path = 0 then getU c.ddc 15 1 else getU c.dec 12 1
  let ftw := getU c.ddc 2 6
  let ratio := iqRatio c path
  let e : Int := v.gridExp h + (ratio.log2 : Nat)
  let (n, dd) := ncoKhz s h ftw
  let out : List Smp := out.zipIdx.map fun y =>
    match mountAt s h ((ratePos e (n0 + y.2)).1 / (ratePos e (n0 + y.2)).2) with
    | some (r, i) => y.1.correct (mountCoef r i n dd) (if path = 0 then 18 else 24)
    | none => y.1
  let out := out.map (·.format fmt path)
  let stages := getU c.dec 2 1
  let fade := if path = 1 ∧ stages ≠ 0 then fadeAt x.evs ratio n0 else none
  let preset := if path = 0 ∨ stages = 0 then 0xFF else presetAt x.evs ratio n0
  let lo := fsCeil e n0
  let hi := max (lo + 1) (fsCeil e (n0 + count))
  let q := out.foldl (fun q y => q ||| y.q) (tailQuality s t h lo hi) ||| qIf (path = 2) qCoarse |||
    qIf ((List.range count).any fun i => iqUnsettled x c path (n0 + i)) qUnsettled
  let sub := fields [(1, path), (1, preset), (1, if path = 0 then 0xFF else stages), (1, b2n fade.isSome),
    (1, match fade with | some f => f.old | none => 0xFF), (1, match fade with | some f => n0 - f.at ratio | none => 0),
    (2, 0), (8, if path = 0 then 0 else getU c.dec 4 8), (6, ftw), (6, getU c.ddc 8 6), (4, 0)]
  ({ typ := rtIq, handle := h, stream := c.stream path, time := ctRate s.cad e n0, rate := e, elem := fmt,
     quality := q, sample := n0, count := count, body := sub ++ iqBytes fmt out, lo := lo, hi := hi }, hits)

/-- Length in samples of a path's records (R141, R142, R262). -/
def Tail.len (t : Tail) : Nat := if t.path = 3 then getU t.cfg.raw 4 4 else iqRecordLen t.cfg t.path

/-- Record starts of a path beyond the multiples of its record length: its cross-fades' first output and the first after
them, unless a reset comes before (R139). -/
def Tail.fades (t : Tail) : List Nat :=
  if t.path ≠ 1 ∨ getU t.cfg.dec 2 1 = 0 then []
  else
    let ratio := iqRatio t.cfg 1
    t.chain.evs.flatMap fun e =>
      if e.kind ≠ 2 then []
      else if t.chain.evs.any fun x => x.kind != 2 && decide (e.pos < x.pos ∧ x.at ratio < e.at ratio + 64) then [e.at ratio]
      else [e.at ratio, e.at ratio + 64]

/-- End of the record that begins at index n: the next record start, at most the tail's end (R139, R262, R604). -/
def Tail.stop (t : Tail) (n : Nat) : Nat :=
  let e := t.fades.foldl (fun e c => if n < c then min e c else e) ((n / t.len + 1) * t.len)
  match t.limit with | some l => min l e | none => e

/-- What governs the next sample record of a path of an exhibit: the stream's number, whether it lies behind an event, and
its samples (R139, R262, R604). -/
def State.nextSource (s : State) (h path : Nat) : Option (Nat × Bool × Tail) :=
  let old := s.streams.findSome? fun e =>
    if e.1 / 256 = h then
      match e.2.tails with | t :: _ => if t.path = path then some (e.1 % 256, true, t) else none | [] => none
    else none
  match old with
  | some o => some o
  | none =>
    let x : Chain := tget {} s.chain h
    match x.cfgs.getLast? with
    | none => none
    | some c =>
      let st := c.stream path
      if st = 0xFF then none
      else
        let y := s.stream (skey h st)
        let e := s.view.gridExp h + ((if path = 3 then 1 else iqRatio c path).log2 : Nat)
        some (st, false, { path := path, next := y.next, limit := y.gap.map fun g => rateCeil e g.start, cfg := c, chain := x })

/-! ### Commits -/

/-- Checks of R141, R142 and R287 that need more than the block: the handle. -/
def chkSampler (v : View) (h : Nat) : Option Nat :=
  match v.find h with
  | none => some eUndefined
  | some e => if 1 < e.kind then some eKind else if v.gangMember h then some eGangMember else none

/-- Two streams of one exhibit never share a number (R142, R159; DEDUCED, log 37). -/
def streamClash (v : View) (h : Nat) : Bool :=
  let nums := (v.blocks.flatMap v.blockStreams).filterMap fun d => if d.h = h then some d.st else none
  !distinct nums

/-- The CHANNEL_INPUT block of the channel whose front end an exhibit takes (R95). -/
def View.leadInput (v : View) (h : Nat) : Block := v.block btChannelInput [(v.channels h).headD 0]

/-- The pending preset starts its cross-fade at the end of the running one, at fine output `n`, or is dropped (R138). -/
def Chain.startWait (x : Chain) (ratio n : Nat) : Chain :=
  match x.wait, x.evs.getLast? with
  | some p, some e =>
    if e.kind ≠ 2 ∨ n < e.at ratio + 64 then x
    else if p = e.new then { x with wait := none, replaced := satAdd 32 x.replaced 1 }
    else { x with wait := none, evs := x.evs ++ [⟨2, (e.at ratio + 64) * ratio, e.new, p⟩] }
  | _, _ => x

/-- The record in progress of a path ends at `limit` under the configuration as it was, and the stream of the new
configuration goes on from `n0` (R133, R139). -/
def cutPath (path limit n0 : Nat) (h : Nat) (o c : ChainCfg) (was : Chain) (s : State) : State :=
  let s := if o.stream path = 0xFF then s
    else
      let k := skey h (o.stream path)
      let y := s.stream k
      let e := s.view.gridExp h + ((if path = 3 then 1 else iqRatio o path).log2 : Nat)
      let limit := match y.gap with | some g => min limit (rateCeil e g.start) | none => limit
      if limit ≤ y.next then s
      else s.setStream k { y with next := limit, tails := y.tails ++ [⟨path, y.next, some limit, o, was, none, false, []⟩] }
  if c.stream path = 0xFF then s
  else
    let k := skey h (c.stream path)
    s.setStream k { s.stream k with next := n0 }

/-- DDC, DECIMATION, RAW or the lead's CHANNEL_INPUT blocks of an exhibit change at the commit sample (R133,
R134, R136 to R139, R262). `v` is the view before the commit, `v'` after it. -/
def applyChain (v v' : View) (h : Nat) (formed : Bool) (s : State) : State :=
  let o := v.block btDecimation [h]
  let n := v'.block btDecimation [h]
  let S := rateCeil (v'.gridExp h) s.cad.now
  let c : ChainCfg := ⟨S, (v'.block btDdc [h]).data, n.data, (v'.block btRaw [h]).data, (v'.leadInput h).data⟩
  let x : Chain := tget {} s.chain h
  let x := if x.cfgs.isEmpty then
      { x with cfgs := [⟨0, (v.block btDdc [h]).data, o.data, (v.block btRaw [h]).data, (v.leadInput h).data⟩],
               evs := [⟨0, 0, o.u 3 1, o.u 3 1⟩] }
    else x
  let oc := x.cfgs.getLast?.getD c
  let used (b : Block) : List Nat := (List.range (b.u 2 1)).map fun i => shiftOf b.data (i + 1)
  let on (path : Nat) : Bool := oc.stream path == 0xFF && c.stream path != 0xFF
  let reset := formed || o.u 2 1 != n.u 2 1 || used o != used n || on 1 || on 2
  let ratio := iqRatio c 1
  let n0 := ceilDiv S ratio
  let x := if o.u 2 1 = n.u 2 1 then x.startWait ratio n0 else x
  let change := o.u 3 1 != n.u 3 1
  let queued := change && !reset && n.u 2 1 != 0 && (fadeAt x.evs ratio n0).isSome
  let y :=
    if reset then { x with evs := x.evs ++ [⟨1, n0 * ratio, n.u 3 1, n.u 3 1⟩], wait := none }
    else if queued then { x with wait := some (n.u 3 1),
                                 replaced := if x.wait.isSome then satAdd 32 x.replaced 1 else x.replaced }
    else if change && n.u 2 1 != 0 then { x with evs := x.evs ++ [⟨2, n0 * ratio, presetAt x.evs ratio n0, n.u 3 1⟩] }
    else if change then { x with evs := x.evs ++ [⟨0, n0 * ratio, n.u 3 1, n.u 3 1⟩] }
    else x
  let cfgs := x.cfgs ++ [c]
  let s := { s with chain := tset s.chain h { y with cfgs := cfgs } }
  -- records begin at n0 of every commit that changes the path (R139)
  let was : Chain := { x with cfgs := cfgs }
  let nco := formed || slice oc.ddc 2 12 != slice c.ddc 2 12
  let ddc := formed || oc.ddc != c.ddc
  let shared := nco || reset || getU oc.dec 12 1 != getU c.dec 12 1 || slice oc.dec 15 5 != slice c.dec 15 5
  let fine := shared || oc.stream 1 != c.stream 1 || (change && !queued && n.u 2 1 != 0)
  let coarse := shared || oc.stream 2 != c.stream 2
  let raw := formed || oc.raw != c.raw || slice oc.inp 1 2 != slice c.inp 1 2
  let cut (on : Bool) (path : Nat) (s : State) : State :=
    if on then
      let r (c : ChainCfg) : Nat := if path = 3 then 1 else iqRatio c path
      cutPath path (ceilDiv S (r oc)) (ceilDiv S (r c)) h oc c was s
    else s
  cut raw 3 (cut coarse 2 (cut fine 1 (cut ddc 0 s)))

/-- R138: the pending preset at the end of a cross-fade, at fine output `n`. -/
def pendingFadeStart (h n : Nat) (s : State) : State :=
  let x : Chain := tget {} s.chain h
  match x.cfgs.getLast?, x.evs.getLast? with
  | some c, some e =>
    if e.kind = 2 ∧ n = e.at (iqRatio c 1) + 64 ∧ x.wait.isSome then
      { s with chain := tset s.chain h (x.startWait (iqRatio c 1) n) }
    else s
  | _, _ => s

/-- Histories are zero at the resumption sample, and pending fades are cleared (R135). -/
def resumeChain (S : Nat) (h : Nat) (s : State) : State :=
  let x : Chain := tget {} s.chain h
  match x.cfgs.getLast? with
  | none => s
  | some c =>
    let r := rateCeil (s.view.gridExp h) S
    let p := getU c.dec 3 1
    { s with chain := tset s.chain h { x with resume := some r, wait := none,
                                               evs := [⟨0, ceilDiv r (iqRatio c 1) * iqRatio c 1, p, p⟩] } }

/-- Result of DECIMATION_STATUS (R144). -/
def decimationStatusBytes (s : State) (h : Nat) : List Byte :=
  let x : Chain := tget {} s.chain h
  let b := s.block btDecimation [h]
  let n := ceilDiv (rateCeil (s.view.gridExp h) s.cad.now) (16 * 2 ^ b.u 2 1)
  let ratio := 16 * 2 ^ b.u 2 1
  let preset := match x.evs with | [] => b.u 3 1 | _ => presetAt x.evs ratio n
  fields [(2, h), (1, preset), (1, b2n (b.u 2 1 != 0 && (fadeAt x.evs ratio n).isSome)), (1, x.wait.getD 0xFF), (3, 0), (4, x.replaced),
    (4, x.sats), (8, 0), (8, 0)]

/-- A command that names one channel or gang exhibit of the function. -/
def samplerHandle (r : Req) (s : State) : Except Err Nat := do
  let h ← r.oneNum
  let e ← ownedHandle s r.fn h
  ensure (e.kind ≤ 1) eKind
  return h

/-- DECIMATION_STATUS (R144). -/
def decimationStatusBody (r : Req) (s : State) : Effect := do
  let h ← samplerHandle r s
  return (s, decimationStatusBytes s h)

end Sys2Proof.Machine
end

