-- ==== Sys2Proof/Machine/Spectral.lean ====
section
/-! DEFINITION. Spectral engine (06): windows, transform, mount correction, power, detectors, periods and
spectral records. -/
namespace Sys2Proof.Machine

/-! ### Windows (R150) -/

/-- Sum of t^k / k!^2 scaled: the modified Bessel function I0 at x with x^2/4 = t. -/
def fxI0Aux : Nat → Nat → Int → Int → Int → Int
  | 0, _, _, _, acc => acc
  | f + 1, k, t, term, acc =>
    let term := (fxMul term t).fdiv ((k + 1) * (k + 1) : Nat)
    fxI0Aux f (k + 1) t term (acc + term)

/-- I0(2 sqrt t). -/
def fxI0 (t : Int) : Int := fxI0Aux 160 0 t fxOne fxOne

/-- Cosine-sum window: terms (numerator over 10^9, multiple of u), alternating signs in the numerator. -/
def cosWindow (l : List Int) (n N : Nat) : Int :=
  l.zipIdx.foldl (fun a p => a + fxMul (fxRat p.1 1000000000) (fxTurn (p.2 * n) N).1) 0

/-- ROM window word n of N (R150). -/
def romWindow (w n N : Nat) : Int :=
  let f : Int := match w with
    | 0 => fxOne
    | 1 => cosWindow [500000000, -500000000] n N
    | 2 => cosWindow [540000000, -460000000] n N
    | 3 => cosWindow [358750000, -488290000, 141280000, -11680000] n N
    | 4 => cosWindow [215578950, -416631580, 277263158, -83578947, 6947368] n N
    | _ =>
      let b : Nat := if w = 5 then 6 else if w = 6 then 9 else 13
      -- x = beta sqrt(4 u (1 - u)): x^2/4 = beta^2 u (1 - u)
      (fxI0 (fxRat (b * b * n * (N - n) : Nat) (N * N)) * 2 ^ 128).fdiv (fxI0 (fxRat (b * b) 4))
  rhe (2 ^ 16 * f) (2 ^ 128)

/-- Window word n of a pipeline configuration. -/
def windowAt (c : PipeCfg) (n : Nat) : Int :=
  let w := getU c.spec 5 1
  if w = 8 then (c.win.getD n 0).toInt else romWindow w n (2 ^ getU c.spec 2 1)

/-- Every window word of a configuration. -/
def windowWords (c : PipeCfg) : List Int := (List.range (2 ^ getU c.spec 2 1)).map (windowAt c)

/-! ### The transform (R149, R152 to R155) -/

/-- Twiddle at i/(2h) turns (R152). -/
def twiddle (i h : Nat) : Int × Int :=
  let (c, s) := fxTurn i (2 * h)
  (rhe (131071 * c) (2 ^ 128), rhe (-131071 * s) (2 ^ 128))

/-- Stages s, s+1, .. of the decimation-in-frequency transform of a block; bins in natural order. -/
def fftStages (sh : Nat → Nat) : Nat → Nat → List Smp → List Smp
  | 0, _, v => v
  | k + 1, s, v =>
    let h := v.length / 2
    let ps := (v.take h).zip (v.drop h)
    let top := ps.map fun p => Smp.narrow ⟨p.1.re + p.2.re, p.1.im + p.2.im, p.1.q ||| p.2.q, false⟩ (sh s) 24
    let bot := ps.zipIdx.map fun q =>
      let (a, c) := q.1
      let d : Smp := ⟨a.re - c.re, a.im - c.im, a.q ||| c.q, false⟩
      if q.2 = 0 then d.narrow (sh s) 24
      else
        let (tr, ti) := twiddle q.2 h
        Smp.narrow ⟨d.re * tr - d.im * ti, d.re * ti + d.im * tr, d.q, false⟩ (17 + sh s) 24
    ((fftStages sh k (s + 1) top).zip (fftStages sh k (s + 1) bot)).flatMap fun p => [p.1, p.2]

/-- Block floating point: the largest L from -2 to 22 that keeps every component below 2^22 (R154). -/
def bfpShift (m : Nat) : Int :=
  let ok (l : Int) : Bool :=
    if 0 ≤ l then decide (m * 2 ^ l.toNat < 2 ^ 22) else decide (rhe m (2 ^ (-l).toNat) < 2 ^ 22)
  (List.range 25).foldl (fun (b : Int) (i : Nat) => if ok ((i : Int) - 2) then (i : Int) - 2 else b) (-2)

/-- A value that a clamp has reached. -/
def Smp.clamped (x : Smp) : Bool := x.q != 0

/-- Bins k = -N/2 to N/2 - 1 and exponent E of a frame (R149, R152 to R154); a clamp anywhere marks every bin (R155). -/
def transform (c : PipeCfg) (xs : List (Int × Int)) : List Smp × Int :=
  let m := getU c.spec 2 1
  let pre : Int := if getU c.spec 3 1 = 0 then 64 else 1
  let win := xs.zipIdx.map fun p =>
    let w := windowAt c p.2
    Smp.narrow ⟨p.1.1 * pre * w, p.1.2 * pre * w, 0, false⟩ 16 24
  let (v, sh, e) :=
    if getU c.spec 6 1 = 1 then
      let big := win.foldl (fun a x => max a (max x.re.natAbs x.im.natAbs)) 0
      let l := bfpShift big
      let v := win.map fun x =>
        if 0 ≤ l then (⟨shl x.re l.toNat, shl x.im l.toNat, x.q, false⟩ : Smp)
        else ⟨rhe x.re (2 ^ (-l).toNat), rhe x.im (2 ^ (-l).toNat), x.q, false⟩
      (v, (fun _ => 1 : Nat → Nat), (m : Int) - l)
    else
      let sch := getU c.spec 8 4
      (win, (fun s => b2n (sch.testBit (s - 1)) : Nat → Nat), ((bitList sch m).length : Int))
  let any := qIf (v.any (·.clamped)) qSatStage
  let x := fftStages sh m 1 v
  let x := x.map fun y => { y with q := y.q ||| any }
  (x.drop (x.length / 2) ++ x.take (x.length / 2), e)

/-! ### Mount correction and power (R157, R158) -/

/-- fs in kHz as numerator and denominator (R45). -/
def fsKhz (s : State) : Nat × Nat :=
  let (f, d) := cadFreq s.cadBlock
  (f * s.cad.rnum, d * 2 ^ 32 * 1000000000)

/-- Source samples are taken every `ratio` input-rate samples. -/
def srcRatio (c : PipeCfg) : Nat := if getU c.spec 3 1 = 0 then 2 else 16 * 2 ^ getU c.dec 2 1

/-- Corrected bins X' of a frame that begins at fs-sample `lo` (R110, R157). -/
def correctBins (s : State) (h lo : Nat) (c : PipeCfg) (x : List Smp) : List Smp :=
  match mountAt s h lo with
  | none => x
  | some (r, i) =>
    let (fn, fd) := fsKhz s
    let g := s.view.ganged h
    let n := x.length
    let den := 2 ^ 48 * srcRatio c * n
    x.zipIdx.map fun p =>
      -- f_k over the input rate, times den; the input rate is g fs; clamped to 0 to fs
      let k : Int := (p.2 : Int) - (n / 2 : Nat)
      let f := (getU c.ddc 2 6 * srcRatio c * n : Nat) + k * (2 ^ 48 : Nat)
      let f := min (f * g).toNat den
      p.1.correct (mountCoef r i (fn * f) (fd * den)) 24

/-- Gain exponent of the source: G_src = 2^gain (R158). -/
def srcGain (c : PipeCfg) : Nat := if getU c.spec 3 1 = 0 then 11 else 11 + chainGain c.dec

/-- Power of a bin as binary32 (R158). -/
def binPower (c : PipeCfg) (sumW : Int) (e : Int) (x : Smp) : Nat :=
  f32 (x.re * x.re + x.im * x.im) (sumW * sumW).natAbs (2 * e - 2 * ((srcGain c : Int) + 11 - 16))

/-! ### Detectors (R160, R161) -/

/-- Square root of a non-negative exact value, correctly rounded to binary64. -/
def f64Sqrt (d : Dy) : Nat :=
  if d.m ≤ 0 then 0
  else
    let k := 130 + (if (d.e - 130) % 2 = 0 then 0 else 1)
    let n := (shl d.m k).natAbs
    let r := isqrt n
    f64 (2 * r + b2n (r * r != n) : Nat) 1 ((d.e - k) / 2 - 1)

/-- log2 of a positive exact value, correctly rounded to binary64. -/
def f64Log2 (d : Dy) : Nat := f64 (fxLn d) fxLn2.natAbs 0

/-- 2^x of a binary64, correctly rounded to binary64. -/
def f64Exp2 (n : Nat) : Nat :=
  let d := f64Val n
  let fx := if 0 ≤ d.e + 128 then shl d.m (d.e + 128).toNat else d.m.fdiv (2 ^ (-(d.e + 128)).toNat)
  let k := fx.fdiv (2 ^ 128)
  f64 (fxExpSmall (fxMul (fx - k * 2 ^ 128) fxLn2)) 1 (k - 128)

/-- binary64 quotient by a positive number. -/
def f64DivNat (a n : Nat) : Nat := let d := f64Val a; f64 d.m n d.e

/-- binary64 rounded to binary32. -/
def f64To32 (a : Nat) : Nat := f32Dy (f64Val a)

/-- Accumulator of a detector before any value. -/
def detInit (det : Nat) : Option Nat := if 3 ≤ det then some 0 else none

/-- Take one power value (binary32) into an accumulator. -/
def detStep (det : Nat) (acc : Option Nat) (p : Nat) : Option Nat :=
  match det, acc with
  | 0, some a => some (if f32Key a < f32Key p then p else a)
  | 1, some a => some (if f32Key p < f32Key a then p else a)
  | 0, none => some p
  | 1, none => some p
  | 2, _ => some p
  | 4, a =>
    let v := f32Val p
    let v : Dy := if v.m = 0 then ⟨1, -149⟩ else v
    some (f64Add (a.getD 0) (f64Log2 v))
  | 5, a => some (f64Add (a.getD 0) (f64Sqrt (f32Val p)))
  | _, a => some (f64Add (a.getD 0) (f64Dy (f32Val p)))

/-- Detector output as binary32 over `n` values (R160). -/
def detOut (det acc n : Nat) : Nat :=
  match det with
  | 0 => acc
  | 1 => acc
  | 2 => acc
  | 3 => f64To32 (f64DivNat acc n)
  | 4 => f64To32 (f64Exp2 (f64DivNat acc n))
  | 5 => let a := f64DivNat acc n; f64To32 (f64Mul a a)
  | _ => f64To32 (f64Sqrt (f64Val (f64DivNat acc n)))

/-! ### Frames and periods (R147, R162) -/

/-- Source index of the first sample of frame j. -/
def frameStart (c : PipeCfg) (j : Nat) : Nat :=
  j * (2 ^ getU c.spec 2 1 / 2 ^ getU c.spec 4 1) + getU c.spec 16 4

/-- First frame of the grid that starts at or after a source index. -/
def frameFrom (c : PipeCfg) (n : Nat) : Nat :=
  let hop := 2 ^ getU c.spec 2 1 / 2 ^ getU c.spec 4 1
  let o := getU c.spec 16 4
  if n ≤ o then 0 else ceilDiv (n - o) hop

/-- RATE of a pipeline's source. -/
def srcExp (v : View) (h : Nat) (c : PipeCfg) : Int := v.gridExp h + ((srcRatio c).log2 : Nat)

/-- Slot count of the interval that holds slot count j: intervals of `len` slots from slot 0 of each turn
(R162), or of `len` turns when `turns` (R180). -/
def intervalKey (c : Cad) (j len : Nat) (turns : Bool) : Nat :=
  let t := j / c.spt
  if turns then (t - t % len) * c.spt else t * c.spt + (j % c.spt) / len * len

/-- Start of the interval after the one that starts at slot count `key`. -/
def nextInterval (c : Cad) (key len : Nat) (turns : Bool) : Nat :=
  if turns then key + len * c.spt
  else if key % c.spt + len < c.spt then key + len else (key / c.spt + 1) * c.spt

/-- Slot count at source index n. -/
def slotOfSource (c : Cad) (e : Int) (n : Nat) : Nat := slotAt c (ratePos e n).1 (ratePos e n).2

/-- Key of the period of frame j of a TRACE stream (R162). -/
def periodKey (cad : Cad) (e : Int) (c : PipeCfg) (st : List Byte) (j : Nat) : Nat :=
  if getU st 17 1 = 0 then j / getU st 20 4
  else intervalKey cad (slotOfSource cad e (frameStart c j)) (getU st 18 2) false

/-- Body of a spectral record (R170). -/
def spectralBody (c : PipeCfg) (st : List Byte) (corr : Bool) (e : Int) (first frames ovf : Nat) (elems : List Byte) :
    List Byte :=
  let k := getU st 3 1
  fields [(1, k), (1, getU c.spec 2 1), (1, getU c.spec 5 1), (1, getU c.spec 4 1), (1, getU c.spec 6 1),
    (1, if k = 1 then ofInt 8 e else 0), (1, if k = 3 then getU st 16 1 else 0xFF), (1, getU c.spec 3 1),
    (4, getU st 4 4), (4, getU st 12 4), (8, first), (4, frames), (4, 2 ^ getU c.spec 2 1 / 2 ^ getU c.spec 4 1),
    (6, getU c.ddc 2 6), (1, b2n corr), (1, 0), (4, ovf), (4, getU c.spec 16 4), (16, 0)] ++ elems

/-- A spectral record without SEQ: type, ELEM and COUNT from the stream's KIND (R159, R170). -/
def spectralRec (s : State) (h : Nat) (c : PipeCfg) (st : List Byte) (sample lo hi q : Nat) (body : List Byte) : Rec :=
  let k := getU st 3 1
  let e := srcExp s.view h c
  { typ := [0, rtBins, rtPower, rtTrace, rtSpectrogram].getD k 0, handle := h, stream := getU st 2 1,
    time := ctRate s.cad e sample, rate := e, elem := if k = 1 then elCI24 else elF32, quality := q, sample := sample,
    count := getU st 8 4, body := body, lo := lo, hi := hi }

/-- Offset of a bin in the list of bins. -/
def binIdx (c : PipeCfg) (k : Int) : Nat := (k + (2 ^ (getU c.spec 2 1 - 1) : Nat)).toNat

/-- Record of a TRACE period (R160 to R163, R170). -/
def traceRec (s : State) (h : Nat) (c : PipeCfg) (st : List Byte) (t : Trace) (unsettled : Bool) : Rec :=
  let e := srcExp s.view h c
  let n := t.frames * getU st 12 4
  let det := getU st 16 1
  let f0 := frameStart c t.first
  let lo := fsCeil e f0
  let hi := fsCeil e (frameStart c (t.first + t.frames - 1) + 2 ^ getU c.spec 2 1)
  let elems := t.acc.flatMap fun a => leBytes 4 (detOut det a n)
  spectralRec s h c st f0 lo hi (t.quality ||| qIf unsettled qUnsettled)
    (spectralBody c st (mountAt s h lo).isSome 0 t.first t.frames t.ovf elems)

/-- Record of a cadence period that holds no frame start (R163). -/
def emptyTraceRec (s : State) (h : Nat) (c : PipeCfg) (st : List Byte) (key next : Nat) : Rec :=
  let e := srcExp s.view h c
  let S := slotStart s.cad key
  let elems := (List.range (getU st 8 4)).flatMap fun _ => leBytes 4 f32NaN
  let r := spectralRec s h c st (rateCeil e S) S (S + 1) (exQuality s h S (S + 1))
    (spectralBody c st (mountAt s h S).isSome 0 next 0 0 elems)
  { r with time := ctOfSlot s.cad key }

/-- Replace the state of a pipeline. -/
def State.setPipe (s : State) (h : Nat) (p : Pipe) : State := { s with pipe := tset s.pipe h p }

/-- The state of a pipeline. -/
def State.pp (s : State) (h : Nat) : Pipe := tget {} s.pipe h

/-- Empty cadence periods of a TRACE stream from the first that is not accounted for up to the one at slot count `stop`
(R163); `fuel` counts slots. -/
def emptyTraces (h : Nat) (st : List Byte) (next stop : Nat) : Nat → State → State
  | 0, s => s
  | f + 1, s =>
    let p := s.pp h
    let num := getU st 2 1
    match tfind p.upTo num with
    | none => s
    | some key =>
      if stop ≤ key then s
      else
        let s := s.setPipe h { p with upTo := tset p.upTo num (nextInterval s.cad key (getU st 18 2) false) }
        emptyTraces h st next stop f (s.produce (emptyTraceRec s h p.cfg st key next))

/-- Slot count of the first interval of `len` slots that begins at or after fs-sample S. -/
def intervalFrom (c : Cad) (S len : Nat) (turns : Bool) : Nat :=
  let k := intervalKey c (slotAt c S 1) len turns
  if S ≤ slotStart c k then k else nextInterval c k len turns

/-- Cadence periods of some TRACE streams count from fs-sample S on (R163). -/
def Pipe.openPeriods (p : Pipe) (c : Cad) (S : Nat) (strs : List (List Byte)) : Pipe :=
  let strs := strs.filter fun b => getU b 3 1 == 3 && getU b 17 1 == 1
  { p with upTo := strs.foldl (fun t b => tset t (getU b 2 1) (intervalFrom c S (getU b 18 2) false)) p.upTo }

/-- One frame's values of one TRACE stream enter its open period; a period that ends is produced
(R162, R163, R165). -/
def traceFrame (h j : Nat) (st : List Byte) (powers : List Nat) (clamped : Bool) (q : Nat) (s : State) : State :=
  let p := s.pp h
  let c := p.cfg
  let num := getU st 2 1
  let e := srcExp s.view h c
  let key := periodKey s.cad e c st j
  let cadence := getU st 17 1 == 1
  -- periods without a frame before this one's (R163), which is then accounted for
  let s := if cadence then emptyTraces h st j key (key - (tfind p.upTo num).getD key) s else s
  let s := if cadence then
      let p := s.pp h
      s.setPipe h { p with upTo := tset p.upTo num (max (nextInterval s.cad key (getU st 18 2) false) ((tfind p.upTo num).getD 0)) }
    else s
  let p := s.pp h
  let skip := p.fresh.contains num && j != 0 && periodKey s.cad e c st (j - 1) == key &&
    (tfind p.traces num).isNone
  if skip then s
  else
    let det := getU st 16 1
    let grp := getU st 12 4
    let b0 := binIdx c (getI st 4 4)
    let vals (i : Nat) : List Nat :=
      if det = 2 then [powers.getD (b0 + i * grp + grp / 2) 0] else slice' powers (b0 + i * grp) grp
    let fresh := p.fresh.contains num || (j != 0 && periodKey s.cad e c st (j - 1) == key)
    let t : Trace := (tfind p.traces num).getD ⟨key, [], 0, 0, j, qIf fresh qUnsettled⟩
    let acc := (List.range (getU st 8 4)).map fun i =>
      ((vals i).foldl (detStep det) (if t.frames = 0 then detInit det else t.acc[i]?)).getD 0
    let t := { t with acc := acc, frames := t.frames + 1, ovf := t.ovf + b2n clamped, quality := t.quality ||| q }
    let nextKey := periodKey s.cad e c st (j + 1)
    let p := { p with fresh := p.fresh.filter (· != num) }
    if nextKey = key then s.setPipe h { p with traces := tset p.traces num t }
    else
      let s := (s.setPipe h { p with traces := tdel p.traces num }).produce (traceRec s h c st t false)
      if cadence then emptyTraces h st (j + 1) nextKey (nextKey - key) s else s
where
  /-- powers of a run of bins -/
  slice' (l : List Nat) (off n : Nat) : List Nat := (l.drop off).take n

/-- One frame for one spectral stream (R159 to R162). -/
def streamFrame (h j : Nat) (bins : List Smp) (e : Int) (powers : List Nat) (q : Nat) (st : List Byte) (s : State) :
    State :=
  let c := (s.pp h).cfg
  let k := getU st 3 1
  let clamped := bins.any (·.clamped)
  if k = 3 then traceFrame h j st powers clamped q s
  else if k = 0 ∨ j % getU st 20 4 ≠ 0 then s
  else
    let b0 := binIdx c (getI st 4 4)
    let grp := getU st 12 4
    let n := getU st 8 4
    let elems := match k with
      | 1 => ((bins.drop b0).take n).flatMap fun x => leBytes 3 (ofInt 24 x.re) ++ leBytes 3 (ofInt 24 x.im)
      | 2 => ((powers.drop b0).take n).flatMap (leBytes 4)
      | _ => (List.range n).flatMap fun i =>
        leBytes 4 (((powers.drop (b0 + i * grp)).take grp).foldl (fun a x => if f32Key a < f32Key x then x else a) 0)
    let f0 := frameStart c j
    let ex := srcExp s.view h c
    s.produce (spectralRec s h c st f0 (fsCeil ex f0) (fsCeil ex (f0 + 2 ^ getU c.spec 2 1)) q
      (spectralBody c st (mountAt s h (fsCeil ex f0)).isSome e j 1 (b2n clamped) elems))

/-- Open periods of the given TRACE streams close at their last frame (R164). -/
def closeTraces (h : Nat) (strs : List (List Byte)) (s : State) : State :=
  strs.foldl (fun s st =>
    let p := s.pp h
    match tfind p.traces (getU st 2 1) with
    | some t => (s.setPipe h { p with traces := tdel p.traces (getU st 2 1) }).produce (traceRec s h p.cfg st t true)
    | none => s) s

/-! ### Status and checks -/

/-- Blocks that govern a pipeline in a view, from fs-sample `at0` (R164). -/
def pipeCfg (s : State) (v : View) (h at0 : Nat) (clear : Bool) : PipeCfg :=
  let spec := (v.block btSpectrum [h]).data
  let pos := (v.position h).getD 0
  let w : WindowMem := tget {} s.wram pos
  let m : WordMem := tget {} s.mask h
  { at0 := at0, spec := spec,
    strs := ((v.ofType btSpectralStream).filter fun b => b.u 0 2 == h && b.u 3 1 != 0).map (·.data),
    sward := (v.block btSward [h]).data, mask := (v.block btMask [h]).data, ddc := (v.block btDdc [h]).data,
    dec := (v.block btDecimation [h]).data,
    win := if getU spec 5 1 = 8 then cgetAll (fun _ => 0) w.cur (getU spec 12 4) (2 ^ getU spec 2 1) else [],
    lims := m.cur, clear := clear }

/-- Load of a pipeline within its capacity: r x 2^OVERLAP at most 2 fs a member (R146). -/
def chkSpectrum (s : State) (v : View) (h : Nat) : Option Nat :=
  let b := v.block btSpectrum [h]
  let c := pipeCfg s v h 0 false
  let n : Nat := 2 ^ b.u 2 1
  let strs := (v.ofType btSpectralStream).filter fun x => x.u 0 2 == h
  if (v.ofType btSpectrum).any (fun x => x.key == [h]) ∧ 2 * srcRatio c < 2 ^ b.u 4 1 then some eRange
  else if b.u 5 1 = 8 ∧ (windowWords c).foldl (· + ·) 0 ≤ 0 then some eRange
  else if 8 < (strs.filter fun x => x.u 3 1 != 0).length then some eRange
  else strs.findSome? fun x =>
    let lo := x.i 4 4
    let k := x.u 3 1
    if lo < -((n / 2 : Nat) : Int) ∨ ((n / 2 : Nat) : Int) < lo + (x.u 8 4 * x.u 12 4 : Nat) ∨ n < x.u 12 4 ∨ (k ≠ 3 ∧ n < x.u 8 4) then
      some eRange
    else none

/-- Frames are being computed at the present sample: by the configuration in force, from its first frame on, and in no CLOCK
lacuna (R164, R165, R168, R173). -/
def framesRun (s : State) (h : Nat) : Bool :=
  let p := s.pp h
  let v := s.view
  let (c, j) := match (p.waiting.filter fun c => decide (c.at0 ≤ s.cad.now)).getLast? with
    | some c => (c, frameFrom c (rateCeil (srcExp v h c) c.at0))
    | none => (p.cfg, p.next)
  getU c.spec 7 1 == 1 && !v.gangMember h && (clockLoss s.cad (v.deps h)).isNone &&
    decide (fsCeil (srcExp v h c) (frameStart c j) ≤ s.cad.now)

/-- Result of SPECTRUM_STATUS (R173). -/
def spectrumStatusBytes (s : State) (h : Nat) : List Byte :=
  let p := s.pp h
  let c := pipeCfg s s.view h 0 false
  let n : Nat := 2 ^ getU c.spec 2 1
  let w := windowWords c
  let s1 := w.foldl (· + ·) 0
  let s2 := w.foldl (fun a x => a + x * x) 0
  fields [(2, h), (1, b2n (framesRun s h)), (1, ofInt 8 p.lastExp),
    (4, (rhe (2 ^ getU c.spec 4 1 * 10000 : Nat) (2 * srcRatio c)).toNat), (8, p.frames), (4, p.ovf),
    (4, f32 s1 (2 ^ 16 * n) 0), (4, if s1 = 0 then 0 else f32 (n * s2) (s1 * s1).natAbs 0), (4, 0)]

/-- SPECTRUM_STATUS (R173). -/
def spectrumStatusBody (r : Req) (s : State) : Effect := do
  let h ← samplerHandle r s
  return (s, spectrumStatusBytes s h)

/-- The shared block of WINDOW_LOAD, ATTENDANT_LOAD and MASK_LOAD: target, first, count (R474). -/
def loadBlock (r : Req) (size : Nat) : Except Err (Nat × Nat × Nat) := do
  ensure (16 ≤ r.len && r.len == 16 + size * r.u 8 4) eLength
  r.rsvIs 2 2
  r.rsvIs 12 4
  return (r.u 0 2, r.u 4 4, r.u 8 4)

/-- WINDOW_LOAD (R151, R474): words go into the shadow copy. -/
def windowLoadBody (r : Req) (s : State) : Effect := do
  let (pos, first, count) ← loadBlock r 4
  ensure (pos < 8) eRange 0
  ensure (first + count ≤ 65536) eRange 4
  let ws := (List.range count).map fun i => getI r.params (16 + 4 * i) 4
  ensure (ws.all fun w => -131072 ≤ w && w ≤ 131071) eRange 16
  let m : WindowMem := tget {} s.wram pos
  let base := if m.dirty then m.shadow else m.cur
  let m := { m with shadow := csetAll (fun _ => 0) base first (ws.map (BitVec.ofInt 18)), dirty := true }
  return ({ s with wram := tset s.wram pos m }, [])

end Sys2Proof.Machine
end

