-- ==== Sys2Proof/Machine/Stores.lean ====
section
/-! DEFINITION. Stores (10): the record rings, lacunae, segments, the merge point where records enter them,
and what a consumer takes from them. -/
namespace Sys2Proof.Machine

/-! ### Lacunae over records (R33, R34, R604) -/

/-- SEQ values that a record stands for. -/
def recSeqs (r : Rec) : Nat := if r.typ = rtLacuna then getU r.body 8 4 else 1

/-- Samples that a record stands for (R34). -/
def recSpan (r : Rec) : Nat :=
  if r.typ = rtLacuna then getU r.body 0 8
  else if isSampleType r.typ then r.count
  else if isTdcType r.typ then r.hi - r.lo
  else 0

/-- Type of the data records of a record's stream. -/
def Rec.dataTyp (r : Rec) : Nat := if r.typ = rtLacuna ∨ r.typ = rtDiscontinuity then r.of else r.typ

/-- The LACUNA record that stands for `r` and the records `l` after it of its stream (R33, R34). -/
def lacunaFrom (c : Cad) (cause unit : Nat) (r : Rec) (l : List Rec) : Rec :=
  let hi := l.foldl (fun m x => max m x.hi) r.hi
  -- R352: TDC streams count from the first record's SAMPLE to one sample after the last entry
  let span := if (r :: l).any fun x => isTdcType x.typ then hi - r.lo else (r :: l).foldl (fun n x => n + recSpan x) 0
  let seqs := (r :: l).foldl (fun n x => n + recSeqs x) 0
  { r with
    typ := rtLacuna, of := r.dataTyp, elem := elNone, count := 0, accession := 0, hi := hi, deps := [],
    quality := lacunaQuality c (isSampleType r.dataTyp) r.rate r.sample r.lo hi,
    body := fields [(8, span), (4, seqs), (1, cause), (1, unit), (18, 0)] }

/-- Most SEQ values that one lacuna record covers (R274). -/
def seqLimit := 0xFFFFFFFF

/-- Records in runs that stand for at most 0xFFFF_FFFF SEQ values each (R274). -/
def seqRuns (l : List Rec) : List (List Rec) :=
  l.foldl (fun (gs : List (List Rec)) r =>
    match gs.getLast? with
    | some g => if g.foldl (fun n x => n + recSeqs x) 0 + recSeqs r ≤ seqLimit then gs.dropLast ++ [g ++ [r]] else gs ++ [[r]]
    | none => [[r]]) []

/-- The LACUNA records that stand for records of one stream, in SEQ order (R33, R34, R274). -/
def lacunaOver (c : Cad) (cause unit : Nat) (l : List Rec) : List Rec :=
  (seqRuns l).filterMap fun g => match g with | [] => none | r :: rs => some (lacunaFrom c cause unit r rs)

/-- A record cut to the samples before fs-sample `lo` (R604); none when nothing is left. -/
def cutRec (lo : Nat) (r : Rec) : Option Rec :=
  let n := rateCeil r.rate lo - r.sample
  if r.count ≤ n then some r
  else if n = 0 then none
  else
    let sub := r.body.take 32
    let data := r.body.drop 32
    let data := if r.elem = elR12P then leBytes (ceilDiv n 64 * 96) (leNat data % 2 ^ (12 * n))
      else data.take (n * elemBytes r.elem)
    some { r with count := n, hi := lo, body := sub ++ data }

/-! ### Geometry (R258) -/

/-- Field of the STORE block of a Store. -/
def Store.u (x : Store) (off size : Nat) : Nat := getU x.blk off size
def Store.mode (x : Store) : Nat := x.u 3 1
def Store.handle (x : Store) : Nat := x.u 4 2
def Store.strm (x : Store) : Nat := x.u 6 1
def Store.stack (x : Store) : Nat := x.u 7 1
def Store.segments (x : Store) : Nat := x.u 12 4
/-- The Store is defined. -/
def Store.on (x : Store) : Bool := !x.blk.isEmpty
/-- SIZE in bytes. -/
def Store.size (x : Store) : Nat := x.u 8 4 * 2 ^ 20
/-- DIR_OFFSET (R258). -/
def Store.dirOff (x : Store) : Nat := 4096 + x.size / 256
/-- RING_OFFSET (R258). -/
def Store.ringOff (x : Store) : Nat := x.dirOff + (if x.mode = 1 then roundUp (x.segments * 160) 4096 else 0)
/-- RING_BYTES (R258). -/
def Store.ring (x : Store) : Nat := x.size - x.ringOff

/-- The state of a Store. -/
def State.sto (s : State) (n : Nat) : Store := tget {} s.store n

/-- Replace a Store; GENERATION counts the update (R259, R264; DEDUCED, log 40). -/
def State.setSto (s : State) (n : Nat) (x : Store) : State :=
  if x = s.sto n then s else { s with store := tset s.store n { x with gen := x.gen + 2 } }

/-! ### Segments (R269 to R272, R605) -/

/-- Position of index n at rate fs/2^e in quarter fs-samples. -/
def quarter (e : Int) (n : Nat) : Nat := n * 2 ^ (e + 2).toNat

/-- Position of the first sample of a record, in quarter fs-samples. -/
def recPos (r : Rec) : Nat := quarter r.rate r.sample

/-- A record belongs to a segment whose window is [lo, hi) on the grid of rate fs/2^ge (R270). -/
def belongs (ge : Int) (g : Seg) (r : Rec) : Bool :=
  let step : Nat := 2 ^ (r.rate + 2).toNat
  let unit : Nat := 2 ^ (ge + 2).toNat
  let a : Int := g.lo * unit
  let b : Nat := g.hi * unit
  let n := if isSampleType r.typ then r.count else if r.typ = rtLacuna then recSpan r else 1
  let j := if n ≤ 1 then 0 else (ceilDivI (a - recPos r) step).toNat
  decide (j < max 1 n) && decide (a ≤ (recPos r + j * step : Nat)) && decide (recPos r + j * step < b)

/-- The record lies wholly at or after WIN_END (R270). -/
def passes (ge : Int) (g : Seg) (r : Rec) : Bool := decide (g.hi * 2 ^ (ge + 2).toNat ≤ recPos r)

/-- Quality bits of a window Store's copy of a record (R605). -/
def segBits (ge : Int) (g : Seg) (r : Rec) : Nat :=
  if r.typ = rtLacuna || !belongs ge g r then 0
  else
    qIf (g.short && quarter ge g.trig ≤ recPos r) qShortPre |||
      (match g.ext with | some e => qIf (quarter ge e ≤ recPos r) qExtended | none => 0)

/-- Records of a Store with the bits that its segments call for (R605). -/
def Store.marked (ge : Int) (x : Store) : Store :=
  { x with recs := x.recs.map fun k =>
      let bits := x.segs.foldl (fun q g => q ||| segBits ge g k.r) 0
      { k with r := { k.r with quality := k.r.quality ||| bits } } }

/-- A segment that is filling or complete (R265). -/
def Seg.unreleased (g : Seg) : Bool := g.st == 1 || g.st == 2

/-- START, END and FIRST_SEQ of a segment from the records held (R261). -/
def Seg.bounds (ge : Int) (x : Store) (g : Seg) : Seg :=
  match x.recs.filter fun k => belongs ge g k.r with
  | [] => g
  | k :: ks =>
    let l := (k :: ks).getLastD k
    { g with start := k.pos, stop := l.pos + l.r.length, first := k.r.seq }

/-- SEG_RELEASED: every segment below it is released or lost (R259). -/
def Store.segFloor (x : Store) : Nat :=
  (x.segs.filter Seg.unreleased).foldl (fun m g => min m g.n) x.segNext

/-- SEG_LIMIT stops the Store when it is reached and no segment is filling (R272). -/
def Store.limitStop (x : Store) : Store :=
  let lim := x.u 20 4
  { x with stopped := x.mode == 1 && lim != 0 && decide (lim ≤ x.segNext) && !x.segs.any (·.st == 1) }

/-- Complete the segments that a released record ends, and take bounds and bits anew (R270, R605). -/
def Store.advanceSegs (ge : Int) (r : Rec) (x : Store) : Store :=
  let x : Store := { x with segs := x.segs.map fun (g : Seg) =>
      if g.unreleased then (g.bounds ge x) else g }
  let x : Store := { x with segs := x.segs.map fun (g : Seg) => if g.st == 1 && passes ge g r then { g with st := 2 } else g }
  (x.marked ge).limitStop

/-! ### Making room (R264 to R267) -/

/-- A held record is protected (R265). -/
def Store.protects (ge : Int) (x : Store) (k : Kept) : Bool :=
  if x.mode = 1 then x.segs.any fun g => g.unreleased && belongs ge g k.r else decide (x.release ≤ k.pos)

/-- Bytes in use in the ring, unreleased records included (DEDUCED, log 41). -/
def Store.used (x : Store) : Nat := x.write - x.oldest + x.ahead.foldl (fun n r => n + r.length) 0

/-- CAUSE and UNIT of a LACUNA record (R34). -/
def lacunaCause (r : Rec) : Nat × Nat := (getU r.body 12 1, getU r.body 13 1)

/-- A discarded record joins HEAD_LACUNA, or HEAD_LACUNA2 behind a FORCED_RESIZE (R266). -/
def Store.overrunRec (c : Cad) (x : Store) (r : Rec) : Store :=
  if x.head.any fun h => (lacunaCause h).1 == caForced then { x with head2 := lacunaOver c caOverrun 0 (x.head2 ++ [r]) }
  else { x with head := lacunaOver c caOverrun 0 (x.head ++ [r]) }

/-- A header without its body, kept to describe a record that is no longer held. -/
def Rec.strip (r : Rec) : Rec := if r.typ = rtLacuna then r else { r with body := [] }

/-- Drop the oldest held record (R264). -/
def Store.dropOldest (x : Store) : Store :=
  match x.recs with
  | [] => x
  | k :: ks => { x with recs := ks, oldest := k.pos + k.r.length, gone := x.gone ++ [k.r.strip] }

/-- Records of segment `n` that no consumer has had: held ones, and those beyond WRITE (R266). -/
def Store.undelivered (ge : Int) (x : Store) (n : Nat) : List Rec :=
  let mine (r : Rec) : Bool := x.segs.any fun g => g.n == n && belongs ge g r
  (x.recs.filter fun k => decide (x.done ≤ k.pos) && mine k.r).map (·.r) ++ x.ahead.filter mine

/-- Segment `n` is lost as a unit: its HEAD_LACUNA covers what no consumer has had, and OVERRUN counts the records among
it that no newer unreleased segment shares, for those stay held (R259, R266). -/
def Store.loseSeg (c : Cad) (ge : Int) (n : Nat) (x : Store) : Store :=
  let mine := x.undelivered ge n
  let kept (r : Rec) : Bool := x.segs.any fun g => g.unreleased && g.n != n && belongs ge g r
  let segs := x.segs.map fun (g : Seg) =>
    if g.n = n then { g with st := 4, head := lacunaOver c caOverrun 0 (g.head ++ mine) } else g
  let y : Store := { x with overrun := satAdd 64 x.overrun (mine.filter fun r => !kept r).length, segs := segs }
  { y with segRel := y.segFloor }

/-- The oldest record beyond WRITE is discarded: every position moves past it (R264, R266). -/
def Store.dropAhead (c : Cad) (x : Store) : Store :=
  match x.ahead with
  | [] => x
  | r :: rs =>
    let p := x.write + r.length
    let x : Store := if x.mode = 1 then x else { x.overrunRec c r with overrun := satAdd 64 x.overrun 1 }
    { x with ahead := rs, write := p, oldest := p, release := max x.release p, gone := x.gone ++ [r.strip] }

/-- Free `len` bytes in the ring, or none where POLICY KEEP holds protected records (R266, R267). A record that is not yet
released lies at or after RELEASE, so that it is protected like a held one. -/
def Store.makeRoom (c : Cad) (ge : Int) (len : Nat) : Nat → Store → Option Store
  | 0, x => some x
  | f + 1, x =>
    if x.used + len ≤ x.ring then some x
    else
      match x.recs with
      | [] =>
        if x.policy = 1 then none
        else
          match x.ahead with
          | [] => some x
          | r :: _ =>
            match x.segs.find? fun g => x.mode == 1 && g.unreleased && belongs ge g r with
            | some _ => makeRoom c ge len f (x.loseSeg c ge x.segFloor)
            | none => makeRoom c ge len f (x.dropAhead c)
      | k :: _ =>
        if !x.protects ge k then
          -- under KEEP nothing is discarded for a record that is then dropped
          if x.policy = 1 && decide (x.ring < x.used + len -
              (x.recs.takeWhile fun k => !x.protects ge k).foldl (fun n k => n + k.r.length) 0) then none
          else makeRoom c ge len f x.dropOldest
        else if x.policy = 1 then none
        else if x.mode = 1 then makeRoom c ge len f (x.loseSeg c ge x.segFloor)
        else
          let x : Store := (x.overrunRec c k.r).dropOldest
          makeRoom c ge len f { x with release := x.oldest, overrun := satAdd 64 x.overrun 1, part := 0 }

/-- Fuel for makeRoom: records and segments of the Store. -/
def Store.fuel (x : Store) : Nat := x.recs.length + x.ahead.length + x.segs.length + 1

/-! ### Writing (R264, R267, R268) -/

/-- A record may be released: every lock window that holds one of its samples has ended clean (R70). -/
def settled (c : Cad) (r : Rec) : Bool := r.deps.all fun k => decide (r.hi ≤ (pllOf c k).winFrom)

/-- A record of a segment lost while it was filling joins its HEAD_LACUNA, with that lacuna's cause (R266). -/
def Store.joinLost (c : Cad) (ge : Int) (r : Rec) (x : Store) : Store :=
  { x with segs := x.segs.map fun (g : Seg) =>
      if g.st = 4 ∧ belongs ge g r = true then
        let (cause, unit) := match g.head with | h :: _ => lacunaCause h | [] => (caOverrun, 0)
        { g with head := lacunaOver c cause unit (g.head ++ [r]) }
      else g }

/-- Release the leading records beyond WRITE (R70, R264). -/
def Store.publish (c : Cad) (ge : Int) : Nat → Store → Store
  | 0, x => x
  | f + 1, x =>
    match x.ahead with
    | [] => x
    | r :: rs =>
      if !settled c r then x
      else
        let first := x.firstSeq.isNone
        let x : Store := { x with
          ahead := rs, recs := x.recs ++ [Kept.mk x.write r none], write := x.write + r.length,
          firstSeq := some (x.firstSeq.getD r.seq), h0 := if first then recPos r else x.h0 }
        let x : Store := if first then
            { x with segs := x.segs.map fun (g : Seg) => { g with short := decide (g.lo * (2 ^ (ge + 2).toNat : Nat) < (x.h0 : Int)) } }
          else x
        publish c ge f ((x.joinLost c ge r).advanceSegs ge r)

/-- A record reaches a Store (R264, R267, R268). -/
def Store.put (c : Cad) (ge : Int) (r : Rec) (x : Store) : Store :=
  if x.stopped || decide (r.lo < x.since) then x
  else
    let pre := x.drop
    let len := r.length + pre.foldl (fun n p => n + p.length) 0
    match x.makeRoom c ge len x.fuel with
    | some y => ({ y with ahead := y.ahead ++ pre ++ [r], drop := [] }).publish c ge (y.ahead.length + 2)
    | none =>
      { x with dropped := satAdd 64 x.dropped 1, drop := lacunaOver c caBackpressure 0 (x.drop ++ [r]) }

/-- Domain of a memory stack of a Store that has faulted and is not back (R273, R536). -/
def State.stackLost (s : State) (n : Nat) : Option Nat :=
  let k := (s.sto n).stack
  (s.losses.find? fun l => (l.unit == 22 && k != 1) || (l.unit == 23 && k != 0)).map (·.unit)

/-- Records lost with the ring's own stack go into HEAD_LACUNA, or HEAD_LACUNA2 behind a lacuna of another cause (R273). -/
def Store.lose (c : Cad) (unit : Nat) (rs : List Rec) (x : Store) : Store :=
  let grow (l : List Rec) : List Rec := lacunaOver c caDomain unit (l ++ rs)
  if rs.isEmpty then x
  else if x.head.all fun h => (lacunaCause h).1 == caDomain then { x with head := grow x.head }
  else { x with head2 := grow x.head2 }

/-- A stack loses its contents: unread records and unreleased segments become lacunae with cause DOMAIN (R273, R536). -/
def Store.spill (c : Cad) (ge : Int) (unit : Nat) (x : Store) : Store :=
  let unread := if x.mode = 1 then []
    else (x.recs.filter fun k => decide (x.release ≤ k.pos)).map (·.r) ++ x.ahead ++ x.drop
  let segs := x.segs.map fun (g : Seg) =>
    if g.unreleased then
      let mine := (x.recs.filter fun k => decide (x.done ≤ k.pos) && belongs ge g k.r).map (·.r)
      { g with st := 4, head := lacunaOver c caDomain unit (g.head ++ mine) }
    else g
  let y : Store := { x with recs := [], ahead := [], drop := [], oldest := x.write, release := max x.release x.write,
                            gone := x.gone ++ x.recs.map fun k => k.r.strip, segs := segs, part := 0 }
  { y with segRel := y.segFloor }.lose c unit unread

/-- A record enters every Store that its stream feeds (R256, R264). -/
def State.enter (s : State) (r : Rec) : State :=
  (s.fed r.handle r.stream).foldl (fun s n =>
    match s.stackLost n with
    | some unit => s.setSto n ((s.sto n).lose s.cad unit [r])
    | none => s.setSto n ((s.sto n).put s.cad (s.view.gridExp r.handle) r)) s

/-- Records of clean windows are released in every Store (R70). -/
def State.publishAll (s : State) : State :=
  s.store.foldl (fun s e =>
    if e.2.on && e.2.mode != 2 then
      s.setSto e.1 ((s.sto e.1).publish s.cad (s.view.gridExp e.2.handle) (e.2.ahead.length + 1))
    else s) s

/-! ### Gaps (R33, R70, R604) -/

/-- Samples behind an event that a gap from fs-sample `lo` leaves: those before it; what followed the others stands at the
end. -/
def cutTails (e : Int) (lo : Nat) (l : List Tail) : List Tail × List Rec :=
  l.foldl (fun (a : List Tail × List Rec) t =>
    let limit := min (t.limit.getD (rateCeil e lo)) (rateCeil e lo)
    if t.moved then (a.1 ++ [t], a.2)
    else if t.next < limit then (a.1 ++ [{ t with limit := some limit }], a.2)
    else
      match a.1.getLast? with
      | some b => (a.1.dropLast ++ [{ b with after := b.after ++ t.after }], a.2)
      | none => (a.1, a.2 ++ t.after)) ([], [])

/-- Open a gap of a stream at fs-sample `lo`: records that it takes and that are not yet released are replaced by it, in the
device and in every Store, and a sample record that straddles it is cut. A stream that feeds no Store has no records to
lose (R256). -/
def State.openGap (s : State) (h st cause unit lo : Nat) : State :=
  let k := skey h st
  let x := s.stream k
  if x.gap.isSome || (s.fed h st).isEmpty then s
  else
    -- what a re-anchoring left behind is final
    let mine (r : Rec) : Bool := r.key == k && !r.deps.isEmpty
    let aheads := (s.fed h st).flatMap fun n => (s.sto n).ahead
    let lost := (s.produced ++ aheads).filter fun r => mine r && lostAt lo r
    let first := lost.foldl (fun m r => min m r.seq) x.seq
    let prune (l : List Rec) : List Rec := l.filterMap fun r =>
      if !mine r then some r
      else if lostAt lo r then none
      else if isSampleType r.typ then cutRec lo r else some r
    let (tails, rest) := cutTails ((s.view.streamDef h st).elim 0 (·.rate)) lo x.tails
    let s := (s.fed h st).foldl (fun s n => let y := s.sto n; s.setSto n { y with ahead := prune y.ahead }) s
    { s.setStream k { x with gap := some ⟨cause, unit, lo, x.seq - first, first⟩, tails := tails }
      with produced := prune s.produced ++ rest }

/-! ### RAW records (R262, R263) -/

/-- R12P packing of codes, 64 in 96 bytes (R263). -/
def packR12 (codes : List Int) : List Byte :=
  leBytes (ceilDiv codes.length 64 * 96) (codes.zipIdx.foldl (fun n p => n + ofInt 12 p.1 * 2 ^ (12 * p.2)) 0)

/-- A RAW record without SEQ (R262). -/
def rawRecord (s : State) (h start : Nat) (codes : List Conv) (t : Tail) : Rec :=
  let v := s.view
  let c := t.cfg
  let l := s.samples h t.moved start codes
  let e := v.gridExp h
  let lo := fsCeil e start
  let hi := max (lo + 1) (fsCeil e (start + l.length))
  { typ := rtRaw, handle := h, stream := c.stream 3, time := ctRate s.cad e start, rate := e, elem := elR12P,
    quality := l.foldl (fun q y => q ||| y.q) (tailQuality s t h lo hi), sample := start, count := l.length, lo := lo, hi := hi,
    body := fields [(1, getU c.inp 1 1), (1, getU c.inp 2 1), (1, v.ganged h), (29, 0)] ++ packR12 (l.map (·.y)) }

/-- Records that stood behind samples take their SEQ values and enter their Stores (R26, R36, R604). -/
def State.enterAfter (s : State) (l : List Rec) : State :=
  l.foldl (fun (s : State) d => (s.bumpSeq d.key).enter { d with seq := (s.stream d.key).seq }) s

/-- A sample record of a path of an exhibit is complete: `count` samples from `start`. It is numbered and enters its Stores
when it is the stream's next one; `make` forms it, and what it makes of the chain (R26, R36, R127, R139, R262, R604). -/
def State.takePath (s : State) (h path start count : Nat) (make : Tail → Rec × (Chain → Chain)) : State :=
  match s.nextSource h path with
  | none => s
  | some (st, behind, t) =>
    let k := skey h st
    -- a record of the stream that still waits goes first (R26)
    if (s.fed h st).isEmpty || s.produced.any (·.key == k) || start != t.next || count == 0 || start + count != t.stop start then s
    else
      let (r, sat) := make t
      let r := s.number r
      let r := if t.moved then { r with deps := [] } else r
      let s := (s.bumpSeq k).enter r
      let s := { s with chain := tset s.chain h (sat (tget {} s.chain h)) }
      let x := s.stream k
      if !behind then s.setStream k { x with next := start + count }
      else if t.limit = some (start + count) then (s.setStream k { x with tails := x.tails.drop 1 }).enterAfter t.after
      else s.setStream k { x with tails := { t with next := start + count } :: x.tails.drop 1 }

/-! ### The merge point (R439, R440) -/

/-- Add to the merge counters of every queue that consumes a Store of the stream. -/
def State.countMerge (s : State) (h st : Nat) (stale : Bool) : State :=
  let qs := (s.view.ofType btCourierQueue).filter fun b =>
    b.u 1 1 == 1 && b.u 2 1 == 0 &&
      (List.range (b.u 28 1)).any fun i => (s.fed h st).contains (b.u (32 + 2 * i) 2)
  qs.foldl (fun s b =>
    let q : Queue := tget {} s.queue (b.u 0 1)
    let q := if stale then { q with stale := satAdd 32 q.stale 1 } else { q with merged := satAdd 32 q.merged 1 }
    { s with queue := tset s.queue (b.u 0 1) q }) s

/-- The merge point passes exactly one copy of a record, by its epoch (R440). -/
def State.merges (s : State) (r : Rec) : State :=
  match tfind s.merge r.handle with
  | some (old, new, tm) =>
    if (r.epoch = old ∧ r.lo < tm) ∨ (r.epoch = new ∧ tm ≤ r.lo) then s.enter r
    else if r.epoch = old ∨ r.epoch = new then s.countMerge r.handle r.stream false
    else s.countMerge r.handle r.stream true
  | none =>
    if r.epoch = s.view.epoch r.handle then s.enter r else s.countMerge r.handle r.stream true

/-- Take the first waiting record that meets a test. -/
def takeFirst (p : Rec → Bool) : List Rec → Option (Rec × List Rec)
  | [] => none
  | r :: rs => if p r then some (r, rs) else (takeFirst p rs).map fun q => (q.1, r :: q.2)

/-- RECORD_WRITE (R256, R264, R440): a produced record passes the merge point into its Stores. -/
def recordWrite (src : RecSrc) (s : State) : State :=
  match src with
  | .queued =>
    match s.produced with
    | [] => s
    | r :: rs => ({ s with produced := rs }).merges r
  | .ofStream h st =>
    match takeFirst (fun r => r.key == skey h st) s.produced with
    | none => s
    | some (r, rs) => ({ s with produced := rs }).merges r
  | .copy epoch =>
    match s.produced with
    | [] => s
    | r :: _ =>
      -- the other placement's copy: only the epoch that is due passes, and that is the record itself
      if (s.epochAt r.handle r.lo = epoch) then s
      else match tfind s.merge r.handle with
        | some (old, new, _) => s.countMerge r.handle r.stream (!(epoch == old || epoch == new))
        | none => s.countMerge r.handle r.stream true
  | .raw h start codes =>
    s.takePath h 3 start codes.length fun t => (rawRecord s h start codes t, id)
  | .iq h path n0 count first codes =>
    s.takePath h path n0 count fun t =>
      let (r, hits) := iqRecord s h n0 count first codes t
      (r, fun x => x.count t.cfg path (n0 + count) hits)

/-! ### Captures (R269, R271, R272) -/

/-- Records of a window that the Store no longer holds (R271). -/
def Store.eaten (ge : Int) (x : Store) (g : Seg) : List Rec :=
  x.gone.filter fun r => belongs ge g r

/-- The segment that a capture opens (R269, R271). -/
def Store.openSeg (c : Cad) (ge : Int) (tr acc : Nat) (ext : Option (Nat × Nat)) (x : Store) : Store :=
  let pre := x.u 24 8
  let post := x.u 32 8
  let g : Seg := { n := x.segNext, trig := tr, lo := (tr : Int) - pre, hi := (match ext with | some e => e.2 | none => tr) + post,
                   post := post, acc := acc, ext := ext.map (·.1) }
  let g := { g with short := x.firstSeq.isSome && decide (g.lo * (2 ^ (ge + 2).toNat : Nat) < (x.h0 : Int)),
                    start := x.write, stop := x.write }
  let g := { g with head := lacunaOver c (if x.policy = 1 then caBackpressure else caOverrun) 0 (x.eaten ge g) }
  let g := g.bounds ge x
  let g := if x.recs.any fun k => passes ge g k.r then { g with st := 2 } else g
  -- a lost segment whose slot is taken keeps its HEAD_LACUNA until its consumer has it (R266, R272)
  let keep := x.segs.filter fun o => o.n % x.segments != g.n % x.segments || (o.st == 4 && !o.head.isEmpty)
  ({ x with segs := keep ++ [g], segNext := x.segNext + 1 }).marked ge

/-- CAPTURE_ARRIVAL (R269, R272): a capture that an event started reaches its Store. -/
def captureArrival (n tr acc : Nat) (s : State) : State :=
  match s.caps.find? fun q => q.store == n && q.tr == tr && q.acc == acc with
  | none => s
  | some q =>
    let s := { s with caps := s.caps.erase q }
    let x : Store := s.sto n
    -- a request whose (handle, epoch) is not the owner's present one is returned with E_STALE_ROLE (R23)
    if !x.on || x.mode != 1 || q.pair != (x.handle, s.view.epoch x.handle) then s
    else
      let ge := s.view.gridExp x.handle
      let x : Store := { x with policy := x.nextPol.getD x.policy, nextPol := none }
      let lim := x.u 20 4
      if x.stopped || (lim != 0 && decide (lim ≤ x.segNext)) then
        s.setSto n { x with ignored := satAdd 32 x.ignored 1 }
      else
        let slot := x.segNext % x.segments
        match x.segs.find? fun g => g.n % x.segments == slot && g.unreleased with
        | some g =>
          if x.policy = 1 then
            (s.setSto n { x with refused := satAdd 32 x.refused 1 }).postEx x.handle evCaptureRefused
              [(2, n), (6, acc)]
          else
            let x : Store := (x.loseSeg s.cad ge g.n).openSeg s.cad ge tr acc q.ext
            s.setSto n ({ x with segRel := x.segFloor }).limitStop
        | none =>
          let x : Store := x.openSeg s.cad ge tr acc q.ext
          s.setSto n ({ x with segRel := x.segFloor }).limitStop

/-- An extend event at grid sample `e` of a capture (R218, R219, R269). -/
def extendCapture (n tr acc e : Nat) (s : State) : State :=
  let s := { s with caps := s.caps.map fun (q : CapReq) =>
      if q.store = n ∧ q.tr = tr ∧ q.acc = acc then
        { q with ext := some (match q.ext with | some p => (p.1, e) | none => (e, e)) }
      else q }
  let x : Store := s.sto n
  let ge := s.view.gridExp x.handle
  let x : Store := { x with segs := x.segs.map fun (g : Seg) =>
      if g.trig = tr ∧ g.acc = acc ∧ g.st = 1 then { g with hi := e + g.post, ext := some (g.ext.getD e) } else g }
  s.setSto n (x.marked ge)

/-! ### What a consumer takes (R268, R275) -/

/-- The next delivery of a Store: the record, and which of the Store's parts it comes from: 0 a lacuna that
stands first, 1 a record delivered again, 2 HEAD_LACUNA, 3 HEAD_LACUNA2, 4 a held record, 5 a segment's
HEAD_LACUNA. -/
structure Deliv where
  r    : Rec
  kind : Nat
  pos  : Nat := 0
  seg  : Nat := 0
deriving DecidableEq, Repr

/-- A held record as a consumer delivers it: an UNCORRECTABLE lacuna where it is bad (R279). -/
def Kept.shown (c : Cad) (k : Kept) : Rec :=
  match k.bad with | some unit => lacunaFrom c caUncorrectable unit k.r [] | none => k.r

/-- The oldest segment that is complete and comes next (R275). -/
def Store.nextSeg (x : Store) : Option Seg :=
  match x.segs.find? fun g => g.n == x.segFloor && g.unreleased with
  | some g => if g.st == 2 then some g else none
  | none => none

/-- The next delivery of a record Store, if one is ready (R268, R275). -/
def Store.nextItem (c : Cad) (ge : Int) (x : Store) : Option Deliv :=
  match x.first with
  | r :: _ => some ⟨r, 0, 0, 0⟩
  | [] =>
    match x.redo with
    | r :: _ => some ⟨r, 1, 0, 0⟩
    | [] =>
      match x.head, x.head2 with
      | r :: _, _ => some ⟨r, 2, 0, 0⟩
      | [], r :: _ => some ⟨r, 3, 0, 0⟩
      | [], [] =>
        if x.mode = 1 then
          -- a lost segment still delivers its HEAD_LACUNA in its place
          match x.segs.find? fun g => g.st == 4 && !g.head.isEmpty && decide (g.n < x.segFloor) with
          | some g => g.head.head?.map fun r => ⟨r, 5, 0, g.n⟩
          | none =>
            match x.nextSeg with
            | none => none
            | some g =>
              match g.head with
              | r :: _ => some ⟨r, 5, 0, g.n⟩
              | [] =>
                (x.recs.find? fun k => decide (x.done ≤ k.pos) && belongs ge g k.r).map fun k =>
                  ⟨k.shown c, 4, k.pos, g.n⟩
        else (x.recs.find? fun k => decide (x.release ≤ k.pos)).map fun k => ⟨k.shown c, 4, k.pos, 0⟩

/-- Complete segments with nothing left to deliver are released (R275). -/
def Store.releaseSegs (ge : Int) : Nat → Store → Store
  | 0, x => x
  | f + 1, x =>
    match x.nextSeg with
    | none => x
    | some g =>
      if g.head.isEmpty && !(x.recs.any fun k => decide (x.done ≤ k.pos) && belongs ge g k.r) then
        let x : Store := { x with segs := x.segs.map fun (o : Seg) => if o.n = g.n then { o with st := 3 } else o }
        releaseSegs ge f { x with segRel := x.segFloor }
      else x

/-- The consumer has delivered the next item: RELEASE or the segment advances, LAST_RETURNED is its SEQ
(R275, R433). -/
def Store.delivered (ge : Int) (d : Deliv) (x : Store) : Store :=
  let x : Store := { x with last := some d.r.seq, part := 0 }
  let x : Store := match d.kind with
    | 0 => { x with first := x.first.drop 1 }
    | 1 => { x with redo := x.redo.drop 1, last := some (max d.r.seq (x.last.getD 0)) }
    | 2 => { x with head := x.head.drop 1 }
    | 3 => { x with head2 := x.head2.drop 1 }
    | 5 => { x with segs := x.segs.map fun (g : Seg) => if g.n = d.seg then { g with head := g.head.drop 1 } else g }
    | _ =>
      match x.recs.find? fun k => k.pos == d.pos with
      | none => x
      | some k =>
        let x : Store := if k.bad.isSome then { x with bad := satAdd 32 x.bad 1 } else x
        if x.mode = 1 then { x with done := k.pos + k.r.length }
        else { x with release := k.pos + k.r.length }
  if x.mode = 1 then x.releaseSegs ge (x.segs.length + 1) else x

/-! ### The control page and BAR4 (R259 to R261, R277) -/

/-- STATE of the control page; `playing` for a playback Store. -/
def Store.state (x : Store) (playing : Bool) : Nat :=
  if x.mode = 2 then (if playing then 3 else 2) else b2n x.stopped

/-- A DAC plays from the Store: its committed SOURCE, until a playback of one pass is done (R259, R281, R285, R363). -/
def State.plays (s : State) (n : Nat) : Bool :=
  (s.view.ofType btStimulus).any fun b =>
    b.u 1 1 == 1 && b.u 3 1 == 2 && b.u 10 2 == n && !(tget ({} : Dac) s.dac (b.u 0 1)).done

/-- Bytes of a lacuna field: the record, or zeros. -/
def lacBytes (l : List Rec) : List Byte := match l with | r :: _ => padTo 96 r.bytes | [] => zeros 96

/-- Bytes 0 to 447 of the control page of a Store (R259). -/
def pageBytes (s : State) (n : Nat) : List Byte :=
  let x : Store := s.sto n
  fields [(2, n), (2, x.handle), (4, x.epoch), (1, x.strm), (1, x.mode), (1, x.policy), (1, x.state (s.plays n)),
      (4, if x.mode = 1 then x.segments else 0), (8, x.gen), (8, if x.mode = 2 then 0 else x.ringOff),
      (8, if x.mode = 2 then 0 else x.ring), (8, if x.mode = 2 then 0 else x.dirOff),
      (8, x.write), (8, x.oldest), (8, x.release), (8, x.segNext), (8, x.segRel), (8, x.firstSeq.getD 0), (8, x.dropped),
      (8, x.overrun), (4, x.refused), (4, x.ignored), (4, x.bad)] ++ zeros 132 ++ lacBytes x.head ++ lacBytes x.head2

/-- The 160 bytes of a directory slot (R261). -/
def segBytes (g : Seg) : List Byte :=
  fields [(4, g.n), (1, g.st), (1, b2n g.short + 2 * b2n g.ext.isSome + 4 * b2n (!g.head.isEmpty)), (6, g.acc), (4, 0),
    (8, g.start), (8, g.stop), (8, g.trig), (8, ofInt 64 g.lo), (8, g.hi), (8, g.first)] ++ lacBytes g.head

/-- Directory slot `k` of a Store. -/
def Store.slotBytes (x : Store) (k : Nat) : List Byte :=
  match x.segs.reverse.find? fun g => g.n % x.segments == k with | some g => segBytes g | none => zeros 160

/-- Boundary-map byte `i` (R260). -/
def Store.mapByte (x : Store) (i : Nat) : Byte :=
  BitVec.ofNat 8 (maskOf ((List.range 8).filter fun b => x.recs.any fun k => k.pos % x.ring == 32 * (8 * i + b)))

/-- A byte of the ring: of a held record, or not stated (none). -/
def Store.ringByte (x : Store) (off : Nat) : Option Byte :=
  (x.recs.find? fun k =>
      let d := (off + x.ring - k.pos % x.ring) % x.ring
      decide (d < k.r.length)).map fun k =>
    k.r.bytes.getD ((off + x.ring - k.pos % x.ring) % x.ring) 0

/-- What a sample that nothing has written reads as (DESIGN CHOICE, log 10). -/
def sampleDefault : Nat → BitVec 16 := fun _ => 0

/-- A byte of a Store at an offset from its base; none where the manual states no value. -/
def storeByte (s : State) (n off : Nat) : Option Byte :=
  let x : Store := s.sto n
  if off < 4096 then some ((pageBytes s n).getD off 0)
  else if x.mode = 2 then
    some (BitVec.ofNat 8 ((cget sampleDefault x.samples ((off - 4096) / 2)).toNat / 256 ^ (off % 2)))
  else if off < x.dirOff then some (x.mapByte (off - 4096))
  else if off < x.ringOff then
    let d := off - x.dirOff
    some (if d < x.segments * 160 then (x.slotBytes (d / 160)).getD (d % 160) 0 else 0)
  else x.ringByte (off - x.ringOff)

/-- Owner of a Store: of its exhibit; PF0 for a playback Store (R476). -/
def State.storeOwner (s : State) (n : Nat) : Nat :=
  let x : Store := s.sto n
  if x.mode = 2 then 0 else s.view.owner x.handle

/-- A function's window shows the Store (R277). -/
def State.shows (s : State) (fn n : Nat) : Bool := (s.sto n).on && (fn == 0 || s.storeOwner n == fn)

/-- The 32 bytes of a Store-table entry (R277). -/
def entryBytes (s : State) (fn n : Nat) : List Byte :=
  let x : Store := s.sto n
  if s.shows fn n then
    fields [(8, x.base), (4, x.u 8 4), (2, x.handle), (1, x.strm), (1, x.mode), (4, x.epoch), (12, 0)]
  else zeros 32

/-- A byte of a function's BAR4; none where the manual states no value. -/
def bar4Byte (s : State) (fn off : Nat) : Option Byte :=
  if off < 0xC00000000 then
    match s.store.find? fun e => s.shows fn e.1 && decide (e.2.base ≤ off) && decide (off < e.2.base + e.2.size) with
    | some e => storeByte s e.1 (off - e.2.base)
    | none => some 0
  else if off < 0xC00008000 then
    let d := off - 0xC00000000
    some ((entryBytes s fn (d / 32)).getD (d % 32) 0)
  else some 0

/-- Bytes that a BAR4 read answers; a byte of the ring outside held records is a free value (DESIGN CHOICE, log 7). -/
def bar4Bytes (s : State) (fn off : Nat) : Nat → State × List Byte
  | 0 => (s, [])
  | k + 1 =>
    let (s', l) := bar4Bytes s fn off k
    match bar4Byte s fn (off + k) with
    | some b => (s', l ++ [b])
    | none => let (f, s'') := s'.freeBytes 1; (s'', l ++ f)

/-! ### Commands -/

/-- A Store that a command names, defined and of the function (R276, R288). -/
def namedStore (s : State) (fn n off : Nat) : Except Err Store := do
  ensure (n < 1024) eRange off
  ensure (s.sto n).on eRange off
  ensure (s.storeOwner n == fn) eNotOwner off
  return s.sto n

/-- STORE_STATUS (R288). -/
def storeStatusBody (r : Req) (s : State) : Effect := do
  let n ← r.oneNum
  let _ ← namedStore s r.fn n 0
  return (s, pageBytes s n)

/-- A Store has a consumer: an enabled queue or the archive (R275). -/
def View.consumed (v : View) (n : Nat) : Bool :=
  ((v.ofType btCourierQueue).any fun b =>
      b.u 1 1 == 1 && (List.range (b.u 28 1)).any fun i => b.u (32 + 2 * i) 2 == n) ||
    let a := v.block btArchive []
    a.u 0 1 == 1 && (List.range (a.u 3 1)).any fun i => a.u (16 + 2 * i) 2 == n

/-- STORE_RELEASE (R276, R289). -/
def storeReleaseBody (r : Req) (s : State) : Effect := do
  r.lenIs 16
  r.rsvIs 2 6
  let n := r.u 0 2
  let val := r.u 8 8
  let x ← namedStore s r.fn n 0
  ensure (!s.view.consumed n) eActive
  if x.mode = 0 then
    ensure (x.release ≤ val && (val == x.write || x.recs.any fun k => k.pos == val)) eRange 8
    return (s.setSto n { x with release := val, head := [], head2 := [] }, [])
  else if x.mode = 1 then
    ensure (val ≤ x.segNext) eRange 8
    let x : Store := { x with segs := x.segs.map fun (g : Seg) => if g.n < val && g.st == 2 then { g with st := 3 } else g }
    return (s.setSto n { x with segRel := x.segFloor }, [])
  else refuse eRange 0

/-- STORE_LOAD (R285, R289): `payload` is what the read at HOST_ADDR returned. -/
def storeLoadBody (r : Req) (s : State) : Effect := do
  r.lenIs 32
  r.rsvIs 2 6
  let n := r.u 0 2
  let off := r.u 8 8
  let count := r.u 16 8
  let x ← namedStore s r.fn n 0
  ensure (x.mode == 2) eRange 0
  ensure (off % 16 == 0) eRange 8
  ensure (count % 16 == 0 && 2 * (off + count) ≤ x.size - 4096) eRange 16
  ensure (!s.plays n) eActive
  ensure r.memOk eHostAccess
  let ws := (List.range count).map fun i => BitVec.ofNat 16 (getU r.payload (2 * i) 2)
  return (s.setSto n { x with samples := csetAll sampleDefault x.samples off ws }, [])

end Sys2Proof.Machine
end

