-- ==== Sys2Proof/Machine/Triggers.lean ====
section
/-! DEFINITION. Trigger conditions and trigger events (08): condition results, the trigger table of R216,
hold-off, accession numbers, captures, TRIG_OUT lines and trigger-bus messages. -/
namespace Sys2Proof.Machine

/-- The trigger of an exhibit. -/
def State.tr (s : State) (h : Nat) : Trig := tget {} s.trig h

/-- Replace a trigger. -/
def State.setTr (s : State) (h : Nat) (x : Trig) : State := { s with trig := tset s.trig h x }

/-! ### The grid (R199, R200) -/

/-- Grid samples per fs-sample of an exhibit: 1, 2 or 4. -/
def View.gridK (v : View) (h : Nat) : Nat := 2 ^ (-(v.gridExp h)).toNat

/-- First grid sample at or after fs-sample position num/den (R199). -/
def gridCeil (k num den : Nat) : Nat := ceilDiv (num * k) den

/-- Cadence time of a grid sample. -/
def gridTime (c : Cad) (k i : Nat) : CT := ctAt c i k

/-- First grid sample at or after a cadence time plus `slots` slots and `phase` (R220, R243). -/
def gridAfter (c : Cad) (k : Nat) (t : CT) (slots phase : Nat) : Nat :=
  let pos := ctPos c t + ((slots * 2 ^ 16 + phase) * c.rnum : Nat)
  (ceilDivI (pos * k) (2 ^ 48)).toNat

/-- First grid sample at or after a cadence time (R199, R211). -/
def gridOf (c : Cad) (k : Nat) (t : CT) : Nat := gridAfter c k t 0 0

/-- Beat of a grid sample (R200). -/
def beatOf (k i : Nat) : Nat := i / (8 * k)

/-! ### Latency and horizon (R225) -/

/-- Latency of a path of an exhibit in fabric clocks (R131, R225); gangs take their highest channel. -/
def pathLatency (v : View) (h path : Nat) : Nat :=
  let dec := (v.block btDecimation [h]).data
  let s := getU dec 2 1
  let k := ((v.channels h).getLastD 0) % 6
  let desk := if getU dec 15 1 = 1 then 5 - k else 0
  if path = 0 then 10
  else if s = 0 then 28 + k + desk
  else if path = 1 then 28 + 2 * presetSpan (getU dec 3 1) * (2 ^ s - 1) + 4 * s + k + desk
  else 29 + 2 ^ s + k + desk

/-- Latency of a condition in fabric clocks (R225, R350). -/
def condLatency (v : View) (h : Nat) (b : List Byte) : Nat :=
  let y := getU b 3 1
  let src := getU b 4 2
  let ls := if getU b 6 1 = 0 then 0 else pathLatency v src (getU b 7 1)
  let sp := v.block btSpectrum [src]
  let m := sp.u 2 1
  let n : Nat := 2 ^ m
  let lf := pathLatency v src (sp.u 3 1)
  let clocks (x : Int) : Int := ceilDivI (x * 2 ^ (v.sourceRate src + 2).toNat) 32
  let frame (x : Int) (rest : Nat) : Nat :=
    (max ((lf + 4 : Nat) : Int) (lf + clocks x + ((n / (16 * v.gridK src) + 2 * m + rest : Nat) : Int))).toNat
  let own := match y with
    | 1 => ls + 3
    | 2 => ls + 3
    | 3 => ls + 4
    | 4 => pathLatency v src (getU b 7 1) + 5
    | 5 => frame ((n : Int) - 1) 22
    | 6 => frame ((n : Int) - spectrumHop sp - 1) 31
    | 7 => 4
    | 8 => 4 + ceilDiv ((v.block btPairing [src]).u 8 4) 512
    | 9 => 4
    | _ => 0
  own + (if (v.position h).isNone then 8 else 0)

/-- Enabled CONDITION blocks of an exhibit. -/
def View.conditions (v : View) (h : Nat) : List Block :=
  (v.ofType btCondition).filter fun b => b.u 0 2 == h && b.u 3 1 != 0

/-- Horizon H of a trigger: the largest latency of its enabled conditions (R225). -/
def View.horizon (v : View) (h : Nat) : Nat :=
  (v.conditions h).foldl (fun m b => max m (condLatency v h b.data)) 0

/-! ### Configuration in grid order (R213, R231, R251) -/

/-- The configuration in force at grid sample `g`. -/
def Trig.cfgAt (x : Trig) (g : Nat) : TrigCfg := x.waiting.foldl (fun a c => if c.n0 ≤ g then c else a) x.cfg

/-- The CONDITION block of a number in a configuration. -/
def TrigCfg.cond (c : TrigCfg) (n : Nat) : Option (List Byte) := c.conds.find? fun b => getU b 2 1 == n

/-- A program at its restart (R239). -/
def Prog.start (p : Prog) (c : TrigCfg) (fires : Nat) : Prog :=
  { p := c.n0, st := 1, m := List.replicate 4 (getU c.trig 4 4), act := getU c.trig 4 4, pp := c.n0,
    beat := 0, count := 0, fires := fires, fired := p.fired }

/-- A configuration takes effect: its changed conditions restart, its program restarts or stops (R213,
R251), and a changed ARM acts (R216). -/
def Trig.adopt (x : Trig) (c : TrigCfg) : Trig :=
  let conds := c.restart.foldl (fun t n =>
    let o : CondSt := tget {} t n
    let init := (c.init.filter fun p => p.1 == n).map fun p => ({ pos := c.n0, set := some p.2 } : Push)
    tset t n { start := c.n0, waiting := init ++ o.waiting.filter fun p => decide (c.n0 ≤ p.pos) }) x.conds
  let conds := conds.filter fun e => (c.cond e.1).isSome
  let prog := if getU c.trig 3 1 ≠ 2 then { x.prog with st := 0 }
    else if c.reprog then x.prog.start c x.prog.fires else x.prog
  { x with cfg := c, conds := conds, prog := prog, arm := c.arm.getD x.arm, spent := x.spent && c.arm.isNone }

/-- Numbers in increasing order, each once. -/
def risingNats (l : List Nat) : List Nat :=
  l.foldl (fun acc x => if acc.contains x then acc else acc.takeWhile (decide <| · < x) ++ x :: acc.dropWhile (decide <| · < x)) []

/-- What is configured or commanded for grid sample `p` takes effect; arming follows commits (R53, R235). -/
def Trig.takeAt (x : Trig) (p : Nat) : Trig :=
  let x' := { x with waiting := x.waiting.filter fun c => c.n0 != p, arms := x.arms.filter fun a => a.1 != p }
  (x.arms.filter fun a => a.1 == p).foldl (fun x a => { x with arm := a.2, spent := false })
    ((x.waiting.filter fun c => c.n0 == p).foldl Trig.adopt x')

/-- Everything configured or commanded up to grid sample `i` has taken effect, in the order of its samples (R53, R236). -/
def Trig.upTo (x : Trig) (i : Nat) : Trig :=
  let due := ((x.waiting.map (·.n0)) ++ x.arms.map (·.1)).filter fun p => decide (p ≤ i)
  (risingNats due).foldl Trig.takeAt x

/-- A waiting result reaches a condition of every trigger that `f` answers for, at fs-position num/den. -/
def State.pushAll (num den : Nat) (f : Nat → List Byte → Option Push) (s : State) : State :=
  let v := s.view
  { s with trig := tmap s.trig fun h x =>
      let g := gridCeil (v.gridK h) num den
      let g := max g x.next
      (x.cfgAt g).conds.foldl (fun (x : Trig) b =>
        match f h b with
        | none => x
        | some p =>
          let n := getU b 2 1
          let o : CondSt := tget {} x.conds n
          { x with conds := tset x.conds n { o with waiting := o.waiting ++ [{ p with pos := g }] } }) x }

/-! ### Conditions (R201 to R213) -/

/-- Types that read a sample stream. -/
def streamCond (y : Nat) : Bool := decide (1 ≤ y ∧ y ≤ 4)

/-- Edge-type conditions (R201). -/
def edgeCond (b : List Byte) : Bool :=
  let y := getU b 3 1
  y == 2 || y == 8 || decide (10 ≤ y) || ((y == 7 || y == 9) && getU b 9 1 == 1)

/-- Value of a source sample (R202). -/
def quantity (b : List Byte) (z : Int × Int) : Int :=
  match getU b 6 1 with | 2 => z.2 | 3 => z.1 * z.1 + z.2 * z.2 | _ => z.1

/-- A test against A in DIR (R203). -/
def meets (b : List Byte) (v a : Int) : Bool := if getU b 8 1 = 0 then decide (a ≤ v) else decide (v ≤ a)

/-- One source sample of an EDGE condition: the new state and whether an edge occurs (R203). -/
def edgeStep (b : List Byte) (v : Int) (x : CondSt) : CondSt × Bool :=
  let a := getI b 12 8
  let hys := getI b 20 8
  let dir := getU b 8 1
  let rise := x.up && decide (a ≤ v)
  let fall := x.down && decide (v ≤ a)
  let up := if rise then false else x.up || (if 1 ≤ hys then decide (v ≤ a - hys) else decide (v < a))
  let down := if fall then false else x.down || (if 1 ≤ hys then decide (a + hys ≤ v) else decide (a < v))
  ({ x with up := up, down := down, lead := v }, (rise && dir != 1) || (fall && dir != 0))

/-- One source sample of a sample-stream condition, with its quality (R202, R203, R230): new state, edge occurrence. -/
def condSample (b : List Byte) (z : Int × Int) (q : Nat) (x : CondSt) : CondSt × Bool :=
  let c := getU b 28 4
  let x := { x with seen := x.seen + 1, quality := q }
  match getU b 3 1 with
  | 1 => let v := quantity b z
         ({ x with value := meets b v (getI b 12 8), lead := v }, false)
  | 2 => edgeStep b (quantity b z) x
  | 3 =>
    let hist := ((z, q) :: x.hist).take (c + 1)
    let d := quantity b z - (match hist[c]? with | some o => quantity b o.1 | none => 0)
    ({ x with hist := hist, lead := d, quality := q ||| (match hist[c]? with | some o => o.2 | none => 0),
              value := decide (c < x.seen) && meets b d (getI b 12 8) }, false)
  | _ =>
    let hist := ((z, q) :: x.hist).take c
    let p := hist.foldl (fun a o => a + o.1.1 * o.1.1 + o.1.2 * o.1.2) 0
    ({ x with hist := hist, lead := p, quality := hist.foldl (fun a o => a ||| o.2) 0,
              value := decide (c ≤ x.seen) && meets b p (getU b 12 8 : Nat) }, false)

/-- What a condition shows at grid sample `i`: its new state, true now, by an occurrence (R201). -/
def condEval (b : List Byte) (i : Nat) (ins : List CondIn) (quality : Nat) (x : CondSt) : CondSt × Bool × Bool :=
  let y := getU b 3 1
  let (x, occ) := ins.foldl (fun (p : CondSt × Bool) z =>
    let (x, o) := condSample b (z.re, z.im) quality p.1
    (x, p.2 || o)) (x, false)
  let due := x.waiting.filter fun p => decide (p.pos ≤ i)
  let x := { x with waiting := x.waiting.filter fun p => !decide (p.pos ≤ i) }
  let (x, occ) := due.foldl (fun (p : CondSt × Bool) (q : Push) =>
    match q.set with
    | some v => ({ p.1 with value := v, lead := q.lead, quality := q.quality }, p.2)
    | none =>
      -- the first message delivered names the origin
      if p.2 then p else ({ p.1 with lead := q.lead, quality := q.quality, dev := q.dev, acc := q.acc }, true)) (x, occ)
  if y = 0 then (x, false, false)
  else if edgeCond b then (x, occ, occ)
  else (x, x.value, false)

/-! ### The expression (R214, R215) -/

/-- The expression over a mask of true conditions (R214). -/
def exprOf (combine mask bits : Nat) : Bool :=
  match combine with
  | 0 => bits &&& mask != 0
  | 1 => mask != 0 && bits &&& mask == mask
  | _ => false

/-- Values of a trigger at the sample before `i`: kept, or its level-type values alone where samples were
passed over without a change (DEDUCED, log 42). -/
def Trig.exprBefore (x : Trig) (i : Nat) : Bool :=
  if i = x.next then x.expr
  else exprOf (getU x.cfg.trig 3 1) (getU x.cfg.trig 4 4) (x.bits &&& (x.bits ^^^ x.edges))

/-! ### Events (R216 to R223) -/

/-- In hold-off at grid sample `i` (R220). -/
def Trig.held (x : Trig) (i : Nat) : Bool :=
  (match x.holdEnd with | some e => decide (i < e) | none => false) || x.holdLeft != 0

/-- Busy at grid sample `i` (R216). -/
def Trig.busy (x : Trig) (i : Nat) : Bool := x.runs.any fun r => decide (i < r.stop)

/-- The next accession number (R223). -/
def nextAccession (s : State) : State × Nat :=
  let n := if s.accession = 2 ^ 48 - 1 then 1 else s.accession + 1
  let s' := { s with accession := n }
  (if s.accession = 2 ^ 48 - 1 then s'.post evAccessionWrap [] else s', n)

/-- A TRIG_OUT line goes active or inactive at fabric clock `fc`: its ball is driven to the level that POLARITY gives that
state (R226, R234). -/
def driveLine (l : Nat) (active : Bool) (fc : Nat) (s : State) : State :=
  s.send (.trigOut l (active != ((s.block btTrigOut [l]).u 2 1 == 1)) fc)

/-- A TRIG_OUT line starts at fabric clock `fc` (R227, R229). -/
def startLine (l fc : Nat) (s : State) : State :=
  let b := s.block btTrigOut [l]
  let x : Line := tget {} s.lines l
  match b.u 1 1 with
  | 1 =>
    let stop := fc + b.u 6 2
    let running := x.active && (match x.stop with | some e => decide (fc ≤ e) | none => false)
    let s := { s with lines := tset s.lines l { x with active := true, stop := some (max stop (x.stop.getD 0)) } }
    if running then s else driveLine l true fc s
  | 2 =>
    if x.togAt = some fc then s
    else
      driveLine l (!x.active) fc { s with lines := tset s.lines l { x with active := !x.active, togAt := some fc } }
  | _ => s

/-- MODE 3 lines follow the trigger of their exhibit from grid sample `i` (R227). -/
def modeLines (h i : Nat) (s : State) : State :=
  let x := s.tr h
  let on := x.arm != 0 && !x.held i && !x.busy i
  (List.range 8).foldl (fun s l =>
    let b := s.block btTrigOut [l]
    let y : Line := tget {} s.lines l
    if b.u 1 1 = 3 ∧ b.u 4 2 = h ∧ y.active ≠ on then
      driveLine l on (beatOf (s.view.gridK h) i + b.u 8 4) { s with lines := tset s.lines l { y with active := on, stop := none } }
    else s) s

/-- Order of two queued messages (R507). -/
def BusMsg.before (a b : BusMsg) : Bool := decide (a.clock < b.clock) || (a.clock == b.clock && decide (a.ord ≤ b.ord))

/-- Queue a trigger-bus message in its class; a full queue drops it (R507). -/
def queueMsg (trigger : Bool) (m : BusMsg) (s : State) : State :=
  let c := s.coll
  let q := if trigger then c.trgQ else c.ctlQ
  let q' := q.takeWhile (·.before m) ++ [m] ++ q.dropWhile (·.before m)
  if 64 ≤ q.length then { s with coll := { c with dropped := satAdd 32 c.dropped 1 } }
  else if trigger then { s with coll := { c with trgQ := q' } }
  else { s with coll := { c with ctlQ := q' } }

/-- The trigger is on a collection exhibit (R517). -/
def View.isCollection (v : View) (h : Nat) : Bool := match v.find h with | some e => e.kind == 3 | none => false

/-- The trigger of an exhibit runs on this device: a collection exhibit's runs on the lead (R517). -/
def View.trigHere (v : View) (h : Nat) : Bool := !v.isCollection h || v.index == v.lead

/-- The captures that an event of `h` starts: (Store, Store's handle) (R218, R222, R269). -/
def captureStores (s : State) (h mask : Nat) : List Nat :=
  let v := s.view
  let pick (m : Nat) (mask : Nat) : List Nat := s.store.filterMap fun e =>
    if e.2.on && e.2.mode == 1 && e.2.handle == m && mask.testBit (e.2.u 17 1) then some e.1 else none
  pick h mask ++ ((v.reach h).filter (· != h)).flatMap fun m => pick m ((v.block btTrigger [m]).u 11 1)

/-- Start one capture for an event at grid sample `i` of trigger `h`, once per Store and sample (R222). -/
def startCapture (h i acc n : Nat) (s : State) : State :=
  let v := s.view
  let x := s.sto n
  let k := v.gridK h
  let ks := v.gridK x.handle
  let tr := gridCeil ks i k
  let stop := gridCeil k (tr + x.u 32 8) ks
  let t := s.tr h
  let s := s.setTr h { t with runs := t.runs ++ [⟨n, i, stop, acc, stop - i, tr⟩] }
  if s.caps.any (fun q => q.store == n && q.tr == tr) || x.segs.any (fun g => g.trig == tr) then s
  else { s with caps := s.caps ++ [⟨n, tr, acc, (x.handle, v.epoch x.handle), none⟩] }

/-- Hold-off begins with an event at grid sample `i` (R220). -/
def beginHold (h i : Nat) (s : State) : State :=
  let x := s.tr h
  let k := s.view.gridK h
  let t := x.cfg.trig
  let floor := (beatOf k i + 32) * (8 * k)
  if getU t 8 1 = 0 then
    s.setTr h { x with holdEnd := some (max floor (gridAfter s.cad k (gridTime s.cad k i) (getU t 12 4) (getU t 16 2))),
                       holdLeft := 0 }
  else s.setTr h { x with holdEnd := some floor, holdLeft := getU t 20 4 }

/-- Calibrations that a condition on crossings or stamps rests on (R344, R388). -/
def condTags (v : View) (b : List Byte) : List Nat :=
  let n := getU b 4 2
  match getU b 3 1 with
  | 7 => cmpTags n ++ [calTag 6 0xFF]
  | 8 => let u := v.block btPairing [n]
    [u.u 4 1, u.u 6 1].flatMap stampTags
  | 9 => [calTag 6 0xFF]
  | _ => []

/-- Quality behind the conditions in `bits` at grid sample `i` (R230). -/
def eventQuality (s : State) (h i bits : Nat) : Nat :=
  let x := s.tr h
  let S := gridCeil 1 i (s.view.gridK h)
  (bitList bits 32).foldl (fun q n =>
    q ||| (tget ({} : CondSt) x.conds n).quality |||
      (match x.cfg.cond n with
       | some b => if streamCond (getU b 3 1) then exQuality s (getU b 4 2) S (S + 1) else s.staleQ (condTags s.view b) S (S + 1)
       | none => 0)) (cadQuality s.cad S (S + 1))

/-- The TRIGGER_EVENT record of an event (R230). -/
def eventRecord (s : State) (h i kind lead bits mask caps lines code acc first : Nat) : Rec :=
  let x := s.tr h
  let v := s.view
  let cb := (x.cfg.cond lead).getD []
  let c : CondSt := tget {} x.conds lead
  let S := gridCeil 1 i (v.gridK h)
  let bus := getU cb 3 1 = 10 && bits.testBit lead
  { typ := rtTrigger, handle := h, stream := getU x.cfg.trig 10 1, time := gridTime s.cad (v.gridK h) i,
    rate := v.gridExp h, quality := eventQuality s h i bits, sample := i, accession := acc, lo := S, hi := S + 1,
    body := fields [(4, bits), (4, mask), (1, kind), (1, lead), (2, getU cb 40 2), (1, caps), (1, lines), (1, code),
      (1, if bus then c.dev else 0xFF), (6, if bus then c.acc else 0), (2, 0), (4, x.hSup), (4, x.bSup),
      (8, ofInt 64 (if (3 ≤ getU cb 3 1 && getU cb 3 1 ≤ 6) || getU cb 3 1 ≤ 2 || getU cb 3 1 = 8 then c.lead else 0)),
      (6, first), (18, 0)] }

/-- A trigger event at grid sample `i` (R217, R218, R221). `mask` is ARM_MASK or ACT. -/
def triggerEvent (h i lead mask : Nat) (s : State) : State :=
  let (s, acc) := nextAccession s
  let x := s.tr h
  let v := s.view
  let bits := x.bits
  let eff := bitList (bits &&& mask) 32
  let union (off : Nat) : Nat := eff.foldl (fun m n => m ||| getU ((x.cfg.cond n).getD []) off 1) 0
  let caps := union 36
  let lines := union 37
  let code := getU ((x.cfg.cond lead).getD []) 38 1
  let s := if getU x.cfg.trig 10 1 = 0xFF then s
    else s.produce (eventRecord s h i 0 lead bits mask caps lines code acc acc)
  let s := (captureStores s h caps).foldl (fun s n => startCapture h i acc n s) s
  let beat := beatOf (v.gridK h) i
  let s := (bitList lines 8).foldl (fun s l => startLine l (beat + (s.block btTrigOut [l]).u 8 4) s) s
  let cb := v.block btCollection []
  let s := if code ≠ 0 ∨ v.isCollection h then
      queueMsg true { kind := 1, sender := cb.u 0 1, code := code, arg := acc, handle := h, tag := v.epoch h % 2 ^ 16,
                      q := quarter (v.gridExp h) i + 32 * cb.u 4 4, ord := h,
                      clock := beat + v.horizon h + (if getU x.cfg.trig 3 1 = 2 then 10 else 2) } s
    else s
  let x := s.tr h
  let once := x.arm == 2
  let s := beginHold h i (s.setTr h { x with
    hSup := 0, bSup := 0, events := satAdd 64 x.events 1, lastAcc := acc, arm := if once then 0 else x.arm,
    spent := once })
  if once then s.postEx h evTriggerDisarmed [(6, acc)] else s

/-- Captures whose windows an extend event of `h` at grid sample `i` restarts: those still in their post-trigger window, a
member's only under the POLICY EXTEND of its own TRIGGER block (R216, R222; DESIGN CHOICE, log 122). -/
def restarted (s : State) (h : Nat) (x : Trig) (i : Nat) : List Run :=
  x.runs.filter fun r =>
    let m := (s.sto r.store).handle
    decide (i < r.stop) && (m == h || (s.view.block btTrigger [m]).u 9 1 == 1)

/-- Some window restarts, and every restarted window would end within EXTEND_MAX (R219). -/
def canExtend (s : State) (h : Nat) (x : Trig) (i : Nat) : Bool :=
  let l := restarted s h x i
  !l.isEmpty && l.all fun r => decide (i + r.post ≤ r.start + getU x.cfg.trig 24 8)

/-- An extend event at grid sample `i` (R218, R219, R269). -/
def extendEvent (h i lead mask : Nat) (s : State) : State :=
  let (s, acc) := nextAccession s
  let x := s.tr h
  let v := s.view
  let live := restarted s h x i
  let first := (live.foldl (fun (a : Option Run) r => match a with
    | some o => if r.start < o.start then some r else a | none => some r) none).map (·.acc)
  let caps := maskOf (live.map fun r => (s.sto r.store).u 17 1).eraseDups
  let s := if getU x.cfg.trig 10 1 = 0xFF then s
    else s.produce (eventRecord s h i 1 lead x.bits mask caps 0 0 acc (first.getD acc))
  let s := live.foldl (fun s r =>
    extendCapture r.store r.tr r.acc (gridCeil (v.gridK (s.sto r.store).handle) i (v.gridK h)) s) s
  let x := s.tr h
  beginHold h i (s.setTr h { x with
    runs := x.runs.map fun (r : Run) => if live.contains r then { r with stop := i + r.post } else r,
    hSup := 0, bSup := 0, events := satAdd 64 x.events 1, lastAcc := acc })

/-- The table of R216 at grid sample `i`, where the expression is true; `occ`: it is an occurrence. -/
def act216 (h i lead mask : Nat) (occ : Bool) (s : State) : State :=
  let x := s.tr h
  let busy := x.busy i
  let extends' := getU x.cfg.trig 9 1 == 1 && canExtend s h x i
  if x.arm = 0 then
    -- under ARM 2 extend events still follow; nothing is counted (R216, R221)
    if x.spent && busy && !x.held i && extends' then extendEvent h i lead mask s else s
  else if x.held i then
    if occ then s.setTr h { x with hSup := satAdd 32 x.hSup 1, hTot := satAdd 32 x.hTot 1, holdLeft := x.holdLeft - 1 }
    else s
  else if busy then
    if extends' then extendEvent h i lead mask s
    else if occ then s.setTr h { x with bSup := satAdd 32 x.bSup 1, bTot := satAdd 32 x.bTot 1 }
    else s
  else triggerEvent h i lead mask s

/-! ### Evaluation (R216) -/

/-- Position of a grid sample in quarter fs-samples, and its exhibit: the order of R223. -/
def evalKey (v : View) (h i : Nat) : Nat × Nat := (quarter (v.gridExp h) i, h)

/-- Lexicographic order of evaluation keys. -/
def keyLe (a b : Nat × Nat) : Bool := decide (a.1 < b.1) || (a.1 == b.1 && decide (a.2 ≤ b.2))

/-- The grid sample at which a waiting program ends at the latest, if its wait is bounded (R240, R242). -/
def Prog.deadline (p : Prog) (word : Nat) : Option Nat :=
  let op := bitsOf word 26 6
  let timer := (p.t.getD (bitsOf word 16 3) none).map fun e => max e p.pp
  if op = 0x13 then some (p.p + bitsOf word 0 16)
  else if op = 0x12 then timer
  else if word.testBit 19 then timer else none

/-- What an unwritten program word reads as: HALT (R253). -/
def haltWord : Nat → BitVec 32 := fun _ => 0x04000000

/-- The instruction word at PC. -/
def Trig.word (x : Trig) : Nat := (cget haltWord x.cfg.words x.prog.pc).toNat

/-- The wait's test holds on the values of the last evaluated sample (R241). -/
def Trig.waitTest (x : Trig) : Bool :=
  let w := x.word
  let mode := bitsOf w 13 2
  if bitsOf w 26 6 = 0x10 then
    let c := bitsOf w 8 5
    let now := x.bits.testBit c
    match mode with
    | 0 => now
    | 1 => x.edges.testBit c || (now && !(tget ({} : CondSt) x.conds c).up)
    | _ => !now
  else if bitsOf w 26 6 = 0x11 then
    let m := x.prog.m.getD (bitsOf w 8 2) 0
    match mode with
    | 0 => x.bits &&& m != 0
    | 1 => x.bits &&& m == m
    | _ => x.bits &&& m == 0
  else false

/-- Grid samples at which something fixed happens to a trigger: evaluation may not pass over them. -/
def Trig.stops (x : Trig) : List Nat :=
  x.waiting.map (·.n0) ++ x.arms.map (·.1) ++ x.holdEnd.toList ++ x.runs.map (·.stop) ++
    x.conds.flatMap (fun e => e.2.waiting.map (·.pos)) ++
    (if x.prog.st = 1 ∧ x.prog.waiting then x.prog.pp :: (x.prog.deadline x.word).toList else [])

/-- The program of a trigger lets grid sample `i` be evaluated: it has run up to a wait, or stands at or
after it; a wait that has ended must have ended first. -/
def Trig.programReady (x : Trig) (i : Nat) : Bool :=
  let p := x.prog
  p.st != 1 || decide (i ≤ p.p) ||
    (p.waiting && !(decide (p.pp < x.next) && (x.waitTest ||
      match p.deadline x.word with | some e => decide (e < x.next) | none => false)))

/-- Grid sample `i` of `h` is the next evaluation (R200, R216, R223; DEDUCED, log 42). -/
def evalDue (s : State) (h i : Nat) : Bool :=
  let x := s.tr h
  let key := evalKey s.view h i
  s.view.trigHere h && decide (x.next ≤ i) && keyLe s.lastEval key && (x.stops.all fun e => decide (e < x.next) || decide (i ≤ e)) &&
    x.programReady i &&
    s.trig.all fun e => e.1 == h || e.2.prog.st != 1 || e.2.prog.waiting ||
      !keyLe (evalKey s.view e.1 e.2.prog.p) key || evalKey s.view e.1 e.2.prog.p == key

/-- Quality that its channels give the samples that a stream condition takes from grid sample `from'` up to `i` (R230). -/
def evalQuality (s : State) (h from' i : Nat) (b : List Byte) : Nat :=
  let k := s.view.gridK h
  if streamCond (getU b 3 1) then exQuality s (getU b 4 2) (gridCeil 1 from' k) (gridCeil 1 i k + 1) else 0

/-- TRIGGER_EVALUATE (R216): every enabled condition has reported grid sample `i`. -/
def triggerEvaluate (h i : Nat) (vs : List CondIn) (quality : Nat) (s : State) : State :=
  if !evalDue s h i then s
  else
    let x := (s.tr h).upTo i
    let x := if (x.holdEnd.getD 0) ≤ i ∧ x.holdLeft = 0 then { x with holdEnd := none } else x
    let x := { x with runs := x.runs.filter fun r => decide (i < r.stop) }
    let before := x.exprBefore i
    let was := if i = x.next then x.bits else x.bits &&& (x.bits ^^^ x.edges)
    let (conds, bits, edges) := x.cfg.conds.foldl (fun (a : Table CondSt × Nat × Nat) b =>
      let n := getU b 2 1
      let (y, now, e) := condEval b i (vs.filter (·.cond == n)) (quality ||| evalQuality s h x.next i b) (tget {} a.1 n)
      -- `up` of a condition that is no EDGE keeps whether it was true at the sample before (R241)
      let y := if getU b 3 1 = 2 then y else { y with up := was.testBit n }
      (tset a.1 n y, a.2.1 ||| (if now then 2 ^ n else 0), a.2.2 ||| (if e then 2 ^ n else 0))) (x.conds, 0, 0)
    let combine := getU x.cfg.trig 3 1
    let mask := getU x.cfg.trig 4 4
    let expr := exprOf combine mask bits
    let x := { x with conds := conds, bits := bits, edges := edges, expr := expr, next := i + 1 }
    let s := { s.setTr h x with lastEval := evalKey s.view h i }
    let lead := ((bitList (bits &&& mask) 32).headD 0)
    let occ := !before || edges &&& mask != 0
    let s := if expr then act216 h i lead mask occ s else s
    modeLines h i s

/-- HOLDOFF_END (R220): the fixed end of a hold-off is reached. -/
def holdoffEnd (h i : Nat) (s : State) : State :=
  let x := s.tr h
  match x.holdEnd with
  | some e => if e ≤ i ∧ x.holdLeft = 0 ∧ x.next ≤ i then modeLines h i (s.setTr h { x with holdEnd := none }) else s
  | none => s

/-- TRIG_OUT_PULSE_END (R227). -/
def trigOutPulseEnd (l fc : Nat) (s : State) : State :=
  let x : Line := tget {} s.lines l
  if x.active ∧ x.stop = some fc then
    driveLine l false fc { s with lines := tset s.lines l { x with active := false, stop := none } }
  else s

/-- A TRIG_OUT block takes effect: MODE 0 and a new block drive the inactive level of their POLARITY (R226, R231, R234;
DEDUCED, log 43). -/
def applyTrigOut (old b : Block) (s : State) : State :=
  let l := b.u 0 1
  let x : Line := tget {} s.lines l
  let s := { s with lines := tset s.lines l {} }
  let was := x.active != (old.u 2 1 == 1)
  let s := if was != (b.u 2 1 == 1) then driveLine l false (s.cad.now / 8) s else s
  if b.u 1 1 = 3 then modeLines (b.u 4 2) (gridCeil (s.view.gridK (b.u 4 2)) s.cad.now 1) s else s

/-- The value of a stamp-based level condition as its input stands (R213). -/
def levelInit (s : State) (b : List Byte) : List (Nat × Bool) :=
  if getU b 9 1 = 1 then []
  else
    let dir := getU b 8 1 == 1
    if getU b 3 1 = 7 then [(getU b 2 1, (tget ({} : Comp) s.comp (getU b 4 2)).latch.isSome != dir)]
    else if getU b 3 1 = 9 then [(getU b 2 1, (tget ({} : TdcSrc) s.tdc (getU b 4 2 + 80)).high != dir)]
    else []

/-- Hold-off ends and history starts anew at a resumption (R213, R220, R252), at fs-sample `S`. -/
def resumeTrigger (S h : Nat) (s : State) : State :=
  let x := s.tr h
  let n0 := gridCeil (s.view.gridK h) S 1
  let last := x.cfgAt n0
  let c : TrigCfg := { last with n0 := n0, restart := last.conds.map fun b => getU b 2 1, reprog := true, arm := none,
                                 init := last.conds.flatMap (levelInit s) }
  s.setTr h { x with waiting := (x.waiting.filter fun w => decide (w.n0 ≤ n0)) ++ [c], holdEnd := none, holdLeft := 0 }

/-! ### Commands (R235, R236) -/

/-- Result of TRIGGER_STATUS (R236). -/
def triggerStatusBytes (s : State) (h : Nat) : List Byte :=
  let i := gridCeil (s.view.gridK h) s.cad.now 1
  let x := (s.tr h).upTo i
  let st := if x.arm = 0 then 0 else if x.held i then 2 else if x.busy i then 3 else 1
  fields [(2, h), (1, st), (1, 0), (4, x.hTot), (4, x.bTot), (4, s.view.horizon h), (8, x.events), (6, x.lastAcc), (2, 0)]

/-- TRIGGER_STATUS (R236). -/
def triggerStatusBody (r : Req) (s : State) : Effect := do
  let h ← r.oneNum
  let _ ← ownedHandle s r.fn h
  return (s, triggerStatusBytes s h)

end Sys2Proof.Machine
end

