-- ==== Sys2Proof/Machine/Attendant.lean ====
section
/-! DEFINITION. Attendant programs (09): instructions at the current sample, waits, the instruction budget,
and the commands that load and report a program. -/
namespace Sys2Proof.Machine

/-- Replace the program of a trigger. -/
def State.setProg (s : State) (h : Nat) (p : Prog) : State := s.setTr h { s.tr h with prog := p }

/-- The program enters fault at its current instruction, at grid sample `q` (R247). -/
def attFault (h q : Nat) (s : State) : State :=
  (s.setProg h { (s.tr h).prog with st := 3, waiting := false }).postEx h evAttendantFault
    [(1, (s.tr h).prog.pc), (1, 0), (8, q)]

/-- Instructions executed so far in the beat of grid sample `q` (R247). -/
def Prog.spent (p : Prog) (k q : Nat) : Nat := if p.beat = beatOf k q then p.count else 0

/-- One more instruction at grid sample `q`: the program, or none when it is the 17th of the beat (R247). -/
def Prog.charge (p : Prog) (k q : Nat) : Option Prog :=
  if 16 ≤ p.spent k q then none else some { p with beat := beatOf k q, count := p.spent k q + 1 }

/-- An instruction row executes only when the running program stands at exactly that instruction. -/
def attReady (h : Nat) (i : Instr) (s : State) : Bool :=
  let x := s.tr h
  s.view.trigHere h && x.prog.st == 1 && !x.prog.waiting && attEncode i == some x.word

/-- A non-waiting instruction: budget, then its effect on the program (R240, R247). -/
def attExec (h : Nat) (i : Instr) (eff : Trig → Prog → Prog) (s : State) : State :=
  if !attReady h i s then s
  else
    let x := s.tr h
    match x.prog.charge (s.view.gridK h) x.prog.p with
    | none => attFault h x.prog.p s
    | some p => s.setProg h (eff x { p with pc := (p.pc + 1) % 256 })

/-- A jump when the condition holds. -/
def jumpIf (c : Bool) (a : Nat) (p : Prog) : Prog := if c then { p with pc := a } else p

/-- A waiting instruction begins (R240): p' is p + 1, or p for the first wait after a restart. -/
def attWait (h : Nat) (i : Instr) (s : State) : State :=
  if !attReady h i s then s
  else
    let p := (s.tr h).prog
    s.setProg h { p with waiting := true, pp := if p.first then p.p else p.p + 1 }

/-- How the wait of a trigger's program ends at grid sample `q`: none if it does not, else TO (R241, R242). -/
def Trig.waitEnds (x : Trig) (q : Nat) : Option Bool :=
  let p := x.prog
  if q < p.pp then none
  else if x.waitTest then some false
  else
    match p.deadline x.word with
    | some e => if e ≤ q then some (bitsOf x.word 26 6 != 0x13) else none
    | none => none

/-- WAIT_END (R240 to R242): the waiting instruction ends at grid sample `q`. -/
def waitEnd (h q : Nat) (s : State) : State :=
  let x := s.tr h
  if !(x.prog.st == 1 && x.prog.waiting && x.next == q + 1) then s
  else
    match x.waitEnds q with
    | none => s
    | some tmo =>
      match x.prog.charge (s.view.gridK h) q with
      | none => attFault h q s
      | some p => s.setProg h { p with p := q, pc := (p.pc + 1) % 256, waiting := false, first := false, tmo := tmo,
                                       fired := if q = p.p then p.fired else none }

/-- Counter value. -/
def Prog.kv (p : Prog) (k : Nat) : Nat := p.k.getD k 0
/-- Mask value. -/
def Prog.mv (p : Prog) (m : Nat) : Nat := p.m.getD m 0

/-- Expiry of TSET n at the current sample (R243). -/
def timerAt (s : State) (h p n : Nat) : Nat :=
  if n = 0 then p else gridAfter s.cad (s.view.gridK h) (gridTime s.cad (s.view.gridK h) p) n 0

/-- FIRE c (R245). -/
def attFire (h c : Nat) (i : Instr) (s : State) : State :=
  if !attReady h i s then s
  else
    let x := s.tr h
    match x.prog.charge (s.view.gridK h) x.prog.p with
    | none => attFault h x.prog.p s
    | some p =>
      let again := p.fired == some p.p
      let s := s.setProg h { p with pc := (p.pc + 1) % 256, fires := satAdd 64 p.fires 1, fired := some p.p }
      if again then s else modeLines h p.p (act216 h p.p c p.act true s)

/-! ### Commands (R250, R254) -/

/-- The shadow copy of a program, or the words in effect where none is open (R250). -/
def WordMem.open (m : WordMem) : Cells 32 := if m.dirty then m.shadow else m.cur

/-- Staged copy of a block of a function, else committed or default (R478). -/
def State.stagedBlock (s : State) (fn t : Nat) (key : List Nat) : Block :=
  let st := s.cur.staged.filterMap fun x => match x.item with
    | .block b => if x.fn == fn && b.typ == t && b.key == key then some b else none
    | _ => none
  st.headD (s.block t key)

/-- ATTENDANT_LOAD (R250, R474). -/
def attendantLoadBody (r : Req) (s : State) : Effect := do
  let (h, first, count) ← loadBlock r 4
  let _ ← ownedHandle s r.fn h
  ensure (first + count ≤ (s.stagedBlock r.fn btProgram [h]).u 2 2) eRange 4
  let ws := (List.range count).map fun i => BitVec.ofNat 32 (getU r.params (16 + 4 * i) 4)
  let m : WordMem := tget {} s.prog h
  let m := { m with shadow := csetAll haltWord m.open first ws, dirty := true }
  return ({ s with prog := tset s.prog h m }, [])

/-- Result of ATTENDANT_STATUS (R254). -/
def attendantStatusBytes (s : State) (h : Nat) : List Byte :=
  let x := (s.tr h).upTo (gridCeil (s.view.gridK h) s.cad.now 1)
  let p := x.prog
  let n := getU x.cfg.prog 4 1
  let t := getU x.cfg.prog 5 1
  fields [(2, h), (1, p.st), (1, p.pc), (1, b2n p.tmo), (3, 0), (8, p.p)] ++
    fields ((List.range 16).map fun i => (4, if i < n then p.kv i else 0)) ++
    fields ((List.range 4).map fun i => (4, p.mv i)) ++ fields [(4, p.act), (4, 0)] ++
    fields ((List.range 8).map fun i => (8, if i < t then (p.t.getD i none).getD (2 ^ 64 - 1) else 2 ^ 64 - 1)) ++
    fields [(8, p.fires), (16, 0)]

/-- ATTENDANT_STATUS (R254). -/
def attendantStatusBody (r : Req) (s : State) : Effect := do
  let h ← r.oneNum
  let _ ← ownedHandle s r.fn h
  ensure ((s.block btTrigger [h]).u 3 1 == 2) eRange 0
  return (s, attendantStatusBytes s h)

/-- MASK_LOAD (R206, R474): limits go into the shadow copy; words 2k and 2k + 1 are UPPER and LOWER. -/
def limitDefault (a : Nat) : BitVec 32 := if a % 2 = 0 then 0x7F800000 else 0

/-- MASK_LOAD (R206, R233, R474). -/
def maskLoadBody (r : Req) (s : State) : Effect := do
  let (h, first, count) ← loadBlock r 8
  let e ← ownedHandle s r.fn h
  ensure (e.kind ≤ 1) eKind
  ensure (!s.view.gangMember h) eGangMember
  ensure (first + count ≤ 2 ^ (s.stagedBlock r.fn btMask [h]).u 2 1) eRange 4
  let pairs := (List.range count).map fun i => (getU r.params (16 + 8 * i) 4, getU r.params (20 + 8 * i) 4)
  let nan (n : Nat) : Bool := n % 2 ^ 31 > 0x7F800000
  let key (n : Nat) : Int := if n.testBit 31 then -((n % 2 ^ 31 : Nat) : Int) else n
  ensure (pairs.all fun p => !nan p.1 && !nan p.2 && key p.2 ≤ key p.1) eRange 16
  let m : WordMem := tget {} s.mask h
  let ws := pairs.flatMap fun p => [BitVec.ofNat 32 p.1, BitVec.ofNat 32 p.2]
  let m := { m with shadow := csetAll limitDefault m.open (2 * first) ws, dirty := true }
  return ({ s with mask := tset s.mask h m }, [])

end Sys2Proof.Machine
end

