-- ==== Sys2Proof/Machine/RowsAttendant.lean ====
section
/-! DEFINITION. The rows of the Attendant's instructions (R249): one meaning per row over attExec, attWait and
attFire. A row acts only when the running program of `h` stands at exactly that word. -/
namespace Sys2Proof.Machine

/-- The state that JST tests at grid sample `i` (R249): 0 hold-off, 1 busy, 2 armed (R216, R221). -/
def Trig.stateIs (x : Trig) (k i : Nat) : Bool :=
  match k with
  | 0 => x.held i
  | 1 => x.busy i
  | _ => x.arm != 0 && !x.spent

/-- Timer `t` expires at a sample, or stops (R243). -/
def Prog.setTimer (p : Prog) (t : Nat) (e : Option Nat) : Prog := { p with t := p.t.set t e }

/-- A counter takes a value (R244). -/
def Prog.setK (p : Prog) (k v : Nat) : Prog := { p with k := p.k.set k v }

/-- A mask takes a value (R244). -/
def Prog.setM (p : Prog) (m v : Nat) : Prog := { p with m := p.m.set m v }

/-- Saturation of ADDK at 0 and 0xFFFF_FFFF (R244). -/
def satU32 (z : Int) : Nat := if z < 0 then 0 else min z.toNat 0xFFFFFFFF

/-- ATTENDANT_NOP (R249). -/
def execAttendantNop (h : Nat) (s : State) : Host.Outcome State Fault Refusal :=
  .next (attExec h (.attendantNop h) (fun _ p => p) s)

/-- ATTENDANT_HALT (R246). -/
def execAttendantHalt (h : Nat) (s : State) : Host.Outcome State Fault Refusal :=
  .next (attExec h (.attendantHalt h) (fun _ p => { p with st := 2 }) s)

/-- ATTENDANT_JMP (R249). -/
def execAttendantJmp (h a : Nat) (s : State) : Host.Outcome State Fault Refusal :=
  .next (attExec h (.attendantJmp h a) (fun _ p => jumpIf true a p) s)

/-- JCT (R249). -/
def execJct (h c a : Nat) (s : State) : Host.Outcome State Fault Refusal :=
  .next (attExec h (.jct h c a) (fun x p => jumpIf (x.bits.testBit c) a p) s)

/-- JCF (R249). -/
def execJcf (h c a : Nat) (s : State) : Host.Outcome State Fault Refusal :=
  .next (attExec h (.jcf h c a) (fun x p => jumpIf (!x.bits.testBit c) a p) s)

/-- JANY (R249). -/
def execJany (h m a : Nat) (s : State) : Host.Outcome State Fault Refusal :=
  .next (attExec h (.jany h m a) (fun x p => jumpIf (x.bits &&& p.mv m != 0) a p) s)

/-- JALL (R249). -/
def execJall (h m a : Nat) (s : State) : Host.Outcome State Fault Refusal :=
  .next (attExec h (.jall h m a) (fun x p => jumpIf (x.bits &&& p.mv m == p.mv m) a p) s)

/-- JZ (R249). -/
def execJz (h k a : Nat) (s : State) : Host.Outcome State Fault Refusal :=
  .next (attExec h (.jz h k a) (fun _ p => jumpIf (p.kv k == 0) a p) s)

/-- JNZ (R249). -/
def execJnz (h k a : Nat) (s : State) : Host.Outcome State Fault Refusal :=
  .next (attExec h (.jnz h k a) (fun _ p => jumpIf (p.kv k != 0) a p) s)

/-- JLT (R249). -/
def execJlt (h k k2 a : Nat) (s : State) : Host.Outcome State Fault Refusal :=
  .next (attExec h (.jlt h k k2 a) (fun _ p => jumpIf (decide (p.kv k < p.kv k2)) a p) s)

/-- JTO (R249). -/
def execJto (h a : Nat) (s : State) : Host.Outcome State Fault Refusal :=
  .next (attExec h (.jto h a) (fun _ p => jumpIf p.tmo a p) s)

/-- JST (R249). -/
def execJst (h st a : Nat) (s : State) : Host.Outcome State Fault Refusal :=
  .next (attExec h (.jst h st a) (fun x p => jumpIf (x.stateIs st p.p) a p) s)

/-- WAITC (R241). -/
def execWaitc (h c mode tm : Nat) (te : Bool) (s : State) : Host.Outcome State Fault Refusal :=
  .next (attWait h (.waitc h c mode tm te) s)

/-- WAITM (R241). -/
def execWaitm (h m mode tm : Nat) (te : Bool) (s : State) : Host.Outcome State Fault Refusal :=
  .next (attWait h (.waitm h m mode tm te) s)

/-- WAITT (R242). -/
def execWaitt (h tm : Nat) (s : State) : Host.Outcome State Fault Refusal :=
  .next (attWait h (.waitt h tm) s)

/-- WAITN (R242). -/
def execWaitn (h n : Nat) (s : State) : Host.Outcome State Fault Refusal :=
  .next (attWait h (.waitn h n) s)

/-- WAIT_END (R240). -/
def execWaitEnd (h q : Nat) (s : State) : Host.Outcome State Fault Refusal :=
  .next (waitEnd h q s)

/-- TSET (R243). -/
def execTset (h tm n : Nat) (s : State) : Host.Outcome State Fault Refusal :=
  .next (attExec h (.tset h tm n) (fun _ p => p.setTimer tm (some (timerAt s h p.p n))) s)

/-- TSETK (R243). -/
def execTsetk (h tm k : Nat) (s : State) : Host.Outcome State Fault Refusal :=
  .next (attExec h (.tsetk h tm k) (fun _ p => p.setTimer tm (some (timerAt s h p.p (p.kv k)))) s)

/-- TCLR (R243). -/
def execTclr (h tm : Nat) (s : State) : Host.Outcome State Fault Refusal :=
  .next (attExec h (.tclr h tm) (fun _ p => p.setTimer tm none) s)

/-- LDK (R244). -/
def execLdk (h k imm : Nat) (s : State) : Host.Outcome State Fault Refusal :=
  .next (attExec h (.ldk h k imm) (fun _ p => p.setK k imm) s)

/-- ADDK (R244). -/
def execAddk (h k : Nat) (imm : BitVec 16) (s : State) : Host.Outcome State Fault Refusal :=
  .next (attExec h (.addk h k imm) (fun _ p => p.setK k (satU32 (p.kv k + imm.toInt))) s)

/-- LDML (R244). -/
def execLdml (h m : Nat) (imm : BitVec 16) (s : State) : Host.Outcome State Fault Refusal :=
  .next (attExec h (.ldml h m imm) (fun _ p => p.setM m (p.mv m / 65536 * 65536 + imm.toNat)) s)

/-- LDMH (R244). -/
def execLdmh (h m : Nat) (imm : BitVec 16) (s : State) : Host.Outcome State Fault Refusal :=
  .next (attExec h (.ldmh h m imm) (fun _ p => p.setM m (p.mv m % 65536 + 65536 * imm.toNat)) s)

/-- ACT (R244). -/
def execAct (h m : Nat) (s : State) : Host.Outcome State Fault Refusal :=
  .next (attExec h (.act h m) (fun _ p => { p with act := p.mv m }) s)

/-- FIRE (R245). -/
def execFire (h c : Nat) (s : State) : Host.Outcome State Fault Refusal :=
  .next (attFire h c (.fire h c) s)

end Sys2Proof.Machine
end

