-- ==== Sys2Proof/Machine/Frames.lean ====
section
/-! DEFINITION. Frames of the FFT pipeline (06) and their consumers: detectors, the Sward plane, the frequency
mask and the Concordance engine (07), and Sward snapshots. -/
namespace Sys2Proof.Machine

/-! ### The Sward plane (R174 to R183) -/

/-- The plane of an exhibit. -/
def State.plane (s : State) (h : Nat) : Plane := tget {} s.sward h

/-- Replace a plane. -/
def State.setPlane (s : State) (h : Nat) (p : Plane) : State := { s with sward := tset s.sward h p }

/-- Number of columns. -/
def swardCols (b : List Byte) : Nat := 2 ^ getU b 4 1

/-- Thresholds T_1 to T_255 as binary32 (R175). -/
def swardThresholds (b : List Byte) : List Nat :=
  let step : Int := if getU b 5 1 = 0 then 50 else 25
  (List.range 255).map fun (r : Nat) => f32Dy (pow10 (getI b 6 2 - ((r : Int) + 1) * step) 1000)

/-- Row of a power value: the thresholds that exceed it (R175). -/
def swardRow (ts : List Nat) (p : Nat) : Nat := (ts.filter fun t => decide (f32Key p < f32Key t)).length

/-- The largest of a run of powers. -/
def maxPower (l : List Nat) : Nat := l.foldl (fun a x => if f32Key a < f32Key x then x else a) 0

/-- Steps 1 and 2 of R176 for frame `j`. -/
def swardUpdate (c : PipeCfg) (j : Nat) (powers : List Nat) (q : Nat) (p : Plane) : Plane :=
  let b := c.sward
  let cols := swardCols b
  let grp := getU b 12 4
  let b0 := binIdx c (getI b 8 4)
  let ts := swardThresholds b
  let cells := (List.range cols).foldl (fun t i =>
    let key := swardRow ts (maxPower ((powers.drop (b0 + i * grp)).take grp)) * cols + i
    tset t key (satAdd 24 (tget 0 t key) 1)) p.cells
  let k := getU b 16 1
  let cells := if k ≠ 0 ∧ j % getU b 20 4 = getU b 20 4 - 1 then
      (cells.map fun e => (e.1, (rhe (e.2 * (2 ^ k - 1) : Nat) (2 ^ k)).toNat)).filter (·.2 != 0)
    else cells
  { p with cells := cells, first := if p.frames = 0 then j else p.first, last := j, frames := p.frames + 1,
           quality := p.quality ||| q }

/-- Occupancy of a column over rows (R178). -/
def occupancy (b : List Byte) (p : Plane) (lo hi col : Nat) : Nat :=
  p.cells.foldl (fun n e =>
    if e.1 % swardCols b = col ∧ lo ≤ e.1 / swardCols b ∧ e.1 / swardCols b ≤ hi then n + e.2 else n) 0

/-- The SWARD record of a snapshot after frame `j` (R182). -/
def swardRecord (s : State) (h : Nat) (c : PipeCfg) (p : Plane) (j reason : Nat) : Rec :=
  let b := c.sward
  let e := srcExp s.view h c
  let edge := frameStart c (j + 1)
  let f0 := if p.frames = 0 then edge else frameStart c p.first
  let n : Nat := 2 ^ getU c.spec 2 1
  let hi := if p.frames = 0 then fsCeil e f0 + 1 else fsCeil e (frameStart c p.last + n)
  let sat := (p.cells.filter fun x => x.2 == 2 ^ 24 - 1).length
  let t := ctRate s.cad e edge
  { typ := rtSward, handle := h, stream := getU b 3 1, time := ctRate s.cad e f0, rate := e, elem := elU24, sample := f0,
    quality := p.quality ||| qIf (sat != 0) qSwardSat ||| qIf p.failed qUnsettled, count := swardCols b * 256,
    lo := fsCeil e f0, hi := hi,
    body := fields ([(1, getU b 4 1), (1, getU b 5 1), (2, getU b 6 2), (4, getU b 8 4), (4, getU b 12 4), (1, getU b 16 1),
        (1, reason), (1, getU c.spec 2 1), (1, 0), (4, getU b 20 4), (4, sat),
        (8, if p.frames = 0 then j + 1 else p.first), (8, if p.frames = 0 then 2 ^ 64 - 1 else p.last),
        (8, p.frames)] ++ ctFields t ++ [(6, 0)]) ++
      (List.range (swardCols b * 256)).flatMap fun i => leBytes 3 (tget 0 p.cells i) }

/-- Snapshot and clearing at the boundary after frame `j`, for the reasons in `why` (R180, R181); `late`: of an action
that a lacuna or a jump delayed (R54, R63). -/
def swardSnap (h j why : Nat) (clear late : Bool) (s : State) : State :=
  let c := (s.pp h).cfg
  let p := s.plane h
  let r := swardRecord s h c p j (why + 8 * b2n clear)
  let s := if why = 0 ∨ getU c.sward 3 1 = 0xFF then s
    else s.produce { r with quality := r.quality ||| qIf late qLate }
  let s := s.setPlane h { s.plane h with snapped := if why = 0 then (s.plane h).snapped else some j }
  if clear then s.setPlane h { asked := (s.plane h).asked, snapped := (s.plane h).snapped } else s

/-- Causes of a snapshot boundary after frame `j`: R180's reasons, and whether one of them clears. -/
def swardCauses (s : State) (h : Nat) (c : PipeCfg) (p : Plane) (j : Nat) : Nat × Bool :=
  let b := c.sward
  let e := srcExp s.view h c
  let len := getU b 28 2
  let turns := getU b 19 1 == 1
  let m0 := getU b 17 1 == 0 && j % getU b 24 4 == getU b 24 4 - 1
  let at_ (j : Nat) : Nat := intervalKey s.cad (slotOfSource s.cad e (frameStart c j)) len turns
  let m1 := getU b 17 1 == 1 && at_ j != at_ (j + 1)
  let due := p.asked.filter fun a => decide (a.1 ≤ frameStart c (j + 1))
  let asked := due.any fun a => a.2.testBit 0
  let why := b2n m0 + 2 * b2n m1 + 4 * b2n asked
  (why, (why != 0 && getU b 18 1 == 1) || due.any fun a => a.2.testBit 1)

/-- One frame of an enabled plane: update, decay, SWARD conditions, snapshots (R176, R180, R207). -/
def swardFrame (h j : Nat) (powers : List Nat) (q : Nat) (s : State) : State :=
  let c := (s.pp h).cfg
  if getU c.sward 2 1 ≠ 1 then s
  else
    let p := swardUpdate c j powers q (s.plane h)
    let s := s.setPlane h p
    let e := srcExp s.view h c
    let pos := ratePos e (frameStart c (j + 1))
    let s := s.pushAll pos.1 pos.2 fun _ b =>
      if getU b 3 1 = 6 ∧ getU b 4 2 = h then
        let cd := getU b 28 4
        let dd := getU b 32 4
        let lo := bitsOf dd 0 10
        let n := ((List.range (bitsOf dd 16 10 + 1 - lo)).filter fun i =>
          decide (getU b 12 8 ≤ occupancy c.sward p (bitsOf cd 0 8) (bitsOf cd 8 8) (lo + i))).length
        some { pos := 0, set := some (decide (getU b 20 8 ≤ n)), lead := n, quality := p.quality }
      else none
    let (why, clear) := swardCauses s h c p j
    let s := s.setPlane h { p with asked := p.asked.filter fun a => !decide (a.1 ≤ frameStart c (j + 1)) }
    swardSnap h j why clear (p.asked.any fun a => decide (a.1 ≤ frameStart c (j + 1)) && a.2.testBit 8) s

/-! ### The frequency mask (R204, R205) -/

/-- Frame fails the mask (R204). -/
def maskFails (c : PipeCfg) (powers : List Nat) : Bool :=
  let b := c.mask
  let grp := getU b 8 4
  let b0 := binIdx c (getI b 4 4)
  (List.range (2 ^ getU b 2 1)).any fun i =>
    let up := f32Key (cget limitDefault c.lims (2 * i)).toNat
    let dn := f32Key (cget limitDefault c.lims (2 * i + 1)).toNat
    ((powers.drop (b0 + i * grp)).take grp).any fun p => decide (up < f32Key p) || decide (f32Key p < dn)

/-- Restart of condition `n` of a trigger as it stands at grid sample `g` (R213). -/
def Trig.condStart (x : Trig) (n g : Nat) : Nat :=
  x.waiting.foldl (fun a c => if c.n0 ≤ g ∧ c.restart.contains n then c.n0 else a) (tget ({} : CondSt) x.conds n).start

/-- One frame reaches the mask and the MASK conditions that read it (R204, R205). -/
def maskFrame (h j : Nat) (powers : List Nat) (q : Nat) (s : State) : State :=
  let p := s.pp h
  let c := p.cfg
  let f0 := frameStart c j
  let fails := (p.fails ++ [(f0, maskFails c powers, q)])
  let fails := fails.drop (fails.length - 64)
  let s := s.setPipe h { p with fails := fails }
  let e := srcExp s.view h c
  let pos := ratePos e f0
  s.pushAll pos.1 pos.2 fun h' b =>
    if getU b 3 1 = 5 ∧ getU b 4 2 = h then
      let x := s.tr h'
      let g := gridCeil (s.view.gridK h') pos.1 pos.2
      let start := quarter (s.view.gridExp h') (x.condStart (getU b 2 1) g)
      let last := (fails.drop (fails.length - getU b 32 4)).filter fun f => decide (start ≤ quarter e f.1)
      let n := (last.filter (·.2.1)).length
      some { pos := 0, set := some (decide (getU b 28 4 ≤ n)), lead := n, quality := last.foldl (fun a f => a ||| f.2.2) 0 }
    else none

/-! ### Concordance (R185 to R192) -/

/-- The Concordance of an array. -/
def State.interval (s : State) (h : Nat) : Interval := tget {} s.conc h

/-- Replace a Concordance. -/
def State.setInterval (s : State) (h : Nat) (x : Interval) : State := { s with conc := tset s.conc h x }

/-- Sum of two exact complex values. -/
def CSum.add (a b : CSum) : CSum :=
  let e := min a.e b.e
  ⟨shl a.re (a.e - e).toNat + shl b.re (b.e - e).toNat, shl a.im (a.e - e).toNat + shl b.im (b.e - e).toNat, e⟩

/-- Pairs (a, b) with a ≤ b < m, row by row (R188). -/
def productPairs (m : Nat) : List (Nat × Nat) :=
  (List.range m).flatMap fun a => (List.range (m - a)).map fun d => (a, a + d)

/-- The contribution of one frame of every member: products by pair, then output bin (R189). -/
def frameProducts (blk : List Byte) (m n : Nat) (ps : List Part) : List CSum :=
  let outs := 2 ^ getU blk 4 1
  let grp := getU blk 12 4
  let b0 := (getI blk 8 4 + (n / 2 : Nat)).toNat
  (productPairs m).flatMap fun ab =>
    match ps.find? (·.member == ab.1), ps.find? (·.member == ab.2) with
    | some x, some y =>
      (List.range outs).map fun i =>
        (List.range grp).foldl (fun (a : CSum) k =>
          let p := x.bins.getD (b0 + i * grp + k) (0, 0)
          let q := y.bins.getD (b0 + i * grp + k) (0, 0)
          a.add ⟨p.1 * q.1 + p.2 * q.2, p.2 * q.1 - p.1 * q.2, x.exp + y.exp⟩) ⟨0, 0, x.exp + y.exp⟩
    | _, _ => []

/-- D of a member as a numerator and a power of two: sum of the window words, exponent (R158, R189). -/
def memberScale (c : PipeCfg) : Int × Int := ((windowWords c).foldl (· + ·) 0, (srcGain c : Int) + 11 - 16)

/-- What governs a Concordance in a view, from fs-sample `at0` (R185, R191). -/
def concCfg (s : State) (v : View) (h at0 : Nat) : ConcCfg :=
  let ms := v.concordMembers h
  let cs := ms.map fun m => pipeCfg s v m at0 false
  let lead := cs.headD {}
  { at0 := at0, blk := (v.block btConcordance [h]).data, ms := ms, chans := ms.map v.chan, lead := lead,
    exp := srcExp v (ms.headD 0) lead, scale := if (v.block btConcordance [h]).u 2 1 = 1 then cs.map memberScale else [] }

/-- Elements of a CONCORDANCE record (R189, R191). -/
def concElements (x : Interval) : List Byte :=
  let outs := 2 ^ getU x.cfg.blk 4 1
  let pairs := productPairs x.cfg.ms.length
  if x.frames = 0 then (List.range (2 * outs * pairs.length)).flatMap fun _ => leBytes 4 f32NaN
  else
    (pairs.zipIdx.flatMap fun p =>
      let a := x.cfg.scale.getD p.1.1 (1, 0)
      let b := x.cfg.scale.getD p.1.2 (1, 0)
      let den := (a.1 * b.1).natAbs * x.frames
      (List.range outs).flatMap fun i =>
        let y := x.sums.getD (p.2 * outs + i) {}
        leBytes 4 (f32 y.re den (y.e - a.2 - b.2)) ++ leBytes 4 (f32 y.im den (y.e - a.2 - b.2)))

/-- The CONCORDANCE record of an interval under the configuration that governed it (R191, R192); `empty`: the next frame of
one without frames. -/
def concRecord (s : State) (h : Nat) (x : Interval) (unsettled : Bool) (empty : Option Nat) : Rec :=
  let c := x.cfg.lead
  let e := x.cfg.exp
  let b := x.cfg.blk
  let n : Nat := 2 ^ getU c.spec 2 1
  let f0 := match empty with | some _ => rateCeil e (slotStart s.cad x.key) | none => frameStart c x.first
  let m := x.cfg.ms.length
  let np := m * (m + 1) / 2
  { typ := rtConcordance, handle := h, stream := getU b 3 1,
    time := match empty with | some _ => ctOfSlot s.cad x.key | none => ctRate s.cad e f0,
    rate := e, elem := elCF32, quality := x.quality ||| qIf unsettled qUnsettled, sample := f0,
    count := np * 2 ^ getU b 4 1, lo := fsCeil e f0,
    hi := match empty with | some _ => fsCeil e f0 + 1 | none => fsCeil e (frameStart c (x.first + x.frames - 1) + n),
    body := fields [(1, getU b 4 1), (1, getU c.spec 2 1), (1, getU c.spec 3 1), (1, getU c.spec 4 1), (2, m), (2, np),
        (4, getU b 8 4), (4, getU b 12 4), (8, empty.getD x.first), (4, x.frames), (4, 0), (6, getU c.ddc 2 6), (2, 0),
        (8, maskOf x.cfg.chans), (16, 0)] ++ concElements x }

/-- Produce an interval's record where the Concordance has a stream. -/
def produceInterval (h : Nat) (x : Interval) (unsettled : Bool) (empty : Option Nat) (s : State) : State :=
  if getU x.cfg.blk 3 1 = 0xFF then s else s.produce (concRecord s h x unsettled empty)

/-- INTERVAL and INTERVAL_UNIT of a Concordance (R190). -/
def ConcCfg.len (c : ConcCfg) : Nat := getU c.blk 6 2
def ConcCfg.turns (c : ConcCfg) : Bool := getU c.blk 5 1 == 1

/-- Intervals without a frame start from the first that is not accounted for up to slot count `stop` (R191); `fuel` counts
slots. -/
def emptyIntervals (h next stop : Nat) : Nat → State → State
  | 0, s => s
  | f + 1, s =>
    let x := s.interval h
    if stop ≤ x.upTo then s
    else
      let S := slotStart s.cad x.upTo
      let s := s.setInterval h { x with upTo := nextInterval s.cad x.upTo x.cfg.len x.cfg.turns }
      emptyIntervals h next stop f
        (produceInterval h { x with key := x.upTo, sums := [], frames := 0, quality := exQuality s h S (S + 1) } false (some next) s)

/-- The open interval of a Concordance closes early (R191). -/
def closeInterval (h : Nat) (s : State) : State :=
  let x := s.interval h
  let s := if x.isOpen then produceInterval h x true none s else s
  s.setInterval h { x with isOpen := false, sums := [], frames := 0, quality := 0 }

/-- A configuration governs a Concordance from its sample on (R191). -/
def adoptInterval (h : Nat) (c : ConcCfg) (s : State) : State :=
  let x := s.interval h
  s.setInterval h { x with cfg := c, waiting := x.waiting.filter (· != c), parts := x.parts.filter fun p => decide (c.at0 ≤ p.lo),
                           upTo := intervalFrom s.cad c.at0 c.len c.turns }

/-- No frame of a pipeline that starts before fs-sample S is to come. -/
def pipePast (s : State) (S m : Nat) : Bool :=
  let p := s.pp m
  getU p.cfg.spec 7 1 != 1 || decide (S ≤ fsCeil (srcExp s.view m p.cfg) (frameStart p.cfg p.next))

/-- A frame of every member is accumulated (R189, R190). -/
def concAccumulate (h : Nat) (mine : List Part) (j : Nat) (s : State) : State :=
  let x := s.interval h
  let c := x.cfg
  let keyOf (j : Nat) : Nat := intervalKey s.cad (slotOfSource s.cad c.exp (frameStart c.lead j)) c.len c.turns
  let key := keyOf j
  let s := emptyIntervals h j key (key - x.upTo) s
  let x := s.interval h
  let x := { x with upTo := max x.upTo (nextInterval s.cad key c.len c.turns) }
  let cut := j != 0 && keyOf (j - 1) == key && !x.isOpen
  if x.fresh && cut then s.setInterval h x
  else
    let n : Nat := 2 ^ getU c.lead.spec 2 1
    let add := frameProducts c.blk c.ms.length n mine
    let unset := qIf (cut || x.fresh) qUnsettled
    let x := if x.isOpen then x else { x with isOpen := true, key := key, sums := [], frames := 0, first := j,
                                              quality := unset, fresh := false }
    let sums := if x.frames = 0 then add else (x.sums.zip add).map fun p => p.1.add p.2
    let x := { x with sums := sums, frames := x.frames + 1,
                      quality := mine.foldl (fun a (p : Part) => a ||| p.quality) x.quality }
    if keyOf (j + 1) = key then s.setInterval h x
    else
      let s := produceInterval h x false none s
      let s := s.setInterval h { x with isOpen := false, sums := [], frames := 0, quality := 0 }
      emptyIntervals h (j + 1) (keyOf (j + 1)) (keyOf (j + 1) - key) s

/-- What a Concordance can do with the frames it holds: accumulate those that every member has delivered, and take its next
configuration once no frame before it is to come (R164, R189, R191). -/
def concRun (h : Nat) : Nat → State → State
  | 0, s => s
  | f + 1, s =>
    let x := s.interval h
    let stop := (x.waiting.map (·.at0)).head?
    let now := x.parts.filter fun p => match stop with | some S => decide (p.lo < S) | none => true
    let full := now.filter fun p => decide (x.cfg.ms.length ≤ (now.filter fun q => q.lo == p.lo).length)
    match (if getU x.cfg.blk 2 1 = 1 then full else []), x.waiting with
    | p :: ps, _ =>
      let lo := ps.foldl (fun m q => min m q.lo) p.lo
      let mine := x.parts.filter (·.lo == lo)
      concRun h f (concAccumulate h mine ((mine.head?.map (·.frame)).getD 0)
        (s.setInterval h { x with parts := x.parts.filter (·.lo != lo) }))
    | [], c :: _ =>
      if getU x.cfg.blk 2 1 ≠ 1 ∨ x.cfg.ms.all (pipePast s c.at0) then concRun h f (adoptInterval h c (closeInterval h s)) else s
    | [], [] => s

/-- One member's frame `j` reaches a Concordance (R189). -/
def concFrame (h member j lo : Nat) (bins : List (Int × Int)) (ex : Int) (q : Nat) (s : State) : State :=
  let x := s.interval h
  let c := (x.waiting.filter fun c => decide (c.at0 ≤ lo)).getLast?.getD x.cfg
  match c.ms.findIdx? (· == member) with
  | none => s
  | some i => if getU c.blk 2 1 ≠ 1 then s else s.setInterval h { x with parts := x.parts ++ [⟨j, lo, i, ex, bins, q⟩] }

/-- Every Concordance that a member's pipeline reaches goes on. -/
def concAll (member : Nat) (s : State) : State :=
  (s.conc.filter fun a => a.2.cfg.ms.contains member || a.2.waiting.any fun c => c.ms.contains member).foldl
    (fun s a => concRun a.1 (a.2.parts.length + a.2.waiting.length + 3) s) s

/-! ### FFT_FRAME (R147) -/

/-- TRACE streams whose periods a change of configuration closes (R164): those whose block changes, and all where the
SPECTRUM block or the source rate does. -/
def PipeCfg.changed (a b : PipeCfg) : List (List Byte) :=
  if a.spec != b.spec || srcRatio a != srcRatio b then a.strs else a.strs.filter fun x => !b.strs.contains x

/-- A waiting configuration of a pipeline takes effect: periods close, the plane clears (R164, R179). -/
def adoptOne (h : Nat) (c : PipeCfg) (s : State) : State :=
  let old := (s.pp h).cfg
  let s := closeTraces h (old.changed c) s
  let s := if c.clear then s.setPlane h { asked := (s.plane h).asked, snapped := (s.plane h).snapped } else s
  let p := s.pp h
  let n0 := rateCeil (srcExp s.view h c) c.at0
  let same := c.spec == old.spec && srcRatio c == srcRatio old
  s.setPipe h (({ p with cfg := c, next := if same then p.next else frameFrom c n0 } : Pipe).openPeriods s.cad c.at0 (c.changed old))

/-- Configurations that the next frame of the present grid starts at or after take effect (R164). -/
def adoptPipe (h : Nat) : Nat → State → State
  | 0, s => s
  | f + 1, s =>
    let p := s.pp h
    match p.waiting with
    | [] => s
    | c :: cs =>
      if getU p.cfg.spec 7 1 ≠ 1 ∨ rateCeil (srcExp s.view h p.cfg) c.at0 ≤ frameStart p.cfg p.next then
        adoptPipe h f (adoptOne h c (s.setPipe h { p with waiting := cs }))
      else s

/-- Source samples of a frame from input-rate conversions, their quality, and how many outputs clamped among those not yet
counted (R127, R149). -/
def frameSource (s : State) (h first : Nat) (codes : List Conv) (c : PipeCfg) (f0 n : Nat) : List Smp × Nat :=
  pathOut (tget {} s.chain h) ⟨0, c.ddc, c.dec, [], []⟩ (getU c.spec 3 1) first (s.samples h false first codes) f0 n

/-- A pending snapshot of the plane, not yet due, whose boundary follows frame `j`: the frame waits for it (R180, R181). -/
def snapshotFirst (s : State) (h j : Nat) (c : PipeCfg) : Bool :=
  s.cur.actions.any fun a => match a.act with
    | .snapshot _ => a.handle == some h && (clockLoss s.cad (s.view.deps h)).isNone &&
        decide (rateCeil (srcExp s.view h c) (sampleOf s.cad a.time) ≤ frameStart c (j + 1))
    | _ => false

/-! ### Conservator ports on a pipeline (R307, R308) -/

/-- KIND of a port in the core's block (R326). -/
def Core.kind (x : Core) (p : Nat) : Nat := getU x.blk (32 + 16 * p) 1
/-- An input port. -/
def Core.port (x : Core) (p : Nat) : Port := x.ports.getD p {}

/-- The handle that a port's CHANNEL names: a channel of the core's position, or the gang that holds it (R326). -/
def portHandle (v : View) (c : Nat) (x : Core) (p : Nat) : Nat :=
  let ch := 6 * (c / 4) + getU x.blk (33 + 16 * p) 1
  (v.gangOf ch).getD (v.handle ch)

/-- RATE of a port (R308). -/
def portRate (v : View) (c : Nat) (x : Core) (p : Nat) : Int :=
  let h := portHandle v c x p
  match x.kind p with | 1 => v.pathRate h 0 | 2 => v.pathRate h 1 | 3 => v.pathRate h 1 | _ => v.sourceRate h

/-- A complex element: two 18-bit halves (R307). -/
def halves (re im : Int) : DWord := BitVec.ofNat 36 (ofInt 18 re * 2 ^ 18 + ofInt 18 im)

/-- Elements of frame `j` that a KIND 4 or 5 port of a core takes: bins START_BIN to START_BIN + POINTS - 1 of each frame
whose number FRAME_DECIM divides, from the port's first index on (R307, R308). -/
def portFrame (v : View) (c : Nat) (x : Core) (p j f0 : Nat) (cfg : PipeCfg) (bins : List Smp) (powers : List Nat) (q : Nat) :
    List Elem :=
  if j % getU x.blk (44 + 16 * p) 2 ≠ 0 ∨ f0 < rateCeil (portRate v c x p) x.since then []
  else
    let first := binIdx cfg (getI x.blk (40 + 16 * p) 4)
    let count := getU x.blk (38 + 16 * p) 2
    if x.kind p = 5 then ((powers.drop first).take count).map fun w => ⟨f0, BitVec.ofNat 36 w, q⟩
    else ((bins.drop first).take count).map fun y =>
      let z := ({ y with q := 0 } : Smp).narrow (getU x.blk (34 + 16 * p) 1) 18
      ⟨f0, halves z.re z.im, q ||| z.q⟩

/-- A frame's bins and powers set out for the ports of running cores (R166, R307). -/
def feedPorts (h j f0 : Nat) (cfg : PipeCfg) (bins : List Smp) (powers : List Nat) (q : Nat) (s : State) : State :=
  let v := s.view
  let feed (c : Nat) (x : Core) (y : Port × Nat) : Port :=
    if x.st = 1 ∧ 4 ≤ x.kind y.2 ∧ portHandle v c x y.2 = h then
      { y.1 with coming := y.1.coming ++ portFrame v c x y.2 j f0 cfg bins powers q }
    else y.1
  { s with core := tmap s.core fun c x => { x with ports := x.ports.zipIdx.map (feed c x) } }

/-- Frame `j` of a pipeline completes (R147 to R158, R164, R165); `codes` are input-rate conversions from index `first` on. -/
def fftFrame (h j first : Nat) (codes : List Conv) (s : State) : State :=
  let p := s.pp h
  let c := p.cfg
  let n : Nat := 2 ^ getU c.spec 2 1
  let v := s.view
  let e := srcExp v h c
  let f0 := frameStart c j
  let lo := fsCeil e f0
  let hi := fsCeil e (f0 + n)
  let lost : Bool := match clockLoss s.cad (v.deps h) with | some a => decide (a < hi) | none => false
  if getU c.spec 7 1 ≠ 1 ∨ v.gangMember h ∨ j ≠ p.next ∨ lost ∨ snapshotFirst s h j c then s
  else
    let (src, hits) := frameSource s h first codes c f0 n
    let ch : Chain := tget {} s.chain h
    let path := getU c.spec 3 1
    let cc : ChainCfg := ⟨0, c.ddc, c.dec, [], []⟩
    let s := if (tfind s.chain h).isSome then { s with chain := tset s.chain h (ch.count cc path (f0 + n) hits) } else s
    let (x, ex) := transform c (src.map fun y => (y.re, y.im))
    let x := correctBins s h lo c x
    let clamped := x.any (·.clamped)
    let unset := (List.range n).any fun i => iqUnsettled ch cc path (f0 + i)
    let q := src.foldl (fun q y => q ||| y.q) (exQuality s h lo hi) ||| qIf clamped qFftOvf ||| qIf unset qUnsettled
    let sumW := (windowWords c).foldl (· + ·) 0
    let powers := x.map (binPower c sumW ex)
    let s := c.strs.foldl (fun s st => streamFrame h j x ex powers q st s) s
    let s := swardFrame h j powers q s
    let s := maskFrame h j powers q s
    let s := feedPorts h j f0 c x powers q s
    let s := s.conc.foldl (fun s a => concFrame a.1 h j lo (x.map fun y => (y.re, y.im)) ex q s) s
    let p := s.pp h
    let s := s.setPipe h { p with next := j + 1, frames := satAdd 64 p.frames 1,
                                  ovf := satAdd 32 p.ovf (b2n clamped), lastExp := ex }
    concAll h (adoptPipe h (p.waiting.length + 1) s)

/-- Analysis of a pipeline resumes at fs-sample `S` (R165, R179, R183): what applied from a sample inside the lacuna on is in
force. -/
def resumePipe (S h : Nat) (s : State) : State :=
  let p := s.pp h
  let due := p.waiting.filter fun c => decide (c.at0 ≤ S)
  let c := due.getLast?.getD p.cfg
  if getU p.cfg.spec 7 1 ≠ 1 ∧ due.isEmpty then s
  else
    let n := rateCeil (srcExp s.view h c) S
    let s := s.setPlane h { asked := (s.plane h).asked }
    s.setPipe h (({ p with cfg := c, waiting := p.waiting.filter fun c => !decide (c.at0 ≤ S), next := frameFrom c n, traces := [],
                           fails := [], fresh := (c.strs.filter fun b => getU b 3 1 == 3).map fun b => getU b 2 1 } : Pipe).openPeriods
      s.cad S c.strs)

/-- A Concordance resumes: the interval that a lacuna cut is part of it (R191). -/
def resumeConc (S h : Nat) (s : State) : State :=
  let x := s.interval h
  let due := x.waiting.filter fun c => decide (c.at0 ≤ S)
  let c := due.getLast?.getD x.cfg
  s.setInterval h { x with isOpen := false, sums := [], frames := 0, quality := 0, parts := [], fresh := true, cfg := c,
                           waiting := x.waiting.filter fun c => !decide (c.at0 ≤ S),
                           upTo := intervalFrom s.cad S c.len c.turns }

/-! ### Checks at commit (R174, R181, R185 to R190, R204, R206) -/

/-- Bins START to START + GROUP x 2^LOG2 lie within the transform (R174). -/
def geometryOk (v : View) (h : Nat) (start : Int) (groups grp : Nat) : Bool :=
  let n : Nat := 2 ^ (v.block btSpectrum [h]).u 2 1
  decide (-((n / 2 : Nat) : Int) ≤ start) && decide (start + (groups * grp : Nat) ≤ ((n / 2 : Nat) : Int))

/-- Length in slots of the shortest interval of a SNAP_MODE 1 rule, the last of a turn included (R181, R190). -/
def shortestInterval (spt len : Nat) (turns : Bool) : Nat :=
  if turns then len * spt else if len < spt then (if spt % len = 0 then len else spt % len) else spt

/-- Source rate exponent of a pipeline. -/
def hopFs (v : View) (h : Nat) : Nat × Nat := ratePos (v.sourceRate h) (spectrumHop (v.block btSpectrum [h]))

/-- SWARD block against the state at T (R174, R181, R193). -/
def chkSward (v : View) (h : Nat) : Option Nat :=
  let b := v.block btSward [h]
  if b.u 2 1 ≠ 1 then none
  else if (v.block btSpectrum [h]).u 7 1 ≠ 1 then some eRange
  else if !geometryOk v h (b.i 8 4) (2 ^ b.u 4 1) (b.u 12 4) then some eRange
  else
    -- 2,048 fabric clocks are 16,384 fs-samples
    let cad := v.block btCadence []
    let (hn, hd) := hopFs v h
    if b.u 17 1 = 0 ∧ b.u 24 4 * hn < 16384 * hd then some eRange
    else if b.u 17 1 = 1 ∧
        -- boundaries are frame starts: as many hops apart as the shortest interval holds, and at least one
        max 1 (shortestInterval (cadSpt cad) (b.u 28 2) (b.u 19 1 == 1) * cadRnum cad * hd / (2 ^ 32 * hn)) * hn < 16384 * hd then
      some eRange
    else none

/-- MASK block against the state at T (R204, R233). -/
def chkMask (v : View) (h : Nat) : Option Nat :=
  let b := v.block btMask [h]
  if (v.ofType btMask).any (fun m => m.key == [h]) && !geometryOk v h (b.i 4 4) (2 ^ b.u 2 1) (b.u 8 4) then some eRange
  else none

/-- The path RATE and agreement fields of a member (R185). -/
def concordKey (s : State) (v : View) (h : Nat) : List Int × List (BitVec 18) :=
  let b := v.block btSpectrum [h]
  let w : WindowMem := tget {} s.wram ((v.position h).getD 0)
  let ws := if b.u 5 1 = 8 then cgetAll (fun _ => 0) (if w.dirty then w.shadow else w.cur) (b.u 12 4) (2 ^ b.u 2 1) else []
  (([(b.u 2 1 : Int), b.u 3 1, b.u 4 1, b.u 16 4, b.u 5 1, v.sourceRate h, (v.block btDdc [h]).u 2 6] : List Int), ws)

/-- Products per fabric clock of a Concordance as a fraction (R187). -/
def concordLoad (v : View) (h : Nat) : Nat × Nat :=
  let b := v.block btConcordance [h]
  let ms := v.concordMembers h
  let sp := v.block btSpectrum [ms.headD 0]
  let m := ms.length
  -- r / f_fabric = 8 / 2^RATE
  let (rn, rd) := ratePos (v.sourceRate (ms.headD 0)) 1
  (m * (m + 1) / 2 * 8 * rd * 2 ^ sp.u 4 1 * 2 ^ b.u 4 1 * b.u 12 4, rn * 2 ^ sp.u 2 1)

/-- CONCORDANCE block against the state at T (R185 to R190). -/
def chkConcordance (s : State) (v : View) (h : Nat) : Option Nat :=
  let b := v.block btConcordance [h]
  if b.u 2 1 ≠ 1 then none
  else
    let ms := v.concordMembers h
    let m := ms.length
    let sp := v.block btSpectrum [ms.headD 0]
    let keys := ms.map (concordKey s v)
    let cad := v.block btCadence []
    let len := shortestInterval (cadSpt cad) (b.u 6 2) (b.u 5 1 == 1)
    let readout := ceilDiv (m * (m + 1) / 2 * 2 ^ b.u 4 1) 64 + 200
    let (hn, hd) := hopFs v (ms.headD 0)
    let longest := if b.u 5 1 = 1 then b.u 6 2 * cadSpt cad else min (b.u 6 2) (cadSpt cad)
    if ms.any (fun x => (v.block btSpectrum [x]).u 7 1 != 1) || keys.any (fun k => some k != keys.head?) then
      some eConcordMismatch
    else if sp.u 3 1 = 0 ∧ !(m == 6 && (v.position h).isSome && ms.all fun x => v.ganged x == 1) then some eConcordMismatch
    else if sp.u 3 1 = 1 ∧ !(decide (2 ≤ m ∧ m ≤ 48) && decide (4 ≤ v.sourceRate (ms.headD 0))) then some eConcordMismatch
    else if sp.u 3 1 = 0 ∧ (v.ofType btConcordance).any (fun c => c.u 2 1 == 1 && c.u 0 2 != h &&
        (v.block btSpectrum [(v.concordMembers (c.u 0 2)).headD 0]).u 3 1 == 0) then some eConcordMismatch
    else if !geometryOk v (ms.headD 0) (b.i 8 4) (2 ^ b.u 4 1) (b.u 12 4) then some eRange
    else if len * cadRnum cad < readout * 8 * 2 ^ 32 then some eRange
    else if 2 ^ 36 * hn * 2 ^ 32 < longest * cadRnum cad * hd then some eRange
    else none

/-- The enabled Concordances together fit the engine (R187): 768 products a fabric clock. -/
def concordFits (v : View) : Bool :=
  let loads := ((v.ofType btConcordance).filter (·.u 2 1 == 1)).map fun b => concordLoad v (b.u 0 2)
  let sum := loads.foldl (fun (a : Nat × Nat) l => (a.1 * l.2 + l.1 * a.2, a.2 * l.2)) (0, 1)
  decide (sum.1 ≤ 768 * sum.2)

end Sys2Proof.Machine
end

