-- ==== Sys2Proof/Machine/Plan.lean ====
section
/-! DEFINITION. The configuration as it will stand at a later time (R480), scheduled actions (R49 to R53), and
the snapshot and trigger actions of R180, R212 and R235. -/
namespace Sys2Proof.Machine

/-! ### Views (R480, R484) -/

/-- Two blocks are one instance: same type and key; CONSERVATOR blocks by position and slot (R290, R476). -/
def View.sameKey (v : View) (a b : Block) : Bool :=
  a.typ == b.typ && (a.key == b.key ||
    (a.typ == btConservator && a.u 2 1 == b.u 2 1 && (v.position (a.u 0 2)).isSome &&
      v.position (a.u 0 2) == v.position (b.u 0 2)))

/-- The view with a block committed. -/
def View.put (v : View) (b : Block) : View := { v with blocks := v.blocks.filter (fun x => !v.sameKey x b) ++ [b] }

/-- A block belongs to an exhibit by its handle: keyed by it, or a STORE of its (R476, R484). -/
def blockOf (h : Nat) (b : Block) : Bool :=
  (handleKeyed b.typ && b.u 0 2 == h) || (b.typ == btStore && b.u 3 1 != 2 && b.u 4 2 == h)

/-- The view with one staged item applied (R480, R484, R485). -/
def View.applyItem (v : View) (i : Item) : View :=
  match i with
  | .block b => v.put b
  | .define h kind members =>
    let e := v.ex (h % 4096)
    { v with exh := tset v.exh (h % 4096) { e with kind := kind, members := members, st := 2 } }
  | .delete h =>
    let e := v.ex (h % 4096)
    let exh := tset v.exh (h % 4096) { e with kind := 0, st := 0, members := [], owner := 0 }
    { v with blocks := v.blocks.filter fun b => !blockOf h b,
             exh := exh.map fun x => (x.1, { x.2 with members := x.2.members.filter (· != h) }) }
  | .assign h fn =>
    let e := v.ex (h % 4096)
    { v with exh := tset v.exh (h % 4096) { e with owner := fn } }

/-- The view with a commit's items applied: definitions and deletions first, then blocks. -/
def View.applyAll (v : View) (items : List Item) : View :=
  let isBlock (i : Item) : Bool := match i with | .block _ => true | _ => false
  (items.filter fun i => !isBlock i).foldl View.applyItem v |> fun v => (items.filter isBlock).foldl View.applyItem v

/-- Role and placement of an exhibit (R21): kind, members, groups, Conservator cores, Store locations, and with `gal`
the physical galleries of its channels. -/
def View.roleOf (v : View) (gal : Bool) (n : Nat) : List (List Nat) :=
  let e := v.ex n
  let h := v.handle n
  [[e.kind], e.members, v.groupsOf h,
   (v.ofType btConservator).filterMap fun b => if b.u 0 2 = h then some (4 * (v.position h).getD 0 + b.u 2 1) else none] ++
  ((v.ofType btStore).filter fun b => b.u 2 1 == 1 && b.u 3 1 != 2 && b.u 4 2 == h).map (fun b =>
    [b.u 0 2, b.u 7 1, b.u 8 4, ((v.ranges.find? fun r => r.1 == b.u 0 2).map (·.2.1)).getD 0]) ++
  (if gal then [(((v.channels h).map (· / 6)).eraseDups).map v.gallery] else [])

/-- Local numbers of the committed exhibits. -/
def View.numbers (v : View) : List Nat :=
  List.range 48 ++ v.exh.filterMap fun e => if 48 ≤ e.1 ∧ e.2.st = 2 then some e.1 else none

/-- Local numbers whose role or placement differs between two views, with every group that contains one of them at any
depth (R21). -/
def View.moved (v v' : View) (gal : Bool) : List Nat :=
  let both := v'.numbers.filter fun n => (v.ex n).st == 2
  let direct := both.filter fun n => v.roleOf gal n != v'.roleOf gal n
  let up := (v'.ancestors 4096 (direct.map v'.handle)).map (· % 4096)
  both.filter fun n => direct.contains n || up.contains n

/-- First fit of `size` MiB among ranges (base, size) in 49,152 MiB of Store space. -/
def firstFit (used : List (Nat × Nat)) (size : Nat) : Option Nat :=
  let bases := 0 :: used.map fun u => u.1 + u.2
  let free := bases.filter fun b => decide (b + size ≤ 49152) && used.all fun u => decide (b + size ≤ u.1 ∨ u.1 + u.2 ≤ b)
  match free with
  | [] => none
  | b :: bs => some (bs.foldl min b)

/-- The Store is redefined between two views (R280); a new or freed one too. `m` lists the local numbers whose epoch the
change raises because a role, cores or Store locations differ. A migration raises epochs too, but it is invisible in the
data (R440, R558): Stores do not move with it and keep their records (DEDUCED, log 62). -/
def storeRedefined (v v' : View) (m : List Nat) (n : Nat) : Bool :=
  let a := v.block btStore [n]
  let b := v'.block btStore [n]
  let key (x : Block) : List Nat := if x.u 2 1 = 0 then [0] else if x.u 3 1 = 2 then [1, 2, x.u 7 1, x.u 8 4]
    else [1, x.u 3 1, x.u 4 2, x.u 6 1, x.u 7 1, x.u 8 4, x.u 12 4]
  key a != key b || (b.u 2 1 == 1 && b.u 3 1 != 2 && m.contains (b.u 4 2 % 4096))

/-- Store numbers that either configuration defines and that the change redefines. -/
def redefinedBy (v v' : View) (m : List Nat) : List Nat :=
  let ids := (v.ofType btStore ++ v'.ofType btStore).map (·.u 0 2)
  if ids.isEmpty then [] else ((List.range 1024).filter ids.contains).filter (storeRedefined v v' m)

/-- BAR4 ranges after a change, from those of `v`: what is redefined or freed leaves, then new definitions take the lowest
free range in increasing number; none where a Store finds no range (R257, R277). -/
def placeStores (v v' : View) (m : List Nat) : Option (List (Nat × Nat × Nat)) :=
  let gone := redefinedBy v v' m
  gone.foldl (fun acc n =>
    match acc with
    | none => none
    | some l =>
      let b := v'.block btStore [n]
      if b.u 2 1 = 0 then some l
      else (firstFit (l.map (·.2)) (b.u 8 4)).map fun base => l ++ [(n, base, b.u 8 4)])
    (some (v.ranges.filter fun r => !gone.contains r.1))

/-- The view with its Stores placed (R277): a Store that a redefinition moves changes its owner's placement and so its
epoch (R21), which redefines the owner's other Stores in turn (R280). `m` grows until nothing more moves. -/
def View.settle (v v' : View) : Nat → List Nat → View
  | 0, _ => v'
  | k + 1, m =>
    let w := { v' with ranges := (placeStores v v' m).getD v.ranges }
    let more := (v.moved w false).filter fun n => !m.contains n
    if more.isEmpty then w else View.settle v v' k (m ++ more)

/-- The view after a change with every Store placed. -/
def View.placed (v v' : View) : View :=
  let w := { v' with ranges := v.ranges }
  if (v.ofType btStore).isEmpty && (v'.ofType btStore).isEmpty then w else v.settle v' 4096 (v.moved w false)

/-- Stores that a change between placed views redefines (R280). -/
def redefinedStores (v v' : View) : List Nat := redefinedBy v v' (v.moved v' false)

/-- Epochs after a commit (R21, R22): a new exhibit takes its number's last epoch plus one. -/
def View.stepEpochs (v raw : View) : View :=
  let v' := v.placed raw
  let new := v'.numbers.filter fun n => (v.ex n).st != 2
  (v.moved v' true ++ new).foldl (fun (w : View) n =>
    let e := w.ex n
    { w with exh := tset w.exh n { e with epoch := e.epoch + 1 } }) v'

/-- The view with a commit applied, epochs included (R480, R481). -/
def View.apply (v : View) (items : List Item) : View := v.stepEpochs (v.applyAll items)

/-- The state as it will stand at cadence time `t`, every pending commit up to `t` applied (R480). -/
def State.viewAt (s : State) (t : CT) : View :=
  (s.cur.pending.filter fun p => ctLe p.time t).foldl (fun v p => v.apply p.items) s.view

/-- The state after the last pending commit (R478). -/
def State.lastView (s : State) : View := s.cur.pending.foldl (fun v p => v.apply p.items) s.view

/-! ### Scheduling (R49 to R53) -/

/-- SCHEDULE conditions that still wait for a time count as one pending action each (R52, R211). -/
def schedulesPending (s : State) : Nat :=
  ((s.view.ofType btCondition).filter fun b => b.u 3 1 == 11 && (b.u 32 4 != 0 ||
    decide ((s.cad.now : Int) * 2 ^ 48 ≤ ctPos s.cad ⟨b.u 12 8, b.u 28 2, b.u 30 2⟩))).length

/-- Pending scheduled actions of the device (R52). -/
def pendingCount (s : State) : Nat := s.cur.pending.length + s.cur.actions.length + schedulesPending s

/-- Kind of an action for R52 and R53: 1 clear, 4 calibration and injection, 5 snapshot, 6 trigger. -/
def Act.kind : Act → Nat
  | .clear _ => 1
  | .cal _ _ _ => 4
  | .inject _ _ _ => 4
  | .snapshot _ => 5
  | .arm _ => 6
  | .force => 6

/-- Exhibits whose triggers an arm or a force of `h` reaches: its own, and those of its members at every depth, but not of
gang members, which have none (R20, R96, R235). -/
def View.triggerReach (v : View) (h : Nat) : List Nat := (v.reach h).filter fun m => m == h || !v.gangMember m

/-- Exhibits on which a pending action acts (R20, R52). -/
def Action.handles (v : View) (a : Action) : List Nat :=
  match a.handle with
  | none => []
  | some h => if a.act.kind = 6 then v.triggerReach h else [h]

/-- Checks of a scheduled action on exhibits `hs` (R46, R51, R52); `off` is the offset of its TURN field. -/
def schedCheck (s : State) (t : CT) (off : Nat) (kind : Nat) (hs : List Nat) : Except Err Unit := do
  ensure (t.slot < s.cad.spt) eRange (off + 6)
  ensure (!tooSoon s.cad t) eTimePast off
  ensure (!s.cur.actions.any fun a => a.act.kind == kind && a.time == t && (a.handles s.view).any hs.contains) eTimeConflict
  ensure (pendingCount s < 1024) eScheduleFull

/-- Hold an action until its time. -/
def State.schedule (s : State) (fn : Nat) (t : CT) (h : Option Nat) (a : Act) (txn : Option Nat := none) : State :=
  let c := s.cur
  { s with cur := { c with actions := c.actions ++ [⟨c.nextAction, fn, t, h, a, txn, false⟩], nextAction := c.nextAction + 1 } }

/-! ### Sward snapshots (R180, R181, R194) -/

/-- First frame that starts at or after a cadence time under a pipeline's present blocks. -/
def boundaryFrame (s : State) (v : View) (h : Nat) (t : CT) : Nat × PipeCfg :=
  let c := pipeCfg s v h 0 false
  (frameFrom c (rateCeil (srcExp v h c) (sampleOf s.cad t)), c)

/-- Two boundaries of a plane are too close and not the same (R181): 2,048 fabric clocks, 16,384 fs-samples. -/
def boundaryClash (v : View) (h : Nat) (c : PipeCfg) (f g : Nat) : Bool :=
  let (n, d) := ratePos (srcExp v h c) ((frameStart c (max f g)) - frameStart c (min f g))
  f != g && decide (n < 16384 * d)

/-- SWARD_SNAPSHOT (R180, R181, R194). -/
def swardSnapshotBody (r : Req) (s : State) : Effect := do
  r.lenIs 16
  r.rsvIs 13 3
  let h := r.u 0 2
  let t : CT := ⟨r.u 4 6, r.u 2 2, r.u 10 2⟩
  let e ← ownedHandle s r.fn h
  ensure (e.kind ≤ 1) eKind
  ensure (r.u 12 1 < 4) eReserved 12
  ensure (t.slot < s.cad.spt) eRange 2
  schedCheck s t 4 5 [h]
  let v := s.viewAt t
  let b := v.block btSward [h]
  ensure (b.u 2 1 == 1) eRange 0
  let (f, c) := boundaryFrame s v h t
  let others := s.cur.actions.filterMap fun a =>
    if a.handle == some h && a.act.kind == 5 then some (boundaryFrame s v h a.time).1 else none
  let periodic := match b.u 17 1 with
    | 0 => let n := b.u 24 4; [f / n * n, (f / n + 1) * n]
    | 1 =>
      let ex := srcExp v h c
      let len := b.u 28 2
      let turns := b.u 19 1 == 1
      let key := intervalKey s.cad (slotOfSource s.cad ex (frameStart c f)) len turns
      [key, nextInterval s.cad key len turns].map fun k => frameFrom c (rateCeil ex (slotStart s.cad k))
    | _ => []
  ensure ((others ++ periodic).all fun g => !boundaryClash v h c f g) eTimeConflict
  return (s.schedule r.fn t (some h) (.snapshot (r.u 12 1)), [])

/-- A scheduled snapshot reaches its sample (R180, R181): at the boundary of the last frame before it. A late one whose frame
is in the plane already is taken at once, as one record with any that frame's boundary has given. -/
def doSnapshot (a : Action) (bits : Nat) (late : Bool) (s : State) : State :=
  match a.handle with
  | none => s
  | some h =>
    let pipe := s.pp h
    let n0 := rateCeil (srcExp s.view h pipe.cfg) (sampleOf s.cad a.time)
    if n0 ≤ frameStart pipe.cfg pipe.next then
      if getU pipe.cfg.sward 2 1 = 1 then
        let j := pipe.next - 1
        let why := if bits.testBit 0 && (s.plane h).snapped != some j then 4 else 0
        swardSnap h j why (bits.testBit 1 || (bits.testBit 0 && getU pipe.cfg.sward 18 1 == 1)) late s
      else s
    else s.setPlane h { s.plane h with asked := (s.plane h).asked ++ [(n0, bits + 256 * b2n late)] }

/-! ### Trigger actions (R211, R212, R235) -/

/-- Forced and scheduled occurrences reach the conditions of one trigger (R211, R212). -/
def occurAt (h : Nat) (t : CT) (late : Bool) (sel : List Byte → Bool) (s : State) : State :=
  let x := s.tr h
  let k := s.view.gridK h
  let g := max x.next (if late then gridCeil k s.cad.now 1 else gridOf s.cad k t)
  let conds := (x.cfgAt g).conds.foldl (fun (m : Table CondSt) b =>
    if sel b then
      let n := getU b 2 1
      let o : CondSt := tget {} m n
      tset m n { o with waiting := o.waiting ++ [{ pos := g, quality := qIf late qLate }] }
    else m) x.conds
  s.setTr h { x with conds := conds }

/-- One exhibit's trigger takes an ARM value from a cadence time on (R216, R235). -/
def takeArm (h : Nat) (t : CT) (v : Nat) (late : Bool) (s : State) : State :=
  let x := s.tr h
  let k := s.view.gridK h
  let g := if late then gridCeil k s.cad.now 1 else gridOf s.cad k t
  s.setTr h { x with arms := x.arms ++ [(max x.next g, v)] }

/-- TRIGGER_ARM reaches its sample, in the exhibit and its members (R20, R216, R235). -/
def doArm (a : Action) (v : Nat) (late : Bool) (s : State) : State :=
  (a.handles s.view).foldl (fun s h => takeArm h a.time v late s) s

/-- TRIGGER_FORCE reaches its sample, in the exhibit and its members (R20, R212). -/
def doForce (a : Action) (late : Bool) (s : State) : State :=
  (a.handles s.view).foldl (fun s h => occurAt h a.time late (fun b => getU b 3 1 == 12) s) s

/-- A SCHEDULE condition has occurred at one of its times, and none up to it occurs again (R50, R211; DEDUCED, log 115). -/
def noteTime (h cond : Nat) (t : CT) (s : State) : State := s.setTr h { s.tr h with times := tset (s.tr h).times cond t }

/-- A time of a SCHEDULE condition has not occurred yet (R50, R63). -/
def timeFresh (s : State) (h cond : Nat) (t : CT) : Bool :=
  match tfind (s.tr h).times cond with | some last => ctLt last t | none => true

/-- SCHEDULE_CONDITION_TIME (R50, R211): time `pos` of condition `cond` of exhibit `h` is reached. -/
def scheduleConditionTime (h cond : Nat) (pos : CT) (s : State) : State :=
  let b := s.block btCondition [h, cond]
  let d := b.u 32 4
  let slot := b.u 28 2
  let one := pos.turn == b.u 12 8 && pos.slot == slot
  let many := 0 ≤ turnDiff pos.turn (b.u 12 8) && slot ≤ pos.slot && (pos.slot - slot) % d == 0 && pos.slot < s.cad.spt
  let isTime := b.u 3 1 == 11 && pos.phase == b.u 30 2 && (if d = 0 then one else many)
  let due := (s.cad.now : Int) * 2 ^ 48 ≤ ctPos s.cad pos
  if !(isTime && due && timeFresh s h cond pos) || (clockLoss s.cad (s.view.deps h)).isSome then s
  else
    let s := noteTime h cond pos (s.tick (sampleOf s.cad pos))
    occurAt h pos false (fun x => getU x 2 1 == cond && getU x 3 1 == 11) s

/-- The checks of TRIGGER_ARM and TRIGGER_FORCE on their handle, and of a group on its members' owners (R20, R235). -/
def triggerHandle (s : State) (r : Req) : Except Err (Nat × Exhibit) := do
  r.lenIs 16
  r.rsvIs 3 1
  r.rsvIs 14 2
  let h := r.u 0 2
  let e ← ownedHandle s r.fn h
  ensure (!s.view.gangMember h) eGangMember
  ensure ((s.view.triggerReach h).all fun m => s.view.owner m == r.fn || s.view.find m == none) eNotOwner
  return (h, e)

/-- TRIGGER_ARM of an exhibit of this device (R235, R475). -/
def armBody (r : Req) (s : State) : Effect := do
  let (h, _) ← triggerHandle s r
  ensure (r.u 2 1 ≤ 2) eRange 2
  let t := ctOfBytes r.params 4
  schedCheck s t 4 6 (s.view.triggerReach h)
  return (s.schedule r.fn t (some h) (.arm (r.u 2 1)), [])

/-- TRIGGER_FORCE of an exhibit of this device (R212, R235, R475). -/
def forceBody (r : Req) (s : State) : Effect := do
  let (h, e) ← triggerHandle s r
  ensure (r.u 2 1 ≤ 1) eReserved 2
  let asap := r.u 2 1 == 1
  let t := if asap then asapTime s.cad else ctOfBytes r.params 4
  schedCheck s t 4 6 (s.view.triggerReach h)
  ensure (e.kind == 0 || ((s.viewAt t).conditions h).any fun b => b.u 3 1 == 12) eRange 0
  return (s.schedule r.fn t (some h) .force, fields (ctFields t))

end Sys2Proof.Machine
end

