-- ==== Sys2Proof/Machine/Comparators.lean ====
section
/-! DEFINITION. Comparators (12): crossings, latches, arming, clears, running totals and the CROSSINGS
records. -/
namespace Sys2Proof.Machine

/-- The state of a comparator. -/
def State.cmp (s : State) (n : Nat) : Comp := tget {} s.comp n

/-- Replace the state of a comparator. -/
def State.setCmp (s : State) (n : Nat) (x : Comp) : State := { s with comp := tset s.comp n x }

/-- The COMPARATOR block of a comparator. -/
def View.cmpBlock (v : View) (n : Nat) : Block := v.block btComparator [n]

/-- The odd comparator of a committed window pair (R333). -/
def View.pairOdd (v : View) (n : Nat) : Bool := decide (48 ≤ n) && n % 2 == 1 && (v.cmpBlock (n - 1)).u 10 1 == 1

/-- The comparator has an output of its own and is enabled (R333). -/
def View.cmpOn (v : View) (n : Nat) : Bool := (v.cmpBlock n).u 1 1 == 1 && !v.pairOdd n

/-- ENABLED bit of COMPARATOR_STATUS (R355). -/
def View.cmpShown (v : View) (n : Nat) : Bool := (v.cmpBlock (if v.pairOdd n then n - 1 else n)).u 1 1 == 1

/-- The comparator's domain is powered: the wing front end, PD00, and in fallow mode only WAKE comparators
(R329, R340). -/
def State.cmpPowered (s : State) (n : Nat) : Bool :=
  if s.pow.fallow != 0 then decide (48 ≤ n) && (s.view.cmpBlock n).u 11 1 == 1
  else if n < 48 then s.pow.domains.testBit (1 + n / 12) else s.pow.domains.testBit 0

/-- Position of a cadence time in 1/1,024 fs-sample, rounded up (R342). -/
def ctStamp (c : Cad) (t : CT) : Int := ceilDivI (ctPos c t) (2 ^ 38)

/-- An fs-sample rounded up to the start of a fabric clock, in 1/1,024 fs-sample (R337). -/
def clockStamp (t : Nat) : Int := ((roundUp t 8 * 1024 : Nat) : Int)

/-- Level-sense COMPARATOR conditions take the latch state from an instant on (R208, R337; DEDUCED, log 124). -/
def pushLatch (n : Nat) (inst : Int) (on : Bool) (s : State) : State :=
  s.pushAll inst.toNat 1024 fun _ b =>
    if getU b 3 1 = 7 ∧ getU b 4 2 = n ∧ getU b 9 1 = 0 then
      some { pos := 0, set := some (on == (getU b 8 1 == 0)) }
    else none

/-- A latch sets with its set instant; one before the latest clear is cleared at once (R334, R336, R337). A
WAKE comparator wakes the device (R340, R541). -/
def setLatch (n : Nat) (inst : Int) (s : State) : State :=
  let x := s.cmp n
  if x.latch.isSome then s
  else if inst < x.cleared then
    pushLatch n x.cleared false (pushLatch n inst true (s.setCmp n { x with was := some ⟨inst, x.cleared⟩ }))
  else
    let s := pushLatch n inst true (s.setCmp n { x with latch := some inst })
    if s.pow.fallow != 0 && (s.view.cmpBlock n).u 11 1 == 1 && s.pow.wake.isNone then
      { s with pow := { s.pow with wake := some n } }
    else s

/-- A crossing into `high` sets a latch of this mode (R334). -/
def latchTakes (mode : Nat) (high : Bool) : Bool :=
  mode == 3 || ((mode == 1 || mode == 4) && high) || ((mode == 2 || mode == 5) && !high)

/-- A crossing counts in this direction (R338). -/
def countTakes (dir : Nat) (high : Bool) : Bool := dir == 2 || (dir == 0) == high

/-- A counted crossing waits for the CROSSINGS records that report it; its instant is that of its fabric
clock (R338, R339). -/
def markCrossings (n t : Nat) (s : State) : State :=
  (s.view.ofType btCrossings).foldl (fun s b =>
    if b.u 2 1 != 0xFF && (b.u 8 8).testBit n then
      { s with cross := tmod {} s.cross (skey (b.u 0 2) (b.u 2 1)) fun x =>
          if x.start ≤ t / 8 * 8 then { x with marks := x.marks ++ [(n, t / 8 * 8)] } else x }
    else s) s

/-- CROSSING (R332, R334, R337, R338): the output of a comparator changes to `high` at fs-sample `t`. -/
def crossing (n : Nat) (high : Bool) (t : Nat) (stamped : Option Int) (s : State) : State :=
  let s := s.tick t
  if !(s.view.cmpOn n && s.cmpPowered n && decide (n < 64)) then s
  else
    let b := s.view.cmpBlock n
    let counts := countTakes (b.u 7 1) high
    let x := s.cmp n
    let s := s.setCmp n { x with out := high, total := if counts then satAdd 32 x.total 1 else x.total }
    let s := if counts then markCrossings n t s else s
    if x.arming == 2 && latchTakes (b.u 3 1) high then setLatch n (stamped.getD (clockStamp t)) s else s

/-- Arming interval in ns (R335). -/
def armingNs (mode : Nat) : Nat := [2000, 2000, 200000, 20000000].getD mode 2000

/-- The latch is held clear and arming begins (R335). -/
def beginArming (n : Nat) (s : State) : State :=
  let x := s.cmp n
  let s := s.setCmp n { x with arming := 1, since := s.cad.now, latch := none,
                               was := match x.latch with | some i => some ⟨i, ((s.cad.now * 1024 : Nat) : Int)⟩ | none => x.was }
  if x.latch.isSome then pushLatch n ((s.cad.now * 1024 : Nat) : Int) false s else s

/-- The latch is held clear and unarmed (R335). -/
def disarm (n : Nat) (s : State) : State :=
  let s' := beginArming n s
  s'.setCmp n { s'.cmp n with arming := 0 }

/-- Level mode with its level present (R334). -/
def levelHolds (mode : Nat) (out : Bool) : Bool := (mode == 4 && out) || (mode == 5 && !out)

/-- ARMING_END (R334, R335): the arming interval, timed on the backup oscillator, has run out. -/
def armingEnd (n t : Nat) (s : State) : State :=
  let s := s.tick t
  let x := s.cmp n
  let b := s.view.cmpBlock n
  let (f, d) := fsKhz s
  let due := !s.cad.anchored || decide (armingNs (b.u 2 1) * f ≤ (s.cad.now - x.since) * (1000000 * d))
  if x.arming != 1 || !due || !s.cmpPowered n then s
  else
    let s := s.setCmp n { x with arming := 2 }
    if levelHolds (b.u 3 1) x.out then setLatch n (clockStamp s.cad.now) s else s

/-- A latch is cleared at an instant (R336): no effect while arming; a crossing at that instant or later
keeps it set; a level that holds sets it again. -/
def clearLatch (n : Nat) (inst : Int) (s : State) : State :=
  let x := s.cmp n
  if x.arming != 2 then s
  else
    let s := s.setCmp n { x with cleared := max x.cleared inst }
    let x := s.cmp n
    match x.latch with
    | none => s
    | some i =>
      if inst ≤ i then s
      else
        let s := pushLatch n inst false (s.setCmp n { x with latch := none, was := some ⟨i, inst⟩ })
        if levelHolds ((s.view.cmpBlock n).u 3 1) x.out then setLatch n inst s else s

/-- LATCH_CLEAR_BOUNDARY (R336): a CLEAR_MODE boundary of a comparator at cadence time `pos`. -/
def latchClearBoundary (n : Nat) (pos : CT) (s : State) : State :=
  let b := s.view.cmpBlock n
  let due := pos.phase == 0 && decide (pos.slot < s.cad.spt) &&
    match b.u 6 1 with | 1 => pos.slot == 0 | 2 => pos.slot % b.u 8 2 == 0 | _ => false
  if due && s.view.cmpOn n then clearLatch n (ctStamp s.cad pos) (s.tick (sampleOf s.cad pos)) else s

/-- COMPARATOR_CLEAR reaches its sample (R336). -/
def doClear (mask : Nat) (s : State) : State :=
  (bitList mask 64).foldl (fun s n => clearLatch n (clockStamp 0 + ((s.cad.now * 1024 : Nat) : Int)) s) s

/-- The latch was set just before an instant (R339). -/
def Comp.latchedAt (x : Comp) (inst : Int) : Bool :=
  (match x.latch with | some i => decide (i < inst) | none => false) ||
    (match x.was with | some w => decide (w.set < inst ∧ inst ≤ w.clear) | none => false)

/-- End of the running period of a CROSSINGS stream, as a slot count (R339). -/
def crossEnd (c : Cad) (b : Block) (x : CrossStream) : Nat :=
  let turns := b.u 3 1 == 1
  let len := if turns then 1 else b.u 4 2
  nextInterval c (intervalKey c (slotAt c x.start 1) len turns) len turns

/-- The CROSSINGS record of a period that ends at fs-position num / 2^32 (R339). -/
def crossRecord (s : State) (b : Block) (x : CrossStream) (num : Nat) (unsettled : Bool) : Rec :=
  let ns := bitList (b.u 8 8) 64
  let hi := ceilDiv num (2 ^ 32)
  let inst : Int := ceilDiv (num * 1024) (2 ^ 32)
  { typ := rtCrossings, handle := b.u 0 2, stream := b.u 2 1, time := ctOf s.cad x.start, elem := elU32,
    quality := cadQuality s.cad x.start (max hi (x.start + 1)) |||
      s.staleQ (ns.flatMap cmpTags) x.start (max hi (x.start + 1)) ||| qIf unsettled qUnsettled, sample := x.start,
    count := ns.length, lo := x.start, hi := max hi (x.start + 1),
    body := fields [(8, b.u 8 8), (8, maskOf ((List.range 64).filter fun n => (s.cmp n).latchedAt inst)), (1, b.u 3 1), (1, 0),
        (2, b.u 4 2), (12, 0)] ++
      ns.flatMap fun n => leBytes 4 (x.marks.filter fun m => m.1 == n && decide (m.2 * 2 ^ 32 < num)).length }

/-- A period of a CROSSINGS stream ends at fs-position num / 2^32 and the next one starts at sample `next`. -/
def endCrossPeriod (b : Block) (num next : Nat) (unsettled : Bool) (s : State) : State :=
  let k := skey (b.u 0 2) (b.u 2 1)
  let x : CrossStream := tget {} s.cross k
  let s := if x.lost then
      (if x.resumed then s.closeGap (b.u 0 2) (b.u 2 1) (ceilDiv num (2 ^ 32)) else s)
    else s.produce (crossRecord s b x num (unsettled || x.cut))
  { s with cross := tset s.cross k { start := next, cut := false, lost := x.lost && !x.resumed,
                                     marks := x.marks.filter fun m => !decide (m.2 * 2 ^ 32 < num) } }

/-- The CROSSINGS block of a stream (R339, R475). -/
def State.crossBlock (s : State) (h st : Nat) : Option Block :=
  (s.view.ofType btCrossings).find? fun b => b.u 0 2 == h && b.u 2 1 == st

/-- CROSSINGS_PERIOD_END (R339): the running period of a CROSSINGS stream ends at cadence time `pos`. -/
def crossingsPeriodEnd (h st : Nat) (pos : CT) (s : State) : State :=
  match s.crossBlock h st with
  | none => s
  | some b =>
    let x : CrossStream := tget {} s.cross (skey h st)
    let j := crossEnd s.cad b x
    if st != 0xFF && pos.phase == 0 && slotCount s.cad pos.turn pos.slot == (j : Int) then
      endCrossPeriod b (j * s.cad.rnum) (slotStart s.cad j) false (s.tick (slotStart s.cad j))
    else s

/-- A CROSSINGS block takes effect (R339): the running period is cut short, and a new one starts. -/
def applyCrossings (old new : Block) (s : State) : State :=
  let k := skey (old.u 0 2) (old.u 2 1)
  let running := tfind s.cross k
  if old.data == new.data && running.isSome then s
  else
    let S := s.cad.now
    let s := match running with
      | some x => if x.lost then s else endCrossPeriod old (S * 2 ^ 32) S true s
      | none => s
    let s := { s with cross := tdel s.cross k }
    if new.u 2 1 == 0xFF then s
    else { s with cross := tset s.cross (skey (new.u 0 2) (new.u 2 1)) { start := S } }

/-- COMPARATOR blocks against the state at T: the upper limit of a window lies above the lower (R333). -/
def chkComparators (v : View) : Option Nat :=
  if (List.range 8).all fun i =>
      let e := 48 + 2 * i
      (v.cmpBlock e).u 10 1 == 0 || decide ((v.cmpBlock e).i 4 2 < (v.cmpBlock (e + 1)).i 4 2) then none
  else some eRange

/-- What restarts the arming of a comparator: ENABLE, MODE, THRESHOLD, WINDOW, LATCH_MODE, and a pair's upper
threshold (R335). -/
def View.armKey (v : View) (n : Nat) : List Nat :=
  let b := v.cmpBlock n
  [b.u 1 1, b.u 2 1, b.u 4 2, b.u 10 1, b.u 3 1, if b.u 10 1 = 1 then (v.cmpBlock (n + 1)).u 4 2 else 0]

/-- COMPARATOR blocks take effect between two views (R332, R335): the output of a comparator that is enabled
takes its input's state, which nothing states (DESIGN CHOICE, log 7). -/
def applyComparators (v v' : View) (s : State) : State :=
  (List.range 64).foldl (fun s n =>
    let was := v.cmpOn n
    let is := v'.cmpOn n
    let s := if is && !was then
        let (f, s) := s.freeNat
        s.setCmp n { s.cmp n with out := f % 2 == 1 }
      else if was && !is then s.setCmp n { s.cmp n with out := false }
      else s
    let mode := (v'.cmpBlock n).u 3 1
    if !is || mode == 0 then (if was then disarm n s else s)
    else if !was || v.armKey n != v'.armKey n then beginArming n s
    else s) s

/-- The comparators of a domain return to power (R335, R340). -/
def armComparators (ns : List Nat) (s : State) : State :=
  ns.foldl (fun s n => if s.view.cmpOn n && (s.view.cmpBlock n).u 3 1 != 0 then beginArming n s else s) s

/-- COMPARATOR_CLEAR (R336, R355). -/
def comparatorClearBody (r : Req) (s : State) : Effect := do
  r.lenIs 24
  r.rsvIs 10 6
  let t := ctOfBytes r.params 0
  schedCheck s t 0 1 []
  return (s.schedule r.fn t none (.clear (r.u 16 8)), [])

/-- Result of COMPARATOR_STATUS (R355). -/
def comparatorStatusBytes (s : State) : List Byte :=
  let mask (f : Nat → Bool) : Nat := maskOf ((List.range 64).filter f)
  fields ([(8, mask s.view.cmpShown), (8, mask fun n => (s.cmp n).latch.isSome),
    (8, mask fun n => (s.cmp n).arming == 1), (8, 0)] ++ ((List.range 64).map fun n => (4, (s.cmp n).total)) ++
    (List.range 16).map fun u => (4, (tget ({} : Pairer) s.pairer u).disc))

/-- COMPARATOR_STATUS (R355). -/
def comparatorStatusBody (r : Req) (s : State) : Effect := do
  r.lenIs 0
  return (s, comparatorStatusBytes s)

end Sys2Proof.Machine
end

