-- ==== Sys2Proof/Machine/Tdc.lean ====
section
/-! DEFINITION. The time-to-digital converter (12): stamps and discards, stamp streams, pairing units, interval
statistics and what lacunae do to them. -/
namespace Sys2Proof.Machine

/-- A pairing unit. -/
def State.pu (s : State) (u : Nat) : Pairer := tget {} s.pairer u

/-- Replace a pairing unit. -/
def State.setPu (s : State) (u : Nat) (x : Pairer) : State := { s with pairer := tset s.pairer u x }

/-! ### Records of entries (R345, R349) -/

/-- Insert an entry in increasing t, then source number (R345). -/
def insertEntry (e : Entry) : List Entry → List Entry
  | [] => [e]
  | x :: xs => if e.t < x.t ∨ (e.t = x.t ∧ e.src < x.src) then e :: x :: xs else x :: insertEntry e xs

/-- Slot count at which the flush interval of a stamp begins (R345). -/
def flushKey (c : Cad) (flush : Nat) (t : Int) : Nat := intervalKey c (slotAt c t.toNat 1024) flush false

/-- The entries of the first record: one flush interval, at most `len` (R345). -/
def firstGroup (c : Cad) (len flush : Nat) (l : List Entry) : List Entry :=
  match l with
  | [] => []
  | e :: _ => (l.takeWhile fun x => flushKey c flush x.t == flushKey c flush e.t).take len

/-- The first record is complete: full with every entry below `full`, or its flush boundary has passed (R345).
No entry below `full` can still come. -/
def groupDone (c : Cad) (len flush : Nat) (full : Int) (x : Entries) : Bool :=
  let g := firstGroup c len flush x.list
  match g.getLast? with
  | none => false
  | some e =>
    let stop := nextInterval c (flushKey c flush e.t) flush false
    (g.length == len && decide (e.t < full)) ||
      decide (((stop * 2 ^ 16 * c.rnum : Nat) : Int) ≤ min x.flush (full * 2 ^ 38))

/-- Quality of a record derived from stamps of the given sources over [lo, hi) (R344, R388). -/
def tdcQ (s : State) (srcs : List Nat) (lo hi : Nat) : Nat :=
  cadQuality s.cad lo hi ||| s.staleQ (srcs.flatMap stampTags) lo hi

/-- Sample of a stamp, and the first after it. -/
def stampSample (t : Int) : Nat := t.toNat / 1024

/-- A record of entries: type, ELEM, subheader and the bytes of one entry (R345, R349). -/
def entryRec (s : State) (h st typ elem q : Nat) (srcs : List Nat) (sub : List Byte) (bytes : Nat → Entry → List Byte)
    (l : List Entry) : Rec :=
  let lo := stampSample (l.headD { t := 0 }).t
  let hi := stampSample (l.getLastD { t := 0 }).t + 1
  { typ := typ, handle := h, stream := st, time := ctOf s.cad lo, elem := elem, quality := q ||| tdcQ s srcs lo hi,
    sample := lo, count := l.length, lo := lo, hi := hi, body := sub ++ l.flatMap (bytes lo) }

/-- Quality bits that interval entries give (R32, R349). -/
def flagQ (flags : Nat) : Nat :=
  qIf (flags.testBit 0) qUnresolved ||| qIf (flags.testBit 1) qOrder ||| qIf (flags.testBit 2) qOrphan

/-- Entries of a STAMPS record as bytes; SKIPPED counts from the source's previous entry (R345). -/
def stampEntries (seen : Table Nat) (lo : Nat) : List Entry → List Byte × Table Nat
  | [] => ([], seen)
  | e :: es =>
    let b := fields [(8, ofInt 64 (e.t - 1024 * lo)), (1, e.src), (1, e.flags), (2, min 0xFFFF (e.disc - tget 0 seen e.src)),
      (4, 0)]
    let (l, out) := stampEntries (tset seen e.src e.disc) lo es
    (b ++ l, out)

/-- Produce a STAMPS record of the given entries (R345). -/
def stampRecord (h st : Nat) (b : Block) (l : List Entry) (s : State) : State :=
  let x : Entries := tget {} s.stampStr (skey h st)
  let (bytes, seen) := stampEntries x.seen (stampSample (l.headD { t := 0 }).t) l
  let r := entryRec s h st rtStamps elStamp 0 (l.map (·.src)) (slice b.data 8 16 ++ leBytes 1 (b.u 3 1) ++ zeros 15) (fun _ _ => []) l
  let s := s.produce { r with body := r.body ++ bytes }
  { s with stampStr := tset s.stampStr (skey h st) { x with seen := seen, list := x.list.drop l.length } }

/-- Close the complete records of a STAMPS stream (R345). -/
def closeStamps (h st : Nat) (b : Block) (full : Int) : Nat → State → State
  | 0, s => s
  | f + 1, s =>
    let x : Entries := tget {} s.stampStr (skey h st)
    if groupDone s.cad (b.u 4 2) (b.u 6 2) full x then
      closeStamps h st b full f (stampRecord h st b (firstGroup s.cad (b.u 4 2) (b.u 6 2) x.list) s)
    else s

/-- Close every entry of a STAMPS stream in records (R345, R352). -/
def drainStamps (h st : Nat) (b : Block) : Nat → State → State
  | 0, s => s
  | f + 1, s =>
    let x : Entries := tget {} s.stampStr (skey h st)
    if x.list.isEmpty then s
    else drainStamps h st b f (stampRecord h st b (firstGroup s.cad (b.u 4 2) (b.u 6 2) x.list) s)

/-- Produce an INTERVALS record of the given entries (R349). -/
def intervalRecord (u : Nat) (b : Block) (l : List Entry) (s : State) : State :=
  let x := s.pu u
  let s := if b.u 12 1 = 0xFF then s else
    s.produce (entryRec s (b.u 2 2) (b.u 12 1) rtIntervals elInterval (l.foldl (fun q e => q ||| flagQ e.flags) 0)
      [b.u 4 1, b.u 6 1]
      (fields [(1, u), (1, b.u 4 1), (1, b.u 5 1), (1, b.u 6 1), (1, b.u 7 1), (3, 0), (4, b.u 8 4), (20, 0)])
      (fun lo e => fields [(8, ofInt 64 e.x), (6, (e.t.fdiv 16 - 64 * lo).toNat), (1, e.flags), (1, 0)]) l)
  s.setPu u { x with ents := { x.ents with list := x.ents.list.drop l.length } }

/-- Bound below which no entry of a unit can still come: its earliest waiting stop (R347, R349). -/
def Pairer.settled (x : Pairer) : Int :=
  match x.waits with
  | [] => 2 ^ 80
  | w :: ws => ws.foldl min w

/-- Close the complete records of a unit's INTERVALS stream (R349). -/
def closeIntervals (u : Nat) (b : Block) : Nat → State → State
  | 0, s => s
  | f + 1, s =>
    let x := s.pu u
    if groupDone s.cad (b.u 14 2) (b.u 20 2) x.settled x.ents then
      closeIntervals u b f (intervalRecord u b (firstGroup s.cad (b.u 14 2) (b.u 20 2) x.ents.list) s)
    else s

/-- Close every entry of a unit in records. -/
def drainIntervals (u : Nat) (b : Block) : Nat → State → State
  | 0, s => s
  | f + 1, s =>
    let x := s.pu u
    if x.ents.list.isEmpty then s
    else drainIntervals u b f (intervalRecord u b (firstGroup s.cad (b.u 14 2) (b.u 20 2) x.ents.list) s)

/-! ### Interval statistics (R351) -/

/-- Square root of p/q correctly rounded to binary64, q positive: the last bit of the integer root tells
whether anything was cut off. -/
def f64Root (p q : Nat) : Nat :=
  if p = 0 then 0
  else
    let k := 64 - (bitLen p - bitLen q) / 2
    let num := p * 2 ^ (2 * k)
    let r := isqrt (num / q)
    f64 (if r * r * q = num then (r : Int) else (r ||| 1 : Nat)) 1 (-(k : Int))

/-- The INTERVAL_STATS record of a block (R351). -/
def statsRecord (s : State) (u : Nat) (b : Block) (k : StatBlock) (unsettled : Bool) : Rec :=
  let lo := stampSample k.first
  let hi := stampSample (max k.first k.last) + 1
  let var := ((k.n : Int) * k.sq - k.sum * k.sum).toNat
  { typ := rtStats, handle := b.u 2 2, stream := b.u 13 1, time := ctOf s.cad lo, sample := lo, lo := lo, hi := hi,
    quality := k.q ||| tdcQ s [b.u 4 1, b.u 6 1] lo hi ||| qIf unsettled qUnsettled,
    body := fields [(1, u), (3, 0), (4, k.n), (8, f64 k.sum k.n 0), (8, f64Root var (k.n * k.n)), (8, ofInt 64 k.lo),
      (8, ofInt 64 k.hi), (4, min k.orph 0xFFFFFFFF), (4, min k.disc 0xFFFFFFFF), (4, k.unres), (12, 0)] }

/-- One completed pair enters the unit's block (R351). -/
def StatBlock.take (k : StatBlock) (e : Entry) : StatBlock :=
  { k with n := k.n + 1, sum := k.sum + e.x, sq := k.sq + e.x * e.x, lo := if k.n = 0 then e.x else min k.lo e.x,
           hi := if k.n = 0 then e.x else max k.hi e.x, first := if k.n = 0 then e.t else k.first,
           last := if k.n = 0 then e.t else max k.last e.t, unres := k.unres + e.flags % 2, q := k.q ||| flagQ e.flags }

/-- Enter a pair into the block of a unit; a full block is produced (R351). -/
def takePair (u : Nat) (b : Block) (e : Entry) (s : State) : State :=
  let x := s.pu u
  let k := x.blk.take e
  if b.u 13 1 = 0xFF then s
  else if k.n < b.u 16 4 then s.setPu u { x with blk := k }
  else (s.produce (statsRecord s u b k false)).setPu u { x with blk := {} }

/-! ### Pairing (R346 to R350) -/

/-- The interval of a pair: value and FLAGS (R348). -/
def pairInterval (start stop : Int) : Int × Nat :=
  let i := stop - start
  if i.natAbs < 16 then (0, 1)
  else
    let x := rhe i 16
    (x, if x < 0 then 2 else 0)

/-- An entry of a unit is due (R347, R349). -/
def addEntry (u : Nat) (b : Block) (e : Entry) (s : State) : State :=
  let x := s.pu u
  if b.u 12 1 = 0xFF then s
  else
    let s := s.setPu u { x with ents := { x.ents with list := insertEntry e x.ents.list } }
    closeIntervals u b ((s.pu u).ents.list.length + 1) s

/-- A pair completes: its entry, its statistics and the TDC_INTERVAL conditions at its stop edge (R208, R348,
R350). -/
def completePair (u : Nat) (b : Block) (start stop : Int) (s : State) : State :=
  let (x, fl) := pairInterval start stop
  let e : Entry := { t := stop, flags := fl, x := x }
  let s := takePair u b e (addEntry u b e s)
  s.pushAll stop.toNat 1024 fun _ c =>
    let inside := decide (getI c 12 8 ≤ x) && decide (x ≤ getI c 20 8)
    if getU c 3 1 = 8 ∧ getU c 4 2 = u ∧ (inside == (getU c 8 1 == 1)) then
      some { pos := 0, lead := x, quality := qIf (fl.testBit 0) qUnresolved ||| qIf (fl.testBit 1) qOrder }
    else none

/-- The earliest waiting stop becomes an ORPHAN entry (R347, R348). -/
def orphan (u : Nat) (b : Block) (s : State) : State :=
  let x := s.pu u
  match x.waits with
  | [] => s
  | w :: ws =>
    addEntry u b { t := w, flags := 4 } (s.setPu u { x with waits := ws, blk := { x.blk with orph := x.blk.orph + 1 } })

/-- Waiting stops whose wait ended before `t` become orphans (R347). -/
def expireWaits (u : Nat) (b : Block) (t : Int) : Nat → State → State
  | 0, s => s
  | f + 1, s =>
    match (s.pu u).waits with
    | w :: _ => if w + 16 * b.u 8 4 < t then expireWaits u b t f (orphan u b s) else s
    | [] => s

/-- A qualifying stop (R347). -/
def takeStop (u : Nat) (b : Block) (t : Int) (s : State) : State :=
  let x := s.pu u
  match x.stack with
  | p :: ps => if p ≤ t then completePair u b p t (s.setPu u { x with stack := ps })
               else s.setPu u { x with waits := x.waits ++ [t] }
  | [] => s.setPu u { x with waits := x.waits ++ [t] }

/-- A qualifying start (R347): `own` is its own stop where one stamp is both (R346). -/
def takeStart (u : Nat) (b : Block) (t : Int) (own : Bool) (s : State) : State :=
  let x := s.pu u
  -- the stop that this stamp itself has just become stands last and is passed over
  let cand := if own then x.waits.dropLast else x.waits
  match cand with
  | w :: _ => completePair u b t w (s.setPu u { x with waits := x.waits.drop 1 })
  | [] =>
    let full := 16 ≤ x.stack.length
    s.setPu u { x with stack := t :: (if full then x.stack.dropLast else x.stack),
                       disc := if full then satAdd 32 x.disc 1 else x.disc,
                       blk := if full then { x.blk with disc := x.blk.disc + 1 } else x.blk }

/-- A stamp qualifies as a start, as a stop (R346). -/
def isStart (b : Block) (q : Stamp) : Bool := q.src == b.u 4 1 && q.falling == (b.u 5 1 == 1)
def isStop (b : Block) (q : Stamp) : Bool := q.src == b.u 6 1 && q.falling == (b.u 7 1 == 1)

/-- Order in which a unit takes stamps: increasing t, a start before a stop of the same t (R347). -/
def takesBefore (b : Block) (p q : Stamp) : Bool :=
  decide (p.t < q.t) || (p.t == q.t && !isStop b p && isStop b q)

/-- PAIR (R346, R347): the next qualifying stamp enters a unit. -/
def pairStamp (u src : Nat) (rising : Bool) (t : Int) (s : State) : State :=
  let b := s.block btPairing [u]
  let x := s.pu u
  match x.queue.find? fun q => q.src == src && q.falling == !rising && q.t == t with
  | none => s
  | some q =>
    if b.u 1 1 != 1 || x.queue.any (fun p => takesBefore b p q) then s
    else
      let s := s.setPu u { x with queue := x.queue.erase q }
      let s := expireWaits u b t (x.waits.length + 1) s
      let both := isStart b q && isStop b q
      let before := (s.pu u).waits.length
      let s := if isStop b q then takeStop u b t s else s
      let waited := decide (before < (s.pu u).waits.length)
      if isStart b q then takeStart u b t (both && waited) s else s

/-- ORDER_WINDOW_EXPIRY (R347): the wait of a unit's earliest waiting stop ends; a start that can still pair
with it has not been stamped. -/
def orderWindowExpiry (u : Nat) (s : State) : State :=
  let b := s.block btPairing [u]
  let x := s.pu u
  match x.waits with
  | [] => s
  | w :: _ =>
    if x.queue.any fun q => decide (q.t ≤ w + 16 * b.u 8 4) then s
    else
      let s := orphan u b s
      closeIntervals u b ((s.pu u).ents.list.length + 1) s

/-! ### Edges (R341 to R343) -/

/-- Edge-sense conditions of the source occur, and TRIG_IN levels change, at the stamp (R208, R209). -/
def pushStamp (q : Stamp) (s : State) : State :=
  s.pushAll q.t.toNat 1024 fun _ b =>
    let y := getU b 3 1
    let mine := (y == 7 && getU b 4 2 == q.src) || (y == 9 && getU b 4 2 + 80 == q.src)
    if !mine then none
    else if getU b 9 1 = 1 then
      let d := getU b 8 1
      if d = 2 ∨ (d = 1) = q.falling then some { pos := 0, src := q.src, stamp := q.t } else none
    else if y = 9 then some { pos := 0, set := some (q.falling == (getU b 8 1 == 1)), src := q.src, stamp := q.t }
    else none

/-- Every STAMPS stream of the configuration. -/
def View.stampStreams (v : View) : List Block := (v.ofType btStampStream).filter fun b => b.u 2 1 != 0xFF

/-- Largest SKEW among a stream's sources, in 1/16 fine unit (R342). -/
def maxSkew (v : View) (sources : Nat) : Int :=
  (bitList sources 93).foldl (fun m n => max m ((v.block btTdcSource [n]).i 4 4)) (-(2 ^ 31))

/-- A stamp reaches its consumers: streams, pairing units, conditions (R342, R345, R346, R352). -/
def useStamp (q : Stamp) (s : State) : State :=
  let v := s.view
  let s := v.stampStreams.foldl (fun s b =>
    let k := skey (b.u 0 2) (b.u 2 1)
    let x : Entries := tget {} s.stampStr k
    let gap := (s.stream k).gap.isSome
    if (b.u 8 16).testBit q.src && (b.u 3 1).testBit (b2n q.falling) && decide (x.since ≤ q.t) && !gap then
      let e : Entry := { t := q.t, src := q.src, flags := b2n q.falling, disc := q.disc }
      { s with stampStr := tset s.stampStr k { x with list := insertEntry e x.list } }
    else s) s
  let s := (v.ofType btPairing).foldl (fun s b =>
    let u := b.u 0 1
    let x := s.pu u
    if b.u 1 1 == 1 && (isStart b q || isStop b q) && decide (x.ents.since ≤ q.t) &&
        (clockLoss s.cad (v.deps (b.u 2 2))).isNone then
      s.setPu u { x with queue := x.queue ++ [q] }
    else s) s
  pushStamp q s

/-- A stamp is withdrawn before any consumer sees it (R343). -/
def withdraw (q : Stamp) (s : State) : State :=
  let drop (l : List Entry) : List Entry := l.filter fun e => !(e.t == q.t && e.src == q.src)
  { s with
    stampStr := tmap s.stampStr fun _ x => { x with list := drop x.list },
    pairer := tmap s.pairer fun _ x => { x with queue := x.queue.filter (· != q) },
    trig := tmap s.trig fun _ x =>
      { x with conds := tmap x.conds fun _ c => { c with waiting := c.waiting.filter fun p => !(p.src == q.src && p.stamp == q.t) } } }

/-- The first free converter in rotation at `ps` (R343). -/
def freeConverter (x : TdcSrc) (ps : Nat) : Option Nat :=
  ((List.range 4).map fun i => (x.rot + i) % 4).find? fun i => decide (x.conv.getD i 0 ≤ ps)

/-- What an edge does to its source (R343): its new state, a stamp that is withdrawn, a stamp that is made. -/
def TdcSrc.edge (x : TdcSrc) (src ps : Nat) (rising : Bool) (t : Int) : TdcSrc × Option Stamp × Option Stamp :=
  let short := match x.prev with | some p => decide (ps < p + 1000) | none => false
  let y := { x with prev := some ps, last := none, high := rising }
  if x.force then ({ y with disc := x.disc + 1, force := false }, none, none)
  else if short then
    match x.last with
    | some q => ({ y with disc := x.disc + 2 }, some q, none)
    | none => ({ y with disc := x.disc + 1, force := true }, none, none)
  else
    match freeConverter x ps with
    | some i =>
      let q : Stamp := ⟨t, src, !rising, ps, x.disc⟩
      ({ y with conv := x.conv.set i (ps + 200000), rot := (i + 1) % 4, last := some q }, none, some q)
    | none => ({ y with disc := x.disc + 1, force := true }, none, none)

/-- The source exists and its signal is there: a comparator's only while it is enabled and powered. -/
def State.srcLive (s : State) (src : Nat) : Bool :=
  decide (src < 93) && s.pow.fallow == 0 && s.pow.domains.testBit 28 &&
    (decide (64 ≤ src) || (s.view.cmpOn src && s.cmpPowered src))

/-- TDC_EDGE (R341 to R343): an edge on a source at physical time `ps`, at `e` in 1/16 fine units after the
source's calibrated delay; SKEW is taken off. -/
def tdcEdge (src : Nat) (rising : Bool) (ps : Nat) (e : Int) (s : State) : State :=
  let s := s.tick (e.toNat / 1024)
  if !s.srcLive src then s
  else
    let t := e - (s.block btTdcSource [src]).i 4 4
    let (x, gone, made) := (tget ({} : TdcSrc) s.tdc src).edge src ps rising t
    let s := { s with tdc := tset s.tdc src x }
    let s := match gone with | some q => withdraw q s | none => s
    let lost := match clockLoss s.cad [4] with | some f => decide (((f * 1024 : Nat) : Int) ≤ t) | none => false
    let s := match made with | some q => if lost then s else useStamp q s | none => s
    -- R342: a stamp is final 1.0 ns, about 16 fs-samples, after its edge
    s.view.stampStreams.foldl (fun s b =>
      let n := (tget ({} : Entries) s.stampStr (skey (b.u 0 2) (b.u 2 1))).list.length
      closeStamps (b.u 0 2) (b.u 2 1) b (e - 16384 - maxSkew s.view (b.u 8 16)) (n + 1) s) s

/-- The STAMP_STREAM block of a stream (R345, R475). -/
def State.stampBlock (s : State) (h st : Nat) : Option Block :=
  s.view.stampStreams.find? fun b => b.u 0 2 == h && b.u 2 1 == st

/-- A flush boundary of FLUSH_SLOTS slots (R349). -/
def flushAt (c : Cad) (flush : Nat) (pos : CT) : Bool :=
  pos.phase == 0 && pos.slot % flush == 0 && decide (pos.slot < c.spt)

/-- STAMP_FLUSH (R345, R349): a FLUSH_SLOTS boundary of a STAMPS stream, or of a unit's INTERVALS stream. -/
def stampFlush (h st : Nat) (unit : Option Nat) (pos : CT) (s : State) : State :=
  match unit with
  | none =>
    match s.stampBlock h st with
    | none => s
    | some b =>
      if !flushAt s.cad (b.u 6 2) pos then s
      else
        let s := s.tick (sampleOf s.cad pos)
        let k := skey h st
        let x : Entries := tget {} s.stampStr k
        let s := { s with stampStr := tset s.stampStr k { x with flush := max x.flush (ctPos s.cad pos) } }
        closeStamps h st b (2 ^ 80) (x.list.length + 1) s
  | some u =>
    let b := s.block btPairing [u]
    if b.u 1 1 != 1 || b.u 2 2 != h || b.u 12 1 != st || !flushAt s.cad (b.u 20 2) pos then s
    else
      let s := s.tick (sampleOf s.cad pos)
      let x := s.pu u
      let s := s.setPu u { x with ents := { x.ents with flush := max x.ents.flush (ctPos s.cad pos) } }
      closeIntervals u b (x.ents.list.length + 1) s

/-! ### Commits (R345, R354) -/

/-- Discards so far of every source. -/
def State.discards (s : State) : Table Nat := s.tdc.map fun e => (e.1, e.2.disc)

/-- A STAMP_STREAM block takes effect: its open record closes, and entries from the commit sample follow. -/
def applyStampStream (old new : Block) (s : State) : State :=
  if old.data == new.data then s
  else
    let h := new.u 0 2
    let st := new.u 2 1
    let k := skey h st
    let n := (tget ({} : Entries) s.stampStr k).list.length
    let s := drainStamps h st old (n + 1) s
    { s with stampStr := tset s.stampStr k { seen := s.discards, since := ((s.cad.now * 1024 : Nat) : Int) } }

/-- A PAIRING block takes effect: any change empties the unit (R351, R354). -/
def applyPairing (old new : Block) (s : State) : State :=
  if old.data == new.data then s
  else
    let u := new.u 0 1
    let s := drainIntervals u old ((s.pu u).ents.list.length + 1) s
    let x := s.pu u
    let s := if old.u 1 1 == 1 && old.u 13 1 != 0xFF && x.blk.n != 0 then s.produce (statsRecord s u old x.blk true) else s
    s.setPu u { disc := x.disc, ents := { since := ((s.cad.now * 1024 : Nat) : Int) } }

/-- The owning exhibit of a stamp, pairing or crossing block is one of this device (R354). -/
def chkTdcOwner (v : View) (h : Nat) : Option Nat :=
  match v.find h with | some e => if e.kind = 3 then some eKind else none | none => some eKind

/-! ### Lacunae (R352) -/

/-- A gap of a TDC stream opens at fs-sample `lo`; a period or block in progress starts it earlier. -/
def openTdcGap (h st cause unit lo : Nat) (s : State) : State :=
  let k := skey h st
  match (s.stream k).gap with
  | some _ => s
  | none =>
    let stop : Int := ((lo * 1024 : Nat) : Int)
    let cutList (l : List Entry) : List Entry := l.filter fun e => decide (e.t < stop)
    -- records in progress close with their last entry before the gap
    let s := s.view.stampStreams.foldl (fun s b =>
      if b.u 0 2 == h && b.u 2 1 == st then
        let x : Entries := tget {} s.stampStr k
        drainStamps h st b (x.list.length + 1)
          { s with stampStr := tset s.stampStr k { x with list := cutList x.list } }
      else s) s
    let (s, lo') := (s.view.ofType btPairing).foldl (fun (a : State × Nat) b =>
      let u := b.u 0 1
      let x := a.1.pu u
      if b.u 1 1 != 1 || b.u 2 2 != h then a
      else if b.u 12 1 == st then
        (drainIntervals u b (x.ents.list.length + 1)
          (a.1.setPu u { x with ents := { x.ents with list := cutList x.ents.list } }), a.2)
      else if b.u 13 1 == st then
        (a.1.setPu u { x with blk := {} }, if x.blk.n = 0 then a.2 else min a.2 (stampSample x.blk.first))
      else a) (s, lo)
    let (s, lo') := (s.view.ofType btCrossings).foldl (fun (a : State × Nat) b =>
      if b.u 0 2 == h && b.u 2 1 == st then
        let x : CrossStream := tget {} a.1.cross k
        ({ a.1 with cross := tset a.1.cross k { x with lost := true, resumed := false } }, min a.2 x.start)
      else a) (s, lo')
    let aheads := (s.fed h st).flatMap fun n => (s.sto n).ahead
    let first := ((s.produced ++ aheads).filter fun r => r.key == k && lostAt lo r).foldl (fun m r => min m r.lo) lo'
    let s := s.openGap h st cause unit lo
    let x := s.stream k
    s.setStream k { x with gap := x.gap.map fun g => { g with start := first } }

/-- A TDC stream resumes at fs-sample `S` (R352): a CROSSINGS period that the lacuna touched is lost to its
end. -/
def resumeTdcStream (S h st : Nat) (s : State) : State :=
  let k := skey h st
  let isCross := (s.view.ofType btCrossings).any fun b => b.u 0 2 == h && b.u 2 1 == st
  if isCross then { s with cross := tmod {} s.cross k fun x => { x with resumed := x.lost } }
  else
    let s := s.closeGap h st S
    { s with stampStr := s.stampStr.map fun e => if e.1 = k then (e.1, { e.2 with since := ((S * 1024 : Nat) : Int) }) else e }

/-- Pairing units of resumed exhibits are empty, and statistics start again (R352). -/
def resumeUnits (S : Nat) (hs : List Nat) (s : State) : State :=
  (s.view.ofType btPairing).foldl (fun s b =>
    if hs.contains (b.u 2 2) then
      let x := s.pu (b.u 0 1)
      s.setPu (b.u 0 1) { x with stack := [], waits := [], queue := [], blk := {},
                                 ents := { x.ents with since := ((S * 1024 : Nat) : Int) } }
    else s) s

end Sys2Proof.Machine
end

