-- ==== Sys2Proof/Machine/Conservator.lean ====
section
/-! DEFINITION. Conservator cores (11): register banks with delayed visibility, addressing, arithmetic, loops,
branches, interrupts, ports, records, credit, faults and page swaps. -/
namespace Sys2Proof.Machine

/-- A core slot. -/
def State.cc (s : State) (c : Nat) : Core := tget {} s.core c

/-- Replace a core slot. -/
def State.setCore (s : State) (c : Nat) (x : Core) : State := { s with core := tset s.core c x }

/-- What an unwritten word of X, Y and the page reads as (R320). -/
def word36 : Nat → DWord := fun _ => 0

/-! ### Words and halves (R296) -/

/-- High (false) or low (true) half as a signed number. -/
def halfOf (w : DWord) (low : Bool) : Int := toInt 18 (if low then w.toNat else w.toNat / 2 ^ 18)

/-- A word with one half replaced. -/
def withHalf (w : DWord) (low : Bool) (v : Int) : DWord :=
  if low then BitVec.ofNat 36 (w.toNat / 2 ^ 18 * 2 ^ 18 + ofInt 18 v)
  else BitVec.ofNat 36 (ofInt 18 v * 2 ^ 18 + w.toNat % 2 ^ 18)

/-- A word from a signed number, modulo 2^36. -/
def dword (z : Int) : DWord := BitVec.ofInt 36 z

/-- Saturation of an accumulator (R297). -/
def satAcc (z : Int) : Int := max (-(2 ^ 43 - 1)) (min (2 ^ 43 - 1) z)

/-! ### The bank that issues (R300) -/

/-- The bank that issues instructions. -/
def Core.cur (x : Core) : Bank := if x.bank then x.sh else x.fg

/-- Change the bank that issues. -/
def Core.onBank (x : Core) (f : Bank → Bank) : Core := if x.bank then { x with sh := f x.sh } else { x with fg := f x.fg }

/-- A write that becomes visible `n` instructions after this one (R300). -/
def Bank.delay (b : Bank) (n : Nat) (t : Tgt) : Bank := { b with late := b.late ++ [⟨b.issued + n, t⟩] }

/-- A data register. -/
def Bank.dv (b : Bank) (i : Nat) : DWord := b.d.getD i 0

/-- A register of a bank takes a written value (R292, R293); IE and INTC belong to the core. -/
def Bank.setReg (b : Bank) (num : Nat) (v : DWord) : Bank :=
  let lo14 : BitVec 14 := BitVec.ofNat 14 v.toNat
  if 16 ≤ num ∧ num < 24 then { b with pt := b.pt.set (num - 16) lo14 }
  else if 24 ≤ num ∧ num < 32 then { b with md := b.md.set (num - 24) (BitVec.ofNat 16 v.toNat) }
  else if 32 ≤ num ∧ num < 40 then { b with ln := b.ln.set (num - 32) lo14 }
  else if 40 ≤ num ∧ num < 48 then { b with bs := b.bs.set (num - 40) lo14 }
  else if num = 48 then { b with am := BitVec.ofNat 16 v.toNat }
  else if num = 49 then
    { b with z := v.getLsbD 0, n := v.getLsbD 1, aov := v.getLsbD 2, sov := v.getLsbD 3,
             sawAov := b.sawAov || v.getLsbD 2, sawSov := b.sawSov || v.getLsbD 3 }
  else b

/-- A delayed write lands in its bank. -/
def Tgt.land (t : Tgt) (b : Bank) : Bank :=
  match t with
  | .d i v => { b with d := b.d.set i v }
  | .half i low v => { b with d := b.d.set i (withHalf (b.dv i) low v) }
  | .src i v => { b with src := b.src.set i v }
  | .reg num v => b.setReg num v
  | .ptr i v => { b with pt := b.pt.set i v }
  | .zn z n => { b with z := z, n := n }
  | .aov => { b with aov := true, sawAov := true }
  | .sov => { b with sov := true, sawSov := true }

/-- A delayed write lands in what the core's banks share. -/
def Tgt.landCore (t : Tgt) (x : Core) : Core :=
  match t with
  | .reg 49 v => { x with ie := v.getLsbD 4 }
  | .reg 50 v => { x with intc := BitVec.ofNat 10 v.toNat }
  | _ => x

/-- Every write that the next instruction of the issuing bank sees lands (R300). -/
def Core.land (x : Core) : Core :=
  let due := x.cur.late.filter fun l => decide (l.due ≤ x.cur.issued)
  let x := due.foldl (fun x l => (l.tgt.landCore x).onBank l.tgt.land) x
  x.onBank fun b => { b with late := b.late.filter fun l => !decide (l.due ≤ b.issued) }

/-! ### Interrupt sources (R304) -/

/-- INT_LEVEL of a port in the core's block (R326). -/
def Core.intLevel (x : Core) (p : Nat) : Nat := getU x.blk (35 + 16 * p) 1
/-- Words in a stimulus port. -/
def Core.stimPort (x : Core) (k : Nat) : List StimWord := x.stim.getD k []

/-- Interrupt sources that are true and enabled: ISRC (R292, R304). -/
def Core.isrc (x : Core) : Nat :=
  maskOf ((List.range 10).filter fun p =>
    x.intc.getLsbD p &&
      if p < 8 then x.intLevel p != 0 && decide (x.intLevel p ≤ (x.port p).elems.length)
      else getU x.blk 24 1 != 0 &&
        decide (((x.stimPort (p - 8)).filter fun w => decide (w.clock ≤ x.origin + x.cyc)).length ≤ getU x.blk 24 1))

/-- The core would take an interrupt in this fabric clock (R305). -/
def Core.wants (x : Core) : Bool := x.ie && !x.bank && x.isrc != 0

/-! ### Issue -/

/-- The instruction word at PC. -/
def Core.word (x : Core) : Nat := (cget haltWord x.prog x.cur.pc).toNat

/-- `n` fabric clocks pass: CYC and record credit (R292, R315). -/
def Core.clocks (x : Core) (n : Nat) : Core :=
  { x with cyc := (x.cyc + n) % 2 ^ 64, credit := min (16384 * 256) (x.credit + n * getU x.blk 12 2) }

/-- PC after the instruction at PC, ends of loops included (R302). -/
def loopNext : List Loop → Nat → List Loop × Nat
  | [], pc => ([], (pc + 1) % 2 ^ 14)
  | l :: ls, pc =>
    if pc = l.stop then
      if 1 < l.left then ({ l with left := l.left - 1 } :: ls, l.start) else loopNext ls pc
    else (l :: ls, (pc + 1) % 2 ^ 14)

/-- The instruction at PC is complete: the next PC under loops and delayed branches (R301, R302). -/
def Bank.next (b : Bank) : Bank :=
  let (loops, pc) := loopNext b.loops b.pc
  let k := b.issued + 1
  let pc := match b.branch.find? fun r => r.due == k with | some r => r.dest | none => pc
  { b with loops := loops, pc := pc, issued := k, branch := b.branch.filter fun r => decide (k < r.due), stall := 0 }

/-- One instruction issued in one fabric clock: the writes that it sees have landed, `eff` acted, the core
moves on; an interrupt wanted in this clock enters in the next (R292, R305). -/
def Core.issue (x : Core) (eff : Core → Core) : Core :=
  let x := x.land
  let irq := x.wants
  let bank := x.bank
  let y := eff x
  let y := if bank then { y with sh := y.sh.next } else { y with fg := y.fg.next, resumed := false }
  { y.clocks 1 with irq := irq }

/-! ### Where a port's elements come from (R307, R308) -/

/-- First index that a port delivers: what it has delivered says it, else it follows from fs-sample `since` (R312, R324). -/
def portFirst (s : State) (c : Nat) (x : Core) (p : Nat) : Nat :=
  let n0 := rateCeil (portRate s.view c x p) x.since
  match (x.port p).first with
  | some n => n
  | none =>
    if x.kind p ≤ 3 then roundUp n0 (getU x.blk (36 + 16 * p) 2)
    else match (x.port p).coming with
      | e :: _ => e.n
      | [] =>
        let cfg := (s.pp (portHandle s.view c x p)).cfg
        frameStart cfg (roundUp (frameFrom cfg n0) (getU x.blk (44 + 16 * p) 2))

/-- The element of source index `n` that a KIND 1 to 3 port takes: the DDC, fine or coarse output before OUT_FORMAT,
uncorrected, with its quality (R116, R307, R308). -/
def tapElement (s : State) (c : Nat) (x : Core) (p n first : Nat) (codes : List Conv) : Elem :=
  let v := s.view
  let h := portHandle v c x p
  let path := x.kind p - 1
  let ch : Chain := tget {} s.chain h
  let now : ChainCfg := ⟨0, (v.block btDdc [h]).data, (v.block btDecimation [h]).data, [], []⟩
  let cfg := ch.cfgs.foldl (fun a k => if ceilDiv k.start (iqRatio k path) ≤ n then k else a) (ch.cfgs.headD now)
  let e := portRate v c x p
  let lo := fsCeil e n
  let y := ((pathOut ch cfg path first (s.samples h false first codes) n 1).1.headD {})
  let z := y.narrow (if path = 0 then 0 else getU x.blk (34 + 16 * p) 1) 18
  { n := n, v := halves z.re z.im,
    quality := z.q ||| exQuality s h lo (lo + 1) ||| qIf (path = 2) qCoarse ||| qIf (iqUnsettled ch cfg path n) qUnsettled }

/-- The next element of a port, if the one of index `n` is next (R307). -/
def nextElement (s : State) (c : Nat) (x : Core) (p n first : Nat) (codes : List Conv) : Option Elem :=
  let q := x.port p
  if x.kind p ≤ 3 then
    let next := match q.arrived with | none => portFirst s c x p | some m => m + getU x.blk (36 + 16 * p) 2
    if n = next then some (tapElement s c x p n first codes) else none
  else match q.coming with
    | e :: _ => if e.n = n then some e else none
    | [] => none

/-! ### Records (R310 to R314) -/

/-- Bytes of one element of a Conservator record. -/
def consElem (e : Nat) : Option Nat := match e with | 2 => some 4 | 4 => some 4 | 5 => some 8 | 7 => some 4 | 8 => some 4 | _ => none

/-- LENGTH of a record of W body words (R311). -/
def consLength (w : Nat) : Nat := roundUp (96 + 4 * w) 32

/-- The CONSERVATOR record of a bank (R311 to R314); `first` stands for a SAMPLE that nothing fixed. -/
def consRecord (s : State) (c : Nat) (x : Core) (b : Bank) (o : OpenRec) (shadow trunc : Bool) (first : Nat) : Rec :=
  let e := portRate s.view c x o.ref
  let n := o.time.getD (o.sample.getD first)
  let lo := fsCeil e n
  let hi := max (lo + 1) b.upTo
  let w := o.words.length
  { typ := rtConservator, handle := getU x.blk 0 2, stream := o.stream, time := ctRate s.cad e n, rate := e, elem := o.elem,
    sample := n, count := 4 * w / (consElem o.elem).getD 4, lo := lo, hi := hi,
    quality := b.quality ||| qIf (b.aov || b.sawAov) qAccOvf ||| qIf (b.sov || b.sawSov) qStoreSat |||
      qIf (x.rough && decide ((x.port 0).read < getU x.blk 16 4)) qUnsettled ||| cadQuality s.cad lo hi,
    body := fields [(1, b2n trunc + 2 * b2n shadow), (1, o.ref), (2, 0), (4, w), (24, 0)] ++
      o.words.reverse.flatMap fun v => leBytes 4 v.toNat }

/-- What begins a bank's next span after a CLOSE (R313). -/
def Bank.closed (b : Bank) : Bank := { b with opened := none, quality := 0, sawAov := false, sawSov := false }

/-- Produce the open record of one bank (R311, R318); a SAMPLE of a port that is off is a free value. -/
def closeBank (c : Nat) (shadow trunc : Bool) (s : State) : State :=
  let x := s.cc c
  let b := if shadow then x.sh else x.fg
  match b.opened with
  | none => s
  | some o =>
    let open0 := o.time.isNone && o.sample.isNone
    let (first, s) := if open0 && x.kind o.ref == 0 then s.freeNat else (portFirst s c x o.ref, s)
    let s := s.produce (consRecord s c x b o shadow trunc first)
    let x := { x with records := satAdd 64 x.records 1 }
    s.setCore c (if shadow then { x with sh := b.closed } else { x with fg := b.closed })

/-- The core stops: open records of both banks are closed, cut short (R318). -/
def stopCore (c st : Nat) (s : State) : State :=
  let s := closeBank c true true (closeBank c false true s)
  s.setCore c { s.cc c with st := st, irq := false }

/-- The core enters fault (R318). -/
def coreFault (c code port : Nat) (s : State) : State :=
  let x := s.cc c
  let s := stopCore c 2 (s.setCore c { x with fault := code, fbank := x.bank, fpc := x.cur.pc, fport := port })
  s.postEx (getU x.blk 0 2) evConservatorFault [(1, c % 4), (1, code), (1, b2n x.bank), (1, port), (2, x.cur.pc)]

/-! ### Page swaps (R322, R323) -/

/-- The earliest pending swap falls in this fabric clock; a stopped core, whose port 0 delivers nothing, waits for none
(DESIGN CHOICE, log 123). -/
def swapDue (s : State) (c : Nat) (x : Core) : Bool :=
  match x.swaps with
  | [] => false
  | w :: _ =>
    x.st != 1 || x.kind 0 == 0 ||
      match (x.port 0).arrived with
      | none => false
      | some n => let (a, d) := ratePos (portRate s.view c x 0) n
                  decide (w.at0 * d ≤ a)

/-- PAGE_SWAP (R322, R323): the shadow page becomes active, or the core halts. -/
def pageSwap (c : Nat) (s : State) : State :=
  let x := s.cc c
  match x.swaps with
  | [] => s
  | w :: ws =>
    if !swapDue s c x then s
    else
      let s := s.setCore c { x with swaps := ws, page := w.page, pseq := (x.pseq + 1) % 2 ^ 32 }
      if w.halt then
        let s := stopCore c 0 s
        let b := (s.view.ofType btConservator).find? fun b => b.u 2 1 == c % 4 && s.view.position (b.u 0 2) == some (c / 4)
        s.setCore c { s.cc c with blk := match b with | some b => b.data | none => [] }
      else s

/-! ### The rows of an instruction -/

/-- An instruction row acts only when the running core stands at exactly that word, unstalled, with no interrupt
or page swap to come first. -/
def consReady (c : Nat) (i : Instr) (s : State) : Bool :=
  let x := s.cc c
  x.st == 1 && x.cur.stall == 0 && !x.irq && !swapDue s c x && consEncode i == some x.word

/-- An instruction that only changes the core. -/
def consExec (c : Nat) (i : Instr) (eff : Core → Core) (s : State) : State :=
  if consReady c i s then s.setCore c ((s.cc c).issue eff) else s

/-- An instruction that changes only its bank. -/
def consBank (c : Nat) (i : Instr) (eff : Bank → Bank) (s : State) : State := consExec c i (fun x => x.onBank eff) s

/-- An instruction that may put the core into fault: `bad` answers the code on the core as the instruction sees
it. -/
def consFaulting (c : Nat) (i : Instr) (bad : Core → Option Nat) (eff : Core → Core) (s : State) : State :=
  if !consReady c i s then s
  else match bad (s.cc c).land with
    | some code => coreFault c code 0 (s.setCore c (s.cc c).land)
    | none => s.setCore c ((s.cc c).issue eff)

/-! ### Addressing (R294) -/

/-- The low `b` bits reversed. -/
def revBits (b n : Nat) : Nat := (List.range b).foldl (fun r i => if n.testBit i then r + 2 ^ (b - 1 - i) else r) 0

/-- A pointer after a step (R294). -/
def stepPtr (b : Bank) (p : Nat) (step : Int) : BitVec 14 :=
  let pt := ((b.pt.getD p 0).toNat : Int)
  let bs := ((b.bs.getD p 0).toNat : Int)
  let ln0 := (b.ln.getD p 0).toNat
  let ln := if ln0 = 0 then 16384 else ln0
  match bitsOf b.am.toNat (2 * p) 2 with
  | 1 => BitVec.ofInt 14 (bs + (pt - bs + step) % (ln : Int))
  | 2 =>
    let k := ln.log2
    let o := ((pt - bs) % (2 ^ k : Nat)).toNat
    let st := (step % (2 ^ k : Nat)).toNat
    BitVec.ofInt 14 (bs + revBits k ((revBits k o + revBits k st) % 2 ^ k))
  | _ => BitVec.ofInt 14 (pt + step)

/-- Amount of a step code; none for no step (R319). -/
def stepOf (b : Bank) (p code : Nat) : Option Int :=
  match code with
  | 0 => none
  | 1 => some 1
  | 2 => some (-1)
  | _ => some ((b.md.getD p 0).toInt)

/-- Post-modify of a pointer, visible to the next instruction (R294, R300). -/
def Bank.bump (b : Bank) (p : Nat) (step : Option Int) : Bank :=
  match step with | none => b | some k => b.delay 1 (.ptr p (stepPtr b p k))

/-- Address that a pointer holds. -/
def Bank.addr (b : Bank) (p : Nat) : Nat := (b.pt.getD p 0).toNat

/-- A word of X (false) or Y (true) memory. -/
def Core.mem (x : Core) (y : Bool) (a : Nat) : DWord := cget word36 (if y then x.y else x.x) a

/-- Store a word of X or Y memory. -/
def Core.setMem (x : Core) (y : Bool) (a : Nat) (v : DWord) : Core :=
  if y then { x with y := cset word36 x.y a v } else { x with x := cset word36 x.x a v }

/-! ### Accumulators (R296 to R300) -/

/-- An accumulator takes an exact result, saturated once; sources see it three instructions on (R297, R300). -/
def Bank.accWrite (b : Bank) (i : Nat) (z : Int) : Bank :=
  let v := satAcc z
  let b := { b with acc := b.acc.set i v }.delay 3 (.src i v)
  if v = z then b else b.delay 3 .aov

/-- Z and N of a result (R298). -/
def Bank.flags (b : Bank) (z : Int) : Bank := b.delay 3 (.zn (z == 0) (decide (z < 0)))

/-- Accumulator as an accumulating instruction continues it, and as a source. -/
def Bank.accv (b : Bank) (i : Nat) : Int := b.acc.getD i 0
def Bank.srcv (b : Bank) (i : Nat) : Int := b.src.getD i 0

/-- What an accumulator becomes: the product alone, added or subtracted. -/
def combine (op : Nat) (old p : Int) : Int := match op with | 0 => p | 1 => old + p | _ => old - p

/-- X and Y operand words of a format M instruction, the second word of a Y pair, and the pointer updates (R296,
R319). -/
def mulOperands (m : FmtM) (x : Core) (quad : Bool) : DWord × DWord × DWord :=
  let b := x.cur
  let xw := if m.xsrc then b.dv m.xd else x.mem false (b.addr m.xp)
  let a := b.addr (4 + m.yp)
  if quad then
    let e := if m.ysrc then m.yd / 2 * 2 else a / 2 * 2
    if m.ysrc then (xw, b.dv e, b.dv (e + 1)) else (xw, x.mem true e, x.mem true (e + 1))
  else (xw, if m.ysrc then b.dv m.yd else x.mem true a, 0)

/-- Pointer updates of a format M instruction (R294, R319). -/
def mulBump (m : FmtM) (b : Bank) : Bank :=
  let b := if m.xsrc then b else b.bump m.xp (if m.xs then some (b.md.getD m.xp 0).toInt else some 1)
  if m.ysrc then b else b.bump (4 + m.yp) (if m.ys then some (b.md.getD (4 + m.yp) 0).toInt else some 1)

/-- Real multiply (R296): `op` 0 write, 1 add, 2 subtract. -/
def mulReal (op : Nat) (m : FmtM) (x : Core) : Core :=
  let (xw, yw, _) := mulOperands m x false
  x.onBank fun b => mulBump m (b.accWrite m.a (combine op (b.accv m.a) (halfOf xw m.xh * halfOf yw m.yh)))

/-- Complex multiply (R296). -/
def mulComplex (op : Nat) (m : FmtM) (x : Core) : Core :=
  let (xw, yw, _) := mulOperands m x false
  let xr := halfOf xw false
  let xi := halfOf xw true
  let yr := halfOf yw false
  let yi := if m.conj then -halfOf yw true else halfOf yw true
  x.onBank fun b =>
    let re := combine op (b.accv m.a) (xr * yr - xi * yi)
    let im := combine op (b.accv (m.a + 1)) (xr * yi + xi * yr)
    mulBump m ((b.accWrite m.a re).accWrite (m.a + 1) im)

/-- Q multiply (R296). -/
def mulQuad (op : Nat) (m : FmtM) (x : Core) : Core :=
  let (xw, y0, y1) := mulOperands m x true
  let v := halfOf xw m.xh
  let ys := [halfOf y0 false, halfOf y0 true, halfOf y1 false, halfOf y1 true]
  x.onBank fun b => mulBump m (ys.zipIdx.foldl (fun b p => b.accWrite p.2 (combine op (b.accv p.2) (v * p.1))) b)

/-- Rounded and clamped store of an accumulator to `w` bits (R299). -/
def storeAcc (b : Bank) (a sh w : Nat) : Int × Bank :=
  let z := rhe (b.srcv a) (2 ^ sh)
  (sat w z, if satHit w z then b.delay 3 .sov else b)

/-- STA (R299). -/
def staEff (f : StaF) (x : Core) : Core :=
  let w := if f.width then 36 else 18
  let b := x.cur
  let (v, b1) := storeAcc b f.a f.s w
  if f.dst then
    x.onBank fun _ => b1.delay 3 (if f.width then .d f.p (dword v) else .half f.p f.half v)
  else
    let a := b.addr f.p
    let old := x.mem f.mem a
    let x := x.onBank fun _ => b1.bump f.p (stepOf b f.p f.step)
    x.setMem f.mem a (if f.width then dword v else withHalf old f.half v)

/-- CSTA (R299). -/
def cstaEff (f : StaF) (x : Core) : Core :=
  let b := x.cur
  let (re, b1) := storeAcc b f.a f.s 18
  let (im, b2) := storeAcc b1 (f.a + 1) f.s 18
  let v := withHalf (withHalf 0 false re) true im
  if f.dst then x.onBank fun _ => b2.delay 3 (.d f.p v)
  else (x.onBank fun _ => b2.bump f.p (stepOf b f.p f.step)).setMem f.mem (b.addr f.p) v

/-! ### Registers by number (R293) -/

/-- A register that exists (R293). -/
def regExists (n : Nat) : Bool := decide (n < 12 ∨ (16 ≤ n ∧ n ≤ 53))

/-- The value of a register that is no accumulator (R293); MD reads with its sign. -/
def Core.regVal (x : Core) (n : Nat) : DWord :=
  let b := x.cur
  let u14 (l : List (BitVec 14)) (i : Nat) : DWord := BitVec.ofNat 36 (l.getD i 0).toNat
  if n < 8 then b.dv n
  else if n < 24 then u14 b.pt (n - 16)
  else if n < 32 then dword (b.md.getD (n - 24) 0).toInt
  else if n < 40 then u14 b.ln (n - 32)
  else if n < 48 then u14 b.bs (n - 40)
  else match n with
    | 48 => BitVec.ofNat 36 b.am.toNat
    | 49 => BitVec.ofNat 36 (b2n b.z + 2 * b2n b.n + 4 * b2n b.aov + 8 * b2n b.sov + 16 * b2n x.ie + 256 * b2n x.bank)
    | 50 => BitVec.ofNat 36 x.intc.toNat
    | 51 => BitVec.ofNat 36 x.isrc
    | 52 => BitVec.ofNat 36 x.cyc
    | _ => BitVec.ofNat 36 x.pseq

/-- A value written to a register by number; D registers see it after `n` instructions (R293, R300). -/
def Bank.writeReg (b : Bank) (num : Nat) (v : DWord) (n : Nat) : Bank :=
  if num < 8 then b.delay n (.d num v)
  else if num < 12 then b.accWrite (num - 8) v.toInt
  else if 16 ≤ num ∧ num ≤ 50 then b.delay 2 (.reg num v)
  else b

/-- MOV (R293, R299, R300); `other` is the value of a register that does not exist. -/
def movEff (dst src : Nat) (other : DWord) (x : Core) : Core :=
  if 8 ≤ src ∧ src < 12 then
    let (v, b) := storeAcc x.cur (src - 8) 0 36
    x.onBank fun _ => b.writeReg dst (dword v) 3
  else
    let v := if regExists src then x.regVal src else other
    x.onBank fun b => b.writeReg dst v 1

/-- MOV of core slot `c`: a source that R293 does not list gives a free value (DESIGN CHOICE, log 7). -/
def movRow (c dst src : Nat) (s : State) : State :=
  if regExists src then consExec c (.mov c dst src) (movEff dst src 0) s
  else if consReady c (.mov c dst src) s then
    let (f, s) := s.freeNat
    consExec c (.mov c dst src) (movEff dst src (BitVec.ofNat 36 f)) s
  else s

/-! ### Control (R301, R302) -/

/-- Condition of a branch on the visible flags (R319). -/
def Bank.cond (b : Bank) (k : Nat) : Bool :=
  match k with
  | 0 => true
  | 1 => b.z
  | 2 => !b.z
  | 3 => b.n
  | 4 => !b.n
  | 5 => !b.z && !b.n
  | 6 => b.z || b.n
  | _ => b.aov

/-- A transfer after two delay slots (R301). -/
def Bank.jump (b : Bank) (a : Nat) : Bank := { b with branch := b.branch ++ [⟨b.issued + 3, a⟩] }

/-- The program in the way of R302: a body of `len` + 1 words after this one, `count` passes. -/
def Bank.pushLoop (b : Bank) (len count : Nat) : Bank :=
  { b with loops := ⟨b.pc + 1, b.pc + 1 + len, count⟩ :: b.loops }

/-- CALL (R301): a fifth nested call is a fault (R318). -/
def callRow (c cd a : Nat) (s : State) : State :=
  consFaulting c (.call c cd a) (fun x => if x.cur.cond cd && decide (4 ≤ x.cur.calls.length) then some 2 else none)
    (fun x => x.onBank fun b =>
      if b.cond cd then ({ b with calls := (b.pc + 3) % 2 ^ 14 :: b.calls } : Bank).jump a else b) s

/-- RET (R301): an empty call stack is a fault (R318). -/
def retRow (c cd : Nat) (s : State) : State :=
  consFaulting c (.ret c cd) (fun x => if x.cur.cond cd && x.cur.calls.isEmpty then some 2 else none)
    (fun x => x.onBank fun b =>
      match b.calls with
      | a :: as => if b.cond cd then ({ b with calls := as } : Bank).jump a else b
      | [] => b) s

/-- LOOP (R302): a fifth nested loop is a fault (R318). -/
def loopRow (c len count : Nat) (s : State) : State :=
  consFaulting c (.loop c len count) (fun x => if 4 ≤ x.cur.loops.length then some 3 else none)
    (fun x => x.onBank fun b => b.pushLoop len (if count = 0 then 65536 else count)) s

/-- LOOPD (R302): a count of 0 skips the body, whose last word then counts as done. -/
def loopdRow (c len d : Nat) (s : State) : State :=
  let count (b : Bank) : Nat := (b.dv d).toNat % 2 ^ 20
  consFaulting c (.loopd c len d)
    (fun x => if count x.cur != 0 && decide (4 ≤ x.cur.loops.length) then some 3 else none)
    (fun x => x.onBank fun b =>
      if count b = 0 then { b with pc := b.pc + 1 + len } else b.pushLoop len (count b)) s

/-- RETI (R306): the foreground resumes; in the foreground bank it is a fault (R318). -/
def retiRow (c : Nat) (s : State) : State :=
  consFaulting c (.reti c) (fun x => if x.bank then none else some 4) (fun x => { x with bank := false, resumed := true }) s

/-- HALT (R318): the core stops without a fault. -/
def haltRow (c : Nat) (s : State) : State :=
  if consReady c (.halt c) s then stopCore c 0 (s.setCore c ((s.cc c).issue id)) else s

/-- INTERRUPT_ENTRY (R305, R306): an interrupt wanted in the clock before, or while the foreground stalls, but not before a
foreground instruction has issued since the last RETI. -/
def interruptEntry (c clocks : Nat) (s : State) : State :=
  let x := s.cc c
  let stalled := x.fg.stall != 0 && !x.bank && !x.resumed
  if x.st == 1 && !swapDue s c x && ((x.irq && clocks == 0) || (stalled && x.wants)) then
    let x := x.clocks (if stalled then clocks else 0)
    s.setCore c { x with bank := true, irq := false, sh := { x.sh with pc := getU x.blk 6 2 },
                         stalled := if x.fg.stall = 3 then satAdd 64 x.stalled clocks else x.stalled }
  else s

/-! ### Input ports (R307 to R309) -/

/-- ELEMENT_ARRIVAL (R307 to R309): the port's next element becomes readable, at the clock where the row stands (DESIGN CHOICE, log 130). -/
def elementArrival (c p n first : Nat) (codes : List Conv) (s : State) : State :=
  let x := s.cc c
  if x.st != 1 || decide (8 ≤ p) || x.kind p == 0 then s
  else match nextElement s c x p n first codes with
    | none => s
    | some e =>
      let y := x.port p
      if 256 ≤ y.elems.length then coreFault c 1 p s
      else
        let y := { y with arrived := some n, first := some (y.first.getD n), coming := y.coming.drop 1, elems := y.elems ++ [e] }
        s.setCore c { x with ports := x.ports.set p y }

/-- An element is read into D(d) (R300, R309, R313); `rate` places its end in fs-samples. -/
def readPort (rate : Int) (d p : Nat) (x : Core) : Core :=
  let y := x.port p
  match y.elems with
  | [] => x
  | e :: es =>
    { x with ports := x.ports.set p { y with elems := es, last := some e.n, read := y.read + 1 } }.onBank fun b =>
      { b.delay 2 (.d d e.v) with quality := b.quality ||| e.quality, upTo := max b.upTo (fsCeil rate e.n + 1) }

/-- IN (R292, R307): an empty port stalls the bank. -/
def inRow (c d p : Nat) (s : State) : State :=
  let x := s.cc c
  if !consReady c (.inp c d p) s then s
  else if (x.port p).elems.isEmpty then s.setCore c (x.onBank fun b => { b with stall := 1 })
  else s.setCore c (x.issue (readPort (portRate s.view c x p) d p))

/-- IN_STALL_END (R292): a stalled IN completes. -/
def inStallEnd (c clocks : Nat) (s : State) : State :=
  let x := s.cc c
  let d := bitsOf x.word 23 3
  let p := bitsOf x.word 20 3
  if x.st == 1 && x.cur.stall == 1 && !swapDue s c x && !(x.port p).elems.isEmpty then
    s.setCore c ((x.clocks clocks).issue (readPort (portRate s.view c x p) d p))
  else s

/-- IDX (R309). -/
def idxRow (c d p : Nat) (s : State) : State :=
  consExec c (.idx c d p) (fun x => x.onBank fun b => b.delay 1 (.d d (BitVec.ofNat 36 ((x.port p).last.getD 0)))) s

/-! ### The record port (R310 to R315) -/

/-- OUT to REC_CTL whose word opens a record (R310 to R312); ELEM must be one of R310's. -/
def recOpenRow (c d : Nat) (s : State) : State :=
  let i : Instr := .recOpen c d
  let w (x : Core) : Nat := (x.cur.dv d).toNat
  let x := (s.cc c).land
  let str := getU x.blk (8 + bitsOf (w x) 32 2) 1
  if bitsOf (w x) 34 2 = 2 then s
  else
    consFaulting c i
      (fun x => if bitsOf (w x) 34 2 != 1 || x.cur.opened.isSome || str == 0xFF || (consElem (bitsOf (w x) 28 4)).isNone
                then some 5 else none)
      (fun x =>
        let p := bitsOf (w x) 25 3
        x.onBank fun b => { b with opened := some { stream := str, elem := bitsOf (w x) 28 4, ref := p, sample := (x.port p).last } }) s

/-- OUT to REC_DATA (R310, R311). -/
def recDataRow (c d : Nat) (s : State) : State :=
  consFaulting c (.recData c d)
    (fun x => match x.cur.opened with | none => some 5 | some o => if 16288 < 4 * (o.words.length + 1) then some 5 else none)
    (fun x => x.onBank fun b =>
      { b with opened := b.opened.map fun o => { o with words := BitVec.ofNat 32 (b.dv d).toNat :: o.words } }) s

/-- SAMPLE from a REC_TIME word and the latest index read (R312). -/
def timeFrom (v : Nat) (last : Option Nat) : Nat :=
  match last with
  | none => v
  | some l =>
    let k := (l + 2 ^ 36 - v) % 2 ^ 36
    if l < k then v else l - k

/-- OUT to REC_TIME (R312); with no record open it has nothing to time. -/
def recTimeRow (c d : Nat) (s : State) : State :=
  consExec c (.recTime c d) (fun x => x.onBank fun b =>
    { b with opened := b.opened.map fun o => { o with time := some (timeFrom (b.dv d).toNat (x.port o.ref).last) } }) s

/-- A CLOSE completes: credit is taken and the record produced (R311, R315). -/
def finishClose (c : Nat) (s : State) : State :=
  let x := (s.cc c).land
  let bank := x.bank
  let w := match x.cur.opened with | some o => o.words.length | none => 0
  let s := closeBank c bank false (s.setCore c { x with credit := x.credit - consLength w * 256 })
  s.setCore c ((s.cc c).issue id)

/-- OUT to REC_CTL whose word closes the record (R310, R311, R315). -/
def closeRow (c d : Nat) (s : State) : State :=
  if !consReady c (.close c d) s then s
  else
    let x := (s.cc c).land
    let op := bitsOf (x.cur.dv d).toNat 34 2
    if op = 1 then s
    else if op ≠ 2 then coreFault c 5 0 (s.setCore c x)
    else match x.cur.opened with
      | none => coreFault c 5 0 (s.setCore c x)
      | some o =>
        if 4 * o.words.length % (consElem o.elem).getD 4 ≠ 0 then coreFault c 5 0 (s.setCore c x)
        else if consLength o.words.length * 256 ≤ x.credit then finishClose c s
        else s.setCore c (x.onBank fun b => { b with stall := 3 })

/-- CREDIT_STALL_END (R315): credit has just reached the stalled CLOSE's LENGTH. -/
def creditStallEnd (c clocks : Nat) (s : State) : State :=
  let x := s.cc c
  match x.cur.opened with
  | none => s
  | some o =>
    let need := consLength o.words.length * 256
    let rate := getU x.blk 12 2
    if x.st == 1 && x.cur.stall == 3 && !swapDue s c x && decide (need ≤ x.credit + clocks * rate) &&
        (clocks == 0 || decide (x.credit + (clocks - 1) * rate < need)) then
      finishClose c (s.setCore c { x.clocks clocks with stalled := satAdd 64 x.stalled clocks })
    else s

/-! ### Stimulus and signal ports (R316, R317) -/

/-- A word goes to a stimulus port, or is discarded when no DAC is bound; it is held two clocks on (R316, R364). -/
def pushStim (d k : Nat) (x : Core) : Core :=
  if getU x.blk (14 + k) 1 = 0xFF then x
  else { x with stim := x.stim.set k (x.stimPort k ++ [⟨x.origin + x.cyc + 2, x.cur.dv d⟩]) }

/-- OUT to STIM0 or STIM1 (R316): a full port stalls the bank. -/
def outStimRow (c d k : Nat) (s : State) : State :=
  let x := s.cc c
  if !consReady c (.outStim c d k) s then s
  else if getU x.blk (14 + k) 1 != 0xFF && decide (256 ≤ (x.stimPort k).length) then
    s.setCore c (x.onBank fun b => { b with stall := 2 })
  else s.setCore c (x.issue (pushStim d k))

/-- STIM_STALL_END (R316): the port has room. -/
def stimStallEnd (c clocks : Nat) (s : State) : State :=
  let x := s.cc c
  let k := bitsOf x.word 20 3 - 3
  if x.st == 1 && x.cur.stall == 2 && !swapDue s c x && decide ((x.stimPort k).length < 256) then
    s.setCore c ((x.clocks clocks).issue (pushStim (bitsOf x.word 23 3) k))
  else s

/-- The message of a SIG word (R317, R505); an index that nothing fixes is free. -/
def sigMessage (s : State) (c : Nat) (x : Core) (code n : Nat) : BusMsg :=
  let h := getU x.blk 0 2
  { kind := 1, sender := s.view.index, code := code, arg := 0, handle := h, tag := s.view.epoch h % 2 ^ 16,
    q := quarter (portRate s.view c x 0) (n + getU x.blk 20 4), clock := x.origin + x.cyc,
    ord := 65536 + c }

/-- OUT to SIG (R317). -/
def sigRow (c d : Nat) (s : State) : State :=
  if !consReady c (.sig c d) s then s
  else
    let x := (s.cc c).land
    let code := (x.cur.dv d).toNat % 256
    let s := if code = 0 then s
      else
        let (n, s) := match (x.port 0).last with | some n => (n, s) | none => s.freeNat
        queueMsg true (sigMessage s c x code n) s
    s.setCore c ((s.cc c).issue id)

/-! ### Starts and commits (R321 to R325) -/

/-- A core starts at fs-sample `S` (R324). -/
def Core.start (x : Core) (S : Nat) : Core :=
  { x with st := 1, bank := false, fg := { pc := getU x.blk 4 2 }, sh := { pc := getU x.blk 6 2 }, ie := false, intc := 0,
           cyc := 0, pseq := 0, origin := S / 8, since := S, irq := false, resumed := false, ports := List.replicate 8 {},
           stim := [[], []], credit := 16384 * 256, fault := 0, fbank := false, fpc := 0, fport := 0, rough := false }

/-- A core restarts at a resumption or after a failed placement (R325). -/
def restartCore (S c : Nat) (s : State) : State :=
  let x := s.cc c
  if getU x.blk 3 1 = 1 then
    s.setCore c { ({ x with x := x.imgX, y := x.imgY } : Core).start S with rough := true }
  else s

/-- The committed block of a core slot (R290). -/
def View.coreBlock (v : View) (c : Nat) : Option Block :=
  (v.ofType btConservator).find? fun b => b.u 2 1 == c % 4 && v.position (b.u 0 2) == some (c / 4)

/-- A commit reaches a core slot: its block, start or stop, and the page swap where the commit covers it (R290,
R322 to R324). A start that comes before the swap point of an earlier stop halts the core first (DESIGN CHOICE, log 123). -/
def commitCore (v' : View) (covered : Bool) (c : Nat) (s : State) : State :=
  let x := s.cc c
  let blk := match v'.coreBlock c with | some b => b.data | none => []
  let stopping := x.swaps.any (·.halt)
  let was := getU x.blk 3 1 == 1 && !stopping
  let is := getU blk 3 1 == 1
  let S := s.cad.now
  if blk.isEmpty then
    -- the exhibit is deleted: the core halts and is unassigned
    if x.blk.isEmpty then s
    else
      let s := if x.st = 1 then stopCore c 0 s else s
      s.setCore c { s.cc c with blk := [], st := 0, swaps := [] }
  else
    let s := if is && !was then
        let s := if x.st = 1 then stopCore c 0 s else s
        let x := s.cc c
        let page := (x.swaps.getLast?.map (·.page)).getD x.page
        s.setCore c (({ x with blk := blk, swaps := [], page := page } : Core).start S)
      else if !is && x.st = 1 then s
      else s.setCore c { x with blk := blk, st := if is then x.st else 0 }
    let x := s.cc c
    if !covered && is == was then s
    else if x.st != 1 then
      if covered then s.setCore c { x with page := x.shadow, pseq := (x.pseq + 1) % 2 ^ 32, swaps := [] } else s
    else
      let last := (x.swaps.getLast?.map (·.page)).getD x.page
      let w : Swap := ⟨S, if covered then x.shadow else last, !is⟩
      let s := s.setCore c { x with swaps := x.swaps ++ [w] }
      if x.kind 0 = 0 then pageSwap c s else s

/-- Elements per fabric clock of a port as a fraction (R309). -/
def portLoad (v : View) (c : Nat) (b : Block) (p : Nat) : Nat × Nat :=
  let x : Core := { blk := b.data }
  let (n, d) := ratePos (portRate v c x p) 1
  if x.kind p ≤ 3 then (8 * d, n * b.u (36 + 16 * p) 2)
  else (8 * d * b.u (38 + 16 * p) 2,
        n * spectrumHop (v.block btSpectrum [portHandle v c x p]) * b.u (44 + 16 * p) 2)

/-- CONSERVATOR block at a commit, from `v` to `v'` (R290, R291, R309, R321, R323, R326). -/
def chkConservator (s : State) (v v' : View) (b : Block) : Option Nat :=
  match v'.find (b.u 0 2), v'.position (b.u 0 2) with
  | some e, some pos =>
    let c := 4 * pos + b.u 2 1
    let x : Core := { blk := b.data }
    let old := (v.coreBlock c).map (·.data)
    let was := match old with | some o => getU o 3 1 == 1 | none => false
    let is := b.u 3 1 == 1
    let mask (d : List Byte) : List Byte := putU d 12 2 0
    let ports := (List.range 8).filter fun p => x.kind p != 0
    let ownerOf (v : View) (b : Block) : Nat := v.owner (b.u 0 2)
    if 3 ≤ e.kind then some eKind
    else if (v.coreBlock c).any (fun o => v'.coreBlock c == some b && ownerOf v o != ownerOf v' b) then some eNotOwner
    else if was && is && (old.map mask) != some (mask b.data) then some eActive
    else if !(List.range 2).all (fun i => b.u (14 + i) 1 == 0xFF || b.u (14 + i) 1 / 2 == pos / 2) then some eRange
    else if ports.any (fun p => decide (4 ≤ x.kind p) &&
        let sp := v'.block btSpectrum [portHandle v' c x p]
        let half : Int := (2 ^ (sp.u 2 1 - 1) : Nat)
        let st := b.i (40 + 16 * p) 4
        sp.u 7 1 == 0 || decide (st < -half) || decide (half < st + b.u (38 + 16 * p) 2)) then some eRange
    else if ports.any (fun p => let (n, d) := portLoad v' c b p; decide (d < n)) then some eRange
    else if is && !was then
      let m := (s.cc c).prog
      let word (a : Nat) : Nat := (cget haltWord m a).toNat
      if m.all fun w => consWordOk word w.1 then none else some eRange
    else none
  | _, _ => some eKind

/-! ### Commands (R320, R322, R327, R328) -/

/-- The core slot that a command's HANDLE and SLOT name (R290). -/
def slotOf (s : State) (r : Req) : Except Err Nat := do
  let h := r.u 0 2
  let e ← ownedHandle s r.fn h
  ensure (e.kind ≤ 2) eKind
  ensure (r.u 2 1 < 4) eRange 2
  match s.view.position h with
  | none => refuse eKind
  | some p =>
    let c := 4 * p + r.u 2 1
    match s.view.coreBlock c with
    | some b => if s.view.owner (b.u 0 2) = r.fn then return c else refuse eNotOwner
    | none => return c

/-- Words of the 8-byte form (R327). -/
def wide (b : List Byte) (off count : Nat) : List Nat := (List.range count).map fun i => getU b (off + 8 * i) 8

/-- CONSERVATOR_LOAD (R320, R327): `payload` is what the read at HOST_ADDR returned. -/
def conservatorLoadBody (r : Req) (s : State) : Effect := do
  r.lenIs 24
  r.rsvIs 12 4
  let c ← slotOf s r
  let mem := r.u 3 1
  let first := r.u 4 4
  let count := r.u 8 4
  ensure (mem < 3) eRange 3
  ensure (first < 16384) eRange 4
  ensure (1 ≤ count && first + count ≤ 16384) eRange 8
  let x := s.cc c
  ensure (x.st != 1) eActive
  ensure r.memOk eHostAccess
  if mem = 0 then
    let ws := (List.range count).map fun i => BitVec.ofNat 32 (getU r.payload (4 * i) 4)
    return (s.setCore c { x with prog := csetAll haltWord x.prog first ws }, [])
  else
    let ws := wide r.payload 0 count
    ensure (ws.all fun w => decide (w < 2 ^ 36)) eRange 16
    let vs := ws.map fun w => BitVec.ofNat 36 w
    let x := if mem = 1 then { x with x := csetAll word36 x.x first vs, imgX := csetAll word36 x.imgX first vs }
      else { x with y := csetAll word36 x.y first vs, imgY := csetAll word36 x.imgY first vs }
    return (s.setCore c x, [])

/-- CONSERVATOR_PARAM (R322, R327). -/
def conservatorParamBody (r : Req) (s : State) : Effect := do
  ensure (24 ≤ r.len) eLength
  r.rsvIs 3 1
  r.rsvIs 12 12
  let c ← slotOf s r
  let first := r.u 4 4
  let count := r.u 8 4
  ensure (1 ≤ count && count ≤ 256) eRange 8
  ensure (first + count ≤ 256) eRange 4
  ensure (r.len == 24 + 8 * count) eLength
  let ws := wide r.params 24 count
  ensure (ws.all fun w => decide (w < 2 ^ 36)) eRange 24
  let x := s.cc c
  return (s.setCore c { x with shadow := csetAll word36 x.shadow first (ws.map fun w => BitVec.ofNat 36 w) }, [])

/-- The registers of one bank by number, as CONSERVATOR_READ gives them (DESIGN CHOICE, log 44). -/
def bankWords (x : Core) (shadow : Bool) : List Nat :=
  let y := { x with bank := shadow }.land
  (List.range 64).map fun n =>
    if 8 ≤ n ∧ n < 12 then ofInt 64 (y.cur.accv (n - 8)) else if regExists n then (y.regVal n).toNat else 0

/-- CONSERVATOR_READ (R327). -/
def conservatorReadBody (r : Req) (s : State) : Effect := do
  r.lenIs 24
  r.rsvIs 12 4
  r.rsvIs 16 8
  let c ← slotOf s r
  let mem := r.u 3 1
  let first := r.u 4 4
  let count := r.u 8 4
  ensure (mem < 4) eRange 3
  let x := s.cc c
  ensure (1 ≤ count && first + count ≤ (if mem = 3 then 128 else 16384)) eRange 8
  match mem with
  | 0 => return (s, (cgetAll haltWord x.prog first count).flatMap fun w => leBytes 4 w.toNat)
  | 1 => return (s, (cgetAll word36 x.x first count).flatMap fun w => leBytes 8 w.toNat)
  | 2 => return (s, (cgetAll word36 x.y first count).flatMap fun w => leBytes 8 w.toNat)
  | _ =>
    ensure (x.st != 1) eActive
    return (s, (((bankWords x false ++ bankWords x true).drop first).take count).flatMap (leBytes 8))

/-- Result of CONSERVATOR_STATUS (R328). -/
def conservatorStatusBytes (h c : Nat) (x : Core) : List Byte :=
  fields [(2, h), (1, c % 4), (1, x.st), (1, x.fault), (1, b2n x.fbank), (2, x.fpc), (8, x.cyc), (8, x.records), (8, x.stalled),
    (4, x.under.getD 0 0), (4, x.under.getD 1 0), (4, x.pseq), (1, x.fport),
    (1, b2n x.fg.aov + 2 * b2n x.fg.sov + 4 * b2n x.sh.aov + 8 * b2n x.sh.sov), (18, 0)]

/-- CONSERVATOR_STATUS (R328). -/
def conservatorStatusBody (r : Req) (s : State) : Effect := do
  r.lenIs 8
  r.rsvIs 3 5
  let c ← slotOf s r
  return (s, conservatorStatusBytes (r.u 0 2) c (s.cc c))

end Sys2Proof.Machine
end

