-- ==== Sys2Proof/Machine/RowsConservator.lean ====
section
/-! DEFINITION. The rows of the Conservator's instructions (R319): one meaning per row over consExec, consBank and
consFaulting. A row acts only when the running core `c` issues exactly that word now. -/
namespace Sys2Proof.Machine

/-- LD (R294, R300): the load sees the pointer before its step. -/
def ldEff (d : Nat) (mem : Bool) (p step : Nat) (x : Core) : Core :=
  let b := x.cur
  let v := x.mem mem (b.addr p)
  x.onBank fun _ => (b.delay 2 (.d d v)).bump p (stepOf b p step)

/-- ST (R294, R295). -/
def stEff (d : Nat) (mem : Bool) (p step : Nat) (x : Core) : Core :=
  let b := x.cur
  (x.onBank fun _ => b.bump p (stepOf b p step)).setMem mem (b.addr p) (b.dv d)

/-- A D register takes a result modulo 2^36, and Z and N follow it (R298, R300). -/
def Bank.setD (b : Bank) (i : Nat) (v : DWord) : Bank := (b.delay 1 (.d i v)).flags v.toInt

/-- LOGD (R319): AND, OR, XOR, AND-NOT. -/
def logic (op : Nat) (a b : DWord) : DWord :=
  match op with
  | 0 => a &&& b
  | 1 => a ||| b
  | 2 => a ^^^ b
  | _ => a &&& ~~~b

/-- An accumulator takes a result, and Z and N follow it as saturated (R297, R298). -/
def Bank.accFlags (b : Bank) (i : Nat) (z : Int) : Bank := (b.accWrite i z).flags (satAcc z)

/-- A value times 2^n; right shifts round half to even (R319). -/
def shifted (z n : Int) : Int := if 0 ≤ n then z * 2 ^ n.toNat else rhe z (2 ^ (-n).toNat)

/-- CLRA (R300, R319). -/
def clearAccs (mask : BitVec 4) (b : Bank) : Bank :=
  (List.range 4).foldl (fun b i => if mask.getLsbD i then b.accWrite i 0 else b) b

/-- The part of a D register that ADDD adds (R319): whole, high, low; part 3 is not stated (DESIGN CHOICE, log 7). -/
def dPart (v : DWord) (part : Nat) (other : Int) : Int :=
  match part with
  | 0 => v.toInt
  | 1 => halfOf v false
  | 2 => halfOf v true
  | _ => other

/-- ADDD of a core with the value that an unstated part has. -/
def adddEff (a d part : Nat) (sub : Bool) (other : Int) (b : Bank) : Bank :=
  let v := dPart (b.dv d) part other
  b.accFlags a (if sub then b.accv a - v else b.accv a + v)

/-- ADDD of core slot `c` (R298, R319). -/
def adddRow (c a d part : Nat) (sub : Bool) (s : State) : State :=
  if part < 3 then consBank c (.addd c a d part sub) (adddEff a d part sub 0) s
  else if consReady c (.addd c a d part sub) s then
    let (f, s) := s.freeInt
    consBank c (.addd c a d part sub) (adddEff a d part sub f) s
  else s

/-- NOP (R319). -/
def execNop (c : Nat) (s : State) : Host.Outcome State Fault Refusal :=
  .next (consBank c (.nop c) id s)

/-- HALT (R318). -/
def execHalt (c : Nat) (s : State) : Host.Outcome State Fault Refusal :=
  .next (haltRow c s)

/-- JMP (R301). -/
def execJmp (c cond a : Nat) (s : State) : Host.Outcome State Fault Refusal :=
  .next (consBank c (.jmp c cond a) (fun b => if b.cond cond then b.jump a else b) s)

/-- CALL (R301). -/
def execCall (c cond a : Nat) (s : State) : Host.Outcome State Fault Refusal :=
  .next (callRow c cond a s)

/-- RET (R301). -/
def execRet (c cond : Nat) (s : State) : Host.Outcome State Fault Refusal :=
  .next (retRow c cond s)

/-- RETI (R306). -/
def execReti (c : Nat) (s : State) : Host.Outcome State Fault Refusal :=
  .next (retiRow c s)

/-- LOOP (R302). -/
def execLoop (c len count : Nat) (s : State) : Host.Outcome State Fault Refusal :=
  .next (loopRow c len count s)

/-- LOOPD (R302). -/
def execLoopd (c len d : Nat) (s : State) : Host.Outcome State Fault Refusal :=
  .next (loopdRow c len d s)

/-- EI (R319). -/
def execEi (c : Nat) (s : State) : Host.Outcome State Fault Refusal :=
  .next (consExec c (.ei c) (fun x => { x with ie := true }) s)

/-- DI (R319). -/
def execDi (c : Nat) (s : State) : Host.Outcome State Fault Refusal :=
  .next (consExec c (.di c) (fun x => { x with ie := false }) s)

/-- LD (R294). -/
def execLd (c d : Nat) (mem : Bool) (p step : Nat) (s : State) : Host.Outcome State Fault Refusal :=
  .next (consExec c (.ld c d mem p step) (ldEff d mem p step) s)

/-- ST (R294). -/
def execSt (c d : Nat) (mem : Bool) (p step : Nat) (s : State) : Host.Outcome State Fault Refusal :=
  .next (consExec c (.st c d mem p step) (stEff d mem p step) s)

/-- LDI (R319). -/
def execLdi (c d : Nat) (half : Bool) (imm : BitVec 18) (s : State) : Host.Outcome State Fault Refusal :=
  .next (consBank c (.ldi c d half imm) (fun b => b.delay 1 (.half d half imm.toInt)) s)

/-- MOV (R293). -/
def execMov (c dst src : Nat) (s : State) : Host.Outcome State Fault Refusal :=
  .next (movRow c dst src s)

/-- LDPG (R322). -/
def execLdpg (c d w : Nat) (s : State) : Host.Outcome State Fault Refusal :=
  .next (consExec c (.ldpg c d w) (fun x => x.onBank fun b => b.delay 2 (.d d (cget word36 x.page w))) s)

/-- SETR (R293). -/
def execSetr (c reg : Nat) (imm : BitVec 16) (s : State) : Host.Outcome State Fault Refusal :=
  .next (consBank c (.setr c reg imm) (fun b => b.writeReg reg (dword imm.toInt) 1) s)

/-- MODP (R294). -/
def execModp (c p : Nat) (imm : BitVec 16) (s : State) : Host.Outcome State Fault Refusal :=
  .next (consBank c (.modp c p imm) (fun b => b.delay 2 (.ptr p (stepPtr b p imm.toInt))) s)

/-- ADDI (R298). -/
def execAddi (c d : Nat) (imm : BitVec 18) (s : State) : Host.Outcome State Fault Refusal :=
  .next (consBank c (.addi c d imm) (fun b => b.setD d (b.dv d + imm.signExtend 36)) s)

/-- LOGD (R298). -/
def execLogd (c d sr op : Nat) (s : State) : Host.Outcome State Fault Refusal :=
  .next (consBank c (.logd c d sr op) (fun b => b.setD d (logic op (b.dv d) (b.dv sr))) s)

/-- MPY (R296). -/
def execMpy (c : Nat) (m : FmtM) (s : State) : Host.Outcome State Fault Refusal :=
  .next (consExec c (.mpy c m) (mulReal 0 m) s)

/-- MAC (R296). -/
def execMac (c : Nat) (m : FmtM) (s : State) : Host.Outcome State Fault Refusal :=
  .next (consExec c (.mac c m) (mulReal 1 m) s)

/-- MSU (R296). -/
def execMsu (c : Nat) (m : FmtM) (s : State) : Host.Outcome State Fault Refusal :=
  .next (consExec c (.msu c m) (mulReal 2 m) s)

/-- CMPY (R296). -/
def execCmpy (c : Nat) (m : FmtM) (s : State) : Host.Outcome State Fault Refusal :=
  .next (consExec c (.cmpy c m) (mulComplex 0 m) s)

/-- CMAC (R296). -/
def execCmac (c : Nat) (m : FmtM) (s : State) : Host.Outcome State Fault Refusal :=
  .next (consExec c (.cmac c m) (mulComplex 1 m) s)

/-- CMSU (R296). -/
def execCmsu (c : Nat) (m : FmtM) (s : State) : Host.Outcome State Fault Refusal :=
  .next (consExec c (.cmsu c m) (mulComplex 2 m) s)

/-- QMPY (R296). -/
def execQmpy (c : Nat) (m : FmtM) (s : State) : Host.Outcome State Fault Refusal :=
  .next (consExec c (.qmpy c m) (mulQuad 0 m) s)

/-- QMAC (R296). -/
def execQmac (c : Nat) (m : FmtM) (s : State) : Host.Outcome State Fault Refusal :=
  .next (consExec c (.qmac c m) (mulQuad 1 m) s)

/-- STA (R299). -/
def execSta (c : Nat) (f : StaF) (s : State) : Host.Outcome State Fault Refusal :=
  .next (consExec c (.sta c f) (staEff f) s)

/-- CSTA (R299). -/
def execCsta (c : Nat) (f : StaF) (s : State) : Host.Outcome State Fault Refusal :=
  .next (consExec c (.csta c f) (cstaEff f) s)

/-- ADDA (R298). -/
def execAdda (c a b : Nat) (sub : Bool) (s : State) : Host.Outcome State Fault Refusal :=
  .next (consBank c (.adda c a b sub) (fun x => x.accFlags a (if sub then x.accv a - x.srcv b else x.accv a + x.srcv b)) s)

/-- ADDD (R298). -/
def execAddd (c a d part : Nat) (sub : Bool) (s : State) : Host.Outcome State Fault Refusal :=
  .next (adddRow c a d part sub s)

/-- SHA (R298). -/
def execSha (c a : Nat) (n : BitVec 6) (s : State) : Host.Outcome State Fault Refusal :=
  .next (consBank c (.sha c a n) (fun b => b.accFlags a (shifted (b.accv a) n.toInt)) s)

/-- CLRA (R319). -/
def execClra (c : Nat) (mask : BitVec 4) (s : State) : Host.Outcome State Fault Refusal :=
  .next (consBank c (.clra c mask) (clearAccs mask) s)

/-- CMPA (R298). -/
def execCmpa (c a b : Nat) (zero : Bool) (s : State) : Host.Outcome State Fault Refusal :=
  .next (consBank c (.cmpa c a b zero) (fun x => x.flags (x.srcv a - if zero then 0 else x.srcv b)) s)

/-- MAXA (R298). -/
def execMaxa (c a b : Nat) (min : Bool) (s : State) : Host.Outcome State Fault Refusal :=
  .next (consBank c (.maxa c a b min) (fun x => x.accFlags a (if min then Min.min (x.accv a) (x.srcv b) else Max.max (x.accv a) (x.srcv b))) s)

/-- IN (R307). -/
def execInp (c d port : Nat) (s : State) : Host.Outcome State Fault Refusal :=
  .next (inRow c d port s)

/-- IN_STALL_END (R292). -/
def execInStallEnd (c clocks : Nat) (s : State) : Host.Outcome State Fault Refusal :=
  .next (inStallEnd c clocks s)

/-- IDX (R309). -/
def execIdx (c d port : Nat) (s : State) : Host.Outcome State Fault Refusal :=
  .next (idxRow c d port s)

/-- CLRF (R319). -/
def execClrf (c : Nat) (mask : BitVec 2) (s : State) : Host.Outcome State Fault Refusal :=
  .next (consBank c (.clrf c mask) (fun b => { b with aov := b.aov && !mask.getLsbD 0, sov := b.sov && !mask.getLsbD 1 }) s)

/-- REC_OPEN (R310). -/
def execRecOpen (c d : Nat) (s : State) : Host.Outcome State Fault Refusal :=
  .next (recOpenRow c d s)

/-- REC_DATA (R310). -/
def execRecData (c d : Nat) (s : State) : Host.Outcome State Fault Refusal :=
  .next (recDataRow c d s)

/-- REC_TIME (R312). -/
def execRecTime (c d : Nat) (s : State) : Host.Outcome State Fault Refusal :=
  .next (recTimeRow c d s)

/-- CLOSE (R311). -/
def execClose (c d : Nat) (s : State) : Host.Outcome State Fault Refusal :=
  .next (closeRow c d s)

/-- CREDIT_STALL_END (R315). -/
def execCreditStallEnd (c clocks : Nat) (s : State) : Host.Outcome State Fault Refusal :=
  .next (creditStallEnd c clocks s)

/-- OUT_STIM (R316). -/
def execOutStim (c d port : Nat) (s : State) : Host.Outcome State Fault Refusal :=
  .next (outStimRow c d port s)

/-- STIM_STALL_END (R316). -/
def execStimStallEnd (c clocks : Nat) (s : State) : Host.Outcome State Fault Refusal :=
  .next (stimStallEnd c clocks s)

/-- SIG (R317). -/
def execSig (c d : Nat) (s : State) : Host.Outcome State Fault Refusal :=
  .next (sigRow c d s)

/-- INTERRUPT_ENTRY (R305). -/
def execInterruptEntry (c clocks : Nat) (s : State) : Host.Outcome State Fault Refusal :=
  .next (interruptEntry c clocks s)

/-- ELEMENT_ARRIVAL (R308). -/
def execElementArrival (c port n first : Nat) (codes : List Conv) (s : State) : Host.Outcome State Fault Refusal :=
  .next (elementArrival c port n first codes s)

/-- PAGE_SWAP (R322). -/
def execPageSwap (c : Nat) (s : State) : Host.Outcome State Fault Refusal :=
  .next (pageSwap c s)

end Sys2Proof.Machine
end

