-- ==== Sys2Proof/Machine/Outputs.lean ====
section
/-! DEFINITION. Stimulus DACs and level DACs (13): tones, playback, takes from Conservator ports, level ticks and
span sequences. -/
namespace Sys2Proof.Machine

/-- A stimulus DAC. -/
def State.dc (s : State) (d : Nat) : Dac := tget {} s.dac d
/-- Replace a stimulus DAC. -/
def State.setDac (s : State) (d : Nat) (x : Dac) : State := { s with dac := tset s.dac d x }
/-- A level DAC. -/
def State.lv (s : State) (d : Nat) : Level := tget {} s.level d
/-- Replace a level DAC. -/
def State.setLv (s : State) (d : Nat) (x : Level) : State := { s with level := tset s.level d x }

/-- The output domain PD29 is powered. -/
def State.outPower (s : State) : Bool := s.pow.domains.testBit 29

/-! ### Tones (R360, R361) -/

/-- Table entry T[i] = round(131071 sin(2 pi i / 4096)), half to even (R361). -/
def sineTable (i : Nat) : Int := rhe (131071 * (fxTurn (i % 4096) 4096).2) (2 ^ 128)

/-- Interpolated table value at index `i` and fraction f / 2^16 (R361). -/
def sineAt (i f : Nat) : Int :=
  sineTable i + rhe ((sineTable (i + 1) - sineTable i) * f) (2 ^ 16)

/-- Field of a tone of a STIMULUS block. -/
def Dac.tone (x : Dac) (t off size : Nat) : Nat := getU x.blk (32 + 16 * t + off) size

/-- The tone generators' contribution at DAC sample S (R360, R361). -/
def tonesAt (x : Dac) (S : Nat) : Int :=
  let sum := (List.range 4).foldl (fun (a : Int) t =>
    let ph := (x.tone t 0 6 * S + x.tone t 6 6) % 2 ^ 48
    a + sineAt (bitsOf ph 36 12) (bitsOf ph 20 16) * x.tone t 12 2) 0
  rhe sum (2 ^ 17)

/-! ### The code (R357, R358, R363, R365) -/

/-- The core runs and converts something. -/
def Dac.runs (x : Dac) : Bool := getU x.blk 1 1 == 1 && getU x.blk 3 1 != 0
def Dac.source (x : Dac) : Nat := if getU x.blk 1 1 = 1 then getU x.blk 3 1 else 0

/-- DAC samples of the whole playback; none without end (R363). -/
def Dac.total (x : Dac) : Option Nat :=
  if getU x.blk 12 4 = 0 then none else some (getU x.blk 12 4 * getU x.blk 24 8)

/-- Playback base code at n (R363); none once it is done. -/
def playCode (samples : Cells 16) (x : Dac) (n : Nat) : Option Int :=
  let ended := match x.total with | some t => decide (t ≤ n) | none => false
  if ended then none
  else if x.bad.contains (n / 16) then some 0
  else some (rhe (cget sampleDefault samples (getU x.blk 16 8 + n % getU x.blk 24 8)).toInt 4)

/-- Code before the clamp at DAC sample S of tones or playback (R365); none where the core holds mid-code. -/
def rawCode (samples : Cells 16) (x : Dac) (S : Nat) : Option Int :=
  match x.source with
  | 1 => some (tonesAt x S)
  | 2 => (playCode samples x (S - x.play)).map fun b => b + (if getU x.blk 4 1 = 1 then tonesAt x S else 0)
  | _ => none

/-- Samples of a DAC's playback Store. -/
def State.samplesOf (s : State) (x : Dac) : Cells 16 := (s.sto (getU x.blk 10 2)).samples

/-- The code that a DAC presents at DAC sample S from tones or playback (R357, R365, R367). -/
def dacCode (s : State) (d S : Nat) : Int :=
  let x := s.dc d
  let lost := match x.held with | some f => decide (f ≤ S) | none => false
  if lost then 0 else match rawCode (s.samplesOf x) x S with | some c => sat 14 c | none => 0

/-- CLIP_COUNT takes the clamped samples of tones and playback up to now (R365). -/
def settleDac (d : Nat) (s : State) : State :=
  let x := s.dc d
  let stop := match x.held with | some f => min f s.cad.now | none => s.cad.now
  if x.source = 1 ∨ x.source = 2 then
    let m := s.samplesOf x
    let n := ((List.range (stop - x.formed)).filter fun i =>
      match rawCode m x (x.formed + i) with | some c => satHit 14 c | none => false).length
    s.setDac d { x with clip := satAdd 32 x.clip n, formed := max x.formed s.cad.now }
  else s.setDac d { x with formed := s.cad.now }

/-- Playback passes completed by now (R377). -/
def Dac.passesAt (x : Dac) (now : Nat) : Nat :=
  if x.source = 2 then
    let n := (now - x.play) / getU x.blk 24 8
    x.passes + (if getU x.blk 12 4 = 0 then n else min n (getU x.blk 12 4))
  else x.passes

/-! ### Takes (R364) -/

/-- Fabric clock of take `i` (R364). -/
def takeClock (x : Dac) (i : Nat) : Nat :=
  ceilDiv x.grid 8 + getU x.blk 8 2 + i * 2 ^ (getU x.blk 5 1 - 2) - 40

/-- The core slot and stimulus port that feed a DAC (R316). -/
def stimSource (s : State) (d : Nat) : Option (Nat × Nat) :=
  ((List.range 32).flatMap fun c => [(c, 0), (c, 1)]).find? fun p =>
    !(s.cc p.1).blk.isEmpty && getU (s.cc p.1).blk (14 + p.2) 1 == d

/-- The codes of one word: each half for 2^U samples, tones added, clamped; and how many samples were clamped, by either
clamp (R364, R365; DEDUCED, log 125). -/
def wordCodes (x : Dac) (w : DWord) (first : Nat) : List Int × Nat :=
  let u := 2 ^ getU x.blk 5 1
  let raw := (List.range (2 * u)).map fun i =>
    let h := rhe (halfOf w (decide (u ≤ i))) 16
    (sat 14 h + (if getU x.blk 4 1 = 1 then tonesAt x (first + i) else 0), satHit 14 h)
  (raw.map fun c => sat 14 c.1, (raw.filter fun c => satHit 14 c.1 || c.2).length)

/-- STIMULUS_TAKE (R316, R364): take `i` of a DAC from its Conservator port, or zero and an underrun. -/
def stimulusTake (d i : Nat) (s : State) : State :=
  let x := s.dc d
  match stimSource s d with
  | none => s
  | some (c, k) =>
    if !(x.source == 3 && i == x.take && x.held.isNone && s.outPower) then s
    else
      let b := takeClock x i
      let s := s.tick (8 * b)
      let y := s.cc c
      let first := 8 * b + 320
      let (w, y) := match y.stimPort k with
        | q :: qs => if q.clock ≤ b then (q.v, { y with stim := y.stim.set k qs })
                     else (0, { y with under := y.under.set k (satAdd 32 (y.under.getD k 0) 1) })
        | [] => (0, { y with under := y.under.set k (satAdd 32 (y.under.getD k 0) 1) })
      let (codes, n) := wordCodes x w first
      ((s.setCore c y).setDac d { x with take := i + 1, clip := satAdd 32 x.clip n }).send (.dac d first codes)

/-- PLAYBACK_DONE (R363). -/
def playbackDone (d t : Nat) (s : State) : State :=
  let x := s.dc d
  match x.total with
  | none => s
  | some n =>
    if x.source == 2 && !x.done && decide (x.play + n ≤ t) && s.outPower then
      let s := settleDac d (s.tick t)
      (s.setDac d { s.dc d with done := true }).post evPlaybackDone [(1, d), (3, 0), (8, (s.dc d).passesAt s.cad.now)]
    else s

/-- A 256-bit word of a playback Store is uncorrectable: its 16 samples play as 0 at their next playing (R285). -/
def playbackError (store key : Nat) (s : State) : State :=
  let s := (List.range 8).foldl (fun s d =>
    let x := s.dc d
    let len := getU x.blk 24 8
    let at0 := (key + len - getU x.blk 16 8 % len) % len
    let n := s.cad.now - x.play
    let n := n + (at0 + len - n % len) % len
    if x.source = 2 ∧ getU x.blk 10 2 = store then s.setDac d { x with bad := n / 16 :: x.bad } else s) s
  s.post evPlaybackError [(2, store), (2, 0), (8, key)]

/-! ### Commits (R358, R362, R366) -/

/-- POFF words under CONTINUOUS (R362). -/
def continuous (old new : List Byte) (S : Nat) : List Byte :=
  if getU new 6 1 % 2 = 0 then new
  else (List.range 4).foldl (fun b t =>
    let o := 32 + 16 * t
    let f0 := getU old o 6
    let f1 := getU b o 6
    if f0 = f1 then b
    else putU b (o + 6) 6 ((((getU b (o + 6) 6 : Nat) : Int) + ((f0 : Int) - f1) * S) % (2 ^ 48)).toNat) new

/-- Fields of a STIMULUS block that restart a playback, and those that restart the take grid. -/
def playFields (b : List Byte) : List Nat := [getU b 1 1, getU b 3 1, getU b 10 2, getU b 12 4, getU b 16 8, getU b 24 8]
def gridFields (b : List Byte) : List Nat := [getU b 1 1, getU b 3 1, getU b 5 1, getU b 8 2]

/-- A STIMULUS block takes effect; answers the block as R362 leaves it (R366). -/
def applyStimulus (new : Block) (s : State) : State × Block :=
  let d := new.u 0 1
  let S := s.cad.now
  let s := settleDac d s
  let x := s.dc d
  let blk := continuous x.blk new.data S
  let p := x.passesAt S
  let x := if playFields x.blk != playFields blk then { x with play := S, done := false, passes := p, bad := [] } else x
  let x := if gridFields x.blk != gridFields blk then { x with grid := S, take := 0 } else x
  (s.setDac d { x with blk := blk, formed := S }, ⟨new.typ, blk⟩)

/-- STIMULUS block against the state at T: the playback range lies within its Store (R363). -/
def chkStimulus (storeOk : Nat → Option Nat) (b : Block) : Option Nat :=
  if b.u 3 1 != 2 then none
  else match storeOk (b.u 10 2) with
    | none => some eRange
    | some samples => if b.u 16 8 + b.u 24 8 ≤ samples then none else some eRange

/-- A wing's synthesiser loses lock: its DACs hold mid-code and level DACs their codes (R367, R374). -/
def holdOutputs (w : Nat) (s : State) : State :=
  let s := [2 * w, 2 * w + 1].foldl (fun s d => s.setDac d { s.dc d with held := some ((s.dc d).held.getD s.cad.now) }) s
  [4 * w, 4 * w + 1, 4 * w + 2, 4 * w + 3].foldl (fun s d => s.setLv d { s.lv d with held := true }) s

/-- At resumption at sample S tones and playback follow the index, takes their grid, levels their ticks (R367,
R374). -/
def resumeOutputs (S w : Nat) (s : State) : State :=
  let s := [2 * w, 2 * w + 1].foldl (fun s d =>
    let s := settleDac d s
    let x := s.dc d
    let step := 2 ^ (getU x.blk 5 1 - 2)
    let skip := ceilDiv (S - 8 * takeClock x 0) (8 * step)
    s.setDac d { x with held := none, take := max x.take skip }) s
  [4 * w, 4 * w + 1, 4 * w + 2, 4 * w + 3].foldl (fun s d =>
    s.setLv d { s.lv d with held := false, next := max (s.lv d).next (ceilDiv S 8192) }) s

/-- PD29 powers down or faults: DACs at mid-code, level outputs grounded at 0 V (R358, R371). -/
def outputsOff (s : State) : State :=
  let s := (List.range 8).foldl (fun s d =>
    let s := settleDac d s
    let x := s.dc d
    s.setDac d { x with blk := [], passes := x.passesAt s.cad.now, done := false, bad := [] }) s
  (List.range 16).foldl (fun s d =>
    s.setLv d { s.lv d with isOn := false, sp := 0, code := 0, seq := 0, left := 0 }) s

/-- Result of STIMULUS_STATUS (R377). -/
def stimulusStatusBytes (s : State) (d : Nat) : List Byte :=
  let x := s.dc d
  let st := if !x.runs then 0 else if x.held.isSome then 3 else if x.done then 2 else 1
  fields [(1, d), (1, st), (1, getU x.blk 2 1), (1, x.source), (4, x.clip), (8, x.passesAt s.cad.now), (16, 0)]

/-- STIMULUS_STATUS (R377). -/
def stimulusStatusBody (r : Req) (s : State) : Effect := do
  let d ← r.oneNum
  ensure (d < 8) eRange
  let s := settleDac d s
  return (s, stimulusStatusBytes s d)

/-! ### Level DACs (R369 to R373) -/

/-- Span: lowest and highest code, lowest and highest voltage in uV, and uV over 2^18 codes (R369). -/
structure Span where
  lo   : Int
  hi   : Int
  vLo  : Int
  vHi  : Int
  full : Nat
deriving DecidableEq, Repr

/-- The spans of R369. -/
def spanOf (k : Nat) : Span :=
  match k with
  | 0 => ⟨0, 262143, 0, 1250000, 1250000⟩
  | 1 => ⟨0, 262143, 0, 2500000, 2500000⟩
  | 2 => ⟨-131072, 131071, -1250000, 1250000, 2500000⟩
  | _ => ⟨-131072, 131071, -2500000, 2500000, 5000000⟩

/-- Clamp between bounds. -/
def clampI (lo hi z : Int) : Int := max lo (min hi z)

/-- Fields of a LEVEL block. -/
def lvTarget (b : List Byte) : Int := getI b 4 4
def lvSafe (b : List Byte) : Int := getI b 8 4
def lvOn (b : List Byte) : Bool := getU b 1 1 == 1

/-- One slew step towards a goal (R370). -/
def slew (step : Nat) (sp goal : Int) : Int :=
  if step = 0 then goal
  else if sp ≤ goal then min goal (sp + step) else max goal (sp - step)

/-- The goal of the set-point (R370 to R372). -/
def Level.goal (x : Level) : Int :=
  if !lvOn x.blk || x.seq == 1 || x.seq == 2 then lvSafe x.blk else lvTarget x.blk

/-- A LEVEL block takes effect at its tick (R371 to R373). -/
def Level.adopt (x : Level) (b : List Byte) : Level :=
  let was := lvOn x.blk
  let is := lvOn b
  let span := getU b 2 1
  let direct := getU b 3 1 == 1
  let y := { x with blk := b, isOn := x.isOn || is }
  if !is || !was then
    -- disabled on one side: the sequence ends; a span that changes switches at once where nothing was enabled
    { y with seq := 0, left := 0, span := if !was && x.seq == 0 || !is && x.seq == 0 then span else x.span,
             sp := if x.isOn then x.sp else 0 }
  else if span = x.span then y
  else if direct then
    { y with span := span, sp := clampI (spanOf span).vLo (spanOf span).vHi x.sp }
  else if x.seq = 0 then { y with seq := 1 }
  else y

/-- Set-point and sequence at one tick, without the sine (R370, R372). -/
def Level.move (x : Level) (n : Nat) : Level :=
  let due := n % getU x.blk 16 2 == 0
  match x.seq with
  | 1 =>
    if x.sp = lvSafe x.blk ∧ x.left = 1 then
      -- the tick after the set-point first equals SAFE
      { x with seq := 2, left := 7, span := getU x.blk 2 1 }
    else
      let sp := if due then slew (getU x.blk 12 4) x.sp (lvSafe x.blk) else x.sp
      { x with sp := sp, left := b2n (sp == lvSafe x.blk) }
  | 2 =>
    if x.left = 0 then
      let sp := if due then slew (getU x.blk 12 4) x.sp (lvTarget x.blk) else x.sp
      { x with seq := if sp = lvTarget x.blk then 0 else 3, sp := sp }
    else { x with left := x.left - 1 }
  | _ =>
    let sp := if due then slew (getU x.blk 12 4) x.sp x.goal else x.sp
    { x with sp := sp, seq := if sp = lvTarget x.blk then 0 else x.seq }

/-- The code of a tick and whether it was clamped (R370): the sine is suppressed while disabled and until the
final slew of a span sequence. -/
def Level.form (x : Level) (n : Nat) : Int × Bool :=
  let sp := spanOf x.span
  let quiet := !lvOn x.blk || x.seq == 1 || x.seq == 2
  let ph := (getU x.blk 20 4 * n + getU x.blk 24 4) % 2 ^ 32
  let add := if quiet then 0 else rhe (sineAt (bitsOf ph 20 12) (bitsOf ph 4 16) * getU x.blk 28 4) (2 ^ 17)
  let c := rhe ((x.sp + add) * 2 ^ 18) sp.full
  (clampI sp.lo sp.hi c, clampI sp.lo sp.hi c != c)

/-- LEVEL blocks whose tick has come (R376). -/
def Level.upTo (x : Level) (n : Nat) : Level :=
  let due := x.waiting.filter fun w => decide (w.tick ≤ n)
  due.foldl (fun x w => x.adopt w.blk) { x with waiting := x.waiting.filter fun w => !decide (w.tick ≤ n) }

/-- Tick `n` is the DAC's next one: ticks of a grounded output that nothing waits for do nothing and may be passed over
(R370, R371). -/
def Level.takes (x : Level) (n : Nat) : Bool :=
  n == x.next || (!x.isOn && decide (x.next ≤ n) && x.waiting.all fun w => decide (n ≤ w.tick))

/-- LEVEL_TICK (R370): tick `n` of a level DAC. -/
def levelTick (d n : Nat) (s : State) : State :=
  let s := s.tick (8192 * n)
  let x := s.lv d
  if !x.takes n || x.held || !s.outPower then s
  else
    let x := (x.upTo n)
    let x := { x with next := n + 1 }
    if !x.isOn then s.setLv d x
    else
      let x := x.move n
      let (c, hit) := x.form n
      s.setLv d { x with code := c, clamps := if hit then satAdd 32 x.clamps 1 else x.clamps }

/-- Set-point after the slew steps of ticks [n, m) (R370). -/
def slewSpan (b : List Byte) (sp goal : Int) (n m : Nat) : Int :=
  let k := getU b 16 2
  let steps := ceilDiv m k - ceilDiv n k
  if steps = 0 then sp else slew (getU b 12 4 * steps) sp goal

/-- The first tick from `n` on at which the set-point equals a goal (R372). -/
def slewReach (b : List Byte) (sp goal : Int) (n : Nat) : Nat :=
  if sp = goal then n
  else
    let k := getU b 16 2
    let step := getU b 12 4
    let steps := if step = 0 then 1 else ceilDiv (goal - sp).natAbs step
    (ceilDiv n k + steps - 1) * k

/-- The tick at which a running span sequence ends (R373, R377); 0 if none runs. -/
def Level.seqEnd (x : Level) : Nat :=
  let b := x.blk
  let n := x.next
  match x.seq with
  | 1 =>
    let r := if x.left = 1 then n - 1 else slewReach b x.sp (lvSafe b) n
    slewReach b (lvSafe b) (lvTarget b) (r + 9)
  | 2 => slewReach b x.sp (lvTarget b) (n + x.left)
  | 3 => slewReach b x.sp (lvTarget b) n
  | _ => 0

/-- Ticks n to m - 1 passed at once, as far as set-point and sequence go; `fuel` bounds the phases (R372). -/
def Level.skip : Nat → Level → Nat → Level
  | 0, x, _ => x
  | f + 1, x, m =>
    let n := x.next
    if m ≤ n then x
    else
      let b := x.blk
      match x.seq with
      | 1 =>
        let r := if x.left = 1 then n - 1 else slewReach b x.sp (lvSafe b) n
        if m ≤ r + 1 then
          let sp := slewSpan b x.sp (lvSafe b) n m
          { x with sp := sp, left := b2n (sp == lvSafe b), next := m }
        else skip f { x with sp := lvSafe b, seq := 2, left := 7, span := getU b 2 1, next := r + 2 } m
      | 2 =>
        if m ≤ n + x.left then { x with left := x.left - (m - n), next := m }
        else skip f { x with seq := 3, left := 0, next := n + x.left } m
      | _ =>
        let sp := slewSpan b x.sp x.goal n m
        { x with sp := sp, seq := if sp = lvTarget b then 0 else x.seq, next := m }

/-- The level DAC as it will stand just before tick `n`, every waiting block adopted on its way (R373). -/
def Level.predict (x : Level) (n : Nat) : Level :=
  let x := (x.waiting.filter fun w => decide (w.tick < n)).foldl
    (fun (x : Level) w => ((x.skip 5 w.tick).adopt w.blk)) { x with waiting := x.waiting.filter fun w => !decide (w.tick < n) }
  x.skip 5 n

/-- LEVEL block at a commit for fs-sample S (R370, R372, R373); `x` the DAC as it stands at its tick. -/
def chkLevel (s : State) (x : Level) (b : Block) (S : Nat) : Option Nat :=
  let n := ceilDiv S 8192
  let x := x.predict n
  let (f, d) := fsKhz s
  let busy := x.seq != 0 && decide (n < x.seqEnd)
  let changes := (lvOn x.blk || b.u 1 1 == 1) && b.u 2 1 != x.span
  let out (k : Nat) : Bool := decide (b.i 8 4 < (spanOf k).vLo) || decide ((spanOf k).vHi < b.i 8 4)
  if 100 * d * 8192 * 2 ^ 32 < b.u 20 4 * f then some eRange
  else if changes && (out x.span || out (b.u 2 1)) then some eRange
  else if busy && b.u 1 1 == 1 &&
      [(2, 1), (8, 4), (3, 1)].any fun p => b.u p.1 p.2 != getU x.blk p.1 p.2 then some eActive
  else none

/-- A LEVEL block waits for the first tick at or after its commit sample (R376). -/
def applyLevel (b : Block) (s : State) : State :=
  let d := b.u 0 1
  let x := s.lv d
  s.setLv d { x with waiting := x.waiting ++ [⟨ceilDiv s.cad.now 8192, b.data⟩] }

/-- Result of LEVEL_STATUS (R377). -/
def levelStatusBytes (s : State) (d : Nat) : List Byte :=
  let x := s.lv d
  let st := if !x.isOn then 0 else if x.held then 5 else if x.seq != 0 then 3
    else if x.sp != x.goal then 1 else if lvOn x.blk then 2 else 4
  fields [(1, d), (1, st), (1, x.span), (1, 0), (4, ofInt 32 x.sp), (4, ofInt 32 x.code), (4, x.clamps), (8, x.seqEnd), (8, 0)]

/-- LEVEL_STATUS (R377). -/
def levelStatusBody (r : Req) (s : State) : Effect := do
  let d ← r.oneNum
  ensure (d < 16) eRange
  return (s, levelStatusBytes s d)

end Sys2Proof.Machine
end

