-- ==== Sys2Proof/Machine/Commons.lean ====
section
/-! DEFINITION. The Commons (19): operations and declared peaks, the ledger, admission with WAIT and the
migration reserve, and which domains leave powers. The ledger follows from the committed and pending blocks,
scheduled windows and migrations, so nothing of it is stored twice. -/
namespace Sys2Proof.Machine

/-! ### Declared peaks (R525) -/

/-- What a configuration asks leave for: operation, unit, peak in mW. -/
structure Need where
  op   : Nat
  unit : Nat
  peak : Nat
deriving DecidableEq, Repr

/-- Channels reached by exhibits with a stream, an armed trigger, a running core or an enabled comparator (R525). -/
def View.workChannels (v : View) : List Nat :=
  let hs := (v.streams.map (·.h)) ++ ((v.ofType btTrigger).filter (·.u 2 1 != 0)).map (·.u 0 2) ++
    ((v.ofType btConservator).filter (·.u 3 1 == 1)).map (·.u 0 2)
  let cs := hs.eraseDups.flatMap v.channels ++ (List.range 48).filter v.cmpOn
  (List.range 48).filter cs.contains

/-- Peak of a Concordance: 12.5 mW a product a fabric clock, rounded up to 0.01 W (R525). -/
def concPeak (v : View) (h : Nat) : Nat := let l := concordLoad v h; 10 * ceilDiv (5 * l.1) (4 * l.2)

/-- Leave that a configuration holds (R525), by operation code, then unit. -/
def View.needs (v : View) : List Need :=
  let cs := v.workChannels
  ((List.range 4).filter fun w => cs.any fun c => c / 12 == w).map (⟨1, ·, 6600⟩) ++
  ((List.range 8).filter fun p => cs.any fun c => c / 6 == p).map (⟨3, ·, 2100⟩) ++
  ((v.ofType btSpectrum).filter (·.u 7 1 == 1)).map (fun b => ⟨4, b.u 0 2, 650 * v.ganged (b.u 0 2)⟩) ++
  ((v.ofType btSward).filter (·.u 2 1 == 1)).map (fun b => ⟨5, b.u 0 2, 120⟩) ++
  ((v.ofType btConservator).filter (·.u 3 1 == 1)).map
    (fun b => ⟨6, 4 * (v.position (b.u 0 2)).getD 0 + b.u 2 1, 270⟩) ++
  ((v.ofType btConcordance).filter (·.u 2 1 == 1)).map (fun b => ⟨7, b.u 0 2, concPeak v (b.u 0 2)⟩) ++
  (if (v.ofType btStimulus).any (·.u 1 1 == 1) || (v.ofType btLevel).any (·.u 1 1 == 1) then [⟨8, 0xFF, 600⟩] else []) ++
  ((v.ofType btStimulus).filter (·.u 1 1 == 1)).map (fun b => ⟨9, b.u 0 1, 1200⟩) ++
  (if (v.block btArchive []).u 0 1 == 1 then [⟨10, 0xFF, 1100⟩] else [])

/-- Lead of an operation in fs-samples (R525, R8). -/
def opLead (op : Nat) : Nat :=
  match op with | 1 => 5120000 | 3 => 512000 | 8 => 1024000 | 12 => 512000 | _ => 0

/-- Declared peak of a migration of a position: its granted leave of codes 3 to 6 (R525). -/
def View.positionPeak (v : View) (p : Nat) : Nat :=
  v.needs.foldl (fun n x =>
    if (x.op == 3 && x.unit == p) || ((x.op == 4 || x.op == 5) && v.position x.unit == some p) ||
      (x.op == 6 && x.unit / 4 == p) then n + x.peak else n) 0

/-! ### The ledger (R527) -/

/-- A state of the configuration from a sample on, and the commit that makes it. -/
structure Stage where
  sT   : Nat
  id   : Nat
  view : View
deriving DecidableEq, Repr

/-- Pending commits by sample, then number. -/
def orderPending (l : List Pending) : List Pending :=
  l.foldl (fun (acc : List Pending) p =>
    acc.takeWhile (fun q => decide (q.sT < p.sT ∨ (q.sT = p.sT ∧ q.id ≤ p.id))) ++ [p] ++
      acc.dropWhile (fun q => decide (q.sT < p.sT ∨ (q.sT = p.sT ∧ q.id ≤ p.id)))) []

/-- Configurations after each pending commit; of those at one sample only the last counts (R528). -/
def stages (v : View) (l : List Pending) : List Stage :=
  ((orderPending l).foldl (fun (acc : List Stage × View) p =>
    let w := acc.2.apply p.items
    ((acc.1.filter fun g => g.sT != p.sT) ++ [⟨p.sT, p.id, w⟩], w)) ([], v)).1

/-- Grants of codes 1 and 3 to 10: held now, then as each stage asks and releases (R525, R527). -/
def spans (v : View) (l : List Pending) : List Grant :=
  let held : List Grant := v.needs.map fun n => ⟨n.op, n.unit, n.peak, 0, none, 0⟩
  (stages v l).foldl (fun (gs : List Grant) st =>
    let needs := st.view.needs
    let same (g : Grant) (n : Need) : Bool := g.op == n.op && g.unit == n.unit && g.peak == n.peak
    let gs : List Grant := gs.map fun (g : Grant) =>
      if g.stop.isNone && !needs.any (same g) then { g with stop := some st.sT } else g
    let fresh := needs.filter fun n => !gs.any fun g => g.stop.isNone && same g n
    gs ++ fresh.map fun n => ⟨n.op, n.unit, n.peak, st.sT - opLead n.op, none, st.id⟩) held

/-- Length of a calibration window in fs-samples (R383). -/
def calSpan := 185472000

/-- Grants of calibration windows: the one that runs, and those scheduled (R389; DEDUCED, log 50). -/
def calGrants (s : State) : List Grant :=
  (match s.hk.win with
   | some w => if w.leave then [⟨11, calTag w.kind w.unit, 500, w.at0, some (w.at0 + calSpan), 0⟩] else []
   | none => []) ++
  (s.hk.due.filter (·.leave)).map (fun w => ⟨11, calTag w.kind w.unit, 500, w.at0, some (max w.at0 s.cad.now + calSpan), 0⟩) ++
  s.cur.actions.filterMap fun a =>
    match a.act with
    | .cal k u _ =>
      let S := sampleOf s.cad a.time
      some ⟨11, calTag k u, 500, S, some (max S s.cad.now + calSpan), 0⟩
    | _ => none

/-- Grants of planned migrations: 50 us before warm-up to Tm + W (R527, R558). -/
def migrationGrants (s : State) : List Grant :=
  (s.gal.migr.filter (·.planned)).map fun m => ⟨12, m.pos, m.peak, m.warm - opLead 12, some (m.tm + (m.tm - m.warm)), 0⟩

/-- The ledger with the given pending commits (R527). -/
def State.ledgerOf (s : State) (l : List Pending) : List Grant :=
  s.pow.ledger ++ spans s.view l ++ calGrants s ++ migrationGrants s

/-- The Commons' ledger. -/
def State.ledger (s : State) : List Grant := s.ledgerOf s.cur.pending

/-- A grant holds at a sample: releases count before grants (R528). -/
def Grant.holds (g : Grant) (S : Nat) : Bool :=
  decide (g.start ≤ S) && (match g.stop with | some e => decide (S < e) | none => true)

/-- Leave in effect at a sample: an operation and unit counts once, at its largest peak. -/
def leaveAt (l : List Grant) (S : Nat) : List Need :=
  (l.filter (·.holds S)).foldl (fun (acc : List Need) g =>
    if acc.any fun n => n.op == g.op && n.unit == g.unit then
      acc.map fun (n : Need) => if n.op == g.op && n.unit == g.unit then { n with peak := max n.peak g.peak } else n
    else acc ++ [⟨g.op, g.unit, g.peak⟩]) []

/-- Total leave at a sample, in mW. -/
def totalAt (l : List Grant) (S : Nat) : Nat := (leaveAt l S).foldl (fun n x => n + x.peak) 0

/-- Samples from `since` on at which a ledger changes. -/
def changePoints (l : List Grant) (since : Nat) : List Nat :=
  (since :: l.flatMap fun g => g.start :: g.stop.toList).filter fun S => decide (since ≤ S)

/-- The migration reserve, in mW (R534). -/
def reserve := 7800

/-- BUDGET of a configuration in mW; the boot allowance before the first COMMONS commit (R533). -/
def View.budget (v : View) : Nat :=
  match v.blocks.find? (·.typ == btCommons) with | some b => 10 * b.u 0 2 | none => 57800

/-- BUDGET in effect at a sample; `own`: sample and budget of a COMMONS block in the commit under request,
which governs that commit's own admission (R532). -/
def budgetAt (v : View) (l : List Pending) (own : Option (Nat × Nat)) (S : Nat) : Nat :=
  let st := (stages v l).filter fun g => decide (g.sT ≤ S)
  let base := (st.getLastD ⟨0, 0, v⟩).view.budget
  match own with | some (T, b) => if S < T then b else base | none => base

/-- The ledger plus the reserve fits BUDGET at every sample from `since` on (R528). -/
def ledgerFits (s : State) (l : List Pending) (extra : List Grant) (own : Option (Nat × Nat)) (since : Nat) : Bool :=
  let g := s.ledgerOf l ++ extra
  let pts := changePoints g since ++ (l.map (·.sT)).filter fun S => decide (since ≤ S)
  pts.all fun S => decide (totalAt g S + reserve ≤ budgetAt s.view l own S)

/-- Leave for one window or migration fits (R528). -/
def grantFits (s : State) (g : Grant) : Bool := ledgerFits s s.cur.pending [g] none g.start

/-! ### Admission of a commit (R528 to R532) -/

/-- What a commit adds to the ledger: requests that the configuration before it does not hold. -/
def newNeeds (s : State) (p : Pending) : List Need :=
  let st := stages s.view (s.cur.pending ++ [p])
  let before := ((st.filter fun g => decide (g.sT < p.sT)).getLastD ⟨0, 0, s.view⟩).view.needs
  match st.find? (·.sT == p.sT) with
  | some g => g.view.needs.filter fun n => !before.contains n
  | none => []

/-- Answer of the Commons to a commit at its time: 0 granted, 1 a lead lies before acceptance, 2 no leave. -/
def admits (s : State) (p : Pending) (extra : List Grant) : Nat :=
  let new := newNeeds s p
  let starts := (new.map fun n => (p.sT : Int) - opLead n.op) ++ extra.map fun g => (g.start : Int)
  let l := s.cur.pending ++ [p]
  let own := (p.items.findSome? fun i => match i with
    | .block b => if b.typ == btCommons then some (10 * b.u 0 2) else none
    | _ => none).map fun b => (p.sT, b)
  let since := starts.foldl (fun (m : Nat) z => min m z.toNat) p.sT
  if starts.any fun z => decide (z < (s.cad.now : Int)) then 1
  else
    let old := s.ledger
    let now := s.ledgerOf l ++ extra
    let grows := (changePoints (old ++ now) since).any fun S => decide (totalAt old S < totalAt now S)
    if (grows || own.isSome) && !ledgerFits s l extra own since then 2 else 0

/-- Slots at which the answer of the Commons can turn: the slot asked for, and the first slots at which every lead has
run or at which the ledger changes under one of the request's grants; from slot `j` to slot `hi` (R530). -/
def turningSlots (s : State) (p : Pending) (extra : List Grant) (j hi : Nat) : List Nat :=
  let leads := 0 :: ((newNeeds s p).map fun x => opLead x.op) ++ extra.map fun g => p.sT - g.start
  let tails := extra.filterMap fun g => g.stop.map fun e => e - p.sT
  let pts := s.cad.now :: (s.ledger.flatMap fun g => g.start :: g.stop.toList) ++ s.cur.pending.map (·.sT)
  let at0 := pts.flatMap fun c => (leads.map (c + ·)) ++ tails.map (c - ·)
  let slots := at0.flatMap fun S => let k := ceilDiv (S * 2 ^ 32) s.cad.rnum; [k - 1, k, k + 1]
  let l := (j :: slots).filter fun k => decide (j ≤ k ∧ k ≤ hi)
  l.foldl (fun (acc : List Nat) k => if acc.contains k then acc
    else (acc.takeWhile fun x => decide (x < k)) ++ [k] ++ acc.dropWhile fun x => decide (x < k)) []

/-- T' of R530: the first of the slot starts at which the Commons admits the commit. -/
def delayed (s : State) (mk : Nat → Pending) (extra : Nat → List Grant) : List Nat → Option Pending
  | [] => none
  | j :: js =>
    let p := mk j
    if admits s p (extra p.sT) = 0 then some p else delayed s mk extra js

/-- The Commons refuses: counters, and EV_LEAVE_REFUSED (R530, R463, R545). -/
def leaveRefused (op peak id : Nat) (s : State) : State :=
  { s with pow := { s.pow with refused := satAdd 32 s.pow.refused 1 },
           cur := { s.cur with refusals := satAdd 32 s.cur.refusals 1 } }.post evLeaveRefused [(1, op), (3, 0), (4, peak), (4, id)]

/-! ### Domains (R522, R525) -/

/-- Domains that an operation's leave powers. -/
def opDomains (v : View) (op unit : Nat) : List Nat :=
  match op with
  | 0 => [27, 24, 26, 25, 28, 30]
  | 1 => [9 + unit, 1 + unit, 5 + unit]
  | 2 => [22 + unit]
  | 3 => let g := v.gallery unit; if g < 9 then [13 + g] else []
  | 8 => [29]
  | _ => []

/-- Domains that leave in effect at a sample needs. -/
def State.neededDomains (s : State) (S : Nat) : List Nat :=
  0 :: (leaveAt s.ledger S).flatMap (fun n => opDomains s.view n.op n.unit) ++
    ((s.gal.migr.filter fun m => !m.planned || decide (m.warm ≤ S + opLead 12)).map fun m => 13 + m.target) ++
    (s.ledger.filter fun g => g.holds S && g.op == 12).filterMap fun g =>
      (s.gal.migr.find? (·.pos == g.unit)).map fun m => 13 + m.target

/-- A domain has power. -/
def State.isUp (s : State) (d : Nat) : Bool := s.pow.domains.testBit d

/-- A domain gets power; one left down stays down (R536, R554). -/
def State.powerUp (s : State) (d : Nat) : State :=
  if s.pow.down.contains d then s else { s with pow := { s.pow with domains := s.pow.domains ||| 2 ^ d } }

/-- A domain loses power. -/
def State.powerOff (s : State) (d : Nat) : State :=
  if s.isUp d then { s with pow := { s.pow with domains := s.pow.domains - 2 ^ d } } else s

/-- POWER_STATUS (R545). -/
def powerStatusBytes (s : State) : List Byte :=
  let l := s.ledger
  let S := s.cad.now
  let cen (mw : Nat) : Nat := mw / 10
  let b := s.block btCommons []
  let by0 (op : Nat) : Nat := ((leaveAt l S).filter (·.op == op)).foldl (fun n x => n + x.peak) 0
  let ahead := (changePoints l (S + 1)).foldl (fun m x => max m (totalAt l x)) 0
  fields ([(2, b.u 0 2), (2, cen (totalAt l S)), (2, 780), (2, cen ahead), (4, s.pow.domains), (1, b.u 2 1), (3, 0),
      (4, b.u 4 4), (4, s.pow.delayed), (4, s.pow.refused), (4, s.pow.fallows)] ++
    ((List.range 31).map fun d => (2, (tget (0, []) s.pow.faults d).1)) ++ [(2, 0)] ++
    ((List.range 13).map fun op => (2, cen (by0 op))) ++ [(6, 0)])

/-- POWER_STATUS (R545). -/
def powerStatusBody (r : Req) (s : State) : Effect := do
  r.lenIs 0
  return (s, powerStatusBytes s)

end Sys2Proof.Machine
end

