-- ==== Sys2Proof/Machine/Housekeeping.lean ====
section
/-! DEFINITION. Housekeeping converters and calibration (14): scans, injected conversions, calibration windows,
the REF_NODE cross-check, HOUSEKEEPING and CAL_REPORT records, and the commands of R393. -/
namespace Sys2Proof.Machine

/-- Replace the housekeeping state. -/
def State.setHk (s : State) (h : Hk) : State := { s with hk := h }

/-- A converter: 0 HKA, 1 HKB. -/
def State.conv (s : State) (c : Nat) : HkConv := tget {} s.hk.convs c

/-- Replace a converter. -/
def State.setConv (s : State) (c : Nat) (x : HkConv) : State := s.setHk { s.hk with convs := tset s.hk.convs c x }

/-- The committed HOUSEKEEPING block. -/
def State.hkBlock (s : State) : Block := s.block btHousekeeping []

/-- Length of a conversion at a rate code, in fs-samples (R378). -/
def convSpan (q : Nat) : Nat :=
  1000 * (64 + [2560, 5120, 10240, 25600, 51200, 102400, 256000, 512000, 1024000].getD q 1024000)

/-- The scan of a converter: (input, rate code) entries (R381). -/
def scanList (b : Block) (c : Nat) : List (Nat × Nat) :=
  let entry (i : Nat) : Nat × Nat := let e := b.u (8 + 2 * i) 2; (bitsOf e 0 5, bitsOf e 8 4)
  let ha := b.u 4 1
  if c = 0 then (0, 2) :: (List.range ha).map entry
  else (List.range 22).map (fun i => (i, 2)) ++ (List.range (b.u 5 1)).map fun i => entry (ha + i)

/-- FPLL's CLOCK lacuna runs (R71, R384). -/
def hkLost (s : State) : Bool := (clockLoss s.cad [4]).isSome

/-! ### What starts at a boundary (R382, R383) -/

/-- Order of two actions: named time, input, number (R382). -/
def injectLess (c : Cad) (a b : Action) : Bool :=
  let key (x : Action) : Nat := match x.act with | .inject _ i _ => i | _ => 0
  decide (ctPos c a.time < ctPos c b.time) || (ctPos c a.time == ctPos c b.time &&
    (decide (key a < key b) || (key a == key b && decide (a.id < b.id))))

/-- The injected conversion of a converter that comes first among those named at or before `t` (R382); none while FPLL's
lacuna defers them (R54). -/
def nextInject (s : State) (conv t : Nat) : Option Action :=
  let l := s.cur.actions.filter fun a =>
    (match a.act with | .inject x _ _ => x == conv | _ => false) && decide (sampleOf s.cad a.time ≤ t) && !hkLost s
  l.foldl (fun (m : Option Action) a => match m with
    | none => some a
    | some b => if injectLess s.cad a b then some a else some b) none

/-- Calibration windows due at or before `t` (R383); a window that a lacuna cut or defers waits for the resumption (R54,
R384). -/
def dueWindows (s : State) (t : Nat) : List CalWin :=
  (s.hk.due.filter fun w => decide (w.at0 ≤ t) && !(w.again && hkLost s)) ++
    s.cur.actions.filterMap fun a => match a.act with
      | .cal k u sched =>
        let S := sampleOf s.cad a.time
        if S ≤ t ∧ !hkLost s then some { at0 := S, kind := k, unit := u, sched := sched, leave := true, late := a.late } else none
      | _ => none

/-- An action leaves the schedule. -/
def State.dropAction (s : State) (id : Nat) : State :=
  { s with cur := { s.cur with actions := s.cur.actions.filter fun a => a.id != id } }

/-- A converter starts a conversion. -/
def startJob (c input rate kind t : Nat) (late : Bool) (s : State) : State :=
  let x := s.conv c
  s.setConv c { x with job := some { input := input, rate := rate, kind := kind, start := t, stop := t + convSpan rate,
                                     bad := hkLost s, late := late } }

/-- A converter at boundary `t` starts the first item of R382, or waits for a calibration window (R383). -/
def hkNext (c t : Nat) (s : State) : State :=
  let x := s.conv c
  if !s.hk.isOn then s
  else
    match nextInject s c t with
    | some a => (match a.act with
      | .inject _ i q => startJob c i q 1 t a.late (s.dropAction a.id)
      | _ => s)
    | none =>
      if !(dueWindows s t).isEmpty then s.setConv c { x with job := none, ready := t }
      else
        let e := (scanList s.hkBlock c).getD x.pos (0, 2)
        let s := if x.pos = 0 then s.setConv c { x with entries := [], cut := false } else s
        startJob c e.1 e.2 0 t false s

/-- An idle converter takes an injected conversion that has become due by `t`, at its own boundary (R382). -/
def hkAdvance (c t : Nat) (s : State) : State :=
  let x := s.conv c
  if !s.hk.isOn || x.job.isSome then s
  else
    match nextInject s c t with
    | some a => (match a.act with
      | .inject _ i q =>
        let due := if a.late then s.cad.now else sampleOf s.cad a.time
        startJob c i q 1 (max x.ready (roundUp due 1000)) a.late (s.dropAction a.id)
      | _ => s)
    | none => s

/-- Both converters restart their scans at the first modulator-period boundary at or after `t` (R381, R384). -/
def hkStart (t : Nat) (s : State) : State :=
  let t := roundUp t 1000
  let s := s.setHk { s.hk with isOn := true, win := none, convs := [] }
  hkNext 1 t (hkNext 0 t s)

/-! ### Records (R390) -/

/-- REF_NODE disagreement of the latest values, HKA less HKB over their mean, as a fraction (R385). -/
def refDiff (s : State) : Option (Int × Int) :=
  match tfind s.hk.refs 0, tfind s.hk.refs 1 with
  | some a, some b => if a + b = 0 then none else some (2 * (a - b), a + b)
  | _, _ => none

/-- REF_MISMATCH in 0.0001 %; a free value while there is no disagreement to state (R390; DESIGN CHOICE, log 51). -/
def refMismatch (s : State) : Int × State :=
  match refDiff s with
  | some (d, m) =>
    let z := rhe (d * 1000000 * (if m < 0 then -1 else 1)) m.natAbs
    (if Config.mismatchFlip then -z else z, s)
  | none => s.freeInt

/-- Tag of the spans in which the converters are mismatched (R385). -/
def mismatchTag := calTag 7 0xFF

/-- R385: the cross-check after a REF_NODE conversion. -/
def crossCheck (s : State) : State :=
  match refDiff s with
  | none => s
  | some (d, m) =>
    let lim : Nat := if s.hk.mismatch then 4 else 5
    let bad := decide (lim * m.natAbs < d.natAbs * 10000)
    let s' := s.setHk { s.hk with mismatch := bad }
    let s' := if bad then s'.staleFrom mismatchTag s.cad.now else s'.staleEnd mismatchTag s.cad.now
    if bad && !s.hk.mismatch then
      let (z, s') := refMismatch s'
      s'.post evHkMismatch [(4, ofInt 32 z)]
    else s'

/-- A REF_NODE value of a converter arrives. -/
def takeRef (c : Nat) (code : Int) (s : State) : State := crossCheck (s.setHk { s.hk with refs := tset s.hk.refs c code })

/-- Resistance mode of an input (R380). -/
def resistive (b : Block) (c input : Nat) : Bool :=
  decide (24 ≤ input) && (b.u 6 2).testBit (input - 24 + 8 * c)

/-- VALUE where the manual gives the conversion from the code: reference voltages and the external inputs; the
attenuation of supplies and the scale of temperature sensors are not given (R379, R390; DESIGN CHOICE, log 51). -/
def hkValue (b : Block) (c : Nat) (e : HkEntry) : Option Nat :=
  if resistive b c e.input then some (f32 (e.code * 120000) 1 (-23))
  else if 24 ≤ e.input ∨ (c = 0 ∧ e.input ≤ 20) ∨ (c = 1 ∧ e.input = 0) then some (f32 (e.code * 6) 5 (-23))
  else none

/-- Bytes of the entries of a record whose first conversion starts at `first` (R390). -/
def hkEntries (c first : Nat) : List HkEntry → State → List Byte × State
  | [], s => ([], s)
  | e :: es, s =>
    let b := s.hkBlock
    let (v, s) := match hkValue b c e with
      | some v => (v, s)
      | none => (Config.freeNat s.free, { s with free := s.free + 1 })
    let full := e.code == 8388607 || e.code == -8388608
    let bytes := fields [(1, e.input), (1, e.rate), (1, b2n (resistive b c e.input) + 2 * b2n full), (1, 0),
      (4, (e.start - first) / 1000), (4, ofInt 32 e.code), (4, v)]
    let (rest, s) := hkEntries c first es s
    (bytes ++ rest, s)

/-- A lacuna of a housekeeping stream ends with the first record after it (R384). -/
def hkClose (h st lo : Nat) (s : State) : State :=
  if (s.stream (skey h st)).gap.isSome && !hkLost s then s.closeGap h st lo else s

/-- Produce a HOUSEKEEPING record: KIND 0 scan pass, 1 injected (R54, R390). -/
def hkRecord (c kind : Nat) (l : List HkEntry) (late : Bool) (s : State) : State :=
  let b := s.hkBlock
  let lo := (l.headD ⟨0, 0, 0, 0⟩).start
  let last := l.getLastD ⟨0, 0, 0, 0⟩
  let hi := last.start + convSpan last.rate
  let h := b.u 0 2
  let (m, s) := refMismatch s
  let (bytes, s) := hkEntries c lo l s
  if b.u 2 1 = 0xFF || l.isEmpty then s
  else
    (hkClose h (b.u 2 1) lo s).produce
      { typ := rtHousekeeping, handle := h, stream := b.u 2 1, time := ctOf s.cad lo, sample := lo, lo := lo, hi := hi,
        quality := cadQuality s.cad lo hi ||| s.staleQ [calTag 5 0xFF, mismatchTag] lo hi ||| qIf s.hk.mismatch qCalStale ||| qIf late qLate,
        body := fields [(1, c), (1, kind), (2, l.length), (4, ofInt 32 m), (24, 0)] ++ bytes }

/-- Temperatures and supplies that HKB measures set THERMAL and SUPPLY (R461); the scale of their codes is not given, so
whether a value lies in the range is free (DESIGN CHOICE, log 51). -/
def hkAlert (c input : Nat) (s : State) : State :=
  if c ≠ 1 ∨ input = 0 ∨ 22 ≤ input then s
  else
    let (f, s) := s.freeNat
    if f % 2 = 1 then s.alert (if input ≤ 10 then alThermal else alSupply) else s

/-- CONVERSION_END (R382, R385, R390). -/
def conversionEnd (c t : Nat) (code : Int) (s : State) : State :=
  let s := hkAdvance c t (s.tick t)
  let x := s.conv c
  match x.job with
  | none => s
  | some j =>
    if j.kind = 2 ∨ j.stop ≠ t ∨ 2 ≤ c then s
    else
      let bad := j.bad || hkLost s
      let s := if j.input = 0 && !bad then takeRef c code s else s
      let s := if bad then s else hkAlert c j.input s
      let e : HkEntry := ⟨j.input, j.rate, j.start, code⟩
      let s :=
        if j.kind = 1 then (if bad then s else hkRecord c 1 [e] j.late s)
        else if j.kind = 0 then
          let x := { x with job := none, entries := if bad then x.entries else x.entries ++ [e], cut := x.cut || bad,
                            pos := (x.pos + 1) % (scanList s.hkBlock c).length }
          let s := s.setConv c x
          if x.pos = 0 && !x.cut then hkRecord c 0 x.entries false s else s
        else s
      hkNext c t s

/-! ### Calibration windows (R383 to R391) -/

/-- Schedule the window of CAL_SCHEDULE for a kind and unit, of the first turn at or after `e` turns from the
anchor (R389). A window without leave is refused then and never started. -/
def scheduleCal (k u e : Nat) (s : State) : State :=
  let b := s.block btCalSchedule [k, u]
  let p := b.u 4 4
  let tag := calTag k u
  let s := s.setHk { s.hk with skipped := tdel s.hk.skipped tag }
  if p = 0 then s
  else
    let o := b.u 8 4
    let e := e + (o + p - e % p) % p
    let t : CT := ⟨(s.cad.turnInit + e) % 2 ^ 48, 0, 0⟩
    let S := sampleOf s.cad t
    let g : Grant := ⟨11, tag, 500, S, some (S + calSpan), 0⟩
    if grantFits s g then s.schedule 0 t none (.cal k u true)
    else leaveRefused 11 500 0 (s.setHk { s.hk with skipped := tset s.hk.skipped tag e })

/-- Turns elapsed since the anchor at a cadence time of a scheduled window. -/
def turnsSince (c : Cad) (S : Nat) : Nat := slotAt c S 1 / c.spt

/-- Turns whose refused window would have started by now are passed over, and the next ones are scheduled (R389). -/
def skipRefused (s : State) : State :=
  (s.hk.skipped.filter fun e => decide (slotStart s.cad (e.2 * s.cad.spt) ≤ s.cad.now)).foldl (fun s e =>
    scheduleCal (e.1 / 256) (e.1 % 256) (e.2 + 1) s) s

/-- A CAL_SCHEDULE block takes effect (R389, R392). -/
def applyCalSchedule (b : Block) (s : State) : State :=
  let k := b.u 0 1
  let u := b.u 1 1
  let s := { s with cur := { s.cur with actions := s.cur.actions.filter fun a => a.act != .cal k u true } }
  scheduleCal k u (ceilDiv (slotAt s.cad s.cad.now 1 + b2n (slotStart s.cad (slotAt s.cad s.cad.now 1) != s.cad.now)) s.cad.spt) s

/-- A HOUSEKEEPING block takes effect: changed scans restart (R381, R392). -/
def applyHousekeeping (old new : Block) (s : State) : State :=
  [0, 1].foldl (fun s c =>
    if scanList old c = scanList new c then s
    else
      let x := s.conv c
      s.setConv c { x with pos := 0, entries := [], cut := false,
                           job := x.job.map fun (j : HkJob) => if j.kind = 0 then { j with kind := 3 } else j }) s

/-- CAL_WINDOW_START (R383): both converters wait at a boundary; the due window of lowest kind and unit starts. -/
def calWindowStart (t : Nat) (s : State) : State :=
  let s := hkAdvance 1 t (hkAdvance 0 t (s.tick t))
  let a := s.conv 0
  let b := s.conv 1
  let l := dueWindows s t
  let best := l.foldl (fun (m : Option CalWin) w => match m with
    | none => some w
    | some v => if w.kind < v.kind ∨ (w.kind = v.kind ∧ w.unit < v.unit) then some w else some v) none
  match best with
  | none => s
  | some w =>
    if !s.hk.isOn || s.hk.win.isSome || a.job.isSome || b.job.isSome || max a.ready b.ready != t then s
    else
      let act := s.cur.actions.find? fun x => x.act == .cal w.kind w.unit w.sched && sampleOf s.cad x.time == w.at0
      let s := if s.hk.due.contains w then s.setHk { s.hk with due := s.hk.due.erase w }
        else match act with | some x => s.dropAction x.id | none => s
      let s := s.setHk { s.hk with win := some { w with at0 := t, again := false } }
      let s := [0, 1].foldl (fun s c =>
        let x := s.conv c
        s.setConv c { x with job := some { input := 0, rate := 2, kind := 2, start := t, stop := t + calSpan, bad := hkLost s } }) s
      if w.sched then scheduleCal w.kind w.unit (turnsSince s.cad w.at0 + 1) s else s

/-- Limits of a kind in 0.01 ppm: absolute, change, standard error (R387). -/
def calLimits (k : Nat) : Nat × Nat × Nat :=
  match k with
  | 0 => (2000000, 50000, 1000)
  | 1 => (3000000, 100000, 2000)
  | 2 => (1000000, 50000, 1000)
  | 3 => (2000000, 100000, 5000)
  | 4 => (3000000, 100000, 2000)
  | _ => (500000, 20000, 500)

/-- Mean of some codes against an expected code `num / den`, as an error in units of 1 / `scale` (R386, R387). -/
def meanError (scale : Nat) (l : List Int) (num : Int) (den : Nat) : Int :=
  let sum : Int := l.foldl (· + ·) 0
  let all := num * l.length
  rhe ((sum * den - all) * scale * all.sign) all.natAbs

/-- Standard error of the mean of some codes, from their spread, in units of code / `scale`, to nearest (R387; PRESUMED,
PRESUMED, log 126). -/
def meanStdErr (scale : Nat) (l : List Int) (code : Nat) : Nat :=
  let n := l.length
  let sum : Int := l.foldl (· + ·) 0
  let spread := ((n : Int) * (l.foldl (fun a x => a + x * x) 0) - sum * sum).toNat
  (isqrt (4 * spread * scale ^ 2 / (n ^ 2 * (n - 1) * code ^ 2)) + 1) / 2

/-- What a window's conversions measure (R386, R387, R391): IREF against 1.000000 V over 10.000 kOhm; HK_SELF's offset from
the shorted input and gain from the 0.600 V divider; the other references against what they should read. -/
def calMeasure (s : State) (k u : Nat) (r : CalReading) : CalResult :=
  if k = 5 then
    let short := r.target.take 8
    let div := (r.target.drop 8).take 8
    -- 0.600 V is code 4,194,304, less the offset; a code is 1.2 V / 2^23
    { error := meanError 100000000 (div.zip short |>.map fun p => p.1 - p.2) 4194304 1, stdErr := meanStdErr 100000000 div 4194304,
      offErr := rhe (short.foldl (· + ·) 0 * 120000000) (8 * 2 ^ 23), offStd := meanStdErr 120000000 short (2 ^ 23),
      temp := r.temp }
  else
    let (num, den) : Int × Nat := if k = 0 then (20971520, 3)
      else (Config.refCode (calTag k u) (tget (Config.storedTrim (calTag 0 0xFF)) s.hk.trims (calTag 0 0xFF)), 1)
    { error := meanError 100000000 r.target num den, stdErr := meanStdErr (100000000 * den) r.target num.natAbs,
      offErr := 0, offStd := 0, temp := r.temp }

/-- The REF_NODE conversions of a window, in their order, each with its cross-check (R383, R385). -/
def takeRefs (r : CalReading) (s : State) : State :=
  let s := (r.refA.zip r.refB).foldl (fun s p => takeRef 1 p.2 (takeRef 0 p.1 s)) s
  (r.refB.drop r.refA.length).foldl (fun s z => takeRef 1 z s) s

/-- RESULT values that a measurement earns: 1 limit, 2 change, 3 standard error, 4 mismatch (R387, R388). -/
def calFails (s : State) (k u : Nat) (r : CalResult) : List Nat :=
  let tag := calTag k u
  let (a, c, e) := calLimits k
  let last := tget (Config.storedError tag) s.hk.errs tag
  let lastOff := tget (Config.storedOffset tag) s.hk.offErrs tag
  let self := k == 5
  let one (b : Bool) (n : Nat) : List Nat := if b then [n] else []
  one (decide (a < r.error.natAbs) || (self && decide (500000000 < r.offErr.natAbs))) 1 ++
  one (decide (c < (r.error - last).natAbs) || (self && decide (20000 < (r.offErr - lastOff).natAbs))) 2 ++
  one (decide (e < r.stdErr) || (self && decide (200 < r.offStd))) 3 ++ one s.hk.mismatch 4

/-- Channels whose records a pass unsettles (R388). -/
def unsettledBy (k u : Nat) : List Nat :=
  match k with | 0 => List.range 48 | 1 => (List.range 12).map (12 * u + ·) | _ => []

/-- A CAL_REPORT record, and the body kept for CAL_STATUS (R54, R391, R393). -/
def calReport (k u res : Nat) (sched late : Bool) (r : CalResult) (old new : Int) (lo hi : Nat) (s : State) : State :=
  let (m, s) := refMismatch s
  let b := s.hkBlock
  let stale := (1 ≤ k ∧ k ≤ 4) && s.calSpans.any fun p => p.tag == calTag 0 0xFF && p.hi.isNone
  let self := k == 5
  let body := fields [(1, k), (1, u), (1, res), (1, b2n stale + 2 * b2n sched), (4, ofInt 32 r.error), (4, r.stdErr),
    (4, ofInt 32 old), (4, ofInt 32 new), (4, ofInt 32 m), (8, hi), (2, ofInt 16 r.temp),
    (4, if self then ofInt 32 r.offErr else 0), (4, if self then r.offStd else 0), (22, 0)]
  let s := s.setHk { s.hk with reports := tset s.hk.reports (calTag k u) body }
  if b.u 3 1 = 0xFF then s
  else
    (hkClose (b.u 0 2) (b.u 3 1) lo s).produce
      { typ := rtCalReport, handle := b.u 0 2, stream := b.u 3 1, time := ctOf s.cad lo, sample := lo, lo := lo,
        hi := max hi (lo + 1), quality := cadQuality s.cad lo (max hi (lo + 1)) ||| qIf late qLate, body := body }

/-- A window that a CLOCK lacuna or a PD30 fault cut: no result, and it runs again after resumption (R384). -/
def abandonWindow (w : CalWin) (t : Nat) (s : State) : State :=
  let s := s.setHk { s.hk with win := none, due := s.hk.due ++ [{ w with at0 := t, again := true, late := false }],
                               convs := tmap s.hk.convs fun _ x => { x with job := none, ready := t } }
  s.post evCalAbandoned [(1, w.kind), (1, w.unit)]

/-- A window's measurement is judged at its last sample (R388). -/
def judgeWindow (w : CalWin) (x : CalReading) (t : Nat) (s : State) : State :=
  let k := w.kind
  let u := w.unit
  let tag := calTag k u
  let s := takeRefs x s
  let r := calMeasure s k u x
  let bad := calFails s k u r
  let old := tget (Config.storedTrim tag) s.hk.trims tag
  if bad.isEmpty then
    let s := s.staleEnd tag t
    -- the correction of R386 is a whole number of ppm; a remainder's rounding, and HK_SELF's, are free (DESIGN CHOICE, log 51)
    let (new, s) := if k = 5 ∨ r.error % 100 ≠ 0 then s.freeInt else (old - r.error / 100, s)
    let h := s.hk
    let s := s.setHk { h with trims := tset h.trims tag new, errs := tset h.errs tag r.error,
                              offErrs := tset h.offErrs tag r.offErr }
    let s := calReport k u 0 w.sched w.late r old new w.at0 t s
    (unsettledBy k u).foldl (fun s c => s.setCh c ((s.ch c).mark 5 qUnsettled t (some (t + 1024)))) s
  else
    let (f, s) := if bad.length = 1 then (0, s) else s.freeNat
    let res := bad.getD (f % bad.length) 1
    let s := calReport k u res w.sched w.late r old old w.at0 t s
    (s.staleFrom tag t).post evCalFail [(1, k), (1, u), (1, res)]

/-- CAL_WINDOW_END (R383, R384, R388). -/
def calWindowEnd (t : Nat) (r : CalReading) (s : State) : State :=
  let s := s.tick t
  match s.hk.win with
  | none => s
  | some w =>
    if t != w.at0 + calSpan then s
    else
      let bad := hkLost s || (s.hk.convs.any fun x => match x.2.job with | some j => j.bad | none => false)
      let s := if bad then abandonWindow w t s
        else judgeWindow w r t (s.setHk { s.hk with win := none, convs := tmap s.hk.convs fun _ x => { x with job := none } })
      hkNext 1 t (hkNext 0 t s)

/-- PD30 loses power or faults: conversions stop, a running window is cut (R384). -/
def hkStop (s : State) : State :=
  let s := match s.hk.win with | some w => abandonWindow w s.cad.now s | none => s
  s.setHk { s.hk with isOn := false, convs := [] }

/-- A CLOCK lacuna of FPLL touches the running conversions (R384). -/
def hkTouch (s : State) : State :=
  s.setHk { s.hk with convs := tmap s.hk.convs fun _ x => { x with job := x.job.map fun (j : HkJob) => { j with bad := true } } }

/-- The first windows of a wing or of the outputs, which run on WING or OUTPUTS leave (R583). -/
def firstWindows (l : List (Nat × Nat)) (t : Nat) (s : State) : State :=
  let S := slotStart s.cad (slotAt s.cad t 1 + 1)
  s.setHk { s.hk with due := s.hk.due ++ l.map fun p => { at0 := S, kind := p.1, unit := p.2 } }

/-- TDC_CALIBRATION (R344, R391): a record only when it fails, or passes after a fail. -/
def tdcCalibration (pass : Bool) (r : CalResult) (t : Nat) (s : State) : State :=
  let s := s.tick t
  let now := s.cad.now
  let tag := calTag 6 0xFF
  let stale := s.calSpans.any fun p => p.tag == tag && p.hi.isNone
  let (old, s') := s.freeInt
  let (new, s') := s'.freeInt
  if pass then
    if stale then calReport 6 0xFF 0 false false r old new now now (s'.staleEnd tag now) else s
  else
    let (f, s') := s'.freeNat
    let res := 1 + f % 3
    ((calReport 6 0xFF res false false r old old now now s').staleFrom tag now).post evCalFail [(1, 6), (1, 0xFF), (1, res)]

/-! ### Commands (R393) -/

/-- HK_INJECT (R382, R393). -/
def hkInjectBody (r : Req) (s : State) : Effect := do
  r.lenIs 16
  r.rsvIs 13 3
  let t := ctOfBytes r.params 0
  ensure (r.u 10 1 ≤ 1) eRange 10
  ensure (r.u 11 1 ≤ 31) eRange 11
  ensure (r.u 12 1 ≤ 8) eRange 12
  schedCheck s t 0 4 []
  let n := (s.cur.actions.filter fun a => match a.act with | .inject c _ _ => c == r.u 10 1 | _ => false).length
  ensure (n < 16) eScheduleFull
  return (s.schedule r.fn t none (.inject (r.u 10 1) (r.u 11 1) (r.u 12 1)), [])

/-- CAL_START (R389, R393). -/
def calStartBody (r : Req) (s : State) : Effect := do
  r.lenIs 16
  r.rsvIs 12 4
  let t := ctOfBytes r.params 0
  let k := r.u 10 1
  let u := r.u 11 1
  ensure (k ≤ 5) eRange 10
  ensure (calUnitOk k u) eRange 11
  schedCheck s t 0 4 []
  ensure (!s.cur.actions.any fun a => a.time == t && (a.act == .cal k u true || a.act == .cal k u false)) eTimeConflict
  let S := sampleOf s.cad t
  ensure (grantFits s ⟨11, calTag k u, 500, S, some (S + calSpan), 0⟩) eLeaveRefused
  return (s.schedule r.fn t none (.cal k u false), [])

/-- What a refused CAL_START leaves: EV_LEAVE_REFUSED when the Commons refused it (R530). -/
def calStartRefused (e : Err) (s : State) : State := if e.code = eLeaveRefused then leaveRefused 11 500 0 s else s

/-- CAL_STATUS (R393): free bytes while no calibration of the kind and unit has reported (DESIGN CHOICE, log 51). -/
def calStatusBody (r : Req) (s : State) : Effect := do
  let (k, u) ← r.twoNum
  ensure (k ≤ 6) eRange 0
  ensure (if k = 6 then u == 0xFF else calUnitOk k u) eRange 2
  let tag := calTag k u
  let stale := s.calSpans.any fun p => p.tag == tag && p.hi.isNone
  match tfind s.hk.reports tag with
  | some b => return (s, b ++ leBytes 1 (b2n stale))
  | none =>
    let (b, s) := s.freeBytes 64
    return (s, b ++ leBytes 1 (b2n stale))

end Sys2Proof.Machine
end

