-- ==== Sys2Proof/Machine/Memory.lean ====
section
/-! DEFINITION. Memory stacks (15): the ZX-288 code, scrubbing, training and lane repair, retirement and
relocation, the trample guard, BAR4 reads and MEMORY_STATUS. -/
namespace Sys2Proof.Machine

/-! ### ZX-288 (R398 to R400) -/

/-- Product by alpha = 2 in GF(2^8) under 0x11D. -/
def gfDouble (a : Byte) : Byte := if a.getLsbD 7 then (a <<< 1) ^^^ 0x1D#8 else a <<< 1

/-- Product in GF(2^8) (R398). -/
def gfMul (a b : Byte) : Byte :=
  ((List.range 8).foldl (fun (p : Byte × Byte) i => (if b.getLsbD i then p.1 ^^^ p.2 else p.1, gfDouble p.2)) (0#8, a)).1

/-- alpha^n. -/
def gfPow : Nat → Byte
  | 0 => 1#8
  | n + 1 => gfDouble (gfPow n)

/-- Syndrome S_j of a word of symbols 0 to 35 (R400). -/
def syndrome (j : Nat) (c : List Byte) : Byte := c.foldl (fun a x => gfMul a (gfPow j) ^^^ x) 0#8

/-- Check symbols 32 to 35 of 32 data symbols: the remainder modulo g(x) (R399). -/
def zxCheck (d : List Byte) : List Byte :=
  let step (r : Byte × Byte × Byte × Byte) (x : Byte) : Byte × Byte × Byte × Byte :=
    let f := x ^^^ r.1
    (r.2.1 ^^^ gfMul f 0x0F#8, r.2.2.1 ^^^ gfMul f 0x36#8, r.2.2.2 ^^^ gfMul f 0x78#8, gfMul f 0x40#8)
  let r := d.foldl step (0#8, 0#8, 0#8, 0#8)
  [r.1, r.2.1, r.2.2.1, r.2.2.2]

/-- The codeword of 32 data symbols (R398). -/
def zxEncode (d : List Byte) : List Byte := d ++ zxCheck d

/-- What the decoder answers (R400). -/
inductive Zx where
  | ok
  | fixed (sym : Nat) (err : Byte)
  | bad
deriving DecidableEq, Repr

/-- The decoder of R400. -/
def zxDecode (c : List Byte) : Zx :=
  let s0 := syndrome 0 c
  let s1 := syndrome 1 c
  let s2 := syndrome 2 c
  let s3 := syndrome 3 c
  if s0 = 0 ∧ s1 = 0 ∧ s2 = 0 ∧ s3 = 0 then .ok
  else if s0 ≠ 0 ∧ s1 ≠ 0 then
    match (List.range 36).find? fun p => gfMul s0 (gfPow p) == s1 with
    | some p => if s2 = gfMul s1 (gfPow p) ∧ s3 = gfMul s2 (gfPow p) then .fixed (35 - p) s0 else .bad
    | none => .bad
  else .bad

/-- The word after correction. -/
def zxRepair (c : List Byte) : List Byte :=
  match zxDecode c with
  | .fixed i e => c.set i (c.getD i 0 ^^^ e)
  | _ => c

/-! ### Bit lanes (R394, R395) -/

/-- Data pins DQ0 to DQ31 and check pins CB0 to CB3 (R394). -/
inductive Pin where
  | dq (i : Nat)
  | cb (i : Nat)
deriving DecidableEq, Repr

/-- Bit lane of a pin, which is the symbol that it carries (R395). -/
def Pin.lane : Pin → Nat
  | .dq i => i
  | .cb i => 32 + i

/-- Symbol `i` of a burst of eight beats of 36 lanes: bit j is lane i in beat j (R395). -/
def symbolAt (beats : List (BitVec 36)) (i : Nat) : Byte :=
  BitVec.ofNat 8 (maskOf ((List.range 8).filter fun j => (beats.getD j 0).getLsbD i))

/-- The codeword that a burst carries (R394, R395). -/
def burstWord (beats : List (BitVec 36)) : List Byte := (List.range 36).map (symbolAt beats)

/-- The burst that carries a codeword (R394, R395). -/
def wordBurst (c : List Byte) : List (BitVec 36) :=
  (List.range 8).map fun j => BitVec.ofNat 36 (maskOf ((List.range 36).filter fun i => (c.getD i 0).getLsbD j))

/-! ### Stacks -/

/-- A stack. -/
def State.stk (s : State) (k : Nat) : Stack := tget {} s.stack k

/-- Replace a stack. -/
def State.setStk (s : State) (k : Nat) (x : Stack) : State := { s with stack := tset s.stack k x }

/-- A pseudo-channel. -/
def Stack.pc (x : Stack) (p : Nat) : PseudoCh := tget {} x.pcs p

/-- Replace a pseudo-channel. -/
def Stack.setPc (x : Stack) (p : Nat) (y : PseudoCh) : Stack := { x with pcs := tset x.pcs p y }

/-- Pseudo-channels in service, rising (R396). -/
def State.service (s : State) (k : Nat) : List Nat := (List.range 32).filter fun p => !s.health.pcs.contains (k, p)

/-- Capacity of a stack in MiB (R257, R412). -/
def State.capacity (s : State) (k : Nat) : Nat := 768 * (s.service k).length

/-- MiB that the Stores take in a stack; STACK 2 counts half in each (R257). -/
def State.stackUse (s : State) (k : Nat) : Nat :=
  s.store.foldl (fun n e =>
    if e.2.on then
      let m := e.2.u 8 4
      if e.2.stack = 2 then n + m / 2 else if e.2.stack = k then n + m else n
    else n) 0

/-- The MEMORY block as committed. -/
def State.memBlock (s : State) : Block := s.block btMemory []

/-! ### Losing Stores, retirement (R283, R410, R411) -/

/-- Records of a Store that no consumer has delivered. -/
def Store.unread (x : Store) : List Rec :=
  x.first ++ x.redo ++ x.head ++ x.head2 ++
    (x.recs.filter fun k => decide ((if x.mode = 1 then x.done else x.release) ≤ k.pos)).map (·.r) ++ x.ahead

/-- R283: a Store is freed; its unread records become a lacuna that its consumer delivers. -/
def freeStore (n k : Nat) (s : State) : State :=
  let x := s.sto n
  let l := lacunaOver s.cad caUncorrectable k x.unread
  let who := s.storeOwner n
  let off (b : Block) : Block := if b.typ == btStore && b.u 0 2 == n then { b with data := putU b.data 2 1 0 } else b
  let s := { s with cur := { s.cur with committed := s.cur.committed.map off } }
  (s.setSto n { first := l, last := x.last, gen := x.gen + 2 }).post evStoreLost [(2, n), (1, k)] who

/-- Stores are freed, highest number first, until the rest fit `cap` MiB of a stack (R411). -/
def shedStores (k cap : Nat) : List Nat → State → State
  | [], s => s
  | n :: ns, s =>
    if s.stackUse k ≤ cap then s
    else shedStores k cap ns (freeStore n k s)

/-- A pseudo-channel is retired (R410, R411, R564); `boot` while no Store exists. -/
def retirePc (k p : Nat) (boot : Bool) (s : State) : State :=
  if s.health.pcs.contains (k, p) then s
  else
    let s := s.setHealth { s.health with pcs := s.health.pcs ++ [(k, p)] }
    let s := deaccession hcPc (logEntry 5 k p 0 s)
    let ns := (s.store.filter fun e => e.2.on && (e.2.stack == k || e.2.stack == 2)).map (·.1)
    let s := if boot then s else shedStores k (s.capacity k) ns.reverse s
    let x := s.stk k
    s.setStk k { x.setPc p { x.pc p with rebuild := none, train := none } with moving := x.moving ++ [p] }

/-- Spares of a pseudo-channel in use (R408). -/
def State.spares (s : State) (k p : Nat) : List (Nat × Nat) :=
  s.health.lanes.filterMap fun l => if l.1 = k ∧ l.2.1 = p then l.2.2.2.map fun sp => (sp, l.2.2.1) else none

/-- A bit lane fails (R408 to R410). -/
def laneFailed (k p lane : Nat) (boot : Bool) (s : State) : State :=
  if s.health.lanes.any (fun l => l.1 == k && l.2.1 == p && l.2.2.1 == lane) then s
  else
    let used := (s.spares k p).length
    let busy := ((s.stk k).pc p).rebuild.isSome
    let spare := if used < 2 && !busy then some used else none
    let s := logEntry 3 k (256 * p + lane) 0 (s.post evLaneFailed [(1, k), (1, p), (1, lane)])
    let s := s.setHealth { s.health with lanes := s.health.lanes ++ [(k, p, lane, spare)] }
    match spare with
    | none => retirePc k p boot s
    | some sp =>
      let x := s.stk k
      let s := if boot then s else s.setStk k (x.setPc p { x.pc p with rebuild := some lane })
      if sp = 1 then deaccession hcRepair s else s

/-- REBUILD_DONE (R408). -/
def rebuildDone (k p : Nat) (s : State) : State :=
  let x := s.stk k
  let y := x.pc p
  match y.rebuild with
  | none => s
  | some lane =>
    if y.train.isSome then s
    else
      let sp := ((s.spares k p).find? fun q => q.2 == lane).elim 0 (·.1)
      logEntry 4 k (256 * p + lane) sp ((s.setStk k (x.setPc p { y with rebuild := none })).post evLaneRepaired
        [(1, k), (1, p), (1, lane), (1, sp)])

/-- RELOCATION_DONE (R411): the oldest relocation of a stack ends. -/
def relocationDone (k : Nat) (s : State) : State :=
  let x := s.stk k
  match x.moving with
  | [] => s
  | p :: ps => (s.setStk k { x with moving := ps }).post evPcRetired [(1, k), (1, p), (1, (s.service k).length)]

/-- RETRAIN_START (R407): the temperature has moved by more than RETRAIN_TEMP from the last training. -/
def retrainStart (k p : Nat) (temp : Int) (s : State) : State :=
  let x := { s.stk k with temp := temp }
  let y := x.pc p
  let lim := 50 * s.memBlock.u 2 1
  if x.st = 0 ∧ (s.service k).contains p ∧ y.train.isNone ∧ lim < (temp - y.temp).natAbs then
    s.setStk k (x.setPc p { y with train := some temp })
  else s

/-! ### Training (R406) -/

/-- The widest run of passing steps, first step and length; the first one among equals (R406; DESIGN CHOICE, log 127). -/
def stepRun (m : BitVec 128) : Nat × Nat :=
  let r := (List.range 128).foldl (fun (a : (Nat × Nat) × Nat × Nat) i =>
    if m.getLsbD i then
      let cur := if a.1.2 = 0 then (i, 1) else (a.1.1, a.1.2 + 1)
      (cur, if a.2.2 < cur.2 then cur else a.2)
    else ((0, 0), a.2)) ((0, 0), (0, 0))
  r.2

/-- Bit lanes of a byte lane or of the check lane (R394). -/
def lanePins (lane : Nat) : List Nat := (List.range (if lane < 4 then 8 else 4)).map (8 * lane + ·)

/-- What a lane's training finds, `dead` its pins that have failed before: the pins that fail and the delay setting (R406). -/
def judgeLane (r : LaneRun) (dead : List Nat) : List Nat × Option Nat :=
  let runs := ((lanePins r.lane).zip (r.pass.map stepRun)).filter fun y => !dead.contains y.1
  let good := runs.filter fun y => decide (12 ≤ y.2.2)
  let lo := good.foldl (fun n y => max n y.2.1) 0
  let hi := good.foldl (fun n y => min n (y.2.1 + y.2.2)) 128
  if good.isEmpty || decide (hi < lo + 12) then (runs.map (·.1), none)
  else ((runs.filter fun y => decide (y.2.2 < 12)).map (·.1), some ((lo + hi - 1) / 2))

/-- Bit lanes of a pseudo-channel that have failed (R408). -/
def State.deadLanes (s : State) (k p : Nat) : List Nat :=
  (s.health.lanes.filter fun l => l.1 == k && l.2.1 == p).map (·.2.2.1)

/-- A lane's training takes effect: its setting, and the pins that fail (R406 to R408). -/
def trainLane (k p : Nat) (boot : Bool) (r : LaneRun) (s : State) : State :=
  let (bad, tap) := if 4 < r.lane then ([], none) else judgeLane r (s.deadLanes k p)
  let x := s.stk k
  let y := x.pc p
  let s := match tap with
    | some t => s.setStk k (x.setPc p { y with taps := tset y.taps (2 * r.lane + b2n r.write) t })
    | none => s
  bad.foldl (fun s lane => laneFailed k p lane boot s) s

/-- RETRAIN_DONE (R406, R407). -/
def retrainDone (k p : Nat) (runs : List LaneRun) (s : State) : State :=
  let x := s.stk k
  let y := x.pc p
  match y.train with
  | none => s
  | some t =>
    runs.foldl (fun s r => trainLane k p false r s) (s.setStk k (x.setPc p { y with train := none, temp := t }))

/-! ### Trample guard (R413, R414) -/

/-- Function that hears of a requester: the owner of its queue, else PF0 (R489). -/
def tramplerFn (s : State) (req : Nat) : Nat :=
  if 16 ≤ req ∧ req < 80 then (tget ({} : Queue) s.queue (req - 16)).fn else 0

/-- Requester of activations that are never throttled: producers' writes and the scrubber (R414). -/
def reqOwn := 256

/-- One activation of a row by a requester (R413, R414). -/
def activate (req : Nat) (a : Nat × Nat) (s : State) : State :=
  let k := a.1
  let x := s.stk k
  let n := tget 0 x.counts a.2 + 1
  if n < s.memBlock.u 0 2 then s.setStk k { x with counts := tset x.counts a.2 n }
  else
    let x := { x with counts := tdel x.counts a.2, targeted := satAdd 64 x.targeted 4 }
    if x.slowed.contains req || req == reqOwn then s.setStk k x
    else (s.setStk k { x with slowed := req :: x.slowed, throttles := satAdd 32 x.throttles 1 }).post evTrample
      [(1, k), (1, req)] (tramplerFn s req)

/-- Activations that a read causes. -/
def activateAll (req : Nat) (rows : List (Nat × Nat)) (s : State) : State := rows.foldl (fun s a => activate req a s) s

/-- THROTTLE_END (R413). -/
def throttleEnd (k req : Nat) (s : State) : State :=
  let x := s.stk k
  s.setStk k { x with slowed := x.slowed.filter (· != req) }

/-- REFRESH_WINDOW (R413): every count returns to zero. -/
def refreshWindow (k : Nat) (s : State) : State := s.setStk k { s.stk k with counts := [] }

/-! ### Words with errors (R279, R402 to R405, R410) -/

/-- An uncorrectable word of a stack is counted and reported; over 16 in a pass retire the pseudo-channel. -/
def badWord (k p granule : Nat) (s : State) : State :=
  let x := s.stk k
  let y := x.pc p
  let x := { x.setPc p { y with uncorr := satAdd 16 y.uncorr 1 } with
    uncorr := satAdd 64 x.uncorr 1, bad := if x.bad.contains granule then x.bad else x.bad ++ [granule] }
  let s := (s.setStk k x).post evMemUncorrectable [(1, 3), (1, k), (1, p), (1, 0), (4, granule)]
  if 16 < y.uncorr + 1 then retirePc k p false s else s

/-- A word that a reader corrected or could not correct. -/
def readWord (w : BadWord) (s : State) : State :=
  if w.fixed then let x := s.stk w.stack; s.setStk w.stack { x with corr := satAdd 64 x.corr 1 }
  else badWord w.stack w.pc w.granule s

/-- Codewords of a pass: eight a granule, 3,145,728 granules a pseudo-channel (R394, R396). -/
def passWords (s : State) (k : Nat) : Nat := 8 * 3145728 * (s.service k).length

/-- A held record turns out uncorrectable, by a word in stack `k` (R273, R279). -/
def spoilRecord (n pos k : Nat) (s : State) : State :=
  let x := s.sto n
  s.setSto n { x with recs := x.recs.map fun (e : Kept) => if e.pos = pos then { e with bad := some k } else e }

/-- A codeword read from a pseudo-channel: the symbol of a failed lane that its spare does not carry yet is free (R395, R408;
DESIGN CHOICE, log 120). -/
def readCodeword (k p : Nat) (beats : List (BitVec 36)) (s : State) : List Byte × State :=
  match ((s.stk k).pc p).rebuild with
  | none => (burstWord beats, s)
  | some lane => let (b, s) := s.freeBytes 1; ((burstWord beats).set lane (b.headD 0), s)

/-- SCRUB_READ (R404, R405, R413): the next codeword of a stack's pass. -/
def scrubRead (k p : Nat) (beats : List (BitVec 36)) (holds : Option (Nat × Nat)) (rows : List (Nat × Nat)) (s : State) : State :=
  let x := s.stk k
  let l := s.service k
  if x.st ≠ 0 ∨ beats.length ≠ 8 ∨ l[x.word / 8 % l.length]? ≠ some p then s
  else
    let granule := x.word / 8 / l.length
    let done := decide (passWords s k ≤ x.word + 1)
    let (word, s) := readCodeword k p beats (activateAll reqOwn rows s)
    let res := zxDecode word
    let s := match res with
      | .ok => s
      | .fixed _ _ => let z := s.stk k; s.setStk k { z with corr := satAdd 64 z.corr 1 }
      | .bad => badWord k p granule s
    let s := match res, holds with | .bad, some (n, pos) => spoilRecord n pos k s | _, _ => s
    let x := s.stk k
    s.setStk k (if done then { x with word := 0, passes := satAdd 32 x.passes 1,
                                      pcs := tmap x.pcs fun _ y => { y with uncorr := 0 } }
      else { x with word := x.word + 1 })

/-! ### BAR4 (R277 to R279) -/

/-- BAR4_READ (R277 to R279, R413). In fallow mode the window reads zero (R540). -/
def bar4Read (fn off len : Nat) (bad : List BadWord) (rows : List (Nat × Nat)) (t : Nat) (s : State) : State :=
  let s := s.tick t
  if s.pow.fallow ≠ 0 then s.send (.readData fn off (zeros len) [])
  else
    let s := activateAll fn rows s
    let s := bad.foldl (fun s w => readWord w s) s
    let (s, bytes) := bar4Bytes s fn off len
    let poison := (List.range len).filter fun i => bad.any fun w => !w.fixed && w.key / 32 == (off + i) / 32
    s.send (.readData fn off bytes poison)

/-! ### MEMORY_STATUS (R417) -/

/-- MEMORY_STATUS (R417). -/
def memoryStatusBytes (s : State) (k : Nat) : List Byte :=
  let x := s.stk k
  let l := s.service k
  fields [(1, k), (1, l.length), (1, if x.moving.isEmpty || x.st != 0 then x.st else 2), (1, 0),
    (4, maskOf ((s.health.pcs.filter (·.1 == k)).map (·.2))), (8, x.corr), (8, x.uncorr), (4, x.passes),
    (4, x.word / 8 / max 1 l.length), (4, x.throttles), (4, 0), (8, x.targeted), (2, ofInt 16 x.temp), (14, 0)] ++
  (List.range 32).flatMap fun p =>
    let y := x.pc p
    let sp := s.spares k p
    let lane (i : Nat) : Nat := ((sp.find? (·.1 == i)).map (·.2)).getD 0xFF
    fields [(1, if !l.contains p then 2 else if y.train.isSome then 3 else if y.rebuild.isSome then 1 else 0),
      (1, sp.length), (1, lane 0), (1, lane 1), (2, ofInt 16 y.temp), (2, y.uncorr)]

/-- MEMORY_STATUS (R417). -/
def memoryStatusBody (r : Req) (s : State) : Effect := do
  let k ← r.oneNum
  ensure (k < 2) eRange 0
  return (s, memoryStatusBytes s k)

end Sys2Proof.Machine
end

