-- ==== Sys2Proof/Machine/Couriers.lean ====
section
/-! DEFINITION. Couriers (16): rings and descriptors, buffers filled from Stores, completions and interrupt
moderation, load queues, draining, stopping and resuming. -/
namespace Sys2Proof.Machine

/-- A queue. -/
def State.qu (s : State) (q : Nat) : Queue := tget {} s.queue q

/-- Replace a queue. -/
def State.setQu (s : State) (q : Nat) (x : Queue) : State := { s with queue := tset s.queue q x }

/-- The committed COURIER_QUEUE block of a queue. -/
def State.quBlock (s : State) (q : Nat) : Block := s.block btCourierQueue [q]

/-- Stores of a queue, in STORES order (R451). -/
def quStores (b : Block) : List Nat := (List.range (b.u 28 1)).map fun i => b.u (32 + 2 * i) 2

/-! ### Element arrays and SWAP (R430) -/

/-- Offset of the element array in the body; none where a record has no array that SWAP changes. -/
def elemStart (r : Rec) : Option Nat :=
  if r.elem = elNone ∨ r.elem = elR12P then none
  else if [rtBins, rtPower, rtTrace, rtSpectrogram, rtSward, rtConcordance].contains r.typ then some 64
  else some 32

/-- Reverse a unit: by bytes, or by 16-bit half-words (R430). -/
def swapUnit (mode : Nat) (u : List Byte) : List Byte := if mode = 1 then u.reverse else (chunks 2 u).reverse.flatten

/-- An element array under SWAP; a trailing part shorter than a unit is not changed (R430). -/
def swapArray (mode unit : Nat) (bs : List Byte) : List Byte :=
  (chunks unit bs).flatMap fun u => if u.length = unit then swapUnit mode u else u

/-- Bytes of a record as a buffer receives them (R430). -/
def swapped (swap : Nat) (r : Rec) : List Byte :=
  let mode := bitsOf swap 0 2
  match elemStart r with
  | none => r.bytes
  | some o =>
    if mode = 0 then r.bytes
    else
      let n := r.count * elemBytes r.elem
      let arr := (r.body.drop o).take n
      { r with body := r.body.take o ++ swapArray mode (2 * 2 ^ bitsOf swap 2 2) arr ++ r.body.drop (o + n) }.bytes

/-! ### Filling a buffer (R428) -/

/-- A buffer as it fills: bytes, whole records, records that begin in it, and whether it continues a record,
ends in one, or is full for the next record. -/
structure Fill where
  bytes  : List Byte := []
  whole  : Nat := 0
  upTo   : Nat := 0
  begun  : Nat := 0
  contIn : Bool := false
  contOut : Bool := false
  full   : Bool := false
deriving DecidableEq, Repr

/-- The item that a Store delivers next, with CORRECTED where a word of it was corrected (R402). -/
def Store.offer (s : State) (fixed : List (Nat × Nat)) (n : Nat) : Option Deliv :=
  let x := s.sto n
  (x.nextItem s.cad (s.view.gridExp x.handle)).map fun d =>
    if d.kind == 4 && fixed.contains (n, d.pos) then { d with r := { d.r with quality := d.r.quality ||| qCorrected } }
    else d

/-- Fill `size` bytes from the Stores of a queue, at most `cap` whole records. A record that continues goes on first;
otherwise the Store whose record comes next is a free choice (R428; DESIGN CHOICE, log 7). -/
def fillBuffer (ns : List Nat) (swap size cap : Nat) (fixed : List (Nat × Nat)) : Nat → State → Fill → State × Fill
  | 0, s, f => (s, f)
  | k + 1, s, f =>
    let ready := ns.filter fun n => (Store.offer s fixed n).isSome
    let going := ready.filter fun n => (s.sto n).part != 0
    let l := if going.isEmpty then ready else going
    let (i, s) := if l.length ≤ 1 then (0, s) else s.freeNat
    match l[i % l.length]? with
    | none => (s, f)
    | some n =>
      match Store.offer s fixed n with
      | none => (s, f)
      | some d =>
        let x := s.sto n
        let rest := (swapped swap d.r).drop x.part
        let room := size - f.bytes.length
        let fresh := x.part == 0
        if f.whole = cap then (s, f)
        else if rest.length ≤ room then
          let s := s.setSto n (x.delivered (s.view.gridExp x.handle) d)
          let bytes := f.bytes ++ rest
          fillBuffer ns swap size cap fixed k s
            { f with bytes := bytes, whole := f.whole + 1, upTo := bytes.length, begun := f.begun + b2n fresh,
                     contIn := f.contIn || !fresh }
        else if f.bytes.isEmpty then
          (s.setSto n { x with part := x.part + room },
            { f with bytes := rest.take room, begun := f.begun + b2n fresh, contIn := !fresh, contOut := true, full := true })
        else (s, { f with full := true })

/-- Bound on the steps of a fill: every record has at least 64 bytes. -/
def fillFuel (size : Nat) : Nat := size / 64 + 2

/-- The writes that place bytes at an address: the first up to the next multiple of MPS, then MPS bytes each, and the rest,
so that none crosses a 4 KiB boundary (R429). -/
def splitWrites (mps : Nat) : Nat → Nat → List Byte → List (Nat × List Byte)
  | 0, _, _ => []
  | f + 1, addr, bytes =>
    if bytes.isEmpty then []
    else
      let n := mps - addr % mps
      (addr, bytes.take n) :: splitWrites mps f (addr + n) (bytes.drop n)

/-- Whole buffer content as writes to host memory (R429). -/
def bufferWrites (s : State) (addr : Nat) (bytes : List Byte) : List (Nat × List Byte) :=
  splitWrites s.boot.mps (bytes.length + 1) addr bytes

/-- A buffer's bytes go to host memory (R429). -/
def State.sendBuffer (s : State) (fn addr : Nat) (bytes : List Byte) : State :=
  (bufferWrites s addr bytes).foldl (fun s w => s.send (.hostWrite fn w.1 w.2)) s

/-! ### Completions (R431 to R435) -/

/-- The queue sends its vector when moderation allows (R432). -/
def quInterrupt (q : Nat) (s : State) : State :=
  let x := s.qu q
  let b := s.quBlock q
  if x.waiting != 0 && (b.u 18 2 ≤ x.waiting || (x.desc.isNone && x.head == x.tail)) then
    (s.setQu q { x with waiting := 0 }).msix x.fn (b.u 3 1)
  else s

/-- The descriptor in flight completes: bytes 16 to 30, then OWN, then the interrupt (R426, R431). -/
def quComplete (q code kind : Nat) (lastBeat : Bool) (f : Fill) (transferred : Nat) (s : State) : State :=
  let x := s.qu q
  match x.desc with
  | none => s
  | some d =>
    let a := (s.quBlock q).u 8 8 + 32 * d.index
    let status := code + 256 * b2n lastBeat + 512 * b2n f.contIn + 1024 * b2n f.contOut + 65536 * kind
    let s := s.send (.hostWrite x.fn (a + 16) (fields [(4, status), (4, transferred), (4, f.begun), (3, 0)]))
    let s := s.send (.hostWrite x.fn (a + 31) [0#8])
    let x := { x with desc := none, reads := [], next := 0, lastSt := code, descs := satAdd 64 x.descs 1, bytes := satAdd 64 x.bytes transferred,
                      waiting := x.waiting + d.ctrl % 2 }
    quInterrupt q (s.setQu q x)

/-- A queue halts (R435). -/
def quHalt (q code kind : Nat) (s : State) : State :=
  let x := s.qu q
  (s.setQu q { x with st := 2 }).post evCourierHalt [(1, q), (1, code), (1, kind), (1, 0), (2, x.head)] x.fn

/-- A queue fetches its next descriptor while it may (R424, R436, R437). -/
def quFetch (q : Nat) (s : State) : State :=
  let x := s.qu q
  let b := s.quBlock q
  let plays := b.u 2 1 == 1 && s.plays (b.u 32 2)
  if x.st = 1 ∧ x.desc.isNone ∧ !x.asked ∧ !x.drain ∧ !plays ∧ x.head ≠ x.tail ∧ s.isUp 25 ∧ s.isUp 24 then
    (s.setQu q { x with asked := true }).send (.hostRead q (b.u 8 8 + 32 * x.head) 32)
  else s

/-- KIND 1 queues of a function, the ones after `q` first (R437). -/
def State.loadQueues (s : State) (fn q : Nat) : List Nat :=
  ((List.range 64).map fun i => (q + 1 + i) % 64).filter fun p => (s.qu p).fn == fn && (s.quBlock p).u 2 1 == 1

/-- Reads that a load queue may still issue: 1,024 outstanding in FLIT mode; at 32 GT/s and below 256, within 768 of its
function's load queues (R437). -/
def State.readRoom (s : State) (q : Nat) : Nat :=
  let own := (s.qu q).reads.length
  if 64 ≤ s.boot.rate then 1024 - own
  else
    let all := (s.loadQueues (s.qu q).fn q).foldl (fun n p => n + (s.qu p).reads.length) 0
    min (256 - own) (768 - all)

/-- A load queue asks for its buffer, in reads of at most MRRS bytes (R437). -/
def issueReads (q : Nat) : Nat → State → State
  | 0, s => s
  | f + 1, s =>
    let x := s.qu q
    match x.desc with
    | none => s
    | some d =>
      if d.len ≤ x.next ∨ x.st ≠ 1 ∨ s.readRoom q = 0 then s
      else
        let n := min s.boot.mrrs (d.len - x.next)
        issueReads q f ((s.setQu q { x with reads := x.reads ++ [(x.next, n)], next := x.next + n }).send
          (.hostRead q (d.addr + x.next) n))

/-- The load queues of a function ask for more, the ones after `q` first (R437). -/
def issueAll (fn q : Nat) (s : State) : State := (s.loadQueues fn q).foldl (fun s p => issueReads p 1024 s) s

/-- DOORBELL_TAIL and DOORBELL_ACK (R424, R425, R432, R435): only the function of the queue reaches its doorbell. -/
def doorbell (fn q : Nat) (v : Word) (ack : Bool) (s : State) : State :=
  let x := s.qu q
  if 64 ≤ q ∨ x.fn ≠ fn ∨ s.pow.fallow ≠ 0 then s
  else
    let size := (s.quBlock q).u 4 4
    let x := { x with tail := v.toNat % 65536 % size, st := if ack && x.st == 2 then 1 else x.st }
    quInterrupt q (quFetch q (s.setQu q x))

/-- A descriptor's host fields are bad (R427). -/
def badDesc (b : List Byte) (load : Bool) : Bool :=
  let len := getU b 8 4
  let swap := getU b 12 1
  getU b 31 1 % 2 == 0 || getU b 31 1 / 2 != 0 || getU b 13 1 / 2 != 0 || getU b 14 2 != 0 || decide (16 ≤ swap) ||
    decide (16777216 < len) || (if load then len % 32 != 0 || len == 0 else decide (len < 32)) ||
    swap % 4 == 3 || swap / 4 == 3 || (swap % 4 == 2 && swap / 4 == 0)

/-- A queue stops on a bad descriptor (R427, R434, R437). -/
def quBad (q : Nat) (s : State) : State := quHalt q 4 0 (quComplete q 4 0 false {} 0 s)

/-- DESCRIPTOR_FETCH (R424, R427, R435): the answer to the outstanding fetch. -/
def descriptorFetch (q : Nat) (d : HostRead) (s : State) : State :=
  let x := s.qu q
  if !x.asked then s
  else
    match d with
    | .fail kind _ _ =>
      let (code, s) := s.freeNat
      quHalt q (code % 256) kind (s.setQu q { x with asked := false, fetch := kind })
    | .data raw =>
      let bytes := padTo 32 raw
      let b := s.quBlock q
      let load := b.u 2 1 == 1
      let desc : Desc := { index := x.head, addr := getU bytes 0 8, len := getU bytes 8 4, swap := getU bytes 12 1,
                           ctrl := getU bytes 13 1 }
      let y := { x with asked := false, fetch := 0, desc := some desc, reads := [], next := 0, head := (x.head + 1) % b.u 4 4 }
      let s := s.setQu q y
      if badDesc bytes load then quBad q s
      else if load then
        -- R437: a buffer must end within the Store's sample area
        if (s.sto (b.u 32 2)).size - 4096 < 2 * y.sample + desc.len then quBad q s
        else issueReads q 1024 s
      else s

/-- Words that a read of the Stores' stack meets: counts, spoiled records, and the corrected ones (R279, R402). -/
def quWords (bad : List BadWord) (s : State) : State × List (Nat × Nat) :=
  let s := bad.foldl (fun s w =>
    let s := readWord w s
    if w.fixed then s else spoilRecord w.key w.pos w.stack s) s
  (s, (bad.filter (·.fixed)).map fun w => (w.key, w.pos))

/-- BUFFER_HAND_BACK (R428): the next record goes to the next buffer; FLUSH_TIMEOUT: no further record is ready. -/
def handBack (q : Nat) (rows : List (Nat × Nat)) (bad : List BadWord) (flush : Bool) (s : State) : State :=
  let x := s.qu q
  let b := s.quBlock q
  match x.desc with
  | none => s
  | some d =>
    if b.u 2 1 = 1 ∨ x.st ≠ 1 then s
    else
      let (s', fixed) := quWords bad (activateAll (16 + q) rows s)
      let (s', f) := fillBuffer (quStores b) d.swap d.len (d.len + 1) fixed (fillFuel d.len) s' {}
      if f.bytes.isEmpty ∨ f.full = flush then s
      else
        let s' := s'.sendBuffer x.fn d.addr f.bytes
        quFetch q (quComplete q 0 0 false f f.bytes.length s')

/-- IRQ_HOLDOFF_EXPIRY (R432). -/
def irqHoldoff (q : Nat) (s : State) : State :=
  let x := s.qu q
  let b := s.quBlock q
  if x.waiting != 0 && b.u 20 4 != 0 then (s.setQu q { x with waiting := 0 }).msix x.fn (b.u 3 1) else s

/-- Samples that bytes spell, 16-bit each. -/
def samplesOfBytes (l : List Byte) : List (BitVec 16) := (chunks 2 l).map fun u => BitVec.ofNat 16 (leNat u)

/-- LOAD_READ_COMPLETION (R435, R437): the oldest outstanding read of a KIND 1 queue's buffer completes, or a translation of
any queue fails. -/
def loadReadCompletion (q : Nat) (d : HostRead) (s : State) : State :=
  let x := s.qu q
  let b := s.quBlock q
  let n := b.u 32 2
  match x.desc with
  | none => s
  | some desc =>
    if x.st ≠ 1 then s
    else if b.u 2 1 = 0 then
      match d with
      | .fail 5 _ _ => if b.u 16 1 = 1 then quHalt q 1 5 (quComplete q 1 5 false {} 0 s) else s
      | _ => s
    else
      let sto := s.sto n
      match x.reads with
      | [] => s
      | (off, len) :: rest =>
        match d with
        | .data bytes =>
          if bytes.length ≠ len then s
          else
            let s := s.setSto n { sto with samples := csetAll sampleDefault sto.samples (x.sample + off / 2) (samplesOfBytes bytes) }
            if rest.isEmpty && decide (desc.len ≤ x.next) then
              issueAll x.fn q (quFetch q (quComplete q 0 0 false {} desc.len (s.setQu q { x with sample := x.sample + desc.len / 2 })))
            else issueAll x.fn q (s.setQu q { x with reads := rest })
        | .fail kind before last =>
          let last := last && decide (desc.len ≤ off + len)
          let good := before.take (if last then len - 32 else before.length / 32 * 32)
          let taken := if last then desc.len else off + good.length
          -- R435: what the rest of the buffer's place in the Store holds is undefined
          let (free, s) := s.freeBytes (desc.len - (off + good.length))
          let held := csetAll sampleDefault sto.samples (x.sample + off / 2) (samplesOfBytes (good ++ free))
          let s := s.setSto n { sto with samples := held }
          quHalt q 1 kind (quComplete q 1 kind last {} taken (s.setQu q { x with sample := x.sample + taken / 2 }))

/-! ### Stopping, draining, resuming (R421, R422, R434, R436, R438) -/

/-- A record that a queue has not wholly delivered is delivered again from its start (R436). -/
def quRestart (q : Nat) (s : State) : State :=
  (quStores (s.quBlock q)).foldl (fun s n => s.setSto n { s.sto n with part := 0 }) s

/-- A descriptor in flight ends early: a free number of whole records has been written, or what a load has taken (R434,
R436). -/
def quAbort (q code : Nat) (s : State) : State :=
  let x := s.qu q
  let b := s.quBlock q
  match x.desc with
  | none => s
  | some d =>
    if b.u 2 1 = 1 then
      let taken := (x.reads.head?.map (·.1)).getD x.next
      quComplete q code 0 false {} taken (s.setQu q { x with sample := x.sample + taken / 2 })
    else
      let (k, s) := s.freeNat
      let all := (fillBuffer (quStores b) d.swap d.len (d.len + 1) [] (fillFuel d.len) s {}).2
      let cap := k % (all.whole + 1)
      let (s, f) := if cap = 0 then (s, {}) else fillBuffer (quStores b) d.swap d.len cap [] (fillFuel d.len) s {}
      let f := { f with bytes := f.bytes.take f.upTo, contOut := false }
      quComplete q code 0 false f f.bytes.length (quRestart q (s.sendBuffer x.fn d.addr f.bytes))

/-- A queue enters STOPPED; nothing more is written (R422, R436). -/
def quStop (q : Nat) (left : Bool) (s : State) : State :=
  let x := s.qu q
  if x.st = 0 then s
  else s.setQu q { x with st := 3, desc := none, reads := [], next := 0, asked := false, drain := false, lastSt := if left then 2 else x.lastSt }

/-- Queues that are enabled. -/
def State.queuesOn (s : State) : List Nat := (s.queue.filter (·.2.st != 0)).map (·.1)

/-- A queue uses a memory stack. -/
def quUses (s : State) (q k : Nat) : Bool :=
  (quStores (s.quBlock q)).any fun n => let st := (s.sto n).stack; st == k || st == 2

/-- Queues whose descriptors use a domain (R436). -/
def drainers (s : State) (d : Nat) : List Nat :=
  s.queuesOn.filter fun q => if d = 22 ∨ d = 23 then quUses s q (d - 22) else d == 24 || d == 25

/-- Transfers in flight that use a domain begin to drain (R436). -/
def beginDrain (d : Nat) (s : State) : State :=
  (drainers s d).foldl (fun s q => s.setQu q { s.qu q with drain := true }) s

/-- What is still in flight on a domain ends (R436). -/
def abortDrain (d : Nat) (s : State) : State :=
  (drainers s d).foldl (fun s q =>
    if d = 24 ∨ d = 25 then (if (s.qu q).desc.isSome then quStop q true s else s) else quAbort q 2 s) s

/-- A domain is up again: its queues fetch (R436). -/
def endDrain (d : Nat) (s : State) : State :=
  (drainers s d).foldl (fun s q => quFetch q (s.setQu q { s.qu q with drain := false })) s

/-- A COURIER_QUEUE block takes effect (R434, R451). Enabling begins at HEAD = TAIL = 0 (DEDUCED, log 52). -/
def applyCourierQueue (old new : Block) (s : State) : State :=
  let q := new.u 0 1
  let x := s.qu q
  if old.u 1 1 = 0 ∧ new.u 1 1 = 1 then
    s.setQu q { x with st := 1, head := 0, tail := 0, desc := none, reads := [], next := 0, asked := false, waiting := 0, sample := new.u 64 8 }
  else if old.u 1 1 = 1 ∧ new.u 1 1 = 0 then
    let s := if x.st = 1 then quAbort q 3 s else s
    s.setQu q { s.qu q with st := 0, desc := none, reads := [], next := 0, asked := false }
  else quInterrupt q s

/-- Fields of a COURIER_QUEUE block that may change while it is enabled: ENABLE, WEIGHT, FLUSH_US, moderation. -/
def quFixed (b : Block) : List Byte := putU (putU (putU b.data 1 1 0) 17 7 0) 24 4 0

/-- A consumer in the configuration: Stores of enabled queues and of the archive, each with its owner (R275). -/
def View.consumers (v : View) : List (Nat × Nat) :=
  ((v.ofType btCourierQueue).filter fun b => b.u 1 1 == 1).flatMap (fun b => (quStores b).map fun n => (n, b.u 0 1)) ++
    let a := v.block btArchive []
    if a.u 0 1 = 1 then (List.range (a.u 3 1)).map fun i => (a.u (16 + 2 * i) 2, 64) else []

/-- Commit check of a COURIER_QUEUE block (R275, R421, R451). -/
def chkCourierQueue (s : State) (v v' : View) (b : Block) : Option Nat :=
  let old := v.block btCourierQueue b.key
  let own := (s.qu (b.u 0 1)).fn
  let owner (n : Nat) : Nat :=
    let st := v'.block btStore [n]
    if st.u 3 1 = 2 then 0 else v'.owner (st.u 4 2)
  if old.u 1 1 = 1 ∧ quFixed old ≠ quFixed b then some eActive
  else if b.u 1 1 = 0 then none
  else if (quStores b).any fun n => decide (1023 < n) || owner n != own ||
      (v'.consumers.any fun c => c.1 == n && c.2 != b.u 0 1) || ((v'.block btStore [n]).u 3 1 == 2) != (b.u 2 1 == 1) then
    some eRange
  else if !distinct (quStores b) then some eRange
  else none

/-- COURIER_ASSIGN (R421, R452). -/
def courierAssignBody (r : Req) (s : State) : Effect := do
  let (q, fn) ← r.twoNum
  ensure (q < 64) eRange 0
  ensure (fn ≤ s.boot.numVfs) eRange 2
  ensure ((s.quBlock q).u 1 1 == 0) eActive
  return (s.setQu q { s.qu q with fn := fn }, [])

/-- One Store of a resumed queue: what the host has not got is delivered again (R438). -/
def resumeStore (c : Cad) (seq : Nat) (x : Store) : Store :=
  match x.last with
  | none => x
  | some last =>
    let wanted (r : Rec) : Bool := (seq == 2 ^ 64 - 1 || decide (seq < r.seq)) && decide (r.seq ≤ last)
    let redo := (x.recs.map (·.r)).filter wanted
    let lost := (x.gone.filter wanted)
    { x with first := lacunaOver c caBackpressure 0 lost, redo := redo ++ x.redo ++ x.first, part := 0 }

/-- COURIER_RESUME (R438, R452). A queue that is not STOPPED is refused with E_ACTIVE (DEDUCED, log 52). -/
def courierResumeBody (r : Req) (s : State) : Effect := do
  r.lenIs 168
  r.rsvIs 2 6
  let q := r.u 0 1
  ensure (q < 64) eRange 0
  let x := s.qu q
  ensure (x.fn == r.fn) eNotOwner
  ensure (x.st == 3) eActive
  let b := s.quBlock q
  let ns := quStores b
  ensure (r.u 1 1 == ns.length) eRange 1
  let ents := (List.range ns.length).map fun i => (r.u (8 + 10 * i) 2, r.u (10 + 10 * i) 8, 8 + 10 * i)
  pass (ents.findSome? fun e =>
    if !ns.contains e.1 then some ⟨eRange, e.2.2, []⟩
    else if e.2.1 != 2 ^ 64 - 1 && (match (s.sto e.1).last with | some l => decide (l < e.2.1) | none => true) then
      some ⟨eRange, e.2.2 + 2, []⟩
    else none)
  ensure (distinct (ents.map (·.1))) eRange 8
  let s := ents.foldl (fun s e => s.setSto e.1 (resumeStore s.cad e.2.1 (s.sto e.1))) s
  return (s.setQu q { x with st := 1, head := 0, tail := 0, desc := none, reads := [], next := 0, asked := false, waiting := 0, sample := b.u 64 8 }, [])

/-- Result of COURIER_STATUS (R453). -/
def courierStatusBytes (s : State) (q : Nat) : List Byte :=
  let x := s.qu q
  let ns := quStores (s.quBlock q)
  let last (i : Nat) : Nat := match ns[i]? with | some n => (s.sto n).last.getD (2 ^ 64 - 1) | none => 2 ^ 64 - 1
  fields ([(1, q), (1, x.st), (1, x.fn), (1, x.lastSt), (2, x.head), (1, x.fetch), (1, 0), (8, x.descs), (8, x.bytes),
    (4, x.merged), (4, x.stale)] ++ (List.range 16).map fun i => (8, last i))

/-- COURIER_STATUS (R453). -/
def courierStatusBody (r : Req) (s : State) : Effect := do
  let q ← r.oneNum
  ensure (q < 64) eRange 0
  ensure (r.fn == 0 || (s.qu q).fn == r.fn) eNotOwner
  return (s, courierStatusBytes s q)

end Sys2Proof.Machine
end

