-- ==== Sys2Proof/Machine/Archive.lean ====
section
/-! DEFINITION. The archive writer (16): chunks on the drives, failures and full drives, endurance, and
ARCHIVE_STATUS. -/
namespace Sys2Proof.Machine

/-- The committed ARCHIVE block. -/
def State.arcBlock (s : State) : Block := s.block btArchive []

/-- The committed ARCHIVE_DRIVE block of a drive. -/
def State.arcDrive (s : State) (d : Nat) : Block := s.block btArchiveDrive [d]

/-- D (R444). -/
def State.arcD (s : State) : Nat := max 1 (s.arcBlock.u 1 1)

/-- Stores of the archive. -/
def arcStores (b : Block) : List Nat := (List.range (b.u 3 1)).map fun i => b.u (16 + 2 * i) 2

/-- A drive. -/
def State.drv (s : State) (d : Nat) : Drive := tget {} s.archive.drives d

/-- Replace a drive. -/
def State.setDrv (s : State) (d : Nat) (x : Drive) : State :=
  { s with archive := { s.archive with drives := tset s.archive.drives d x } }

/-- LBA_SIZE of a drive (R442). -/
def State.lbaSize (s : State) (d : Nat) : Nat := if (s.drv d).big then 4096 else 512

/-- ROWS: the least number of chunks over the drives (R444). -/
def State.arcRows (s : State) : Nat :=
  let l := (List.range s.arcD).map fun d => (s.arcDrive d).u 24 8 * s.lbaSize d / 2 ^ 20
  l.foldl min (l.headD 0)

/-- Stripe row of a chunk (R444). -/
def State.chunkRow (s : State) (c : Nat) : Nat :=
  let r := c / s.arcD
  if s.arcBlock.u 2 1 = 0 then r else r % max 1 s.arcRows

/-- First LBA of a chunk (R444). -/
def State.chunkLba (s : State) (c : Nat) : Nat :=
  let d := c % s.arcD
  (s.arcDrive d).u 16 8 + s.chunkRow c * (2 ^ 20 / s.lbaSize d)

/-- Stream bytes of a chunk (R445). -/
def chunkRoom := 1048512

/-- The 1 MiB of a chunk: header, stream bytes, zeros (R445). -/
def chunkBytes (s : State) (c firstRec : Nat) (stream : List Byte) : List Byte :=
  let head := fields [(4, 0x48435A41), (2, 1), (1, c % s.arcD), (1, s.arcD), (8, c), (8, s.arcBlock.u 8 8), (4, firstRec),
    (4, stream.length), (8, s.chunkRow c), (20, 0)]
  padTo (2 ^ 20) (head ++ leBytes 4 (crc32 (head ++ stream)) ++ stream)

/-- A chunk as it fills: stream bytes, records with a byte in it, offset of the first record that begins in it, and
the bytes left of a record that goes on. -/
structure Filling where
  bytes : List Byte := []
  recs  : List (Nat × Rec) := []
  first : Nat := 0
  rest  : List (Nat × Rec × List Byte) := []
deriving DecidableEq, Repr

/-- A record's remaining bytes enter a chunk; what does not fit continues in the next (R445). -/
def Filling.add (f : Filling) (n : Nat) (r : Rec) (bytes : List Byte) (begins : Bool) : Filling :=
  let room := chunkRoom - f.bytes.length
  { bytes := f.bytes ++ bytes.take room, recs := f.recs ++ [(n, r)],
    first := if begins && f.first == 0 then 64 + f.bytes.length else f.first,
    rest := if bytes.length ≤ room then f.rest else f.rest ++ [(n, r, bytes.drop room)] }

/-- Lacunae for lost records, one for each Store (R447). -/
def lostLacunae (c : Cad) (l : List (Nat × Rec)) : List (Nat × Rec) :=
  ((l.map (·.1)).eraseDups).flatMap fun n =>
    (lacunaOver c caArchiveFull 0 ((l.filter (·.1 == n)).map (·.2))).map fun r => (n, r)

/-- Records from the archive's Stores fill the chunk; which Store comes next is a free choice (R445). -/
def fillChunk (ns : List Nat) (fixed : List (Nat × Nat)) : Nat → State → Filling → State × Filling
  | 0, s, f => (s, f)
  | k + 1, s, f =>
    if chunkRoom ≤ f.bytes.length then (s, f)
    else
      let ready := ns.filter fun n => (Store.offer s fixed n).isSome
      let (i, s) := if ready.length ≤ 1 then (0, s) else s.freeNat
      match ready[i % ready.length]? with
      | none => (s, f)
      | some n =>
        match Store.offer s fixed n with
        | none => (s, f)
        | some d =>
          let x := s.sto n
          fillChunk ns fixed k (s.setSto n (x.delivered (s.view.gridExp x.handle) d)) (f.add n d.r d.r.bytes true)

/-- The number of the next chunk on a drive that works (R447). -/
def nextChunk (s : State) : Nat → Nat → Nat
  | 0, c => c
  | k + 1, c => if (s.drv (c % s.arcD)).failed then nextChunk s k (c + 1) else c

/-- The archive stops when every row of every drive is written (R448). -/
def arcFull (s : State) : State :=
  if s.archive.st = 1 ∧ s.arcBlock.u 2 1 = 0 ∧ s.arcD * s.arcRows ≤ s.archive.next then
    let s := (List.range s.arcD).foldl (fun s d => if (s.drv d).failed then s else s.send (.nvmeFlush d)) s
    ({ s with archive := { s.archive with st := 2 } } : State).post evArchiveFull [(8, s.archive.next)]
  else s

/-- The drives have fallen behind and the writer's staging is full (R447). -/
def stagingFull (a : Archive) : Bool := decide (Config.archiveStaging < a.flying.length)

/-- Records that the writer takes while its staging is full are dropped whole (R447). -/
def dropRecords (fixed : List (Nat × Nat)) (s : State) : State :=
  let (s, f) := fillChunk (arcStores s.arcBlock) fixed (chunkRoom / 64 + 1) s {}
  let a := s.archive
  { s with archive := { a with lost := a.lost ++ f.recs, dropped := satAdd 64 a.dropped f.recs.length } }

/-- Write the next chunk: rest of a record, lacunae for lost records, then records (R444 to R447); only when it is
full, or with `flush` only when it is not. -/
def writeChunk (rows : List (Nat × Nat)) (bad : List BadWord) (flush : Bool) (s : State) : State :=
  let a := s.archive
  if a.st ≠ 1 then s
  else
    let (s', fixed) := quWords bad (activateAll 80 rows s)
    if stagingFull a then dropRecords fixed s'
    else
    let cont := a.rest.filter fun x => !a.lost.contains (x.1, x.2.1)
    let f := cont.foldl (fun (f : Filling) x => f.add x.1 x.2.1 x.2.2 false) {}
    let f := (lostLacunae s.cad a.lost).foldl (fun (f : Filling) x => f.add x.1 x.2 x.2.bytes true) f
    let (s', f) := fillChunk (arcStores s.arcBlock) fixed (chunkRoom / 64 + 1) s' f
    let c := nextChunk s (s.arcD + 1) a.next
    let d := c % s.arcD
    if f.bytes.isEmpty ∨ (decide (chunkRoom ≤ f.bytes.length)) = flush ∨ (s.drv d).failed then s
    else
      let bytes := chunkBytes s c f.first f.bytes
      let b := s'.archive
      let x : Chunk := { drive := d, num := c, bytes := bytes, recs := f.recs }
      let s' := { s' with archive := { b with next := c + 1, rest := f.rest, lost := [], flying := b.flying ++ [x] } }
      arcFull (s'.send (.nvmeWrite d (s.chunkLba c) c bytes))

/-- A drive fails: the chunks that it is writing are lost (R447). -/
def driveFails (d c status : Nat) (s : State) : State :=
  let a := s.archive
  let gone := a.flying.filter (·.drive == d)
  let recs := gone.flatMap (·.recs)
  let s := { s with archive := { a with flying := a.flying.filter (·.drive != d), lost := a.lost ++ recs,
                                        dropped := satAdd 64 a.dropped recs.length } }
  (s.setDrv d { s.drv d with failed := true }).post evDriveFail [(1, d), (1, 0), (2, status), (4, 0), (8, c)]

/-- A Write that failed is retried once (R447). -/
def writeFails (d c status : Nat) (s : State) : State :=
  match s.archive.flying.find? fun x => x.drive == d && x.num == c with
  | none => s
  | some x =>
    if x.again then driveFails d c status s
    else
      let a := s.archive
      let mark (y : Chunk) : Chunk := if y.num = c then { y with again := true } else y
      let s := { s with archive := { a with flying := a.flying.map mark } }
      (s.setDrv d { s.drv d with retries := satAdd 32 (s.drv d).retries 1 }).send (.nvmeWrite d (s.chunkLba c) c x.bytes)

/-- WRITE_COMPLETION (R447). -/
def writeCompletion (d c status : Nat) (s : State) : State :=
  if status ≠ 0 then writeFails d c status s
  else if s.archive.flying.any fun x => x.drive == d && x.num == c then
    let a := s.archive
    let s := { s with archive := { a with flying := a.flying.filter fun x => !(x.drive == d && x.num == c) } }
    s.setDrv d { s.drv d with chunks := satAdd 64 (s.drv d).chunks 1 }
  else s

/-- WRITE_TIMEOUT (R447): no status arrived, so the event's is free (DESIGN CHOICE, log 7). -/
def writeTimeout (d c : Nat) (s : State) : State :=
  let (n, s) := s.freeNat
  writeFails d c (n % 65536) s

/-- SMART_READ (R449). -/
def smartRead (d warn pct spare temp units media : Nat) (s : State) : State :=
  if s.archive.st = 0 ∨ s.arcD ≤ d then s
  else
    let x := s.drv d
    let warns := decide (90 ≤ pct) || warn != 0
    let s := s.setDrv d { x with warn := warn, pct := pct, spare := spare, temp := temp, units := units, media := media,
                                 warned := x.warned || warns }
    if warns && !x.warned then s.post evDriveWarn [(1, d), (1, warn), (1, pct)] else s

/-- An ARCHIVE block takes effect (R449, R454). Enabling starts at chunk 0 (DESIGN CHOICE, log 53); disabling writes what a record
still needs, then flushes every drive. -/
def applyArchive (old new : Block) (big : List Nat) (s : State) : State :=
  if old.u 0 1 = 0 ∧ new.u 0 1 = 1 then
    let ds : Table Drive := (List.range (new.u 1 1)).map fun d => (d, { big := big.contains d })
    { s with archive := { st := 1, drives := ds } }
  else if old.u 0 1 = 1 ∧ new.u 0 1 = 0 then
    let a := s.archive
    let s := if a.st = 1 ∧ !(a.rest.isEmpty && a.lost.isEmpty) then
        let c := nextChunk s (s.arcD + 1) a.next
        let f := (a.rest.filter fun x => !a.lost.contains (x.1, x.2.1)).foldl
          (fun (f : Filling) x => f.add x.1 x.2.1 x.2.2 false) {}
        let f := (lostLacunae s.cad a.lost).foldl (fun (f : Filling) x => f.add x.1 x.2 x.2.bytes true) f
        if (s.drv (c % s.arcD)).failed then s
        else
          ({ s with archive := { a with next := c + 1, rest := [], lost := [] } } : State).send
            (.nvmeWrite (c % s.arcD) (s.chunkLba c) c (chunkBytes s c f.first f.bytes))
      else s
    let s := (List.range s.arcD).foldl (fun s d => if (s.drv d).failed then s else s.send (.nvmeFlush d)) s
    { s with archive := { s.archive with st := 0, flying := [] } }
  else s

/-- The archive writer stops with the link (R422). -/
def arcStop (s : State) : State := { s with archive := { s.archive with st := 0, flying := [] } }

/-- Commit check of the ARCHIVE and ARCHIVE_DRIVE blocks (R442, R454); `dead`: drives that cannot be used. -/
def chkArchive (v v' : View) (dead : List Nat) (b : Block) : Option Nat :=
  let old := v.block btArchive []
  let arc := v'.block btArchive []
  if b.typ = btArchive then
    if old.u 0 1 = 1 ∧ arc.u 0 1 = 1 ∧ putU (putU old.data 0 1 0) 4 4 0 ≠ putU (putU b.data 0 1 0) 4 4 0 then some eActive
    else if arc.u 0 1 = 1 ∧ ((arcStores arc).any fun n => decide (1023 < n) ||
        (v'.consumers.filter fun c => c.1 == n).length != 1 || (v'.block btStore [n]).u 3 1 == 2) then some eRange
    else if arc.u 0 1 = 1 ∧ old.u 0 1 = 0 ∧ (List.range (arc.u 1 1)).any dead.contains then some eArchiveDrive
    else none
  else
    let prev := v.block btArchiveDrive b.key
    if old.u 0 1 = 1 ∧ arc.u 0 1 = 1 ∧ prev.data ≠ b.data then some eActive else none

/-- Result of ARCHIVE_STATUS (R455). -/
def archiveStatusBytes (s : State) : List Byte :=
  let a := s.archive
  fields [(1, a.st), (7, 0), (8, a.next), (8, s.arcRows), (8, a.dropped), (32, 0)] ++
    (List.range s.arcD).flatMap fun d =>
      let x := s.drv d
      fields [(1, b2n x.failed), (1, x.warn), (1, x.pct), (1, x.spare), (2, x.temp), (2, 0), (8, x.units), (8, x.media),
        (8, x.chunks), (4, x.retries), (28, 0)]

/-- ARCHIVE_STATUS (R455). -/
def archiveStatusBody (r : Req) (s : State) : Effect := do
  r.lenIs 0
  return (s, archiveStatusBytes s)

end Sys2Proof.Machine
end

