-- ==== Sys2Proof/Machine/Budget.lean ====
section
/-! DEFINITION. What Stores need: the load of a stream (R37, R38, R257), the Stores' space in the stacks and in BAR4
(R257, R277), the checks of a STORE block (R258, R271, R281, R286), and a STORE block taking effect (R280 to R282). -/
namespace Sys2Proof.Machine

/-! ### Loads (R37, R38, R257, R315, R353) -/

/-- Sum of two fractions. -/
def addQ (a b : Nat × Nat) : Nat × Nat := if b.1 = 0 then a else (a.1 * b.2 + b.1 * a.2, a.2 * b.2)

/-- fs in Hz as a fraction (R45). -/
def View.fsHz (v : View) : Nat × Nat :=
  let b := v.block btCadence []
  let (f, d) := cadFreq b
  (f * cadRnum b, d * 2 ^ 32 * 1000000)

/-- Records per fs-sample as bytes per second. -/
def perSecond (v : View) (len num den : Nat) : Nat × Nat := (len * num * v.fsHz.1, den * v.fsHz.2)

/-- Records of a rule with intervals of `len` slots in each turn, or of `len` turns, as a fraction per fs-sample. -/
def slotRate (v : View) (len : Nat) (turns : Bool) : Nat × Nat :=
  let b := v.block btCadence []
  let spt := cadSpt b
  if turns then (2 ^ 32, len * spt * cadRnum b) else (ceilDiv spt (max 1 len) * 2 ^ 32, spt * cadRnum b)

/-- LENGTH of a record of `n` elements, and the load of their stream: its rate times `size` bytes an element (R143). -/
def sampleLoad (v : View) (e : Int) (n size : Nat) : Nat × Nat × Nat :=
  let (a, b) := ratePos e 1
  (roundUp (96 + n * size) 32, perSecond v size b a)

/-- Largest LENGTH and load in bytes per second of a spectral stream (R159 to R163, R170). -/
def spectralLoad (v : View) (h : Nat) (b : Block) : Nat × Nat × Nat :=
  let len := 128 + roundUp (b.u 8 4 * (if b.u 3 1 = 1 then 6 else 4)) 32
  let (hn, hd) := hopFs v h
  if b.u 3 1 = 3 ∧ b.u 17 1 = 1 then
    let (n, d) := slotRate v (b.u 18 2) false
    (len, perSecond v len n d)
  else (len, perSecond v len hd (hn * max 1 (b.u 20 4)))

/-- Largest LENGTH and load in bytes per second of the stream that a block defines under a number (DEDUCED, log 61). -/
def View.load (v : View) (b : Block) (d : StreamDef) : Nat × Nat × Nat :=
  let t := d.typ
  if t = rtRaw then
    let (p, q) := ratePos d.rate 64
    (96 + 96 * ceilDiv (b.u 4 4) 64, perSecond v 96 q p)
  else if t = rtIq then
    let fmt := if b.typ = btDdc then b.u 15 1 else b.u 12 1
    sampleLoad v d.rate (b.u 16 4) (if fmt = 3 then 6 else 4)
  else if b.typ = btSpectralStream then spectralLoad v d.h b
  else if t = rtSward then
    let len := 128 + roundUp (2 ^ b.u 4 1 * 256 * 3) 32
    let (hn, hd) := hopFs v d.h
    match b.u 17 1 with
    | 0 => (len, perSecond v len hd (hn * max 1 (b.u 24 4)))
    | 1 => let (n, q) := slotRate v (b.u 28 2) (b.u 19 1 == 1); (len, perSecond v len n q)
    | _ => (len, perSecond v len 1 16384)
  else if t = rtConcordance then
    let m := (v.concordMembers d.h).length
    let len := 128 + roundUp (m * (m + 1) / 2 * 2 ^ b.u 4 1 * 8) 32
    let (n, q) := slotRate v (b.u 6 2) (b.u 5 1 == 1)
    (len, perSecond v len n q)
  else if t = rtTrigger then (128, perSecond v 128 1 256)
  else if t = rtStamps then (roundUp (96 + 16 * b.u 4 2) 32, 320000000 * (bitList (b.u 8 16) 128).length, 1)
  else if t = rtIntervals then (roundUp (96 + 16 * b.u 14 2) 32, 320000000, 1)
  else if t = rtStats then (128, 128 * 20000000, b.u 16 4)
  else if t = rtCrossings then
    let len := roundUp (96 + 4 * (bitList (b.u 8 8) 64).length) 32
    let (n, q) := if b.u 3 1 = 1 then slotRate v 1 true else slotRate v (b.u 4 2) false
    (len, perSecond v len n q)
  else if t = rtSliceQuality then (256, perSecond v 256 1 (17 * stepLen (b.u 4 1)))
  else if t = rtHousekeeping then
    let one (c : Nat) : Nat × Nat × Nat :=
      let l := scanList b c
      let len := roundUp (96 + 16 * l.length) 32
      (len, perSecond v len 1 (l.foldl (fun n e => n + convSpan e.2) 0))
    (max (one 0).1 (one 1).1, addQ (one 0).2 (one 1).2)
  else if t = rtCalReport then (128, perSecond v 128 1 calSpan)
  else if t = rtConservator then (16384, perSecond v (b.u 12 2) 1 (256 * 8))
  else (128, 0, 1)

/-- The block that defines a stream. -/
def View.definer (v : View) (h st : Nat) : Option (Block × StreamDef) :=
  v.blocks.findSome? fun b => ((v.blockStreams b).find? fun d => d.h == h && d.st == st).map fun d => (b, d)

/-- Largest LENGTH and load of the stream of a STORE block. -/
def View.storeLoad (v : View) (b : Block) : Nat × Nat × Nat :=
  match v.definer (b.u 4 2) (b.u 6 1) with | some (x, d) => v.load x d | none => (96, 0, 1)

/-- Record Stores of a configuration. -/
def View.recordStores (v : View) : List Block := (v.ofType btStore).filter fun b => b.u 2 1 == 1 && b.u 3 1 != 2

/-- Whole number of Stores' shares (halves) on a stack. -/
def stackShare (b : Block) (k : Nat) : Nat := if b.u 7 1 = 2 then 1 else if b.u 7 1 = k then 2 else 0

/-- Load of a stack in halves of bytes per second: Stores written and read out, and playback (R37, R257, R284). -/
def View.stackLoad (v : View) (k : Nat) : Nat × Nat :=
  let recs := v.recordStores.foldl (fun a b =>
    let w := (v.storeLoad b).2
    let times := stackShare b k * (if v.consumed (b.u 0 2) then 2 else 1)
    addQ a (w.1 * times, w.2)) (0, 1)
  ((v.ofType btStimulus).filter fun b => b.u 1 1 == 1 && b.u 3 1 == 2).foldl (fun a b =>
    let st := v.block btStore [b.u 10 2]
    addQ a (2 * v.fsHz.1 * stackShare st k, v.fsHz.2)) recs

/-- The memory planning limit (R37). -/
def View.memoryFits (v : View) : Bool :=
  [0, 1].all fun k => let l := v.stackLoad k; decide (l.1 ≤ 2 * 983040000000 * l.2)

/-- The streams to host and archive fit the link (R38): 112 GB/s at 64 GT/s and 16 lanes. -/
def View.linkFits (v : View) (rate width : Nat) : Bool :=
  let l := (v.recordStores.filter fun b => v.consumed (b.u 0 2)).foldl (fun a b => addQ a (v.storeLoad b).2) (0, 1)
  -- rate 2 stands for 2.5 GT/s
  decide (l.1 * 128 * 16 ≤ 112000000000 * (if rate = 2 then 5 else 2 * rate) * width * l.2)

/-! ### Space (R257, R277) -/

/-- MiB that the Stores of a configuration take in a stack. -/
def View.stackMiB (v : View) (k : Nat) : Nat :=
  ((v.ofType btStore).filter (·.u 2 1 == 1)).foldl (fun n b => n + b.u 8 4 * stackShare b k) 0 / 2

/-- Store numbers that a configuration defines, rising. -/
def View.storeNumbers (v : View) : List Nat :=
  (List.range 1024).filter fun n => (v.ofType btStore).any fun b => b.u 0 2 == n && b.u 2 1 == 1

/-! ### Checks of a STORE block -/

/-- Size in bytes of the regions before the ring (R258). -/
def storeRing (b : Block) : Nat :=
  let size := b.u 8 4 * 2 ^ 20
  size - (4096 + size / 256 + (if b.u 3 1 = 1 then roundUp (b.u 12 4 * 160) 4096 else 0))

/-- A STORE block against a configuration (R255, R258, R271, R286): STREAM of HANDLE, four Stores at most, even
SIZE_MIB on both stacks, ring of two records, one window within half the ring. -/
def chkStore (v : View) (b : Block) : Option Nat :=
  if b.u 2 1 = 0 then none
  else if b.u 7 1 = 2 ∧ b.u 8 4 % 2 = 1 then some eRange
  else if b.u 3 1 = 2 then none
  else
    match v.definer (b.u 4 2) (b.u 6 1) with
    | none => some eRange
    | some (x, d) =>
      let len := (v.load x d).1
      let ring := storeRing b
      let n := if d.typ = rtRaw then x.u 4 4 else x.u 16 4
      -- the window in samples of the stream, and the records that it touches
      let (gn, gd) := ratePos (v.gridExp (b.u 4 2)) (b.u 24 8 + b.u 32 8)
      let step := ratePos d.rate 1
      let m := ceilDiv (gn * step.2) (gd * step.1)
      let recs := ceilDiv (m - 1) (max 1 n) + 1
      if 4 < (v.feeds (b.u 4 2) (b.u 6 1)).length then some eRange
      else if ring < 2 * len then some eRange
      else if b.u 3 1 = 1 ∧ isSampleType d.typ ∧ ring < 2 * recs * len then some eRange
      else none

/-- The Store holds unread data (R281). -/
def unreadData (s : State) (n : Nat) : Bool :=
  let x := s.sto n
  x.on && (match x.mode with
    | 0 => decide (x.release < x.write) || !x.head.isEmpty || !x.head2.isEmpty
    | 1 => x.segs.any Seg.unreleased
    | _ => s.plays n)

/-! ### A STORE block takes effect (R280 to R282) -/

/-- SEQ order of records held and described, for a FORCED_RESIZE lacuna (R281). -/
def discarded (c : Cad) (ge : Int) (x : Store) : List Rec :=
  let held := match x.mode with
    | 0 => x.head ++ x.head2 ++ (x.recs.filter fun k => decide (x.release ≤ k.pos)).map (·.r)
    | _ => (x.segs.filter Seg.unreleased).flatMap fun g =>
        g.head ++ (x.recs.filter fun k => belongs ge g k.r && decide (x.done ≤ k.pos)).map (·.r)
  let held := held ++ (if x.mode = 0 then x.ahead ++ x.drop else [])
  let sorted := held.foldl (fun (l : List Rec) r => (l.takeWhile fun q => decide (q.seq ≤ r.seq)) ++ [r] ++
    l.dropWhile fun q => decide (q.seq ≤ r.seq)) []
  lacunaOver c caForced 0 sorted

/-- A Store is defined anew at fs-sample `S` with base `base` MiB (R282); `unread`: what the former definition held. -/
def defineStore (b : Block) (base : Nat) (S : Nat) (s : State) : State :=
  let n := b.u 0 2
  let x := s.sto n
  let v := s.view
  let forced := if unreadData s n && x.mode != 2 then discarded s.cad (v.gridExp x.handle) x else []
  let kept := if x.on && x.mode = 2 && b.u 3 1 = 2 then x.samples else []
  let y : Store := { blk := b.data, base := base * 2 ^ 20, epoch := if b.u 3 1 = 2 then 0 else v.epoch (b.u 4 2),
                     since := S, policy := b.u 16 1, gen := x.gen + 2, head := if b.u 3 1 = 2 then [] else forced,
                     samples := kept }
  { s with store := tset s.store n y }

/-- A Store is freed by a commit. -/
def removeStore (n : Nat) (s : State) : State :=
  let y : Store := { gen := (s.sto n).gen }
  { s with store := tset s.store n y }

/-- A STORE block that redefines nothing: PRE, POST, CAPTURE, SEG_LIMIT and POLICY (R272, R280). -/
def retuneStore (b : Block) (s : State) : State :=
  let n := b.u 0 2
  let x := s.sto n
  let x : Store := { x with blk := b.data, epoch := if b.u 3 1 = 2 then 0 else s.view.epoch (b.u 4 2),
                            policy := if x.mode = 1 then x.policy else b.u 16 1,
                            nextPol := if x.mode = 1 && b.u 16 1 != x.policy then some (b.u 16 1) else none }
  s.setSto n x.limitStop

/-- Every Store after a change of the configuration from view `v` to the placed view `v'` (R277, R280 to R282). -/
def applyStores (v v' : View) (changed : List Nat) (S : Nat) (s : State) : State :=
  let moved := redefinedStores v v'
  let s := moved.foldl (fun s n =>
    let b := v'.block btStore [n]
    if b.u 2 1 = 0 then removeStore n s
    else match v'.ranges.find? (·.1 == n) with
      | some (_, base, _) => defineStore b base S s
      | none => s) s
  (changed.filter fun n => !moved.contains n && (s.sto n).on).foldl (fun s n => retuneStore (v'.block btStore [n]) s) s

end Sys2Proof.Machine
end

