-- ==== Sys2Proof/Machine/Checks.lean ====
section
/-! DEFINITION. The checks of a commit (R480): every block against the configuration as it will stand, the definitions
of R484, the resources of R198 and R237, and migration spans (R556 to R558). -/
namespace Sys2Proof.Machine

/-! ### Migration spans (R132, R167, R557) -/

/-- fs-samples of `n` samples at rate fs/2^e, rounded up. -/
def spanFs (e : Int) (n : Nat) : Nat := fsCeil e n

/-- History of a path in input-rate samples (R132): 0 DDC, 1 fine, 2 coarse. -/
def pathSpan (v : View) (h path : Nat) : Nat :=
  let b := v.block btDecimation [h]
  let s := b.u 2 1
  match path with
  | 0 => 58
  | 1 => if s = 0 then 250 else 250 + 16 * (2 * presetSpan (b.u 3 1)) * (2 ^ s - 1)
  | _ => 250 + 16 * 2 ^ s

/-- History of a spectral stream in fs-samples (R167); `period`: the period of a TRACE stream counts. -/
def spectralSpan (v : View) (h : Nat) (b : Block) (period : Bool) : Nat :=
  let sp := v.block btSpectrum [h]
  let e := v.sourceRate h
  let hop := spectrumHop sp
  let src := if sp.u 3 1 = 0 then 29 else ceilDiv (pathSpan v h 1) (16 * 2 ^ (v.block btDecimation [h]).u 2 1)
  let per := if !period || b.u 3 1 != 3 then 0
    else if b.u 17 1 = 0 then b.u 20 4 * hop
    else rateCeil e (ceilDiv (b.u 18 2 * cadRnum (v.block btCadence [])) (2 ^ 32))
  spanFs e (src + 2 ^ sp.u 2 1 + hop + per)

/-- W of a logical position (R557); without the period part it is W_f (R560). A plane's counters are copied and add nothing,
but the frames that feed it need their history (R184; DEDUCED, log 121). -/
def View.migrationSpan (v : View) (p : Nat) (period : Bool) : Nat :=
  let hs := v.allHandles.filter fun h => v.isSampler h && !v.gangMember h && v.position h == some p
  hs.foldl (fun w h =>
    let g := v.gridExp h
    let path (on : Bool) (k : Nat) : Nat := if on then spanFs g (pathSpan v h k) else 0
    let d := v.block btDecimation [h]
    let w := max w (path ((v.block btDdc [h]).u 14 1 != 0xFF) 0)
    let w := max w (path (d.u 13 1 != 0xFF) 1)
    let w := max w (path (d.u 14 1 != 0xFF) 2)
    let w := if (v.block btSward [h]).u 2 1 = 1 then max w (spectralSpan v h (v.block btSward [h]) false) else w
    ((v.ofType btSpectralStream).filter fun b => b.u 0 2 == h && b.u 3 1 != 0).foldl
      (fun w b => max w (spectralSpan v h b period)) w) 1024

/-- Samples of 60 us (R558, R8). -/
def migrationLead := 614400

/-! ### Triggers and programs (R197, R198, R228, R237, R250, R509) -/

/-- Attendant of an exhibit's trigger: a logical position, 8 for the Head Attendant (R196). -/
def View.attendant (v : View) (h : Nat) : Nat := (v.position h).getD 8

/-- Handle of an exhibit that may carry triggers. -/
def chkTrigHandle (v : View) (h : Nat) : Option Nat :=
  match v.find h with
  | none => some eUndefined
  | some _ => if v.gangMember h then some eGangMember else none

/-- A CONDITION block against a configuration (R197, R206, R207). -/
def chkCondition (v : View) (b : Block) : Option Nat :=
  let h := b.u 0 2
  let y := b.u 3 1
  let src := b.u 4 2
  (chkTrigHandle v h).orElse fun _ =>
    if y = 0 ∨ 6 < y then none
    else if !(v.isSampler src && (v.reach h).contains src) then some eKind
    else if v.gangMember src then some eGangMember
    else if y = 5 ∧ (v.block btSpectrum [src]).u 7 1 ≠ 1 then some eRange
    else if y = 6 ∧ ((v.block btSward [src]).u 2 1 ≠ 1 ∨ 2 ^ (v.block btSward [src]).u 4 1 ≤ bitsOf (b.u 32 4) 0 10) then some eRange
    else none

/-- Enabled CONDITION blocks of a configuration. -/
def View.liveConditions (v : View) : List Block := (v.ofType btCondition).filter fun b => b.u 3 1 != 0

/-- The limits of R198. -/
def View.triggersFit (v : View) : Bool :=
  let cs := v.liveConditions
  let arms := (v.ofType btTrigger).filter fun b => b.u 2 1 != 0
  ((List.range 9).all fun a =>
    decide ((cs.filter fun b => v.attendant (b.u 0 2) == a).length ≤ 32) &&
      decide ((arms.filter fun b => v.attendant (b.u 0 2) == a).length ≤ if a = 8 then 16 else 8)) &&
  (List.range 8).all fun p =>
    let mine := cs.filter fun b => v.position (b.u 4 2) == some p
    decide ((mine.filter fun b => b.u 3 1 == 1 || b.u 3 1 == 2 || b.u 3 1 == 3).length ≤ 24) &&
      decide ((mine.filter fun b => b.u 3 1 == 4).length ≤ 6)

/-- Exhibits with COMBINE 2. -/
def View.programmed (v : View) : List Nat := ((v.ofType btTrigger).filter fun b => b.u 3 1 == 2).map fun b => b.u 0 2

/-- The limits of R237. -/
def View.programsFit (v : View) : Bool :=
  (List.range 9).all fun a =>
    let hs := v.programmed.filter fun h => v.attendant h == a
    let sum (off size : Nat) : Nat := hs.foldl (fun n h => n + (v.block btProgram [h]).u off size) 0
    decide (sum 2 2 ≤ 256) && decide (sum 4 1 ≤ 16) && decide (sum 5 1 ≤ 8) &&
      decide (hs.length ≤ if a = 8 then 8 else 4)

/-- The program of an exhibit as a configuration has it (R250, R253). -/
def View.programOk (v : View) (words : Cells 32) (h : Nat) : Bool :=
  let b := v.block btProgram [h]
  Machine.programOk ((cgetAll haltWord words 0 (b.u 2 2)).map (·.toNat)) (b.u 4 1) (b.u 5 1)

/-- A line whose DELAY is too short for a trigger that names it (R228, R248). -/
def View.shortLine (v : View) : Option Nat :=
  (List.range 8).find? fun l => v.liveConditions.any fun b =>
    (b.u 37 1).testBit l &&
      decide ((v.block btTrigOut [l]).u 8 4 <
        v.horizon (b.u 0 2) + (if (v.block btTrigger [b.u 0 2]).u 3 1 = 2 then 12 else 4))

/-- BUS_LEAD covers every trigger that sends (R509). -/
def View.busLeadOk (v : View) : Bool :=
  let b := v.block btCollection []
  let need (h : Nat) : Bool := decide (v.horizon h + 1335 + 80 * (b.u 1 1 - 1) ≤ b.u 4 4)
  (v.liveConditions.all fun c => c.u 38 1 == 0 || need (c.u 0 2)) &&
    v.allHandles.all fun h => !v.isCollection h || (v.conditions h).isEmpty || need h

/-- SIG_DELAY covers the path of a SIG word (R317, R510); without port 0 nothing fixes its span (DEDUCED, log 63). -/
def View.sigDelayOk (v : View) (b : Block) : Bool :=
  match v.position (b.u 0 2) with
  | none => true
  | some p =>
    let c := 4 * p + b.u 2 1
    let x : Core := { blk := b.data }
    let h := portHandle v c x 0
    let path := match x.kind 0 with | 1 => 0 | 2 => 1 | 3 => 2 | _ => (v.block btSpectrum [h]).u 3 1
    let D := (v.block btCollection []).u 1 1
    let (n, d) := ratePos (portRate v c x 0) (b.u 20 4)
    x.kind 0 == 0 || decide ((pathLatency v h path + 2 + 1283 + 80 * (D - 1)) * 8 * d ≤ n)

/-! ### Blocks -/

/-- The handle of an exhibit exists, and is of one of the kinds. -/
def chkKind (v : View) (h : Nat) (kinds : List Nat) : Option Nat :=
  match v.find h with
  | none => some eUndefined
  | some e => if kinds.contains e.kind then none else some eKind

/-- No two streams of an exhibit share a number. -/
def chkClash (v : View) (h : Nat) : Option Nat := if streamClash v h then some eRange else none

/-- What a commit brings beside its items: its sample and the unusable archive drives. -/
structure Ctx where
  sT    : Nat
  dead  : List Nat
  /-- configurations after each pending commit up to it, with their samples -/
  mid   : List (Nat × View)
deriving DecidableEq, Repr

/-- Samples that a playback Store of a configuration holds (R284). -/
def View.playbackSamples (v : View) (n : Nat) : Option Nat :=
  let b := v.block btStore [n]
  if b.u 2 1 = 1 ∧ b.u 3 1 = 2 then some ((b.u 8 4 * 2 ^ 20 - 4096) / 2) else none

/-- GALLERY_MAP against the state (R556, R558). -/
def chkGalleryMap (s : State) (v v' : View) (x : Ctx) (b : Block) : Option Nat :=
  let p := b.u 0 1
  let g := b.u 1 1
  if v.gallery p = g ∧ !s.gal.out.contains p then none
  else
    let W := v'.migrationSpan p true
    let serves (w : View) : Bool := (List.range 8).any fun q => q != p && w.gallery q == g && !s.gal.out.contains q
    let warms := s.gal.migr.any fun m => m.pos != p && m.target == g && decide (m.warm ≤ x.sT)
    -- the configurations from Tm - W to Tm
    let start := ((x.mid.filter fun m => decide (m.1 + W ≤ x.sT)).map (·.2)).getLastD s.view
    let later := (x.mid.filter fun m => !decide (m.1 + W ≤ x.sT)).map (·.2)
    if s.health.galleries.contains g || (start :: v' :: later).any serves || warms then some eRange
    else if x.sT < s.cad.now + W + migrationLead then some eTimePast
    else none

/-- Relations of a block to the rest of a configuration `v'`, checked whether or not the commit brings it. -/
def chkRelated (s : State) (v' : View) (b : Block) : Option Nat :=
  let t := b.typ
  let h := b.u 0 2
  if t = btDdc ∨ t = btDecimation ∨ t = btRaw then (chkSampler v' h).orElse fun _ => chkClash v' h
  else if t = btSpectrum ∨ t = btSpectralStream then
    (chkSampler v' h).orElse fun _ => (chkSpectrum s v' h).orElse fun _ => chkClash v' h
  else if t = btSward then (chkSampler v' h).orElse fun _ => (chkSward v' h).orElse fun _ => chkClash v' h
  else if t = btConcordance then
    (chkKind v' h [2]).orElse fun _ => (chkConcordance s v' h).orElse fun _ => chkClash v' h
  else if t = btCondition then chkCondition v' b
  else if t = btTrigger then (chkTrigHandle v' h).orElse fun _ => chkClash v' h
  else if t = btMask then (chkSampler v' h).orElse fun _ => chkMask v' h
  else if t = btTrigOut then if b.u 1 1 = 3 then chkKind v' (b.u 4 2) [0, 1, 2, 3] else none
  else if t = btStore then
    if b.u 2 1 = 0 ∨ b.u 3 1 = 2 then chkStore v' b
    else (chkKind v' (b.u 4 2) [0, 1, 2, 3]).orElse fun _ => chkStore v' b
  else if t = btConservator then if v'.sigDelayOk b then none else some eRange
  else if t = btComparator then chkComparators v'
  else if t = btStampStream ∨ t = btCrossings then (chkTdcOwner v' h).orElse fun _ => chkClash v' h
  else if t = btPairing then
    if b.u 1 1 = 0 then none else (chkTdcOwner v' (b.u 2 2)).orElse fun _ => chkClash v' (b.u 2 2)
  else if t = btChannelInput then chkClash v' (v'.handle (b.u 0 1))
  else if t = btStimulus then if b.u 1 1 = 0 then none else chkStimulus v'.playbackSamples b
  else if t = btHousekeeping then
    if b.u 2 1 = 0xFF ∧ b.u 3 1 = 0xFF then none
    else (chkKind v' h [0, 1, 2, 3]).orElse fun _ => chkClash v' h
  else none

/-- Checks of a block that the commit brings, from configuration `v` to `v'`. -/
def chkFresh (s : State) (v v' : View) (x : Ctx) (b : Block) : Option Nat :=
  let t := b.typ
  if t = btCadence then chkCadence v b
  else if t = btProgram then
    (chkTrigHandle v' (b.u 0 2)).orElse fun _ =>
      if (v'.block btTrigger [b.u 0 2]).u 3 1 = 2 then none else some eRange
  else if t = btStore then
    let n := b.u 0 2
    if (redefinedStores v v').contains n && unreadData s n && b.u 18 1 == 0 then some eStoreBusy else none
  else if t = btConservator then chkConservator s v v' b
  else if t = btStimulus then chkStimulus v'.playbackSamples b
  else if t = btLevel then chkLevel s (s.lv (b.u 0 1)) b x.sT
  else if t = btCourierQueue then chkCourierQueue s v v' b
  else if t = btArchive ∨ t = btArchiveDrive then chkArchive v v' x.dead b
  else if t = btCollection then
    if v.anyActive || (s.exh ++ v'.exh).any (fun e => decide (48 ≤ e.1) && e.2.st != 0) then some eActive else none
  else if t = btGalleryMap then chkGalleryMap s v v' x b
  else none

/-! ### Definitions (R19, R22, R96, R484) -/

/-- The block that a check names, with its error. -/
structure Blame where
  code  : Nat
  block : Option Block := none
  /-- handle of the exhibit that the check concerns, where it is no block -/
  h     : Option Nat := none
deriving DecidableEq, Repr

/-- A check that names no block. -/
def blameH (c : Bool) (code h : Nat) : Except Blame Unit := if c then .ok () else .error ⟨code, none, some h⟩

/-- The definitions of a commit against the state (R19, R484, R514), on the configuration before epochs advance. -/
def chkDefinitions (s : State) (v raw : View) (items : List Item) : Except Blame Unit :=
  items.forM fun i =>
    match i with
    | .define h kind members => do
      blameH (members.all fun m => m / 4096 != raw.index || (raw.committed m).isSome) eUndefined h
      blameH (!(raw.deep 4096 members).contains h) eCycle h
      blameH (kind != 3 || s.coll.st == 2) eCollectionState h
      if kind = 1 then do
        -- a channel exhibit belongs to at most one gang; none of its members has an active stream (R96)
        blameH (members.all fun m => ((raw.exh.filter fun e => e.2.kind == 1 && e.2.st == 2 &&
          e.2.members.contains m).length ≤ 1 : Bool)) eGangMember h
        blameH (members.all fun m => !v.exActive m) eActive h
      else pure ()
    | .delete h =>
      match v.find h with
      | some e => blameH (e.kind != 1 || (!v.exActive h && e.members.all fun m => !v.exActive m)) eActive h
      | none => .ok ()
    | .assign h _ => blameH (!v.exActive h) eActive h
    | .block _ => .ok ()

/-- A gang member that would have a stream other than SLICE_QUALITY (R96). -/
def View.memberStream (v : View) : Option Block :=
  v.blocks.find? fun b => (v.blockStreams b).any fun d => d.typ != rtSliceQuality && v.gangMember d.h

/-- The first block of a list of types that the commit brings, else of the configuration. -/
def blameOf (v : View) (fresh : List Block) (types : List Nat) : Option Block :=
  (fresh.find? fun b => types.contains b.typ).orElse fun _ => v.blocks.find? fun b => types.contains b.typ

/-- A check on the whole configuration, named by the first block of some types. -/
def blameT (c : Bool) (code : Nat) (v : View) (fresh : List Block) (types : List Nat) : Except Blame Unit :=
  if c then .ok () else .error ⟨code, blameOf v fresh types, none⟩

/-- Checks on blocks one by one. -/
def blameEach (f : Block → Option Nat) (l : List Block) : Except Blame Unit :=
  match l.findSome? fun b => (f b).map fun e => (e, b) with
  | some (e, b) => .error ⟨e, some b, none⟩
  | none => .ok ()

/-- Blocks in the order of their type numbers. -/
def byType (l : List Block) : List Block := (List.range 0x23).flatMap fun t => l.filter (·.typ == t)

/-- Blocks among items. -/
def itemBlocks (l : List Item) : List Block := l.filterMap fun i => match i with | .block b => some b | _ => none

/-- Every check of R480 but the Commons' and the conflict of times, from configuration `v`; answers the configuration
that the commit makes. `words` are the programs as the commit leaves them. -/
def chkCommit (s : State) (v : View) (x : Ctx) (items : List Item) (words : Nat → Cells 32) : Except Blame View := do
  let raw := v.applyAll items
  chkDefinitions s v raw items
  let v' := v.apply items
  blameT ((v.moved v' true ++ v'.numbers.filter fun n => (v.ex n).st != 2).all fun n => decide ((v.ex n).epoch < 2 ^ 32 - 1))
    eEpoch v' [] []
  let fresh := byType (itemBlocks items)
  let others := byType (v'.blocks.filter fun b => !fresh.contains b)
  match v'.memberStream with
  | some b => .error ⟨eGangMember, some b, none⟩
  | none =>
    blameEach (chkRelated s v') fresh
    blameEach (chkFresh s v v' x) fresh
    blameEach (chkRelated s v') (others.filter fun b => !(handleKeyed b.typ && v'.gangMember (b.u 0 2)))
    blameT ((redefinedStores v v').all fun n => !(unreadData s n && (v'.block btStore [n]).u 18 1 == 0 &&
      (v'.block btStore [n]).u 2 1 == 1)) eStoreBusy v' fresh [btStore]
    blameT (concordFits v') eConcordLoad v' fresh [btConcordance]
    blameT (v'.triggersFit && v'.programsFit) eTrigResource v' fresh [btCondition, btTrigger, btProgram]
    blameT (v'.programmed.all fun h => v'.programOk (words h) h) eRange v' fresh [btProgram, btTrigger]
    match v'.shortLine with
    | some l => .error ⟨eRange, some (v'.block btTrigOut [l]), none⟩
    | none =>
      blameT v'.busLeadOk eRange v' fresh [btCollection, btCondition, btTrigger]
      blameT ([0, 1].all fun k => decide (v'.stackMiB k ≤ s.capacity k)) eStoreSpace v' fresh [btStore]
      blameT ((placeStores v v' (v.moved v' false)).isSome) eStoreSpace v' fresh [btStore]
      blameT v'.memoryFits eMemBudget v' fresh [btStore, btStimulus]
      blameT (v'.linkFits s.boot.rate s.boot.width) eLinkBudget v' fresh [btStore, btCourierQueue, btArchive]
      return v'

end Sys2Proof.Machine
end

