-- ==== Sys2Proof/Machine/Commit.lean ====
section
/-! DEFINITION. Commits (17): the scope of a commit, its checks and admission (R479, R480, R528 to R532), and its blocks
taking effect at S_T (R481). -/
namespace Sys2Proof.Machine

/-! ### Scope (R20, R476, R479) -/

/-- A staged item lies in the scope of handles `hs` (R479): blocks of those exhibits, STOREs that they own,
CHANNEL_INPUT of their channels, and their definitions. -/
def inScope (v : View) (hs : List Nat) (i : Item) : Bool :=
  match i with
  | .block b =>
    (handleKeyed b.typ && hs.contains (b.u 0 2)) || (b.typ == btStore && b.u 3 1 != 2 && hs.contains (b.u 4 2)) ||
      (b.typ == btChannelInput && hs.contains (v.handle (b.u 0 1)))
  | .define h _ _ => hs.contains h
  | .delete h => hs.contains h
  | .assign h _ => hs.contains h

/-- Items of a function's staged set that a commit takes. -/
def scopeItems (s : State) (fn : Nat) (all : Bool) (hs : List Nat) : List Item :=
  (s.cur.staged.filter fun x => x.fn == fn && (all || inScope s.view hs x.item)).map (·.item)

/-- An exhibit is covered by a commit: in its scope, or with ALL one of the function's. -/
def covers (v : View) (fn : Nat) (all : Bool) (hs : List Nat) (h : Nat) : Bool :=
  hs.contains h || (all && v.owner h == fn)

/-- The pending commit of some items, with the loaded words that it puts into effect: windows and mask limits at the next
commit, whatever its scope (R151, R206), program words at the exhibit's next commit (R250). -/
def mkPending (s : State) (fn : Nat) (all : Bool) (hs : List Nat) (t : CT) (items : List Item) (big : List Nat)
    (txn : Option Nat) : Pending :=
  let v := s.view.applyAll items
  let mine (h : Nat) : Bool := covers v fn all hs h
  let word (all : Bool) (t : Table WordMem) : Table (Cells 32) :=
    t.filterMap fun e => if e.2.dirty && (all || mine e.1) then some (e.1, e.2.shadow) else none
  { id := s.cur.nextCommit, fn := fn, time := t, sT := sampleOf s.cad t, items := items, all := all, scope := hs, big := big,
    txn := txn, progs := word false s.prog, masks := word true s.mask,
    wins := s.wram.filterMap fun e => if e.2.dirty then some (e.1, e.2.shadow) else none }

/-! ### Conflicts (R52, R480) -/

/-- Exhibits that an item touches. -/
def itemHandles (v : View) (i : Item) : List Nat :=
  match i with
  | .block b =>
    if handleKeyed b.typ then [b.u 0 2]
    else if b.typ = btStore ∧ b.u 3 1 ≠ 2 then [b.u 4 2]
    else if b.typ = btChannelInput then [v.handle (b.u 0 1)]
    else []
  | .define h _ _ => [h]
  | .delete h => [h]
  | .assign h _ => [h]

/-- Two commits touch a same block or exhibit. -/
def touches (v : View) (a b : List Item) : Bool :=
  let ha := a.flatMap (itemHandles v)
  (b.flatMap (itemHandles v)).any ha.contains ||
    (itemBlocks a).any fun x => (itemBlocks b).any fun y => v.sameKey x y

/-- A commit conflicts with a pending one: earlier than one that touches the same (R480), or at the same time (R52). -/
def timeConflict (s : State) (p : Pending) : Bool :=
  s.cur.pending.any fun q => (ctLt p.time q.time || p.time == q.time) && touches s.view p.items q.items &&
    (ctLt p.time q.time || (q.items.flatMap (itemHandles s.view)).any (p.items.flatMap (itemHandles s.view)).contains)

/-! ### Admission -/

/-- Positions whose gallery a commit changes, with the new gallery. -/
def galleryMoves (v : View) (items : List Item) : List (Nat × Nat) :=
  (itemBlocks items).filterMap fun b =>
    if b.typ == btGalleryMap && v.gallery (b.u 0 1) != b.u 1 1 then some (b.u 0 1, b.u 1 1) else none

/-- Migrations that a commit plans (R558). -/
def migrationsOf (v v' : View) (p : Pending) : List Migration :=
  (galleryMoves v p.items).map fun m =>
    let W := v'.migrationSpan m.1 true
    { pos := m.1, target := m.2, warm := p.sT - W, tm := p.sT, planned := true, peak := v.positionPeak m.1,
      source := v.gallery m.1 }

/-- The grants of those migrations (R525, R527). -/
def migrationLeave (l : List Migration) : List Grant :=
  l.map fun m => ⟨12, m.pos, m.peak, m.warm - opLead 12, some (m.tm + (m.tm - m.warm)), 0⟩

/-- The refusal of a check as a response (R470): block type as DETAIL, the block's first 16 bytes, and the handle of a
member that caused it (R20). -/
def blameErr (v : View) (all : Bool) (h : Nat) (b : Blame) : Err :=
  let hs := match b.block with | some x => itemHandles v (.block x) | none => b.h.toList
  let bytes := match b.block with | some x => padTo 16 (x.data.take 16) | none => []
  let member := match hs with
    | m :: _ => if !all && m != h then padTo 16 bytes ++ leBytes 2 m else bytes
    | [] => bytes
  { code := b.code, detail := match b.block with | some x => x.typ | none => 0, result := member }

/-- The refusal of leave: the COMMONS block is refused where its own BUDGET lies below the ledger (R532). -/
def leaveErr (s : State) (p : Pending) (all : Bool) (h : Nat) : Err :=
  match (itemBlocks p.items).find? (·.typ == btCommons) with
  | some b =>
    if ledgerFits s s.cur.pending [] (some (p.sT, 10 * b.u 0 2)) p.sT then ⟨eLeaveRefused, 0, []⟩
    else blameErr s.view all h { code := eLeaveRefused, block := some b }
  | none => ⟨eLeaveRefused, 0, []⟩

/-- Configurations after each pending commit up to a time. -/
def midViews (s : State) (t : CT) : List (Nat × View) :=
  (stages s.view (s.cur.pending.filter fun p => ctLe p.time t)).map fun g => (g.sT, g.view)

/-- The state with the shadow copies of a commit in effect, for its checks. -/
def withShadows (p : Pending) (s : State) : State :=
  { s with wram := p.wins.foldl (fun t e => tset t e.1 { tget ({} : WindowMem) t e.1 with cur := e.2 }) s.wram,
           mask := p.masks.foldl (fun t e => tset t e.1 { tget ({} : WordMem) t e.1 with cur := e.2 }) s.mask }

/-- Program words of an exhibit as a commit leaves them, after those pending up to its time (R250, R480). -/
def wordsAfter (s : State) (p : Pending) (h : Nat) : Cells 32 :=
  (tfind p.progs h).getD ((((s.cur.pending.filter fun q => ctLe q.time p.time).foldl (fun m q => (tfind q.progs h).orElse fun _ => m) none)).getD
    (tget ({} : WordMem) s.prog h).cur)

/-- The peak that a commit newly declares. -/
def commitPeak (s : State) (p : Pending) (extra : List Grant) : Nat :=
  (newNeeds s p).foldl (fun n x => n + x.peak) (extra.foldl (fun n g => n + g.peak) 0)

/-- What an accepted commit is, and how it came to its time. -/
structure Accepted where
  p      : Pending
  migr   : List Migration
  delay  : Option Nat
deriving DecidableEq, Repr

/-- Checks of R480 and the Commons' answer for a commit of function `fn`; `member`: it is part of a collection action,
which is never delayed (R531). -/
def planCommit (s : State) (fn : Nat) (all : Bool) (h : Nat) (t : CT) (env : List Nat) (lead : Nat)
    (member : Option Nat) : Except Err Accepted := do
  let hs := if all then [] else s.view.reach h
  let items := scopeItems s fn all hs
  let dead := env.filter fun n => decide (n < 32)
  let big := (env.filter fun n => decide (32 ≤ n ∧ n < 64)).map (· - 32)
  let check (t : CT) : Except Err (Pending × List Migration) := do
    let p := mkPending s fn all hs t items big member
    let v := s.viewAt t
    let s' := withShadows p s
    match chkCommit s' v ⟨p.sT, dead, midViews s t⟩ items (wordsAfter s p) with
    | .error b => .error (blameErr s.view all h b)
    | .ok v' =>
      ensure (!timeConflict s p) eTimeConflict
      return (p, migrationsOf v v' p)
  ensure (!tooSoon s.cad t lead) eTimePast
  ensure (pendingCount s < 1024) eScheduleFull
  let (p, migr) ← check t
  let extra := migrationLeave migr
  match admits s p extra with
  | 0 => return ⟨p, migr, none⟩
  | a =>
    let cm := (s.viewAt t).applyAll items |>.block btCommons []
    let refused : Except Err Accepted := .error (leaveErr s p all h)
    if a = 1 ∧ (cm.u 2 1 = 0 || member.isSome) then refuse eTimePast
    else if cm.u 2 1 = 0 || member.isSome then refused
    else
      let at0 (j : Nat) : Pending := mkPending s fn all hs (ctOfSlot s.cad j) items big none
      let more (S : Nat) : List Grant := extra.map fun g =>
        { g with start := S + g.start - p.sT, stop := g.stop.map fun e => S + e - p.sT }
      let j := (slotCount s.cad p.time.turn p.time.slot).toNat
      match delayed s at0 more (turningSlots s p extra (j + if p.time.phase = 0 then 0 else 1) (j + cm.u 4 4)) with
      | none => refused
      | some q =>
        let (q, migr) ← check q.time
        return ⟨q, migr, some (commitPeak s q (migrationLeave migr))⟩

/-- An accepted commit becomes pending and its blocks leave the staged set (R480). -/
def accept (a : Accepted) (s : State) : State :=
  let p := a.p
  let staged := s.cur.staged.filter fun x => !(x.fn == p.fn && p.items.contains x.item)
  let s := { s with cur := { s.cur with staged := staged, pending := s.cur.pending ++ [p], nextCommit := max s.cur.nextCommit (p.id + 1) },
                    gal := { s.gal with migr := s.gal.migr ++ a.migr } }
  match a.delay with
  | some peak =>
    ({ s with pow := { s.pow with delayed := satAdd 32 s.pow.delayed 1 } } : State).post evLeaveDelayed
      [(1, 0xFF), (3, 0), (4, peak), (4, p.id)]
  | none => s

/-- COMMIT of this device's own configuration (R479, R480). -/
def localCommitBody (r : Req) (s : State) : Effect := do
  r.lenIs 16
  r.rsvIs 3 1
  r.rsvIs 14 2
  let flags := r.u 2 1
  ensure (flags < 4) eReserved 2
  let all := flags / 2 == 1
  let h := r.u 0 2
  if all then pure () else
    let _ ← ownedHandle s r.fn h
    pure ()
  let t := if flags % 2 = 1 then asapTime s.cad else ctOfBytes r.params 4
  ensure (t.slot < s.cad.spt) eRange 10
  let a ← planCommit s r.fn all h t r.env leadSamples none
  return (accept a s, fields ([(4, a.p.id), (4, 0), (8, a.p.sT)] ++ ctFields a.p.time))

/-- What a refused commit leaves: EV_LEAVE_REFUSED where the Commons refused it (R530). -/
def commitRefused (r : Req) (e : Err) (s : State) : State :=
  if e.code != eLeaveRefused then s
  else
    let all := (r.u 2 1).testBit 1
    let hs := if all then [] else s.view.reach (r.u 0 2)
    let t := if (r.u 2 1).testBit 0 then asapTime s.cad else ctOfBytes r.params 4
    let items := scopeItems s r.fn all hs
    let p := mkPending s r.fn all hs t items [] none
    let v := s.viewAt t
    leaveRefused 0xFF (commitPeak s p (migrationLeave (migrationsOf v (v.apply items) p))) s.cur.nextCommit s

/-- The local numbers that discarded definitions held are free again (R484). -/
def freeNumbers (items : List Item) (s : State) : State :=
  items.foldl (fun (s : State) i =>
    match i with
    | .define h _ _ =>
      let n := h % 4096
      let e := s.view.ex n
      if e.st = 1 then { s with exh := tset s.exh n { epoch := e.epoch } } else s
    | _ => s) s

/-- COMMIT_CANCEL (R482); a definition that it discards frees its number (R484). -/
def commitCancelBody (r : Req) (s : State) : Effect := do
  r.lenIs 8
  r.rsvIs 4 4
  let id := r.u 0 4
  match s.cur.pending.find? fun p => p.id == id && p.fn == r.fn with
  | none => refuse eNotPending
  | some p =>
    ensure (!tooSoon s.cad p.time) eNotPending
    let rest := s.cur.pending.filter fun q => q.id != id
    let moves := (galleryMoves s.view p.items).map (·.1)
    let s' : State := { s with cur := { s.cur with pending := rest },
                               gal := { s.gal with migr := s.gal.migr.filter fun m =>
                                 !(m.planned && m.tm == p.sT && moves.contains m.pos) } }
    -- every later commit still passes its own checks (R480, R482)
    let later := rest.filter fun q => !ctLt q.time p.time
    ensure (later.all fun q =>
      let base := { s' with cur := { s'.cur with pending := rest.filter fun x => x.id != q.id && ctLe x.time q.time } }
      (match chkCommit (withShadows q base) (base.viewAt q.time) ⟨q.sT, [], midViews base q.time⟩ q.items (wordsAfter base q) with
        | .ok _ => true | .error e => e.code == eTimePast) &&
        ledgerFits s' rest [] none s'.cad.now) eTimeConflict
    return (freeNumbers p.items s', [])

/-! ### Handles under a new device index (R511) -/

/-- A handle of this device under a new index. -/
def rehandle (old new h : Nat) : Nat := if h / 4096 = old then new * 4096 + h % 4096 else h

/-- Offsets of the 2-byte handle fields of a block type. -/
def handleFields (t : Nat) : List Nat :=
  (if handleKeyed t || t == btHousekeeping then [0] else []) ++ (if t = btCondition ∨ t = btStore ∨ t = btTrigOut then [4] else []) ++
    (if t = btPairing then [2] else [])

/-- A block under a new index. -/
def Block.rehandle (old new : Nat) (b : Block) : Block :=
  -- SRC of a CONDITION that reads no stream is a number, not a handle
  let offs := (handleFields b.typ).filter fun o => !(b.typ == btCondition && o == 4 && !(decide (1 ≤ b.u 3 1) && decide (b.u 3 1 ≤ 6)))
  { b with data := offs.foldl (fun d o => putU d o 2 (Machine.rehandle old new (getU d o 2))) b.data }

/-- Every handle of this device takes a new device index (R511). -/
def State.reindex (old new : Nat) (s : State) : State :=
  let k (n : Nat) : Nat := rehandle old new n
  let k8 (n : Nat) : Nat := rehandle old new (n / 256) * 256 + n % 256
  let cond (b : List Byte) : List Byte := (Block.rehandle old new ⟨btCondition, b⟩).data
  let cfg (c : TrigCfg) : TrigCfg := { c with trig := (Block.rehandle old new ⟨btTrigger, c.trig⟩).data, conds := c.conds.map cond }
  let item (i : Item) : Item := match i with
    | .block b => .block (b.rehandle old new)
    | .define h kd ms => .define (k h) kd (ms.map k)
    | .delete h => .delete (k h)
    | .assign h f => .assign (k h) f
  { s with
    cur := { s.cur with committed := s.cur.committed.map (Block.rehandle old new),
                        staged := s.cur.staged.map fun x => { x with item := item x.item } },
    streams := s.streams.map fun e => (k8 e.1, e.2),
    stampStr := s.stampStr.map fun e => (k8 e.1, e.2),
    cross := s.cross.map fun e => (k8 e.1, e.2),
    chain := s.chain.map fun e => (k e.1, e.2),
    pipe := s.pipe.map fun e => (k e.1, e.2),
    sward := s.sward.map fun e => (k e.1, e.2),
    mask := s.mask.map fun e => (k e.1, e.2),
    prog := s.prog.map fun e => (k e.1, e.2),
    trig := s.trig.map fun e => (k e.1, { e.2 with cfg := cfg e.2.cfg, waiting := e.2.waiting.map cfg }),
    core := tmap s.core fun _ x => if x.blk.isEmpty then x else { x with blk := (Block.rehandle old new ⟨btConservator, x.blk⟩).data },
    store := tmap s.store fun _ x => if x.on then { x with blk := (Block.rehandle old new ⟨btStore, x.blk⟩).data } else x }

/-- A COLLECTION block takes effect (R511): the device stands alone until the collection is formed. -/
def applyCollection (old new : Block) (s : State) : State :=
  if old.data == new.data then s
  else
    let c := s.coll
    let s := s.reindex (old.u 0 1) (new.u 0 1)
    { s with coll := { c with st := 0, trgQ := [], ctlQ := [], held := [], lost := [], tags := [], aligns := [], formed := [],
                              offsets := [], txns := [], corr := 0, staleAt := none } }

/-! ### Blocks taking effect (R481) -/

/-- TRIGGER, CONDITION and PROGRAM blocks and program words of an exhibit change at fs-sample S; a TRIGGER block that the commit
has brought sets ARM anew (R213, R216, R251). A condition that is off keeps its BUS_CODE and TAG for FIRE (R217, R245). -/
def applyTrigger (v v' : View) (h S : Nat) (words : Option (Cells 32)) (brought : Bool) (s : State) : State :=
  let o := v.block btTrigger [h]
  let n := v'.block btTrigger [h]
  let cond (w : View) : List Block := (w.ofType btCondition).filter fun b => b.u 0 2 == h
  let changed := (cond v').filter fun b => !(cond v).contains b
  let pm : WordMem := tget {} s.prog h
  let fresh := match words with | some w => w != pm.cur | none => false
  let s := match words with
    | some w => { s with prog := tset s.prog h { pm with cur := w, dirty := pm.shadow != w } }
    | none => s
  let po := v.block btProgram [h]
  let pn := v'.block btProgram [h]
  let two := n.u 3 1 == 2
  let reprog := two && (fresh || po != pn || o.u 4 4 != n.u 4 4 || o.u 3 1 != 2 ||
    (v.position h).isSome != (v'.position h).isSome)
  let same := o == n && changed.isEmpty && (cond v).length == (cond v').length && po == pn && !fresh && !reprog && !brought
  if same then s
  else
    let c : TrigCfg :=
      { n0 := gridCeil (v'.gridK h) S 1, trig := n.data, conds := (cond v').map (·.data), prog := pn.data,
        words := (tget ({} : WordMem) s.prog h).cur, restart := changed.map (·.u 2 1), reprog := reprog,
        arm := if brought || o.u 2 1 != n.u 2 1 then some (n.u 2 1) else none,
        init := changed.flatMap fun b => levelInit s b.data }
    let x := s.tr h
    s.setTr h { x with waiting := x.waiting ++ [c], times := changed.foldl (fun t b => tdel t (b.u 2 1)) x.times }

/-- A pipeline's blocks or loaded words change at fs-sample S (R164, R179, R206). -/
def applyPipe (v v' : View) (h S : Nat) (words : Bool) (s : State) : State :=
  let diff (t : Nat) : Bool := v.block t [h] != v'.block t [h]
  let strs (w : View) : List Block := (w.ofType btSpectralStream).filter fun b => b.u 0 2 == h && b.u 3 1 != 0
  let spec := diff btSpectrum
  if !(words || spec || strs v != strs v' || diff btSward || diff btMask || diff btDdc || diff btDecimation) then s
  else
    let o := v.block btSward [h]
    let n := v'.block btSward [h]
    let ftw := (v.block btDdc [h]).u 2 6 != (v'.block btDdc [h]).u 2 6
    let clear := (o.u 2 1 != 1 && n.u 2 1 == 1) || slice o.data 4 12 != slice n.data 4 12 || spec || ftw
    let p := s.pp h
    adoptPipe h (p.waiting.length + 2) (s.setPipe h { p with waiting := p.waiting ++ [pipeCfg s v' h S clear] })

/-- A Concordance's block, members or what governs their pipelines change at fs-sample S (R191). A change of a member's
SHIFTS or STAGES cuts the interval like one of its SPECTRUM block, for D is one number (DESIGN CHOICE, log 108). -/
def applyConcordance (v v' : View) (h S : Nat) (s : State) : State :=
  let ms := v'.concordMembers h
  let pipe (m : Nat) : Bool := [btSpectrum, btDdc, btDecimation].any fun t => v.block t [m] != v'.block t [m]
  if v.block btConcordance [h] == v'.block btConcordance [h] && v.concordMembers h == ms && !ms.any pipe then s
  else
    let x := s.interval h
    concRun h (x.parts.length + x.waiting.length + 3) (s.setInterval h { x with waiting := x.waiting ++ [concCfg s v' h S] })

/-- What an exhibit that a commit deletes leaves of its analysis: the counters that only a cold reset clears (R144, R173,
R236, R254, R484). -/
def dropExhibit (h : Nat) (s : State) : State :=
  let c : Chain := tget {} s.chain h
  let p := s.pp h
  let x := s.tr h
  let chain : Chain := { replaced := c.replaced, sats := c.sats }
  let pipe : Pipe := { frames := p.frames, ovf := p.ovf, lastExp := p.lastExp }
  let trig : Trig := { hTot := x.hTot, bTot := x.bTot, events := x.events, lastAcc := x.lastAcc, prog := { fires := x.prog.fires } }
  let s := if (tfind s.chain h).isSome then { s with chain := tset s.chain h chain } else s
  let s := if (tfind s.pipe h).isSome then { s with pipe := tset s.pipe h pipe } else s
  let s := if (tfind s.trig h).isSome then { s with trig := tset s.trig h trig } else s
  { s with sward := tdel s.sward h, conc := tdel s.conc h, prog := tdel s.prog h, mask := tdel s.mask h,
           coll := { s.coll with tags := tdel s.coll.tags h } }

/-- Gaps of streams that a commit turns off or gives another type or rate close at its sample (R33, R604). -/
def closeOff (v v' : View) (S : Nat) (s : State) : State :=
  let now := v'.streams
  (v.streams.filter fun d => !now.contains d).foldl (fun s d => s.closeGap d.h d.st S) s

/-- Streams that a commit leaves without a Store have no records to come, and the first record of a sample stream that it
gives its first Store begins at the first record start from its sample on (R256, R262; DESIGN CHOICE, log 110). -/
def attachStreams (v v' : View) (S : Nat) (s : State) : State :=
  v'.streams.foldl (fun s d =>
    let k := skey d.h d.st
    let x := s.stream k
    if !v'.active d.h d.st then
      if x.gap.isSome || !x.tails.isEmpty then s.setStream k { x with gap := none, tails := [] } else s
    else if v.active d.h d.st || !isSampleType d.typ then s
    else
      let n := rateCeil d.rate S
      let x := { x with gap := none, tails := [] }
      match (tget ({} : Chain) s.chain d.h).cfgs.getLast? with
      | none => s
      | some c =>
        match (List.range 4).find? fun p => c.stream p == d.st with
        | none => s
        | some p =>
          let t : Tail := { path := p, next := n, limit := none, cfg := c, chain := tget {} s.chain d.h }
          s.setStream k { x with next := if x.next = n ∨ n = 0 then n else t.stop (n - 1) }) s

/-- Apply a function once for each block of a type that the items bring, with its old and new block. -/
def eachBlock (v v' : View) (items : List Item) (t : Nat) (f : Block → Block → State → State) (s : State) : State :=
  ((itemBlocks items).filter (·.typ == t)).foldl (fun s b => f (v.block t b.key) (v'.block t b.key) s) s

/-- Blocks of a type that a deletion takes away. -/
def eachGone (v v' : View) (t : Nat) (f : Block → Block → State → State) (s : State) : State :=
  (v.ofType t).foldl (fun s b => if (v'.ofType t).any (fun x => x.key == b.key) then s
    else f b { typ := t, data := putU b.data 2 1 0xFF } s) s

/-- Sampler exhibits of a configuration that are no gang members. -/
def View.samplers (v : View) : List Nat := v.allHandles.filter fun h => v.isSampler h && !v.gangMember h

/-- The chain of a sampler needs a new configuration (R133, R262). -/
def chainChanged (v v' : View) (h : Nat) : Bool :=
  [btDdc, btDecimation, btRaw].any (fun t => v.block t [h] != v'.block t [h]) ||
    slice (v.leadInput h).data 1 2 != slice (v'.leadInput h).data 1 2

/-- Every block of a commit takes effect at its sample; `s.cad.now` is S_T, or the resumption for a late one (R54, R481). -/
def applyCommit (p : Pending) (s : State) : State :=
  let v := s.view
  let v' := v.apply p.items
  let S := s.cad.now
  -- records of the old configuration close first
  let s := eachBlock v v' p.items btStampStream applyStampStream s
  let s := eachGone v v' btStampStream applyStampStream s
  let s := eachBlock v v' p.items btPairing applyPairing s
  let s := eachBlock v v' p.items btCrossings applyCrossings s
  let s := eachGone v v' btCrossings applyCrossings s
  let s := closeOff v v' S s
  -- the configuration changes
  let s := { s with exh := v'.exh,
                    cur := { s.cur with committed := v'.blocks, pending := s.cur.pending.filter (·.id != p.id) } }
  let gone := (v.numbers.filter fun n => (v'.ex n).st != 2).map v.handle
  let s := gone.foldl (fun s h => dropExhibit h s) s
  let s := eachBlock v v' p.items btCadence applyCadence s
  let s := eachBlock v v' p.items btClockOutput (fun _ b s => applyClockOutput b s) s
  let s := eachBlock v v' p.items btMount (fun _ b s => applyMount b s) s
  let s := eachBlock v v' p.items btChannelInput applyChannelInput s
  -- loaded words (R151, R206)
  let wins := (p.wins.filter fun e => (tget ({} : WindowMem) s.wram e.1).cur != e.2).map (·.1)
  let masks := (p.masks.filter fun e => (tget ({} : WordMem) s.mask e.1).cur != e.2).map (·.1)
  let s := withShadows p s
  let hs := v'.samplers
  let s := hs.foldl (fun s h =>
    let formed := !v.samplers.contains h
    if formed || chainChanged v v' h then applyChain v v' h formed s else s) s
  let s := hs.foldl (fun s h =>
    applyPipe v v' h S (masks.contains h || (wins.any fun w => v'.position h == some w && (v'.block btSpectrum [h]).u 5 1 == 8)) s) s
  let s := ((v'.ofType btConcordance).map fun b => b.u 0 2).foldl (fun s h => applyConcordance v v' h S s) s
  let s := v'.allHandles.foldl (fun s h => applyTrigger v v' h S (tfind p.progs h)
    ((itemBlocks p.items).any fun b => b.typ == btTrigger && b.u 0 2 == h) s) s
  let s := eachBlock v v' p.items btTrigOut applyTrigOut s
  let s := attachStreams v v' S s
  let s := applyStores v v' ((itemBlocks p.items).filterMap fun b => if b.typ = btStore then some (b.u 0 2) else none) S s
  let s := (List.range 32).foldl (fun s c =>
    let covered := match v'.coreBlock c with | some b => covers v' p.fn p.all p.scope (b.u 0 2) | none => false
    commitCore v' covered c s) s
  let s := if (itemBlocks p.items).any (·.typ == btComparator) then applyComparators v v' s else s
  let s := eachBlock v v' p.items btStimulus (fun _ b s =>
    let (s, b') := applyStimulus b s
    { s with cur := { s.cur with committed := s.cur.committed.map fun x => if x == b then b' else x } }) s
  let s := eachBlock v v' p.items btLevel (fun _ b s => applyLevel b s) s
  let s := eachBlock v v' p.items btHousekeeping applyHousekeeping s
  let s := eachBlock v v' p.items btCalSchedule (fun _ b s => applyCalSchedule b s) s
  let s := eachBlock v v' p.items btCourierQueue applyCourierQueue s
  let s := eachBlock v v' p.items btArchive (fun o b s => applyArchive o b p.big s) s
  let s := eachBlock v v' p.items btCollection applyCollection s
  s.postTo ⟨p.fn, evCommitDone, s.time, 0xFFFF, 0, fields [(4, p.id), (4, 0), (8, p.sT), (2, (itemBlocks p.items).length)]⟩

end Sys2Proof.Machine
end

