-- ==== Sys2Proof/Machine/Collection.lean ====
section
/-! DEFINITION. Collections (18): the trigger bus and its messages, formation and alignment, collection exhibits and
collection-wide actions. -/
namespace Sys2Proof.Machine

/-! ### The chain (R499, R502, R503, R511) -/

/-- The committed COLLECTION block. -/
def State.collBlock (s : State) : Block := s.block btCollection []

/-- D of the committed block. -/
def State.collD (s : State) : Nat := s.collBlock.u 1 1

/-- Device index at a chain position. -/
def State.orderAt (s : State) (i : Nat) : Nat := s.collBlock.u (8 + i) 1

/-- Device indices of the chain, in chain order. -/
def State.chainOrder (s : State) : List Nat := (List.range s.collD).map s.orderAt

/-- Chain position of a device index. -/
def State.posOf (s : State) (idx : Nat) : Nat := ((List.range 16).find? fun i => s.orderAt i == idx).getD 0

/-- The device is the lead. -/
def State.isLead (s : State) : Bool := s.view.index == s.view.lead

/-- The device belongs to a formed or broken collection: its link slots count from the common anchor. -/
def State.inColl (s : State) : Bool := s.coll.st == 2 || s.coll.st == 3

/-- D and the own chain position as the bus rules take them: 1 and 0 outside a collection (R507). -/
def State.busD (s : State) : Nat := if s.coll.st = 0 then 1 else s.collD
/-- Own chain position on the bus. -/
def State.busPos (s : State) : Nat := if s.coll.st = 0 then 0 else s.posOf s.view.index

/-- Lanes TB_IN that the own position uses (R499). -/
def State.ownLanes (s : State) : List Nat :=
  let q := s.posOf s.view.index
  (if 0 < q then [0, 1] else []) ++ (if q + 1 < s.collD then [2, 3] else [])

/-- Every lane in use is locked. -/
def State.lanesUp (s : State) : Bool := s.ownLanes.all s.coll.lanes.contains

/-- Replace the collection state. -/
def State.setColl (s : State) (c : Coll) : State := { s with coll := c }

/-! ### Messages (R505, R506) -/

/-- TIME field of a message in bus slot v: relative to the slot, or copied (R506). -/
def BusMsg.time (m : BusMsg) (v : Nat) : Int := if m.kind = 5 then m.q else (m.q : Int) - 1280 * v

/-- Word 0 of a message. -/
def BusMsg.word0 (m : BusMsg) : BitVec 64 :=
  BitVec.ofNat 64 (m.kind * 2 ^ 60 + m.sender % 16 * 2 ^ 56 + m.code % 256 * 2 ^ 48 + m.arg % 2 ^ 48)

/-- Word 1 of a message in bus slot v. -/
def BusMsg.word1 (m : BusMsg) (v : Nat) : BitVec 64 :=
  BitVec.ofNat 64 (m.handle % 2 ^ 16 * 2 ^ 48 + m.tag % 2 ^ 16 * 2 ^ 32 + ofInt 32 (m.time v))

/-- The message that two words carry in bus slot v. -/
def busMsgOf (w0 w1 : BitVec 64) (v : Nat) : BusMsg :=
  let a := w0.toNat
  let b := w1.toNat
  let time := bitsOf b 0 32
  let kind := bitsOf a 60 4
  { kind := kind, sender := bitsOf a 56 4, code := bitsOf a 48 8, arg := bitsOf a 0 48, handle := bitsOf b 48 16,
    tag := bitsOf b 32 16, q := if kind = 5 then time else 1280 * v + time, slot := v }

/-- Phase of a SCHEDULE or COMMIT message. -/
def BusMsg.phase (m : BusMsg) : Nat := m.code / 16

/-- Own link slot from which the device holds bus slot v of a sender (R504). -/
def holdSlot (s : State) (sender v : Nat) : Nat :=
  let q := s.busPos
  if s.posOf sender < q then v + 2 * q else v + 2 * (s.busD - 1 - q)

/-- First fs-sample of a link slot: 40 fabric clocks of 8 fs-samples (R502). -/
def linkStart (slot : Nat) : Nat := 320 * slot

/-- A good message arrives: it is counted, and forwarded unless the chain ends here (R503, R508). -/
def busArrive (w0 w1 : BitVec 64) (v : Nat) (down : Bool) (s : State) : State :=
  let m := busMsgOf w0 w1 v
  let s := s.tick (linkStart (holdSlot s m.sender v))
  let s := s.setColl { s.coll with received := satAdd 64 s.coll.received 1 }
  let q := s.busPos
  if (down && decide (q + 1 < s.busD)) || (!down && decide (0 < q)) then s.send (.bus w0 w1) else s

/-- A message of a kind and phase from another device of the chain. -/
def busFrom (s : State) (m : BusMsg) (kinds : List Nat) (phase : Option Nat) : Bool :=
  s.busD != 1 && kinds.contains m.kind && m.sender != s.view.index && s.chainOrder.contains m.sender &&
    (match phase with | some p => m.phase == p | none => true)

/-- Direction of a message by its sender's position: downstream from smaller positions. -/
def State.fromUp (s : State) (sender : Nat) : Bool := decide (s.posOf sender < s.busPos)

/-- TRIGGER_MESSAGE (R504, R508). -/
def triggerMessage (w0 w1 : BitVec 64) (v : Nat) (down ok : Bool) (s : State) : State :=
  if s.busD = 1 then s
  else if !ok then s.setColl { s.coll with crcErr := satAdd 32 s.coll.crcErr 1 }
  else
    let m := busMsgOf w0 w1 v
    if !(busFrom s m [1] none && s.inColl) then s
    else
      let s := busArrive w0 w1 v down s
      s.setColl { s.coll with held := s.coll.held ++ [m] }

/-- STOP (R508): held until its target. -/
def stopMessage (w0 w1 : BitVec 64) (v : Nat) (s : State) : State :=
  let m := busMsgOf w0 w1 v
  if !(busFrom s m [4] none && s.inColl) then s
  else
    let s := busArrive w0 w1 v (s.fromUp m.sender) s
    s.setColl { s.coll with held := s.coll.held ++ [m] }

/-! ### Sending (R507) -/

/-- The first owned bus slot of a class from `next` on that a message may take. -/
def firstSlot (s : State) (cls next : Nat) (m : BusMsg) : Nat :=
  let lo := max next (ceilDiv (m.clock + 4) 40)
  let lo := if m.kind = 5 then lo else max lo (ceilDivI ((m.q : Int) - (2 ^ 32 - 1)) 1280).toNat
  let r := if cls = 0 then s.busPos else 16 + s.busPos
  lo + (r + 32 - lo % 32) % 32

/-- TIME is too small for every device to hold the message in time (R507). -/
def tooLate (s : State) (v : Nat) (m : BusMsg) : Bool := m.kind != 5 && decide (m.time v < 2560 * ((s.busD : Int) - 1))

/-- MESSAGE_SEND (R507): the head of a class queue goes out in its bus slot, or is dropped. -/
def messageSend (cls v : Nat) (s : State) : State :=
  let c := s.coll
  match if cls = 0 then c.trgQ else c.ctlQ with
  | [] => s
  | m :: rest =>
    if v ≠ firstSlot s cls (if cls = 0 then c.nextTrg else c.nextCtl) m then s
    else
      let s := s.tick (linkStart v)
      let c := s.coll
      let c := if cls = 0 then { c with trgQ := rest } else { c with ctlQ := rest }
      if tooLate s v m then s.setColl { c with dropped := satAdd 32 c.dropped 1 }
      else
        let c := if cls = 0 then { c with nextTrg := v + 1 } else { c with nextCtl := v + 1 }
        let m := { m with slot := v }
        let c := { c with sent := satAdd 64 c.sent 1,
                          held := if m.kind = 1 ∨ m.kind = 4 then c.held ++ [m] else c.held }
        let s := s.setColl c
        if s.busD = 1 then s else s.send (.bus m.word0 (m.word1 v))

/-- A control message of this device at the present fabric clock. -/
def queueControl (m : BusMsg) (s : State) : State :=
  queueMsg false { m with sender := s.view.index, clock := s.cad.now / 8 } s

/-! ### Targets (R508, R517, R518) -/

/-- The epoch tag that this device keeps for a collection exhibit (R518). -/
def State.tagOf (s : State) (h : Nat) : Nat := (tfind s.coll.tags h).getD (s.view.epoch h % 2 ^ 16)

/-- A stale message is returned, counted, and reported at most once a turn (R518). -/
def returnStale (m : BusMsg) (s : State) : State :=
  let s := queueControl { kind := 5, sender := 0, code := 0, arg := 0x0026 * 2 ^ 32, handle := m.handle, tag := m.tag,
                          q := ofInt 32 (m.time m.slot) } s
  let c := s.coll
  let run := c.staleRun + 1
  let turn := s.time.turn
  if c.staleAt = some turn then s.setColl { c with staleIn := satAdd 32 c.staleIn 1, staleRun := run }
  else (s.setColl { c with staleIn := satAdd 32 c.staleIn 1, staleRun := 0, staleAt := some turn }).post evStale
    [(1, m.sender), (3, 0), (4, run)]

/-- BUS conditions occur at the target of an accepted message (R210). -/
def busOccur (m : BusMsg) (s : State) : State :=
  s.pushAll m.q 4 fun _ b =>
    let a := getU b 12 8
    if getU b 3 1 = 10 ∧ getU b 4 2 = m.code ∧ m.code ≠ 0 ∧ (a = 0 ∨ a.testBit m.sender) then
      some { pos := 0, dev := m.sender, acc := m.arg }
    else none

/-- A collection event's captures of local members (R517): the trigger sample is the target less BUS_LEAD. -/
def collCaptures (m : BusMsg) (s : State) : State :=
  let v := s.view
  let q := m.q - 32 * s.collBlock.u 4 4
  let ms := (v.reach m.handle).filter (· != m.handle)
  let stores := s.store.filterMap fun e =>
    if e.2.on && e.2.mode == 1 && ms.contains e.2.handle &&
        ((v.block btTrigger [e.2.handle]).u 11 1).testBit (e.2.u 17 1) then some (e.1, e.2.handle) else none
  { s with caps := stores.foldl (fun l p =>
      let tr := gridCeil (v.gridK p.2) q 4
      if l.any (fun c => c.store == p.1 && c.tr == tr) || (s.sto p.1).segs.any (fun g => g.trig == tr) then l
      else l ++ [⟨p.1, tr, m.arg, (p.2, v.epoch p.2), none⟩]) s.caps }

/-- ARM 0 on an exhibit at a target in quarter fs-samples (R508). -/
def armAt (q v h : Nat) (s : State) : State :=
  let x := s.tr h
  s.setTr h { x with arms := x.arms ++ [(max x.next (gridCeil (s.view.gridK h) q 4), v)] }

/-- A held message acts. -/
def busAct (m : BusMsg) (s : State) : State :=
  if m.kind = 4 then (s.view.reach m.handle).foldl (fun s h => armAt m.q 0 h s) s
  else
    let s := busOccur m s
    if s.view.isCollection m.handle && m.sender != s.view.index then collCaptures m s else s

/-- MESSAGE_TARGET (R508, R518): held message `i` reaches its target. -/
def messageTarget (i : Nat) (s : State) : State :=
  match s.coll.held[i]? with
  | none => s
  | some m =>
    let s := s.tick (ceilDiv m.q 4)
    let s := s.setColl { s.coll with held := s.coll.held.eraseIdx i }
    let v := s.view
    if v.isCollection m.handle && m.tag != s.tagOf m.handle then returnStale m s
    -- this device's own message, of an exhibit of its own whose epoch has changed since (R23; DEDUCED, log 111)
    else if !v.isCollection m.handle && m.sender == v.index && (v.find m.handle).isSome && m.tag != v.epoch m.handle % 2 ^ 16 then
      s.setColl { s.coll with staleRet := satAdd 32 s.coll.staleRet 1 }
    else busAct m s

/-- RETURN (R518): only the lead originates messages on collection exhibits. -/
def returnMsg (w0 w1 : BitVec 64) (v : Nat) (s : State) : State :=
  let m := busMsgOf w0 w1 v
  if !(busFrom s m [5] none && s.inColl) then s
  else
    let s := busArrive w0 w1 v (s.fromUp m.sender) s
    if s.isLead then s.setColl { s.coll with staleRet := satAdd 32 s.coll.staleRet 1 } else s

/-! ### Collection-wide actions (R519, R520) -/

/-- 10 ms and 100 ms at nominal fs, in fs-samples (R8, R519). -/
def actionMin := 102400000
/-- 100 ms at nominal fs. -/
def actionMax := 1024000000

/-- CRC-32 of a member list, 2 bytes a handle (R519). -/
def memberCrc (v : View) (h : Nat) : Nat := crc32 ((v.ex (h % 4096)).members.flatMap (leBytes 2))

/-- The time of a collection-wide action (R519). -/
def actionTime (s : State) (t : CT) : Except Err Unit := do
  ensure (t.slot < s.cad.spt) eRange 10
  ensure (!tooSoon s.cad t actionMin) eTimePast 4
  ensure (decide (ctPos s.cad t ≤ ((s.cad.now + actionMax : Nat) : Int) * 2 ^ 48)) eRange 4

/-- The collection accepts an action: on its lead, while it is formed (R514, R519). -/
def actionHere (s : State) : Except Err Unit := ensure (s.isLead && s.coll.st == 2) eCollectionState

/-- Queue a message of an action: PREPARE carries the member list's CRC, the others leave ARG [47:16] open (DESIGN CHOICE, log 7). -/
def actionMsg (x : Txn) (phase : Nat) (arg : Nat) (s : State) : State :=
  queueControl { kind := x.kind, sender := 0, code := phase * 16 + x.action, arg := arg * 2 ^ 16 + x.id % 2 ^ 16,
                 handle := x.handle, tag := s.tagOf x.handle, q := 4 * sampleOf s.cad x.time } s

/-- PREPARE goes out, and the command's response waits (R519). -/
def beginAction (x : Txn) (crc : Nat) (s : State) : State :=
  let s := actionMsg x 0 crc s
  let m := s.mb x.fn
  (s.setColl { s.coll with txns := s.coll.txns ++ [{ x with sent := s.cad.now }] }).setMb x.fn
    { m with busy := true, respValid := false }

/-- A collection-wide command: its checks refuse at once; accepted, it waits for the votes. -/
def runWithheld (op : Nat) (r : Req) (s : State) (body : State → Effect) : State :=
  let s' := s.tick r.t
  if s'.accepting && r.seq == ((s'.mb r.fn).lastSeq + 1) % 2 ^ 32 then
    match checked op false r s' body with
    | .ok (s'', _) => s''
    | .error _ => runCommand op false r s body
  else runCommand op false r s body

/-- COMMIT on a collection exhibit (R519). -/
def collCommitBody (r : Req) (s : State) : Effect := do
  r.lenIs 16
  r.rsvIs 3 1
  r.rsvIs 14 2
  ensure (r.u 2 1 < 4) eReserved 2
  let h := r.u 0 2
  let _ ← ownedHandle s r.fn h
  actionHere s
  let t := if r.u 2 1 % 2 = 1 then asapTime s.cad actionMin else ctOfBytes r.params 4
  actionTime s t
  let a ← planCommit s r.fn false h t r.env actionMin (some s.cur.nextCommit)
  let x : Txn := { id := a.p.id, lead := true, kind := 3, handle := h, time := t, op := 0x0006, fn := r.fn, seq := r.seq,
                   plan := some a.p, migr := a.migr }
  let crc := memberCrc ((s.viewAt t).applyAll a.p.items) h
  let s := { s with cur := { s.cur with nextCommit := s.cur.nextCommit + 1 } }
  return (beginAction x crc s, [])

/-- TRIGGER_ARM with ARM 1 or 2 and TRIGGER_FORCE on a collection exhibit (R519): `action` 1, 2 or 3. -/
def collScheduleBody (op action : Nat) (asap : Bool) (r : Req) (s : State) : Effect := do
  let (h, _) ← triggerHandle s r
  actionHere s
  let t := if asap then asapTime s.cad actionMin else ctOfBytes r.params 4
  actionTime s t
  schedCheck s t 4 6 (s.view.triggerReach h)
  ensure (action != 3 || ((s.viewAt t).conditions h).any fun b => b.u 3 1 == 12) eRange 0
  let n := s.coll.actions
  let x : Txn := { id := n, lead := true, kind := 2, action := action, handle := h, time := t, op := op, fn := r.fn,
                   seq := r.seq }
  let s := s.setColl { s.coll with actions := n + 1 }
  return (beginAction x (memberCrc (s.viewAt t) h) s, [])

/-- The control queue can send one more message so that every device holds it in time (R520). -/
def controlMeets (s : State) (m : BusMsg) : Bool :=
  let next := s.coll.ctlQ.foldl (fun n x => let v := firstSlot s 1 n x; if tooLate s v x then n else v + 1) s.coll.nextCtl
  decide (s.coll.ctlQ.length < 64) && !tooLate s (firstSlot s 1 next m) m

/-- TRIGGER_ARM with ARM 0 on a collection exhibit is sent as STOP (R520). -/
def collStopBody (r : Req) (s : State) : Effect := do
  let (h, _) ← triggerHandle s r
  actionHere s
  let t := ctOfBytes r.params 4
  ensure (t.slot < s.cad.spt) eRange 10
  ensure (!tooSoon s.cad t) eTimePast 4
  let m : BusMsg := { kind := 4, sender := s.view.index, code := 0, arg := 0, handle := h, tag := s.tagOf h,
                      q := 4 * sampleOf s.cad t, clock := s.cad.now / 8 }
  ensure (controlMeets s m) eTimePast 4
  return (queueMsg false m s, [])

/-- An action becomes an ordinary pending action of this device (R481, R519). -/
def makePending (x : Txn) (s : State) : State :=
  match x.plan with
  | some p =>
    let p := if x.lead then p else { p with id := s.cur.nextCommit }
    Machine.accept ⟨p, x.migr, none⟩ s
  | none => s.schedule x.fn x.time (some x.handle) (if x.action = 3 then .force else .arm x.action) (some x.id)

/-- A waiting command is answered. -/
def answerAction (x : Txn) (e : Err) (res : List Byte) (s : State) : State :=
  let p : Resp := { opcode := x.op, seq := x.seq, error := e.code, detail := e.detail, time := s.time, result := res }
  s.complete x.fn p false x.seq (some p)

/-- An action ends: GO when every member accepted, else ABORT and the refusal (R519). -/
def settleAction (x : Txn) (s : State) : State :=
  let others := s.chainOrder.filter (· != s.view.index)
  let missing := others.any fun d => !x.votes.contains d && !x.refused.any (·.1 == d)
  let s := s.setColl { s.coll with txns := s.coll.txns.filter fun y => !(y.lead && y.id == x.id && y.kind == x.kind) }
  let (free, s) := s.freeNat
  if !missing && x.refused.isEmpty then
    let s := makePending x (actionMsg x 3 free s)
    let res := match x.plan with
      | some p => fields ([(4, p.id), (4, 0), (8, p.sT)] ++ ctFields x.time)
      | none => if x.action = 3 then fields (ctFields x.time) else []
    answerAction x ⟨eOk, 0, []⟩ res s
  else
    let s := actionMsg x 4 free s
    if missing then answerAction x ⟨eCollectionState, 0, []⟩ [] s
    else
      let first := others.findSome? fun d => x.refused.find? (·.1 == d)
      match first with
      | some (_, code, h) => answerAction x ⟨code, 0, []⟩ (zeros 16 ++ leBytes 2 h) s
      | none => answerAction x ⟨eCollectionState, 0, []⟩ [] s

/-- A vote arrives at the lead; with the last one the action ends (R519). -/
def takeVote (m : BusMsg) (vote : Txn → Txn) (s : State) : State :=
  match s.coll.txns.find? fun x => x.lead && x.kind == m.kind && x.handle == m.handle && x.id % 2 ^ 16 == m.arg % 2 ^ 16 with
  | none => s
  | some x =>
    if x.votes.contains m.sender || x.refused.any (·.1 == m.sender) then s
    else
      let y := vote x
      let s := s.setColl { s.coll with txns := s.coll.txns.map fun z => if z == x then y else z }
      if (s.chainOrder.filter (· != s.view.index)).all fun d => y.votes.contains d || y.refused.any (·.1 == d) then
        settleAction y s
      else s

/-- ACCEPT (R519). -/
def acceptVote (w0 w1 : BitVec 64) (v : Nat) (s : State) : State :=
  let m := busMsgOf w0 w1 v
  if !(busFrom s m [2, 3] (some 1) && s.inColl) then s
  else
    let s := busArrive w0 w1 v (s.fromUp m.sender) s
    if s.isLead then takeVote m (fun x => { x with votes := x.votes ++ [m.sender] }) s else s

/-- REFUSE (R519). -/
def refuseVote (w0 w1 : BitVec 64) (v : Nat) (s : State) : State :=
  let m := busMsgOf w0 w1 v
  if !(busFrom s m [2, 3] (some 2) && s.inColl) then s
  else
    let s := busArrive w0 w1 v (s.fromUp m.sender) s
    if s.isLead then
      takeVote m (fun x => { x with refused := x.refused ++ [(m.sender, bitsOf m.arg 32 16, bitsOf m.arg 16 16)] }) s
    else s

/-- VOTE_TIMEOUT (R519): 2 ms at nominal fs after PREPARE. -/
def voteTimeout (id : Nat) (s : State) : State :=
  match s.coll.txns.find? fun x => x.lead && x.id == id with
  | none => s
  | some x => settleAction x (s.tick (x.sent + 20480000))

/-- A member's checks of an action (R519): the member list, and its own staged blocks in scope. -/
def checkAction (m : BusMsg) (t : CT) (s : State) : Except Err (Txn × State) := do
  let h := m.handle
  let x : Txn := { id := m.arg % 2 ^ 16, lead := false, kind := m.kind, action := m.code % 16, handle := h, time := t }
  match s.view.find h with
  | none => refuse eUndefined
  | some _ =>
    if m.kind = 2 then do
      schedCheck s t 4 6 (s.view.triggerReach h)
      return (x, s)
    else do
      let a ← planCommit s 0 false h t [] leadSamples (some x.id)
      let staged := s.cur.staged.filter fun y => !(y.fn == 0 && a.p.items.contains y.item)
      return ({ x with plan := some a.p, migr := a.migr }, { s with cur := { s.cur with staged := staged } })

/-- The member list that an action's CRC covers, as it will stand. -/
def actionMembers (m : BusMsg) (t : CT) (s : State) : Nat :=
  let v := s.viewAt t
  let items := if m.kind = 3 then scopeItems s 0 false (s.view.reach m.handle) else []
  memberCrc (v.applyAll items) m.handle

/-- PREPARE (R518, R519). -/
def prepareMsg (w0 w1 : BitVec 64) (v t : Nat) (s : State) : State :=
  let m := busMsgOf w0 w1 v
  if !(busFrom s m [2, 3] (some 0) && s.inColl && m.sender == s.view.lead) then s
  else
    let s := (busArrive w0 w1 v (s.fromUp m.sender) s).tick t
    let s := s.setColl { s.coll with tags := tset s.coll.tags m.handle m.tag }
    let T := ctOf s.cad (ceilDiv m.q 4)
    let base : Txn := { id := m.arg % 2 ^ 16, lead := false, kind := m.kind, action := m.code % 16, handle := m.handle,
                        time := T }
    -- a refusal names no code for a CRC that differs (DESIGN CHOICE, log 7)
    let same := actionMembers m T s == bitsOf m.arg 16 32
    let (free, s) := s.freeNat
    match if same || (s.view.find m.handle).isNone then checkAction m T s else refuse (free % 2 ^ 16) with
    | .ok (x, s) => actionMsg base 1 free (s.setColl { s.coll with txns := s.coll.txns ++ [x] })
    | .error e =>
      let member := if e.result.length = 18 then getU e.result 16 2 else m.handle
      actionMsg base 2 (e.code * 2 ^ 16 + member) s

/-- A member's tentative action that a message names. -/
def tentative (m : BusMsg) (s : State) : Option Txn :=
  s.coll.txns.find? fun x => !x.lead && x.kind == m.kind && x.handle == m.handle && x.id == m.arg % 2 ^ 16

/-- A member forgets a tentative action. -/
def dropTxn (x : Txn) (s : State) : State := s.setColl { s.coll with txns := s.coll.txns.filter fun y => !(y == x) }

/-- A tentative action is discarded, and its blocks return to the staged set (R519). -/
def discardAction (x : Txn) (s : State) : State :=
  let back := match x.plan with | some p => p.items.map fun i => (⟨0, i⟩ : Staged) | none => []
  let s := dropTxn x s
  { s with cur := { s.cur with staged := s.cur.staged ++ back } }

/-- GO (R519). -/
def goMsg (w0 w1 : BitVec 64) (v : Nat) (s : State) : State :=
  let m := busMsgOf w0 w1 v
  if !(busFrom s m [2, 3] (some 3) && s.inColl && m.sender == s.view.lead) then s
  else
    let s := busArrive w0 w1 v (s.fromUp m.sender) s
    match tentative m s with | some x => makePending x (dropTxn x s) | none => s

/-- ABORT (R519). -/
def abortMsg (w0 w1 : BitVec 64) (v : Nat) (s : State) : State :=
  let m := busMsgOf w0 w1 v
  if !(busFrom s m [2, 3] (some 4) && s.inColl && m.sender == s.view.lead) then s
  else
    let s := busArrive w0 w1 v (s.fromUp m.sender) s
    match tentative m s with | some x => discardAction x s | none => s

/-- TENTATIVE_TIMEOUT (R519): T less 5 ms at nominal fs. -/
def tentativeTimeout (id t : Nat) (s : State) : State :=
  match s.coll.txns.find? fun x => !x.lead && x.id == id with
  | none => s
  | some x =>
    if t + 51200000 < sampleOf s.cad x.time then s
    else (discardAction x (s.tick t)).post evMemberLost [(1, s.view.lead)]

/-! ### Formation and lanes (R512 to R515) -/

/-- CRC-32 of the CADENCE block (R505). -/
def cadenceCrc (s : State) : Nat := crc32 s.cadBlock.data

/-- Major version of the running image. -/
def State.major (s : State) : Nat := if s.boot.image = 0 then s.boot.imgA.major else s.boot.imgB.major

/-- What ALIGN says of this device: major version, CADENCE CRC, next turn start in quarter fs-samples. -/
def ownAlign (s : State) : Nat × Nat × Nat := (s.major, cadenceCrc s, 4 * nextTurn s.cad s.cad.now)

/-- ALIGN goes out once every lane in use is locked (DEDUCED, log 72). -/
def sendAlign (s : State) : State :=
  let (m, c, q) := ownAlign s
  queueControl { kind := 8, sender := 0, code := m, arg := c % 2 ^ 32 * 2 ^ 16, handle := 0xFFFF, tag := 0, q := q } s

/-- Every other device's ALIGN is there and agrees in version and CADENCE block. -/
def alignsAgree (s : State) : Bool :=
  (s.chainOrder.filter (· != s.view.index)).all fun d =>
    match tfind s.coll.aligns d with
    | some (m, c, _) => m == s.major && c == cadenceCrc s
    | none => false

/-- The collection is formed: the anchor is named, and every device reports it (R512). -/
def formed (corr : Int) (turn : Nat) (s : State) : State :=
  let s := { s with cad := { s.cad with awaitAnchor := true, keptTurn := some turn } }
  let c := s.coll
  (s.setColl { c with st := 2, corr := corr, formed := c.aligns, lost := [], nextTrg := 0, nextCtl := 0 }).post evFormed
    [(1, s.collD), (1, s.view.lead)]

/-- A broken collection whose lanes are all locked and whose devices align as they did at formation is formed again (R514). -/
def reform (s : State) : State :=
  let c := s.coll
  let same := (s.chainOrder.filter (· != s.view.index)).all fun d =>
    match tfind c.aligns d, tfind c.formed d with
    | some a, some b => a.1 == b.1 && a.2.1 == b.2.1
    | _, _ => false
  if c.st = 3 ∧ s.lanesUp ∧ same then (s.setColl { c with st := 2, lost := [] }).post evFormed [(1, s.collD), (1, s.view.lead)]
  else s

/-- ALIGN (R512): the last one of the chain forms the collection on a member; the correction that the lead sends has no
message of its own, so it is free (DEDUCED, log 72). -/
def alignMsg (w0 w1 : BitVec 64) (v : Nat) (s : State) : State :=
  let m := busMsgOf w0 w1 v
  if !busFrom s m [8] none then s
  else
    let s := busArrive w0 w1 v (s.fromUp m.sender) s
    let s := s.setColl { s.coll with aligns := tset s.coll.aligns m.sender (m.code, bitsOf m.arg 16 32, m.q) }
    if s.coll.st = 3 then reform s
    else if s.coll.st = 1 ∧ !s.isLead ∧ s.lanesUp ∧ alignsAgree s ∧ s.cad.synced then
      let (z, s) := s.freeInt
      let lead := (tfind s.coll.aligns s.view.lead).getD (0, 0, 0)
      formed (16 * z) (ctOf s.cad (ceilDiv lead.2.2 4)).turn s
    else s

/-- LANE_LOCK (R502, R514). -/
def laneLock (lane t : Nat) (s : State) : State :=
  let s := s.tick t
  if s.collD ≤ 1 ∨ !s.ownLanes.contains lane ∨ s.coll.lanes.contains lane then s
  else
    let s := s.setColl { s.coll with lanes := lane :: s.coll.lanes, st := max 1 s.coll.st }
    if s.lanesUp then reform (sendAlign s) else s

/-- LANE_LOSS (R514): `lost` are the devices beyond the lane. -/
def laneLoss (lane : Nat) (lost : List Nat) (t : Nat) (s : State) : State :=
  let s := s.tick t
  if !s.coll.lanes.contains lane then s
  else
    let c := s.coll
    let c := { c with lanes := c.lanes.filter (· != lane) }
    if !s.inColl then s.setColl { c with st := if s.lanesUp then 0 else c.st, aligns := [] }
    else
      let new := (s.chainOrder.filter lost.contains).filter fun d => d != s.view.index && !c.lost.contains d
      let all := c.lost ++ new
      let s := s.setColl { c with st := 3, lost := all, aligns := [] }
      if all.contains s.view.lead then s else new.foldl (fun s d => s.post evMemberLost [(1, d)]) s

/-- PROBE (R513): answered by an ECHO two link slots later, a slot being 327,680 units of 1/16 fine unit. -/
def probeMsg (slot : Nat) (a1 : Int) (s : State) : State :=
  if s.collD ≤ 1 ∨ !s.lanesUp then s
  else
    let s := s.tick (linkStart (slot + 2))
    let m : BusMsg := { kind := 7, sender := s.view.index, code := 0, arg := ofInt 48 (a1 - 327680 * (slot + 2)),
                        handle := 0xFFFF, tag := 0, q := 0 }
    -- EPOCH_TAG and TIME of an ECHO are not stated (DESIGN CHOICE, log 7)
    let (f, s) := s.freeNat
    s.send (.bus m.word0 (BitVec.ofNat 64 (0xFFFF * 2 ^ 48 + f % 2 ^ 48)))

/-- ECHO (R513): twice the offset of the next position's axis, from the arrival offset a1 - t2 and the own stamps. -/
def echoMsg (w0 w1 : BitVec 64) (hop slot : Nat) (a3 : Int) (s : State) : State :=
  let m := busMsgOf w0 w1 slot
  if s.collD ≤ 1 ∨ m.kind ≠ 7 ∨ hop ≠ s.posOf s.view.index ∨ s.collD ≤ hop + 1 then s
  else
    let t0 : Int := 327680 * slot
    let d := (toInt 48 m.arg + 655360) - (a3 - (t0 + 655360))
    let l := s.coll.offsets ++ [d]
    s.setColl { s.coll with offsets := l.drop (l.length - 1024) }

/-- Correction at a chain position from the hops' totals of 2,048 x 16 parts: the negated sum along the chain from the
lead, to steps of 16 units, half to even (R513). -/
def correctionAt (s : State) (env : List Nat) (p : Nat) : Int :=
  let lead := s.posOf s.view.lead
  let hop (i : Nat) : Int := toInt 64 (env.getD (2 * i) 0)
  let sum := if lead ≤ p then ((List.range p).filter (lead ≤ ·)).foldl (fun n i => n + hop i) 0
    else ((List.range lead).filter (p ≤ ·)).foldl (fun n i => n - hop i) 0
  16 * rhe (-sum) (2048 * 16)

/-- COLLECTION_FORM (R512, R513, R521): `env` gives for each hop the total of (a1 - t0) - (a3 - t2) over its 1,024
exchanges, two's complement in 64 bits, and its HOP_DELAY (DESIGN CHOICE, log 71). -/
def collectionFormBody (r : Req) (s : State) : Effect := do
  r.lenIs 0
  ensure (decide (2 ≤ s.collD) && s.isLead) eCollectionState
  ensure (s.lanesUp && s.cad.synced) eCollectionState
  let others := s.chainOrder.filter (· != s.view.index)
  let al := others.filterMap (tfind s.coll.aligns)
  ensure (al.length == others.length) eCollectionState
  ensure (al.all fun a => a.1 == s.major) eMajorMismatch
  ensure (al.all fun a => a.2.1 == cadenceCrc s) eCollectionState
  let corrs := (List.range s.collD).map (correctionAt s r.env)
  ensure (decide (2 * (s.collD - 1) ≤ r.env.length) && corrs.all fun c => decide (c.natAbs ≤ 512)) eCollectionState
  let entries := (List.range 16).flatMap fun p =>
    if s.collD ≤ p then zeros 8
    else fields [(4, if p = 0 then 0 else r.env.getD (2 * (p - 1) + 1) 0), (4, ofInt 32 (corrs.getD p 0))]
  let turn := (s.time.turn + 1) % 2 ^ 48
  return (formed (correctionAt s r.env (s.posOf s.view.index)) turn s, fields [(1, s.collD), (7, 0)] ++ entries)

/-- COLLECTION_DISSOLVE (R515): `env` is not empty when another device has an active stream or an exhibit. -/
def collectionDissolveBody (r : Req) (s : State) : Effect := do
  r.lenIs 0
  ensure s.isLead eCollectionState
  ensure (!s.view.anyActive && !(s.exh.any fun e => decide (48 ≤ e.1) && e.2.st != 0) && r.env.isEmpty) eActive
  let old := s.collBlock
  let s := { s with cur := { s.cur with committed := s.cur.committed.filter fun b => b.typ != btCollection } }
  return (applyCollection old (s.block btCollection []) s, [])

/-- Result of COLLECTION_STATUS (R521). -/
def collectionStatusBytes (s : State) : List Byte :=
  let c := s.coll
  let b := s.collBlock
  let near := if s.inColl then s.chainOrder.filter fun d => !c.lost.contains d else [s.view.index]
  fields [(1, c.st), (1, b.u 0 1), (1, b.u 2 1), (1, b.u 1 1), (2, maskOf near), (2, 0), (8, c.sent), (8, c.received),
    (4, c.dropped), (4, c.crcErr), (4, c.staleIn), (4, c.staleRet), (4, ofInt 32 c.corr), (20, 0)]

/-- COLLECTION_STATUS (R521). -/
def collectionStatusBody (r : Req) (s : State) : Effect := do
  r.lenIs 0
  return (s, collectionStatusBytes s)

/-- Epoch tags of collection exhibits advance with their epochs (R518). -/
def stepTags (v v' : View) (s : State) : State :=
  s.setColl { s.coll with tags := s.coll.tags.map fun e =>
    (e.1, if v.epoch e.1 = v'.epoch e.1 then e.2 else (e.2 + 1) % 2 ^ 16) }

end Sys2Proof.Machine
end

