-- ==== Sys2Proof/Machine/Losses.lean ====
section
/-! DEFINITION. Loss of lock and of domains (02, 19, 20): lacunae of the streams that depend on what failed, and analysis
that resumes (R70, R71, R352, R536, R604). -/
namespace Sys2Proof.Machine

/-! ### Streams that a loss takes -/

/-- Record types that a gallery computes (R15, R557). -/
def galleryType (t : Nat) : Bool :=
  t == rtIq || t == rtBins || t == rtPower || t == rtTrace || t == rtSpectrogram || t == rtSward || t == rtTrigger ||
    t == rtConservator

/-- HOUSEKEEPING and CAL_REPORT streams (R384). -/
def hkType (t : Nat) : Bool := t == rtHousekeeping || t == rtCalReport

/-- The loss takes a stream: by its handles, a gallery's and a migration's by what galleries compute, PD28's by its stamps. -/
def Loss.takes (l : Loss) (d : StreamDef) : Bool :=
  (match l.hs with | some hs => hs.contains d.h | none => true) &&
    (if l.unit = 28 then isTdcType d.typ
     else if l.cause = caMigration ∨ (13 ≤ l.unit ∧ l.unit ≤ 21) then galleryType d.typ
     else true)

/-- Handles that reach a channel of a wing (R71). -/
def View.wingHandles (v : View) (w : Nat) : List Nat := v.allHandles.filter fun h => (v.channels h).any fun c => c / 12 == w

/-- Handles whose channels all lie in a logical position (R196, R560). -/
def View.positionHandles (v : View) (p : Nat) : List Nat := v.allHandles.filter fun h => v.position h == some p

/-- A stream is under a CLOCK lacuna. -/
def clockTakes (s : State) (d : StreamDef) : Bool := (clockLoss s.cad (s.view.deps d.h)).isSome

/-- First sample of the fabric clock that holds a sample. -/
def fabricStart (t : Nat) : Nat := t / 8 * 8

/-- Open a gap of one stream (R34, R70, R352, R384). -/
def takeStream (d : StreamDef) (cause unit lo : Nat) (s : State) : State :=
  if isTdcType d.typ then openTdcGap d.h d.st cause unit lo s
  else if hkType d.typ && cause == caClock then s
  else s.openGap d.h d.st cause unit lo

/-- Gaps open for a configuration's streams that a running loss takes and that have none yet. -/
def openRunning (s : State) : State :=
  s.view.streams.foldl (fun s d =>
    match clockLoss s.cad (s.view.deps d.h) with
    | some lo => takeStream d caClock 0 (max lo s.cad.now) s
    | none =>
      match s.losses.find? (·.takes d) with
      | some l => takeStream d l.cause (if l.cause = caDomain then l.unit else 0) (max l.start s.cad.now) s
      | none => s) s

/-- A loss begins: its streams get their lacunae; a running one of the same kind takes the new resumption. -/
def openLoss (l : Loss) (s : State) : State :=
  let same (m : Loss) : Bool := m.unit == l.unit && m.cause == l.cause && m.hs == l.hs
  let old := s.losses.any same
  let ls := if old then s.losses.map fun (m : Loss) => if same m then { m with resume := l.resume } else m
    else s.losses ++ [l]
  let s : State := { s with losses := ls }
  s.view.streams.foldl (fun s d =>
    if l.takes d then takeStream d l.cause (if l.cause = caDomain then l.unit else 0) l.start s else s) s

/-! ### Resumption (R70, R135, R165, R183, R191, R213, R252, R325, R352) -/

/-- Exhibits resume at fs-sample `S`: histories start from zero; `failed`: after a failed placement (R184). -/
def resumeExhibit (S : Nat) (failed : Bool) (h : Nat) (s : State) : State :=
  let s := if (tfind s.chain h).isSome then resumeChain S h s else s
  let s := if (tfind s.pipe h).isSome then
      let s := resumePipe S h s
      if failed then s.setPlane h { s.plane h with failed := true } else s
    else s
  let s := if (tfind s.conc h).isSome then resumeConc S h s else s
  let s := if (tfind s.trig h).isSome then resumeTrigger S h s else s
  (List.range 32).foldl (fun s c => if getU (s.cc c).blk 0 2 = h ∧ !(s.cc c).blk.isEmpty then restartCore S c s else s) s

/-- An exhibit's analysis stands still: a CLOCK lacuna, or a loss that takes more than stamps (R70, R536). -/
def analysisLost (s : State) (h : Nat) : Bool :=
  (clockLoss s.cad (s.view.deps h)).isSome ||
    s.losses.any fun l => l.unit != 28 && (match l.hs with | some hs => hs.contains h | none => true)

/-- Exhibits whose analysis stands still. -/
def stillLost (s : State) : List Nat := s.view.allHandles.filter (analysisLost s)

/-- Streams resume at fs-sample `S`: each gap closes, but where another loss still runs (R33, R34); exhibits of `was` whose
analysis no loss holds any more resume with them. -/
def resumeStreams (S : Nat) (ds : List StreamDef) (was : List Nat) (failed : Bool) (s : State) : State :=
  let free := ds.filter fun d => !clockTakes s d && !s.losses.any (·.takes d)
  let s := free.foldl (fun s d =>
    if isTdcType d.typ then resumeTdcStream S d.h d.st s
    else if hkType d.typ then s
    else s.closeGap d.h d.st S) s
  let units := ((free.filter fun d => isTdcType d.typ).map (·.h)).eraseDups
  let back := was.filter fun h => !analysisLost s h
  resumeUnits S units (back.foldl (fun s h => resumeExhibit S failed h s) s)

/-- Losses that `sel` picks end at fs-sample `S`. -/
def endLosses (sel : Loss → Bool) (S : Nat) (failed : Bool) (s : State) : State :=
  let gone := s.losses.filter sel
  if gone.isEmpty then s
  else
    let was := stillLost s
    let s : State := { s with losses := s.losses.filter fun l => !sel l }
    let ds := s.view.streams.filter fun d => gone.any (·.takes d)
    (resumeStreams S ds was failed s).publishAll

/-! ### Loss of lock (R70, R93, R367, R374) -/

/-- Channels and DAC wings that a synthesiser clocks; FPLL clocks what every stream needs (R71). -/
def pllChannels (k : Nat) : List Nat := if k < 4 then (List.range 12).map (12 * k + ·) else List.range 48

/-- A synthesiser has declared loss: its streams get CLOCK lacunae, gleaning halts, outputs hold (R70, R71, R93, R367, R374). -/
def pllLoss (k : Nat) (s : State) : State :=
  let lo := (pllOf s.cad k).lossFrom.getD s.cad.now
  let s := s.view.streams.foldl (fun s d =>
    if (s.view.deps d.h).contains k then takeStream d caClock 0 lo s else s) s
  let s := haltGleaning (pllChannels k) s
  let s := if k < 4 then holdOutputs k s else s
  if k = 4 then hkTouch s else s

/-- PLL_UNLOCK (R69, R70): loss by phase, declared in the running window. -/
def pllUnlock (k t : Nat) (s : State) : State :=
  let s := s.tick t
  if !(pllOf s.cad k).locked || s.cad.coasting then s else pllLoss k (declareLoss k s)

/-- LOCK_WINDOW_END (R58, R69, R70): a clean window releases the records that waited for it. -/
def lockWindowEnd (k diff t : Nat) (s : State) : State :=
  let (s, lost) := windowEnd k diff t s
  if lost then pllLoss k s else s.publishAll

/-- Loss of lock of the given synthesisers is over at fs-sample `S`. -/
def resumePlls (ks : List Nat) (S : Nat) (s : State) : State :=
  let ds := s.view.streams.filter fun d => clockTakes s d
  let was := stillLost s
  let s := ks.foldl (fun s k => s.setCad (s.cad.setPll k { pllOf s.cad k with lossFrom := none })) s
  let s := resumeStreams S ds was false s
  let s := (ks.filter (· < 4)).foldl (fun s w => resumeOutputs S w s) s
  s.publishAll

end Sys2Proof.Machine
end

