-- ==== Sys2Proof/Machine/Power.lean ====
section
/-! DEFINITION. Domains, their faults, galleries and migration (19, 20, R589): leave that starts, domains that power down,
domain faults, gallery failures, planned and automatic migrations, uncorrectable words. -/
namespace Sys2Proof.Machine

/-! ### Domains (R522, R535) -/

/-- Domains that a domain requires (R522). -/
def requires (d : Nat) : List Nat :=
  if d = 0 then []
  else if d ≤ 4 then [0]
  else if d ≤ 8 then [d - 4, d + 4, 27]
  else if d = 24 ∨ d = 27 then [0]
  else if d = 25 then [24, 26]
  else if d = 26 ∨ d = 28 then [27]
  else [26, 27]

/-- Domains get power, each after those that it requires (R522); one left down stays down. -/
def powerUpAll (ds : List Nat) (s : State) : State :=
  (([0, 27, 26, 24, 25, 28, 30, 29] ++ (List.range 31)).filter ds.contains).foldl (fun s d => s.powerUp d) s

/-- What a domain loses with its power (R358, R371, R384). -/
def domainOff (d : Nat) (s : State) : State :=
  let s := s.powerOff d
  if d = 29 then outputsOff s
  else if d = 30 then hkStop s
  else if d = 22 ∨ d = 23 then s.setStk (d - 22) { s.stk (d - 22) with st := 3 }
  else s

/-- A wing has just come up: its slices take their positions and the foreground measurement, its comparators arm, and the
first time its windows of R583 are due (R79, R87, R335, R340, R583); `ms` as in LEAVE_START. -/
def wingUp (w : Nat) (ms : List Meas) (s : State) : State :=
  let s := armComparators ((List.range 12).map (12 * w + ·)) (channelsUp w ms s)
  let x : Wing := tget {} s.wing w
  if x.first then s
  else
    let s := (s.staleFrom (calTag 1 w) s.cad.now)
    firstWindows [(1, w), (3, w)] s.cad.now { s with wing := tset s.wing w { x with first := true } }

/-- LEAVE_START (R525, R527): a grant that holds now powers its domains. -/
def leaveStart (op unit t : Nat) (ms : List Meas) (s : State) : State :=
  let s := s.tick t
  if !s.ledger.any fun g => g.op == op && g.unit == unit && g.holds s.cad.now then s
  else if op = 11 then skipRefused s
  else
    let ds := if op = 12 then (s.gal.migr.filter (·.pos == unit)).map fun m => 13 + m.target
      else opDomains ((s.cur.pending.foldl (fun v p => v.applyAll p.items) s.view)) op unit ++ opDomains s.view op unit
    let new := ds.filter fun d => !s.isUp d && !s.pow.down.contains d
    let s := powerUpAll ds s
    if op = 1 ∧ !new.isEmpty then wingUp unit ms s
    else if op = 8 ∧ !new.isEmpty ∧ !s.pow.outs then
      let ws := (List.range 4).filter fun w => s.isUp (5 + w)
      firstWindows (ws.map (2, ·) ++ ws.map (4, ·)) s.cad.now { s with pow := { s.pow with outs := true } }
    else s

/-- DOMAIN_POWER_DOWN (R522, R535, R436): no leave needs the domain, and no domain that is up requires it. -/
def domainPowerDown (d t : Nat) (s : State) : State :=
  let s := s.tick t
  let wanted := (s.neededDomains s.cad.now).contains d || (List.range 31).any fun e => s.isUp e && (requires e).contains d
  if d = 0 ∨ !s.isUp d ∨ wanted then s
  else if (22 ≤ d ∧ d ≤ 25) ∧ (drainers s d).any (fun q => (s.qu q).desc.isSome) then beginDrain d s
  else domainOff d s

/-! ### Galleries (R555 to R561) -/

/-- Galleries that work, serve no position and warm up for none. -/
def State.freeGalleries (s : State) : List Nat :=
  (List.range 9).filter fun g => !s.health.galleries.contains g &&
    !((List.range 8).any fun q => s.view.gallery q == g && !s.gal.out.contains q) && !s.gal.migr.any (·.target == g)

/-- Replace the migrations. -/
def State.setMigr (s : State) (l : List Migration) : State := { s with gal := { s.gal with migr := l } }

/-- The position has no gallery: its streams carry a DOMAIN lacuna until the host places it (R561). -/
def outOfService (p g lo : Nat) (s : State) : State :=
  let s : State := { s with gal := { s.gal with out := (p :: s.gal.out).eraseDups, migr := s.gal.migr.filter (·.pos != p) } }
  let hs := s.view.positionHandles p
  let s : State := { s with losses := s.losses.filter fun l => !(l.cause == caMigration && l.hs == some hs) }
  -- a MIGRATION lacuna that has no placement to come becomes one of cause DOMAIN
  let s := s.view.streams.foldl (fun s d =>
    let k := skey d.h d.st
    let x := s.stream k
    match x.gap with
    | some g0 => if g0.cause = caMigration ∧ hs.contains d.h then s.setStream k { x with gap := some { g0 with cause := caDomain, unit := 13 + g } } else s
    | none => s) s
  openLoss ⟨13 + g, caDomain, some hs, lo, none⟩ s

/-- Automatic migration of a position whose gallery has failed (R560), or out of service (R561). -/
def migrateAuto (p g : Nat) (s : State) : State :=
  let lo := fabricStart s.cad.now
  match s.freeGalleries with
  | [] => outOfService p g lo s
  | target :: _ =>
    let c := s.cad
    let Ts := slotStart c (ceilDiv ((lo + 2560000) * 2 ^ 32) c.rnum)
    let Tm := turnAtOrAfter c (Ts + s.view.migrationSpan p false)
    let s := s.setMigr (s.gal.migr.filter (·.pos != p) ++
      [{ pos := p, target := target, warm := Ts, tm := Tm, planned := false, source := g }])
    let s := openLoss ⟨0, caMigration, some (s.view.positionHandles p), lo, some Tm⟩ s
    s.powerUp (13 + target)

/-- A pending commit's GALLERY_MAP item for a position gets another gallery, or none of its own any more (R559). -/
def remapPending (p : Nat) (dst : Option Nat) (s : State) : State :=
  let item (i : Item) : Option Item := match i with
    | .block b =>
      if b.typ == btGalleryMap && b.u 0 1 == p then dst.map fun g => .block { b with data := putU b.data 1 1 g } else some i
    | _ => some i
  { s with cur := { s.cur with pending := s.cur.pending.map fun q => { q with items := q.items.filterMap item } } }

/-- The target of a migration fails (R559, R560). -/
def targetFails (m : Migration) (s : State) : State :=
  if !m.planned ∧ s.gal.out.contains m.pos then s
  else if !m.planned then migrateAuto m.pos m.target s
  else
    let W := m.tm - m.warm
    let rest := s.gal.migr.filter (·.pos != m.pos)
    match (s.setMigr rest).freeGalleries with
    | g :: _ =>
      if s.cad.now + W ≤ m.tm then
        remapPending m.pos (some g) (s.setMigr (rest ++ [{ m with target := g, warm := max m.warm s.cad.now, warming := false }]))
      else remapPending m.pos none (s.setMigr rest)
    | [] => remapPending m.pos none (s.setMigr rest)

/-- The gallery that serves a position fails (R559, R560): a planned migration becomes automatic at its own Tm. -/
def sourceFails (p g : Nat) (s : State) : State :=
  match s.gal.migr.find? fun m => m.pos == p with
  | some m =>
    let s := s.setMigr (s.gal.migr.map fun (x : Migration) => if x.pos = p then { x with planned := false } else x)
    openLoss ⟨0, caMigration, some (s.view.positionHandles p), fabricStart s.cad.now, some m.tm⟩ s
  | none => migrateAuto p g s

/-- A physical gallery fails (R555, R564): it never serves again, and what it served or warmed moves on. -/
def galleryFails (g t : Nat) (s : State) : State :=
  let s := s.tick t
  if s.health.galleries.contains g ∨ 9 ≤ g then s
  else
    let s := s.setHealth { s.health with galleries := s.health.galleries ++ [g] }
    let s := (deaccession hcReserve (logEntry 6 g 0 0 (s.alert alHealth))).post evGalleryFailed [(1, g)]
    let s := s.powerOff (13 + g)
    let ps := (List.range 8).filter fun p => s.view.gallery p == g && !s.gal.out.contains p
    let ms := s.gal.migr.filter (·.target == g)
    let s := ms.foldl (fun s m => targetFails m s) s
    ps.foldl (fun s p => sourceFails p g s) s

/-- WARMUP_START (R558, R560): the target computes from its warm-up start on. -/
def warmupStart (p t : Nat) (s : State) : State :=
  match s.gal.migr.find? fun m => m.pos == p && !m.warming && decide (m.warm ≤ t) with
  | none => s
  | some m =>
    let s := (s.tick t).powerUp (13 + m.target)
    s.setMigr (s.gal.migr.map fun (x : Migration) => if x.pos = p then { x with warming := true } else x)

/-- Exhibits whose epoch a change of galleries moved take the merge rule of R440, and their Stores the new epoch. -/
def epochsMoved (v v' : View) (tm : Nat) (by0 : Nat → Bool) (s : State) : State :=
  let moved := v'.allHandles.filter fun h => (v.find h).isSome && v.epoch h != v'.epoch h
  let s := moved.foldl (fun (s : State) h =>
    { s with merge := if by0 h then tset s.merge h (v.epoch h, v'.epoch h, tm) else tdel s.merge h }) s
  { s with store := tmap s.store fun _ x =>
      if x.on && x.mode != 2 && moved.contains x.handle then { x with epoch := v'.epoch x.handle } else x }

/-- Analysis of a position goes on at its new gallery after a failed placement (R184, R213, R252, R325, R560). -/
def newPlacement (p S : Nat) (s : State) : State :=
  let hs := s.view.positionHandles p
  let mine (l : Loss) : Bool := (l.cause == caMigration || (13 ≤ l.unit && l.unit ≤ 21)) && l.hs == some hs
  let s := endLosses mine S true s
  -- Concordance intervals that contain Tm carry UNSETTLED (R560)
  (s.view.ofType btConcordance).foldl (fun s b =>
    let h := b.u 0 2
    if (s.view.concordMembers h).any hs.contains then s.setInterval h { s.interval h with fresh := true } else s) s

/-- MIGRATION_SWITCH (R558 to R560): at Tm the target takes over. A planned one has its GALLERY_MAP from its commit. -/
def migrationSwitch (p t : Nat) (s : State) : State :=
  match s.gal.migr.find? fun m => m.pos == p && decide (m.tm ≤ t) with
  | none => s
  | some m =>
    let byCommit := s.view.gallery p == m.target
    let waits := s.cur.pending.any fun q => (galleryMoves s.view q.items).any fun x => x.1 == p
    if !byCommit && waits then s
    else
      let s := s.tick t
      let v := s.view
      let s := if byCommit then s
        else
          let raw := v.put { typ := btGalleryMap, data := fields [(1, p), (1, m.target), (6, 0)] }
          let v' := v.stepEpochs raw
          epochsMoved v v' m.tm (fun _ => true) { s with exh := v'.exh, cur := { s.cur with committed := v'.blocks } }
      let s := s.setMigr (s.gal.migr.filter (·.pos != p))
      let s : State := { s with gal := { s.gal with out := s.gal.out.filter (· != p) } }
      let s := newPlacement p m.tm s
      s.post evMigrationDone [(1, p), (1, m.source), (1, m.target), (1, b2n m.planned)]

/-! ### Domain faults (R536, R554) -/

/-- 60 s at nominal fs, in fs-samples (R8). -/
def sixtySeconds := 614400000000

/-- The first turn boundary after a domain is up, its lead has run and 100 us have passed (R536, R8). -/
def domainBack (s : State) (d : Nat) : Nat :=
  let lead := if 1 ≤ d ∧ d ≤ 12 then opLead 1 else if 13 ≤ d ∧ d ≤ 21 then opLead 3 else if d = 29 then opLead 8 else 0
  turnAtOrAfter s.cad (s.cad.now + lead + 1024000)

/-- Wing of a wing domain. -/
def domainWing (d : Nat) : Option Nat := if 1 ≤ d ∧ d ≤ 12 then some ((d - 1) % 4) else none

/-- Every Courier queue and the archive writer stop (R422, R436). -/
def couriersStop (left : Bool) (s : State) : State := arcStop (s.queuesOn.foldl (fun s q => quStop q left s) s)

/-- What a fault of a domain does at once (table of R536); `back`: the resumption sample, none while it stays down. -/
def faultEffect (d : Nat) (back : Option Nat) (s : State) : State :=
  let lo := fabricStart s.cad.now
  match domainWing d with
  | some w =>
    let s := openLoss ⟨d, caDomain, some (s.view.wingHandles w), lo, back⟩ s
    let s := haltGleaning ((List.range 12).map (12 * w + ·)) s
    armComparators ((List.range 12).map (12 * w + ·)) s
  | none =>
    if 13 ≤ d ∧ d ≤ 21 then
      match (List.range 8).find? fun p => s.view.gallery p == d - 13 && !s.gal.out.contains p with
      | some p => if back.isNone then s else openLoss ⟨d, caDomain, some (s.view.positionHandles p), lo, back⟩ s
      | none => s
    else if d = 22 ∨ d = 23 then
      let k := d - 22
      let s := abortDrain d s
      let s := s.store.foldl (fun s e =>
        if e.2.on && e.2.mode != 2 && (e.2.stack == k || e.2.stack == 2) then
          s.setSto e.1 ((s.sto e.1).spill s.cad (s.view.gridExp e.2.handle) d)
        else s) s
      openLoss ⟨d, caDomain, some [], lo, back⟩ s
    else if d = 24 ∨ d = 25 then couriersStop true s
    else if d = 26 ∨ d = 27 then haltGleaning (List.range 48) (openLoss ⟨d, caDomain, none, lo, back⟩ s)
    else if d = 28 then
      let s := openLoss ⟨28, caDomain, none, lo, back⟩ s
      let lost := s.chainOrder.filter (· != s.view.index)
      s.coll.lanes.foldl (fun s l => laneLoss l lost s.cad.now s) s
    else if d = 29 then outputsOff s
    else if d = 30 then hkStop s
    else s

/-- DOMAIN_FAULT (R536, R554, R555). -/
def domainFault (d t : Nat) (s : State) : State :=
  let s := s.tick t
  if d = 0 ∨ 30 < d ∨ !s.isUp d then s
  else
    let (n, l) := tget (0, []) s.pow.faults d
    let now := s.cad.now
    let l := (l.filter fun x => decide (now ≤ x + sixtySeconds)) ++ [now]
    let s := ({ s with pow := { s.pow with faults := tset s.pow.faults d (satAdd 16 n 1, l) } } : State).post evDomainFault [(1, d)]
    if l.length < 3 then faultEffect d (some (domainBack s d)) s
    else
      let s := faultEffect d none s
      let s : State := { s with pow := { s.pow with down := d :: s.pow.down } }
      let s := logEntry 9 d 0 0 (s.powerOff d)
      if 13 ≤ d ∧ d ≤ 21 then galleryFails (d - 13) now s else s

/-- Losses whose resumption sample has come. -/
def Loss.due (t : Nat) (l : Loss) : Bool := match l.resume with | some r => decide (r ≤ t) | none => false

/-- DOMAIN_RESUME (R79, R403, R536): streams of the domain resume; a wing's ADC domain that came up again measures its slices;
housekeeping scans start again (R384). -/
def domainResume (d t : Nat) (ms : List Meas) (s : State) : State :=
  let s := s.tick t
  if s.pow.down.contains d then s
  else
    let mine (l : Loss) : Bool := l.unit == d && l.cause == caDomain && l.due s.cad.now
    let due := s.losses.filter mine
    let S := due.foldl (fun m l => max m (l.resume.getD 0)) 0
    let s := if 5 ≤ d ∧ d ≤ 8 ∧ !due.isEmpty then channelsUp (d - 5) ms s else s
    let s := endLosses mine S (decide (13 ≤ d ∧ d ≤ 21)) s
    if d = 30 ∧ s.isUp 30 ∧ !s.hk.isOn ∧ s.cad.anchored then hkStart s.cad.now s else s

/-- ANALYSIS_RESUME (R70): synthesisers that have settled, and losses whose sample has come, resume; late actions follow in
Sequence.lean. -/
def analysisBack (t : Nat) (s : State) : State :=
  let s := s.tick t
  let ks := resumable s.cad s.cad.now
  let s := if ks.isEmpty then s
    else resumePlls ks (ks.foldl (fun m k => max m (resumeAt s.cad (pllOf s.cad k))) 0) s
  let word (l : Loss) : Bool := l.cause == caDomain && !(13 ≤ l.unit && l.unit ≤ 21) && l.due s.cad.now
  endLosses word ((s.losses.filter word).foldl (fun m l => max m (l.resume.getD 0)) 0) false s

/-- THERMAL_TRIP (R589): a core or wing die sensor reads 115 C or more; every switched domain goes down until the next cold
reset, and the stacks lose their contents. -/
def thermalTrip (sensor : Nat) (temp : Int) (t : Nat) (s : State) : State :=
  let s := s.tick t
  if temp < 11500 ∨ s.pow.tripped ∨ 8 < sensor ∨ sensor = 0 then s
  else
    let s := (s.noteTemp temp).post evThermal [(1, sensor), (1, 0), (2, ofInt 16 temp)]
    let s := outputsOff (hkStop (couriersStop true s))
    let s := [0, 1].foldl (fun s k =>
      let s := s.setStk k { s.stk k with st := 3 }
      s.store.foldl (fun s e => if e.2.on && e.2.mode != 2 then
        s.setSto e.1 ((s.sto e.1).spill s.cad (s.view.gridExp e.2.handle) (22 + k)) else s) s) s
    { s with pow := { s.pow with tripped := true, domains := 1, down := (List.range 30).map (· + 1) } }

/-! ### Uncorrectable words (R403) -/

/-- A finished record in a buffer becomes a lacuna with cause DOMAIN and UNIT 26 (R403). -/
def spoilOldest (key : Nat) (s : State) : State :=
  let mine (r : Rec) : Bool := r.key == key && r.typ != rtLacuna
  let spoil (r : Rec) : Rec := lacunaFrom s.cad caDomain 26 r []
  match takeFirst mine s.produced with
  | some (r, _) => { s with produced := s.produced.map fun x => if x == r then spoil r else x }
  | none =>
    match (s.fed (key / 256) (key % 256)).findSome? fun n => ((s.sto n).ahead.find? mine).map fun r => (n, r) with
    | some (n, r) => s.setSto n { s.sto n with ahead := (s.sto n).ahead.map fun x => if x == r then spoil r else x }
    | none => s

/-- Uncorrectable words in a gallery's buffers in three different turns within 60 s fail it (R555). -/
def galleryWord (g : Nat) (s : State) : State :=
  let now := s.cad.now
  let turn := s.time.turn
  let l := ((tget [] s.gal.bad g).filter fun x => decide (now ≤ x.2 + sixtySeconds) && x.1 != turn) ++ [(turn, now)]
  let s : State := { s with gal := { s.gal with bad := tset s.gal.bad g l } }
  if 3 ≤ l.length then galleryFails g now s else s

/-- UNCORRECTABLE_WORD in the data path (R285, R403); place 4 follows in Curator.lean. -/
def wordLost (place unit key t : Nat) (s : State) : State :=
  let s := s.tick t
  let now := s.cad.now
  let back := some (nextTurn s.cad now)
  let told (p u : Nat) (s : State) : State := s.post evMemUncorrectable [(1, p), (1, u), (1, 0), (1, 0), (4, 0)]
  match place with
  | 0 =>
    let s := openLoss ⟨9 + unit, caDomain, some (s.view.wingHandles unit), fabricStart now, back⟩ (told 0 unit s)
    haltGleaning ((List.range 12).map (12 * unit + ·)) s
  | 1 =>
    let s := told 1 unit s
    if unit = 0xFF then
      let hs := s.view.allHandles.filter fun h => h == key || (s.view.reach h).contains key
      openLoss ⟨26, caDomain, some hs, fabricStart now, back⟩ s
    else
      let p := (List.range 8).find? fun p => s.view.gallery p == unit && !s.gal.out.contains p
      let s := match p with
        | some p => openLoss ⟨26, caDomain, some (s.view.positionHandles p), fabricStart now, back⟩ s
        | none => s
      galleryWord unit s
  | 2 => spoilOldest key (told 2 unit s)
  | 3 => playbackError unit key s
  | _ => s

end Sys2Proof.Machine
end

