-- ==== Sys2Proof/Machine/Fallow.lean ====
section
/-! DEFINITION. Fallow mode (19, R415, R436): entry with its drain, the link in fallow, wake and exit. -/
namespace Sys2Proof.Machine

/-- Every rebuild and relocation of a stack finishes (R415). -/
def settleStack (k : Nat) (s : State) : State :=
  let x := s.stk k
  let s := s.setStk k { x with pcs := tmap x.pcs fun _ y =>
      match y.train with | some t => { y with train := none, temp := t } | none => y }
  let s := (List.range 32).foldl (fun s p => rebuildDone k p s) s
  x.moving.foldl (fun s _ => relocationDone k s) s

/-- A stack goes into self-refresh with its contents, or loses power with them (R415, R538). -/
def restStack (cold : Bool) (k : Nat) (s : State) : State :=
  let s := settleStack k s
  s.setStk k { s.stk k with st := if cold then 3 else 1, counts := [] }

/-- A Store after fallow-cold: it restarts under R282, and a playback sample reads 0 (R538). -/
def restartStore (n : Nat) (s : State) : State :=
  let x := s.sto n
  if !x.on then s
  else
    let s := defineStore ⟨btStore, x.blk⟩ (x.base / 2 ^ 20) 0 s
    s.setSto n { s.sto n with samples := [], last := x.last, dropped := x.dropped, overrun := x.overrun }

/-- Steps 2 to 4 of R538: stacks, domains, control state. The synthesisers lose power with PD27. -/
def fallowRest (mode : Nat) (s : State) : State :=
  let cold := mode == 0
  let s := [0, 1].foldl (fun s k => restStack cold k s) s
  let s := if cold then (s.store.map (·.1)).foldl (fun s n => restartStore n s) s else s
  let s := outputsOff (hkStop s)
  let s := s.coll.lanes.foldl (fun s l => laneLoss l (s.chainOrder.filter (· != s.view.index)) s.cad.now s) s
  let s := s.setHk { s.hk with due := [] }
  let c := s.cad
  let turn := s.time.turn
  let s := s.setCad { c with
    anchored := false, awaitAnchor := true, keptTurn := some turn, refPresent := false, coasting := false, slewing := false,
    slewPpb := 0, returned := none, markRun := 0, holdFrom := none,
    plls := acquirePlls s.cadBlock c.now }
  let p : Pow := { s.pow with domains := 1, entering := none, wake := none, rung := s.mbox.any (·.2.busy), link := false, ledger := [] }
  { s with pow := { p with fallow := if cold then 1 else 2, fallows := satAdd 32 p.fallows 1 } }

/-- Transfers in flight end, and the device enters fallow mode (R436, R538). -/
def fallowNow (mode : Nat) (s : State) : State := fallowRest mode ([22, 23, 24, 25].foldl (fun s d => abortDrain d s) s)

/-- How the write-back to mount p goes in a FALLOW_ENTER whose `env` holds 16 + p for one that fails three times and 32 + p
for one in which presence drops. -/
def fallowTries (env : List Nat) (p : Nat) : List MountTry :=
  if env.contains (32 + p) then envTries [2] else if env.contains (16 + p) then envTries [1, 1, 1] else []

/-- What follows the response of FALLOW_ENTER (R538): counters are written back. -/
def fallowBegin (r : Req) (s : State) : State :=
  let s := (List.range 12).foldl (fun s p => writeCounts p (fallowTries r.env p) s) s
  let mode := r.u 0 1
  if s.queuesOn.any fun q => (s.qu q).desc.isSome then
    beginDrain 24 { s with pow := { s.pow with entering := some mode } }
  else fallowNow mode s

/-- FALLOW_ENTER (R537, R544). `env` 1: ASPM L1 is not enabled on PF0. -/
def fallowEnterBody (r : Req) (s : State) : Effect := do
  r.lenIs 8
  r.rsvIs 1 7
  ensure (r.u 0 1 ≤ 1) eRange 0
  ensure (s.ledger.all fun g => g.op == 0 || g.op == 2 || !g.holds s.cad.now) eActive
  ensure (pendingCount s == 0) eActive
  ensure (s.coll.st != 2) eActive
  ensure (r.u 0 1 == 1 || (s.store.map (·.1)).all fun n => !unreadData s n) eStoreBusy
  ensure (!r.env.contains 1) eRange 0
  return (s, [])

/-- DRAIN_TIMEOUT (R436): 20 us after a power-down was asked for, what is still in flight is aborted, and the domain
goes down; fallow entry goes on. -/
def drainTimeout (d : Nat) (s : State) : State :=
  match s.pow.entering with
  | some mode => fallowNow mode s
  | none =>
    if d < 22 ∨ 25 < d ∨ !s.isUp d ∨ !(drainers s d).any (fun q => (s.qu q).drain) then s
    else domainOff d (abortDrain d s)

/-- LINK_L1_EXIT (R540): PD24 comes up from PD00. -/
def linkL1Exit (s : State) : State :=
  if s.pow.fallow = 0 ∨ s.pow.link then s
  else (({ s with pow := { s.pow with link := true } } : State).powerUp 24)

/-- LINK_L1_ENTRY (R540): PD24 goes down again. -/
def linkL1Entry (s : State) : State :=
  if s.pow.fallow = 0 ∨ !s.pow.link then s
  else ({ s with pow := { s.pow with link := false } } : State).powerOff 24

/-- The lowest-numbered WAKE comparator whose latch is set (R541). -/
def wakeLatch (s : State) : Option Nat :=
  (List.range 64).find? fun n => decide (48 ≤ n) && (s.view.cmpBlock n).u 11 1 == 1 && (s.cmp n).latch.isSome

/-- Comparators that fallow mode had switched off (R340). -/
def sleepers (s : State) : List Nat :=
  (List.range 16).map (48 + ·) |>.filter fun n => (s.view.cmpBlock n).u 11 1 == 0

/-- A stack returns to service; training runs at temperatures that nothing states (R406, R415; DESIGN CHOICE, log 7). -/
def wakeStack (train : Bool) (k : Nat) (s : State) : State :=
  let s := s.setStk k { s.stk k with st := 0 }
  if !train then s
  else (s.service k).foldl (fun s p =>
    let (t, s) := s.freeInt
    s.setStk k ((s.stk k).setPc p { (s.stk k).pc p with temp := t })) s

/-- The Commons' grants of start-up and of fallow exit: BASE, then both stacks (R525, R533, R542). -/
def baseGrants (t : Nat) : List Grant := [⟨0, 0, 26000, t, none, 0⟩, ⟨2, 0, 12000, t, none, 0⟩, ⟨2, 1, 12000, t, none, 0⟩]

/-- FALLOW_WAKE (R541, R542): a latch of a WAKE comparator or a host request ends fallow mode. -/
def fallowWake (retrain : Bool) (runs : List (Nat × Nat × LaneRun)) (s : State) : State :=
  if s.pow.fallow = 0 ∨ (s.pow.wake.isNone ∧ !s.pow.rung) then s
  else
    let train := retrain || s.pow.fallow == 1
    let byLatch := s.pow.wake.isSome
    let (num, s) := match (if byLatch then wakeLatch s else none), s.pow.wake with
      | some n, _ => (n, s)
      | none, some n => (n, s)
      | none, none => s.freeNat
    -- PD00 has counted turns through the stay (R539)
    let (turns, s) := s.freeNat
    let s := s.setCad { s.cad with keptTurn := s.cad.keptTurn.map fun t => (t + turns) % 2 ^ 48 }
    let p : Pow := { s.pow with fallow := 0, wake := none, rung := false, link := false, ledger := baseGrants s.cad.now }
    let s : State := { s with pow := p, boot := { s.boot with st := 1 } }
    let s := powerUpAll [27, 26, 24, 25, 28, 30, 22, 23] s
    let s := [0, 1].foldl (fun s k => wakeStack train k s) s
    let s := if train then runs.foldl (fun s l => if l.1 < 2 ∧ l.2.1 < 32 then trainLane l.1 l.2.1 false l.2.2 s else s) s
      else s
    let s := armComparators (sleepers s) s
    let s := endDrain 24 s
    s.post evFallowExit [(1, b2n (!byLatch)), (1, num)]

end Sys2Proof.Machine
end

