-- ==== Sys2Proof/Machine/StartUp.lean ====
section
/-! DEFINITION. Start-up, resets and the flash images (21, R422, R450, R483, R495): cold reset, PERST#, hot reset, FLR,
image selection, the start-up sequence. -/
namespace Sys2Proof.Machine

/-! ### Images and the selection record (R574 to R579) -/

/-- An image by its number, 0 A and 1 B. -/
def Boot.img (b : Boot) (i : Nat) : Image := if i = 0 then b.imgA else b.imgB

/-- Replace an image. -/
def Boot.setImg (b : Boot) (i : Nat) (x : Image) : Boot := if i = 0 then { b with imgA := x } else { b with imgB := x }

/-- Replace the start-up state. -/
def State.setBoot (s : State) (b : Boot) : State := { s with boot := b }

/-- PATCH, MINOR, MAJOR and IMAGE as RUNNING packs them (R494). -/
def Boot.version (b : Boot) (i : Nat) : Nat :=
  let x := b.img i
  x.patch % 256 + x.minor % 256 * 2 ^ 8 + x.major % 256 * 2 ^ 16 + i * 2 ^ 24

/-- A whole image passes every check of R576. -/
def imageOk (minSvn : Nat) (bs : List Byte) : Bool :=
  let len := getU bs 12 4
  let payload := slice bs 4096 len
  getU bs 0 4 == 0x474D4C5A && getU bs 4 2 == 1 && decide (getU bs 9 1 ≤ 3) && decide (1 ≤ len ∧ len ≤ 12578816) &&
    payload.length == len && slice bs 16 48 == Config.sha384 (slice bs 0 16 ++ payload) &&
    Config.signatureOk (slice bs 0 160) && decide (minSvn ≤ getU bs 10 2)

/-- The boot ROM finds an image valid (R576); of a factory image the model holds the version, not the bytes (DESIGN CHOICE, log 11). -/
def Boot.usable (b : Boot) (i : Nat) : Bool :=
  let x := b.img i
  (x.valid && decide (b.minSvn ≤ x.svn)) || imageOk b.minSvn x.bytes

/-- Images that the boot ROM tries, in order (R571, R578). -/
def Boot.order (b : Boot) : List Nat :=
  match b.straps % 4 with
  | 0 => let f := b.tryFirst.getD b.select; [f, 1 - f]
  | 1 => [0]
  | 2 => [1]
  | _ => []

/-- An image marks itself active (R498, R576, R577, R579): the other copy of the selection record, MIN_SVN, the log. -/
def markActive (i : Nat) (s : State) : State :=
  let b := s.boot
  let s := s.setBoot { b with
    select := i, tryFirst := none, gen := (b.gen + 1) % 2 ^ 32, minSvn := max b.minSvn (b.img i).svn }
  logEntry 10 i 0 (b.version i) s

/-! ### Cold reset (R11, R89, R566, R572, R580) -/

/-- Channels that the health log has something to say of. -/
def loggedChans (h : Health) : List Nat := (List.range 48).filter fun c => (tfind h.slices c).isSome || h.seconds.any (·.1 == c)

/-- The state that a cold reset leaves: reset values but for flash, health log, fuses and straps; the queue of waiting
commands, the list of what has been sent and the count of free values are the model's own. -/
def afterCold (s : State) : State :=
  let b := s.boot
  let x : State := State.reset
  { x with
    boot := { x.boot with imgA := b.imgA, imgB := b.imgB, select := b.select, tryFirst := b.tryFirst, gen := b.gen,
                          minSvn := b.minSvn, straps := b.straps, strapPerst := b.strapPerst, perst := b.perst,
                          scan := b.scan },
    health := s.health, chan := (loggedChans s.health).foldl (fun t c => tset t c (powerUpChan s.health c {})) [],
    hk := { x.hk with trims := s.hk.trims, errs := s.hk.errs, offErrs := s.hk.offErrs },
    sent := s.sent, free := s.free, pending := s.pending }

/-- COLD_RESET (R571, R572): VAON ramps or leaves its range; straps are sampled. -/
def coldReset (straps : Nat) (strapPerst : Bool) (s : State) : State :=
  let s := afterCold s
  let s := s.setHealth { s.health with cycles := (s.health.cycles + 1) % 2 ^ 32 }
  s.setBoot { s.boot with straps := straps % 4, strapPerst := strapPerst }

/-! ### Start-up (R578 to R583) -/

/-- Positions in service and their galleries when some have failed (R581). -/
def bootMap (failed : List Nat) : List (Nat × Nat) :=
  let ok := (List.range 9).filter fun g => !failed.contains g
  let ps := List.range (min 8 ok.length)
  let own := ps.filter ok.contains
  ps.foldl (fun (acc : List (Nat × Nat)) p =>
    if ok.contains p then acc ++ [(p, p)]
    else
      match ok.find? fun g => !own.contains g && !acc.any (·.2 == g) with
      | some g => acc ++ [(p, g)]
      | none => acc) []

/-- A gallery fails its self-test (R555, R564, R581). -/
def bootGalleryFails (g : Nat) (s : State) : State :=
  if s.health.galleries.contains g ∨ 9 ≤ g then s
  else
    let s := s.setHealth { s.health with galleries := s.health.galleries ++ [g] }
    (deaccession hcReserve (logEntry 6 g 0 0 (s.alert alHealth))).post evGalleryFailed [(1, g)]

/-- GALLERY_MAP as start-up decides, and positions out of service (R556, R561, R581). -/
def setBootMap (s : State) : State :=
  let m := bootMap s.health.galleries
  let blocks := (m.filter fun x => x.1 != x.2).map fun x => (⟨btGalleryMap, fields [(1, x.1), (1, x.2), (6, 0)]⟩ : Block)
  let s : State := { s with cur := { s.cur with committed := s.cur.committed ++ blocks } }
  ((List.range 8).filter fun p => !m.any (·.1 == p)).foldl (fun s p => outOfService p p 0 s) s

/-- Steps 1 and 2 of R580: BASE is granted, its domains come up, and the clocks are aligned (R66). -/
def bootDomains (s : State) : State :=
  let s : State := { s with pow := { s.pow with ledger := [⟨0, 0, 26000, 0, none, 0⟩] } }
  alignClocks (powerUpAll [27, 26, 24, 25, 28, 30] s)

/-- Steps 4 to 8 of R580: image `i`, try number `n`, has started. -/
def bootRest (rep : BootReport) (i n : Nat) (s : State) : State :=
  let s : State := { s with pow := { s.pow with ledger := baseGrants 0 } }
  let s := powerUpAll [22, 23] s
  let s := [0, 1].foldl (fun s k => wakeStack true k s) s
  let s := rep.training.foldl (fun s l => if l.1 < 2 ∧ l.2.1 < 32 then trainLane l.1 l.2.1 true l.2.2 s else s) s
  let s := ([(5, 0xFF), (0, 0xFF), (3, 4)].zip rep.cals).foldl (fun s e =>
    judgeWindow { at0 := 0, kind := e.1.1, unit := e.1.2 } e.2 0 s) s
  let s := setBootMap (rep.failedGals.foldl (fun s g => bootGalleryFails g s) s)
  let b := s.boot
  let first := b.order.headD i
  let why := if b.usable first && rep.attempts.headD 0 == 2 then 1 else 0
  let x := b.img i
  let s := s.setBoot ((({ b with st := 1, image := i, report := none, tries := n,
                                 rollback := if n = 0 then none else some why } : Boot)).setImg i { x with st := 0, erase := true })
  if b.select = i then s else markActive i s

/-- The boot ROM tries images from number `tries` on (R578): one that is not valid or fails its self-test gives way at once, one
that hangs waits for its time limit; with none left the device is in recovery. -/
def bootTry : Nat → State → State
  | 0, s => s
  | fuel + 1, s =>
    match s.boot.report with
    | none => s
    | some rep =>
      let n := s.boot.tries
      match s.boot.order[n]? with
      | none => s.setBoot { s.boot with st := 4, recovery := true, report := none }
      | some i =>
        let res := if s.boot.usable i then rep.attempts.getD n 0 else 2
        if res = 0 then bootRest rep i n s
        else if res = 1 then s
        else bootTry fuel (s.setBoot { s.boot with tries := n + 1 })

/-- Start-up runs when supplies are good and no PERST# of a cold reset holds it (R573, R580). -/
def bootRun (s : State) : State :=
  if s.boot.st ≠ 0 ∨ !s.boot.supplies ∨ (s.boot.strapPerst ∧ s.boot.perst) ∨ s.boot.report.isNone then s
  else bootTry 3 (if s.pow.ledger.isEmpty then bootDomains s else s)

/-- SUPPLIES_GOOD (R569, R580): every supply is in range; a start-up that held goes on with what it had found. -/
def suppliesGood (rep : BootReport) (s : State) : State :=
  if s.boot.st ≠ 0 then s
  else bootRun (s.setBoot { s.boot with supplies := true, report := some (s.boot.report.getD rep) })

/-- BOOT_ATTEMPT_TIMEOUT (R578): the image that is being tried has not reached STATE 1 within 2 s. -/
def bootAttemptTimeout (s : State) : State :=
  if s.boot.st ≠ 0 ∨ s.boot.report.isNone ∨ !s.boot.supplies ∨ (s.boot.strapPerst ∧ s.boot.perst) ∨ s.pow.ledger.isEmpty then s
  else bootRun (s.setBoot { s.boot with tries := s.boot.tries + 1 })

/-- SUPPLY_OUT_OF_RANGE (R569): before STATE 1 start-up holds at its step; supply 0 is VAON, whose loss is COLD_RESET. -/
def supplyOutOfRange (sup : Nat) (s : State) : State :=
  if s.boot.st ≠ 0 ∨ sup = 0 then s else s.setBoot { s.boot with supplies := false }

/-- BOUNDARY_SCAN_INSTRUCTION (R584): in every state but 0 and 4 the TAP takes BYPASS instead of one that drives balls. -/
def boundaryScan (drives : Bool) (s : State) : State :=
  s.setBoot { s.boot with scan := drives && (s.boot.st == 0 || s.boot.st == 4) }

/-! ### Link and function resets (R422, R450, R483, R572, R573) -/

/-- A function's staged set is discarded, and the local numbers that its definitions held are free (R483, R484). -/
def discardStaged (fn : Nat) (s : State) : State :=
  let s := freeNumbers ((s.cur.staged.filter (·.fn == fn)).map (·.item)) s
  { s with cur := { s.cur with staged := s.cur.staged.filter (·.fn != fn) } }

/-- FUNCTION_LEVEL_RESET (R422, R483). -/
def functionLevelReset (fn t : Nat) (s : State) : State :=
  let s := s.tick t
  if s.boot.numVfs < fn then s
  else
    let s := (s.queuesOn.filter fun q => (s.qu q).fn == fn).foldl (fun s q => quStop q false s) s
    if s.boot.st = 0 ∨ s.boot.st = 4 then s
    else (discardStaged fn s).postAll evStageDiscarded [(1, 0)]

/-- HOT_RESET (R422): hot reset or link down. -/
def hotReset (t : Nat) (s : State) : State := couriersStop false (s.tick t)

/-- LINK_RETRAINED (R418, R450): rate in GT/s, 2 for 2.5, and width. -/
def linkRetrained (rate width : Nat) (s : State) : State :=
  if [64, 32, 16, 8, 5, 2].contains rate ∧ [16, 8, 4, 1].contains width then
    (s.setBoot { s.boot with rate := rate, width := width }).post evLinkRetrained [(1, rate), (1, width)]
  else s

/-- PERST (R573). -/
def perst (asserted : Bool) (t : Nat) (s : State) : State :=
  let s := s.tick t
  if asserted = s.boot.perst then s
  else
    let b := { s.boot with perst := asserted }
    if b.strapPerst then
      if asserted then afterCold (s.setBoot { b with supplies := false }) else bootRun (s.setBoot b)
    else if asserted then couriersStop false (s.setBoot b)
    else if s.pow.fallow ≠ 0 then { s with boot := b, pow := { s.pow with rung := true } }
    else s.setBoot b

end Sys2Proof.Machine
end

