-- ==== Sys2Proof/Machine/Curator.lean ====
section
/-! DEFINITION. The Curator (17, R495 to R498, R551, R552): direct registers, staging, exhibits, the event ring, restarts and
firmware update. -/
namespace Sys2Proof.Machine

/-! ### Direct registers (R456 to R468) -/

/-- BUSY as a function reads it (R468, R497, R582). -/
def State.busyOf (s : State) (fn : Nat) : Bool := (s.mb fn).busy || s.boot.st == 0 || s.boot.st == 2 || s.boot.st == 3

/-- A 32-bit register at 0x0000 to 0x03FF as a function reads it (R459 to R463); reserved bits, RING and what is not listed
read as zero (R9, R12, R456), and before STATE 1 they read their reset values (R582). No leave request waits, since each is answered when it is made (DEDUCED, log 119). -/
def State.controlReg (s : State) (fn off : Nat) : Nat :=
  let b := s.boot
  let m := s.mb fn
  let c := s.cad
  let boot := b.st == 0
  match off with
  | 0x0000 => 0x0048 + Config.stepping % 16 * 2 ^ 16 + Config.grade % 16 * 2 ^ 20 + 2 ^ 24
  | 0x0004 => b.version b.image
  | 0x0008 => fn % 16 + s.view.index % 16 * 2 ^ 8 + b2n (2 ≤ s.collD && s.view.index == s.view.lead) * 2 ^ 12
  | 0x000C => if boot then 0 else b.st % 8 + b2n (allLocked c) * 2 ^ 3 + b2n c.coasting * 2 ^ 4 + b2n (b.rate != 64 || b.width != 16) * 2 ^ 5
  | 0x0010 => Config.serial % 2 ^ 32
  | 0x0014 => Config.serial / 2 ^ 32 % 2 ^ 32
  | 0x0018 => b.heartbeat
  | 0x0104 => b2n (s.busyOf fn) + b2n m.respValid * 2 + b2n m.lost * 4 + b2n m.replay * 8
  | 0x0108 => m.lastSeq
  | 0x010C => m.produced
  | 0x0110 => m.consumed
  | 0x0200 => healthReg s.health
  | 0x0204 => capacityReg s.health
  | 0x0208 => if fn = 0 && !boot then s.cur.alert else 0
  | 0x020C => if fn = 0 then (if boot then 0xF else s.cur.alertMask) else 0
  | 0x0210 => s.cur.restarts
  | 0x0214 => s.cur.mismatches
  | 0x0300 => if boot then 0 else (s.block btCommons []).u 0 2 + totalAt s.ledger c.now / 10 % 2 ^ 16 * 2 ^ 16
  | 0x0304 => if boot then 1 else s.pow.domains
  | 0x030C => s.cur.refusals
  | _ => 0

/-- What a read of the 32-bit word at an offset of a function's BAR0 returns, before the clearing of an RC field (R9, R456,
R464); in fallow mode all but the retained copies reads as zero (R540). -/
def State.readReg (s : State) (fn off : Nat) : Nat :=
  let m := s.mb fn
  if s.boot.numVfs < fn then 0
  else if off < 0x0400 then s.controlReg fn off
  else if 0x1000 ≤ off ∧ off < 0x1800 then getU (cgetAll (fun _ => (0 : Byte)) m.req (off - 0x1000) 4) 0 4
  else if s.pow.fallow ≠ 0 then 0
  else if 0x1800 ≤ off ∧ off < 0x2000 then getU (padTo 2048 m.area) (off - 0x1800) 4
  else if 0x4000 ≤ off ∧ off < 0x5000 then (cget msixDefault m.msix ((off - 0x4000) / 4)).toNat
  else if 0x5000 ≤ off ∧ off < 0x5020 then maskOf ((List.range 32).filter fun i => m.pba.contains (8 * (off - 0x5000) + i))
  else 0

/-- The opcodes of the command index (R493). -/
def opcodes : List Nat :=
  [0x01, 0x02, 0x03, 0x04, 0x05, 0x06, 0x07, 0x10, 0x11, 0x12, 0x13, 0x20, 0x21, 0x28, 0x30, 0x31, 0x32, 0x38, 0x40, 0x41,
   0x48, 0x50, 0x51, 0x52, 0x53, 0x58, 0x59, 0x60, 0x61, 0x62] ++
  [0x68, 0x69, 0x6A, 0x6B, 0x70, 0x71, 0x78, 0x79, 0x80, 0x81, 0x82, 0x88, 0x90, 0x91, 0x92, 0x93, 0xA0, 0xA1, 0xA2, 0xA8,
   0xA9, 0xB0, 0xC0, 0xC1, 0xC2, 0xC3]

/-- A request whose opcode is unknown or reserved has no row of its own: it is refused as it is submitted (R492, R493). -/
def unknownOpcode (fn : Nat) (area : List Byte) (s : State) : State :=
  let r : Req := { fn := fn, t := s.cad.now, seq := getU area 4 4, len := 0, rsv := 0, paramAddr := 0, respAddr := 0,
                   params := [], memOk := true, payload := [], env := [] }
  runCommand (getU area 0 2) false r s fun _ => refuse eOpcode

/-- RING (R468, R497, R541, R582). -/
def ring (fn : Nat) (s : State) : State :=
  let m := s.mb fn
  if s.boot.st = 0 then s
  else if s.busyOf fn then s.setMb fn { m with lost := true }
  else
    let s := s.setMb fn { m with busy := true, respValid := false, replay := false }
    let area := cgetAll (fun _ => (0 : Byte)) m.req 0 8
    if s.pow.fallow = 0 then (if opcodes.contains (getU area 0 2) then s else unknownOpcode fn area s) else { s with pow := { s.pow with rung := true } }

/-- Bytes written to the request area while BUSY is 0 (R457, R468, R540). -/
def writeRequest (fn off size : Nat) (v : BitVec 64) (s : State) : State :=
  let m := s.mb fn
  if s.busyOf fn ∨ !([1, 2, 4, 8].contains size) ∨ off % size ≠ 0 then s
  else s.setMb fn { m with req := csetAll (fun _ => 0) m.req (off - 0x1000) (leBytes size v.toNat) }

/-- DOORBELL_LOST is W1C (R10, R460). -/
def doorbellLostClear (fn : Nat) (v : Word) (again : Bool) (s : State) : State :=
  let m := s.mb fn
  if s.boot.numVfs < fn then s
  else
    let lost := if s.pow.fallow = 0 && v.getLsbD 2 then again else m.lost || again
    s.setMb fn { m with lost := lost }

/-- ALERT_STATUS is W1C; a VF's reads zero and discards writes (R10, R461). -/
def alertStatusClear (fn : Nat) (v set : Word) (s : State) : State :=
  let a := BitVec.ofNat 32 s.cur.alert
  let kept := if fn = 0 ∧ s.pow.fallow = 0 then a &&& ~~~v else a
  { s with cur := { s.cur with alert := ((kept ||| set) &&& 0xF#32).toNat } }

/-- EVENT_CONSUMED (R460, R488): where space returns, EV_EVENTS_LOST is the next record. -/
def eventConsumed (fn : Nat) (v : Word) (t : Nat) (s : State) : State :=
  let s := s.tick t
  if s.boot.numVfs < fn ∨ s.pow.fallow ≠ 0 then s
  else
    let s := s.setMb fn { s.mb fn with consumed := v.toNat }
    if s.boot.st = 2 ∨ s.boot.st = 3 then s else s.flushLost fn

/-- REFUSALS is cleared by a read (R10, R463); refusals of the same cycle count anew. -/
def refusalsRead (fn same : Nat) (s : State) : State :=
  let s := s.send (.regData fn 0x030C (s.controlReg fn 0x030C))
  { s with cur := { s.cur with refusals := satAdd 32 0 same } }

/-- A word of the MSI-X table (R456); clearing a mask sends a vector that is pending (R420). -/
def writeMsix (fn a : Nat) (v : BitVec 32) (s : State) : State :=
  let m := s.mb fn
  let v := if a % 4 = 3 then v &&& 1#32 else v
  let m := { m with msix := cset msixDefault m.msix a v }
  let n := a / 4
  if m.pba.contains n ∧ !m.masked n then
    (s.setMb fn { m with pba := m.pba.filter (· != n) }).send (.msix fn n)
  else s.setMb fn m

/-- REGISTER_WRITE (R9, R456 to R468, R540): a host write of `size` bytes at an offset of a function's BAR0. -/
def registerWrite (fn off size : Nat) (v : BitVec 64) (t : Nat) (s : State) : State :=
  let s := s.tick t
  let word := size == 4 && off % 4 == 0
  let w : Word := v.setWidth 32
  if s.boot.numVfs < fn then s
  else if off = 0x0100 then if word && w.getLsbD 0 then ring fn s else s
  else if 0x1000 ≤ off ∧ off + size ≤ 0x1800 then writeRequest fn off size v s
  else if s.pow.fallow ≠ 0 then s
  else if off = 0x0104 then if word then doorbellLostClear fn w false s else s
  else if off = 0x0110 then if word then eventConsumed fn w t s else s
  else if off = 0x0208 then if word then alertStatusClear fn w 0 s else s
  else if off = 0x020C then
    if word ∧ fn = 0 then { s with cur := { s.cur with alertMask := (w &&& 0xF#32).toNat } } else s
  else if 0x2000 ≤ off ∧ off < 0x2100 then
    if word then doorbell fn ((off - 0x2000) / 4) w (w.getLsbD 31) s else s
  else if 0x4000 ≤ off ∧ off < 0x5000 then
    let a := (off - 0x4000) / 4
    if word then writeMsix fn a w s
    else if size = 8 ∧ off % 8 = 0 then writeMsix fn (a + 1) ((v >>> 32).setWidth 32) (writeMsix fn a w s)
    else s
  else s

/-! ### DEVICE_INFO and the event ring (R486, R494) -/

/-- Free local numbers (R17). -/
def View.freeNumbers (v : View) : Nat := 4048 - (v.exh.filter fun e => decide (48 ≤ e.1) && e.2.st != 0).length

/-- Result of DEVICE_INFO (R459, R494). -/
def deviceInfoBytes (s : State) (fn : Nat) : List Byte :=
  let b := s.boot
  let other := 1 - b.image
  fields [(2, 0x0048), (1, Config.stepping % 16), (1, Config.grade % 16), (8, Config.serial), (4, b.version b.image),
    (4, if b.usable other then b.version other else 0), (4, Config.bootRom), (1, fn), (1, b.numVfs),
    (1, s.view.index), (1, 0), (2, s.view.freeNumbers), (34, 0)]

/-- DEVICE_INFO (R494). -/
def deviceInfoBody (r : Req) (s : State) : Effect := do
  r.lenIs 0
  return (s, deviceInfoBytes s r.fn)

/-- EV_FW_ROLLBACK once the first event ring is set (R579). -/
def tellRollback (s : State) : State :=
  match s.boot.rollback with
  | none => s
  | some why =>
    (s.setBoot { s.boot with rollback := none }).postAll evFwRollback [(4, s.boot.version s.boot.image), (1, why)]

/-- EVENT_RING_SET (R486). -/
def eventRingSetBody (r : Req) (s : State) : Effect := do
  r.lenIs 16
  r.rsvIs 12 4
  let a := r.u 0 8
  let n := r.u 8 4
  ensure (a % 4096 == 0) eRange 0
  ensure (64 ≤ n && n ≤ 65536 && n &&& (n - 1) == 0) eRange 8
  let s := s.setMb r.fn { s.mb r.fn with ringAddr := a, ringSize := n, produced := 0, consumed := 0 }
  return (tellRollback (s.flushLost r.fn), [])

/-! ### Staging (R476 to R478) -/

/-- The exhibit, Store or queue that a block's key names belongs to the function (R472, R473). -/
def keyOwned (s : State) (fn : Nat) (b : Block) : Except Err Unit :=
  let t := b.typ
  let named (h : Nat) : Except Err Unit := (ownedHandle s fn h 8).map fun _ => ()
  if handleKeyed t then named (b.u 0 2)
  else if t = btChannelInput then (if b.u 0 1 < 48 then named (s.view.handle (b.u 0 1)) else pure ())
  else if t = btStore then ensure (!(s.sto (b.u 0 2)).on || s.storeOwner (b.u 0 2) == fn) eNotOwner 8
  else if t = btCourierQueue then (if b.u 0 1 < 64 then ensure ((s.qu (b.u 0 1)).fn == fn) eNotOwner 8 else pure ())
  else pure ()

/-- A block's owner (R472, R476): PF0, or the owner of the exhibit, Store or queue that it names. -/
def blockOwned (s : State) (fn : Nat) (b : Block) : Except Err Unit :=
  let t := b.typ
  let named (h off : Nat) : Except Err Unit := (ownedHandle s fn h (off + 8)).map fun _ => ()
  if pfOwned t then do
    ensure (fn == 0) eNotPf
    if t = btPairing ∧ b.u 1 1 = 1 then named (b.u 2 2) 2
    else if t = btHousekeeping ∧ (b.u 2 1 ≠ 0xFF ∨ b.u 3 1 ≠ 0xFF) then named (b.u 0 2) 0
    else pure ()
  else if t = btConservator then do
    named (b.u 0 2) 0
    -- the slot may be assigned to an exhibit of another function (R290)
    let slot := (s.view.position (b.u 0 2)).bind fun p => s.view.coreBlock (4 * p + b.u 2 1)
    ensure (slot.all fun o => s.view.owner (o.u 0 2) == fn) eNotOwner 8
  else do
    keyOwned s fn b
    if t = btStore then (if b.u 3 1 = 2 then ensure (fn == 0) eNotPf else named (b.u 4 2) 4) else pure ()

/-- The staged set with a block in the place of its instance (R476). -/
def putStaged (s : State) (fn : Nat) (b : Block) : List Staged :=
  (s.cur.staged.filter fun x => match x.item with
    | .block c => x.fn != fn || !s.view.sameKey b c
    | _ => true) ++ [⟨fn, .block b⟩]

/-- BLOCK_STAGE (R476, R477). -/
def blockStageBody (r : Req) (s : State) : Effect := do
  ensure (8 ≤ r.len) eLength
  let t := r.u 0 2
  r.rsvIs 2 6
  ensure (blockSize t != 0) eBlockType 0
  r.lenIs (8 + blockSize t)
  let b : Block := ⟨t, slice r.bytes 8 (blockSize t)⟩
  blockOwned s r.fn b
  match stageCheck b with
  | some e => .error { e with detail := e.detail + 8 }
  | none => pure ()
  return ({ s with cur := { s.cur with staged := putStaged s r.fn b } }, [])

/-- An instance among blocks, or its defaults (R478, R290). -/
def View.instanceIn (v : View) (l : List Block) (b : Block) : Block :=
  (l.find? fun c => v.sameKey b c).getD (defaultBlock b.typ b.key)

/-- BLOCK_READ (R478). -/
def blockReadBody (r : Req) (s : State) : Effect := do
  ensure (8 ≤ r.len) eLength
  let t := r.u 0 2
  r.rsvIs 3 5
  ensure (r.u 2 1 ≤ 2) eRange 2
  ensure (blockSize t != 0) eBlockType 0
  r.lenIs (8 + blockSize t)
  let b : Block := ⟨t, slice r.bytes 8 (blockSize t)⟩
  let bare := (blockKey t).foldl (fun d k => putU d k.1 k.2 0) b.data
  ensure (allZero bare) eReserved 8
  keyOwned s r.fn b
  let done := s.view.instanceIn s.cur.committed b
  let mine := s.cur.staged.filterMap fun x => match x.item with | .block c => if x.fn = r.fn then some c else none | _ => none
  let out : Block := match r.u 2 1 with
    | 0 => (mine.find? fun c => s.view.sameKey b c).getD done
    | 1 => done
    | _ => s.lastView.instanceIn s.lastView.blocks b
  return (s, out.data)

/-- STAGE_DISCARD (R478). -/
def stageDiscardBody (r : Req) (s : State) : Effect := do
  r.lenIs 0
  return (discardStaged r.fn s, [])

/-! ### Exhibits (R484, R485) -/

/-- The channel sets that may form a gang: pairs and quads of R19. -/
def gangSet (l : List Nat) : Bool :=
  match l with
  | [a, b] => a % 6 % 2 == 0 && b == a + 1
  | [a, b, c, d] => a % 6 == 0 && b == a + 1 && c == a + 2 && d == a + 3
  | _ => false

/-- Members in increasing order. -/
def rising (l : List Nat) : List Nat :=
  l.foldl (fun acc x => (acc.takeWhile fun y => decide (y ≤ x)) ++ [x] ++ acc.dropWhile fun y => decide (y ≤ x)) []

/-- Definitions that are staged or pending. -/
def State.definitions (s : State) : List (Nat × Nat × List Nat) :=
  (s.cur.staged.map (·.item) ++ s.cur.pending.flatMap (·.items)).filterMap fun i => match i with
    | .define h k ms => some (h, k, ms)
    | _ => none

/-- EXHIBIT_DEFINE (R19, R484). -/
def exhibitDefineBody (r : Req) (s : State) : Effect := do
  ensure (8 ≤ r.len) eLength
  let kind := r.u 2 1
  let any := (r.u 3 1).testBit 0
  let count := r.u 4 2
  r.rsvIs 6 2
  ensure (r.u 3 1 < 2) eReserved 3
  ensure (1 ≤ kind && kind ≤ 3) eRange 2
  ensure (if kind = 1 then count == 2 || count == 4 else 1 ≤ count && count ≤ 4095) eRange 4
  r.lenIs (8 + 2 * count)
  let v := s.view
  let members := (List.range count).map fun i => r.u (8 + 2 * i) 2
  let top := if kind = 3 then v.lead else v.index
  ensure (any || r.u 0 2 / 4096 == top) eRange 0
  ensure (kind != 3 || s.collD ≥ 2) eCollectionState 2
  ensure (members.all fun m => match v.find m with | some e => e.owner == r.fn | none => true) eNotOwner 8
  if kind = 1 then do
    ensure (members.all fun m => v.isOwn m && decide (m % 4096 < 48)) eKind 8
    ensure (gangSet (rising (members.map (· % 4096)))) eKind 8
    let taken := (v.exh.filter fun e => e.2.kind == 1 && e.2.st == 2).flatMap (·.2.members) ++
      (s.definitions.filter fun d => d.2.1 == 1).flatMap (·.2.2)
    ensure (members.all fun m => !taken.contains m) eGangMember 8
  let n ← match if any then (List.range 4096).find? fun n => (v.ex n).st == 0 else
      (if (v.ex (r.u 0 2 % 4096)).st = 0 then some (r.u 0 2 % 4096) else none) with
    | some n => pure n
    | none => refuse eNoHandle 0
  let h := top * 4096 + n
  let e := v.ex n
  let s : State := { s with exh := tset s.exh n { e with kind := kind, owner := r.fn, st := 1, members := members } }
  return ({ s with cur := { s.cur with staged := s.cur.staged ++ [⟨r.fn, .define h kind members⟩] } }, fields [(2, h)])

/-- EXHIBIT_DELETE (R18, R484): an exhibit whose definition is still staged is gone at once. -/
def exhibitDeleteBody (r : Req) (s : State) : Effect := do
  let h ← r.oneNum
  let e ← ownedHandle s r.fn h
  ensure (e.kind != 0) eKind 0
  let here (x : Staged) : Bool := x.fn == r.fn && (match x.item with | .define g _ _ => g == h | _ => false)
  if e.st = 1 ∧ s.cur.staged.any here then
    let s : State := { s with exh := tset s.exh (h % 4096) { epoch := e.epoch } }
    return ({ s with cur := { s.cur with staged := s.cur.staged.filter fun x => !here x } }, [])
  else
    let rest := s.cur.staged.filter fun x => !(x.fn == r.fn && x.item == .delete h)
    return ({ s with cur := { s.cur with staged := rest ++ [⟨r.fn, .delete h⟩] } }, [])

/-- A deletion of the handle is staged or pending. -/
def State.dying (s : State) (h : Nat) : Bool :=
  s.cur.staged.any (fun x => x.item == .delete h) || s.cur.pending.any fun p => p.items.contains (.delete h)

/-- EXHIBIT_QUERY (R485); a handle that is not this device's names a number that is free here. An exhibit that is
defined and not yet committed shows the epoch at which it starts (R22) and the members of its definition (DEDUCED, log 90). -/
def exhibitQueryBody (r : Req) (s : State) : Effect := do
  let h ← r.oneNum
  let v := s.view
  let n := h % 4096
  let e : Exhibit := if v.isOwn h || (v.ex n).st == 0 then v.ex n else {}
  let st := if e.st = 2 ∧ s.dying h then 3 else e.st
  let epoch := if e.st = 1 then e.epoch + 1 else e.epoch
  return (s, fields ([(2, h), (1, e.kind), (1, e.owner), (4, epoch), (1, st), (3, 0), (2, e.members.length), (2, 0)] ++
    e.members.map (2, ·)))

/-- EXHIBIT_ASSIGN (R485). -/
def exhibitAssignBody (r : Req) (s : State) : Effect := do
  let (h, fn) ← r.twoNum
  let v := s.view
  ensure (v.committed h).isSome eUndefined 0
  ensure (fn ≤ s.boot.numVfs) eRange 2
  ensure (!v.exActive h) eActive 0
  let rest := s.cur.staged.filter fun x => match x.item with | .assign g _ => g != h | _ => true
  return ({ s with cur := { s.cur with staged := rest ++ [⟨0, .assign h fn⟩] } }, [])

/-! ### Restarts (R497, R551, R552, R564) -/

/-- A Curator restart begins: 0 lock-step mismatch, 1 watchdog, 2 uncorrectable control error, 3 activation. -/
def restartBegins (cause : Nat) (s : State) : State :=
  let st := if cause = 3 then 3 else 2
  ({ s with boot := { s.boot with st := st },
            cur := { s.cur with restart := some (cause, s.cad.now), restarts := satAdd 32 s.cur.restarts 1 } } : State).alert 8

/-- Limupen runs: it is not restarting, halted, in fallow mode or booting. -/
def State.curatorRuns (s : State) : Bool := s.boot.st == 1 && s.pow.fallow == 0

/-- The Curator takes the new image into use no longer (R498): it restarts into the old one. -/
def rollBack (reason : Nat) (s : State) : State :=
  let other := 1 - s.boot.image
  let b := s.boot.setImg other { s.boot.img other with st := 2 }
  (s.setBoot { b with st := 2 }).postAll evFwRollback [(4, s.boot.version s.boot.image), (1, reason)]

/-- A lock-step mismatch is counted and logged; the fourth in 720 hours of powered time is a deaccession cause (R552,
R564). -/
def countMismatch (s : State) : State :=
  let s : State := { s with cur := { s.cur with mismatches := satAdd 32 s.cur.mismatches 1 } }
  let h := s.health
  let recent := (h.mismatches.filter fun x => decide (h.onMs ≤ x + 720 * 3600000)) ++ [h.onMs]
  let s := logEntry 7 0xFF 0 0 (s.setHealth { h with mismatches := recent })
  if 4 ≤ recent.length then deaccession hcLockstep s else s

/-- LOCKSTEP_MISMATCH (R552). While an image is being activated it fails its self-test by it. -/
def lockstepMismatch (t : Nat) (s : State) : State :=
  let s := s.tick t
  if s.curatorRuns then restartBegins 0 (countMismatch s)
  else if s.boot.st = 3 then rollBack 1 (countMismatch s)
  else s

/-- WATCHDOG_EXPIRY (R552). -/
def watchdogExpiry (t : Nat) (s : State) : State :=
  let s := s.tick t
  if s.curatorRuns then restartBegins 1 s else s

/-- UNCORRECTABLE_WORD in control state (R403, R552). -/
def controlWord (unit t : Nat) (s : State) : State :=
  let s := (s.tick t).post evMemUncorrectable [(1, 4), (1, unit), (1, 0), (1, 0), (4, 0)]
  if s.curatorRuns then restartBegins 2 s else s

/-- UNCORRECTABLE_WORD (R403). -/
def uncorrectable (place unit key t : Nat) (s : State) : State :=
  if place = 4 then controlWord unit t s else wordLost place unit key t s

/-- A command that the restart caught is answered with E_RESTARTED and stays unexecuted (R497). -/
def answerCaught (fn : Nat) (s : State) : State :=
  let m := s.mb fn
  if !m.busy then s
  else
    let b := cgetAll (fun _ => 0#8) m.req 0 8
    s.complete fn { opcode := getU b 0 2, seq := getU b 4 4, error := eRestarted, time := s.time } false m.lastSeq m.stored

/-- The new image has reached STATE 1 and marks itself active (R498). -/
def activated (s : State) : State :=
  let i := 1 - s.boot.image
  let old := s.boot.image
  let b := (s.boot.setImg i { s.boot.img i with st := 0, erase := true }).setImg old { s.boot.img old with st := 0, erase := true }
  let s := markActive i (s.setBoot { b with image := i })
  s.postAll evFwActivated [(4, s.boot.version i)]

/-- CURATOR_RESTART_DONE (R483, R497, R498, R551): the journal is replayed; held events are written, then those of the
restart. -/
def restartDone (us : Nat) (damaged : Bool) (t : Nat) (s : State) : State :=
  let s := s.tick t
  match s.cur.restart with
  | none => s
  | some (cause, _) =>
    let new := s.boot.st == 3
    let held := s.cur.held
    let s := ({ s with cur := { s.cur with restart := none, held := [] } } : State).setBoot { s.boot with st := 1 }
    let s := held.foldl (fun s e => s.deliverEvent e) s
    let s := if damaged then
        ((List.range (s.boot.numVfs + 1)).foldl (fun s fn => discardStaged fn s) s).postAll evStageDiscarded [(1, 1)]
      else s
    let s := (List.range (s.boot.numVfs + 1)).foldl (fun s fn => answerCaught fn s) s
    let s := s.postAll evRestart [(1, cause), (3, 0), (4, us)]
    if new then activated s else s

/-- ACTIVATION_TIMEOUT (R498): reason 0 the new image has not started within 2 s, 1 its self-test failed. -/
def activationTimeout (reason t : Nat) (s : State) : State :=
  let s := s.tick t
  if s.boot.st = 3 ∧ reason ≤ 1 then rollBack reason s else s

/-- HEARTBEAT (R459; DEDUCED, log 34): 1 ms while STATE is 1. -/
def heartbeat (t : Nat) (s : State) : State :=
  let s := s.tick t
  if !s.curatorRuns then s
  else
    let s := s.setBoot { s.boot with heartbeat := (s.boot.heartbeat + 1) % 2 ^ 32 }
    s.setHealth { s.health with onMs := s.health.onMs + 1 }

/-! ### Firmware update (R495, R496, R575, R576) -/

/-- The slot that does not run. -/
def Boot.slot (b : Boot) : Nat := 1 - b.image

/-- Bytes written into a slot; what nothing has written since the erase reads all ones. -/
def flashWrite (old : List Byte) (off : Nat) (bs : List Byte) : List Byte :=
  old.take off ++ List.replicate (off - old.length) (0xFF#8 : Byte) ++ bs ++ old.drop (off + bs.length)

/-- FW_STAGE (R495). -/
def fwStageBody (r : Req) (s : State) : Effect := do
  ensure (8 ≤ r.len && r.len ≤ 8 + 2 ^ 20) eLength
  r.rsvIs 4 4
  let off := r.u 0 4
  let bs := r.bytes.drop 8
  ensure (off + bs.length ≤ 12 * 2 ^ 20) eRange 0
  let i := s.boot.slot
  let x := s.boot.img i
  let old := if x.erase then [] else x.bytes
  let y := flashWrite old off bs
  let x : Image := { bytes := y, st := 1, erase := false, patch := getU y 6 1, minor := getU y 7 1, major := getU y 8 1,
                     svn := getU y 10 2 }
  return (s.setBoot (s.boot.setImg i x), [])

/-- Result of FW_VERIFY and FW_STATUS (R495). -/
def fwStatusBytes (b : Boot) : List Byte :=
  let x := b.img b.slot
  fields [(4, if x.st = 0 then 0 else b.version b.slot), (1, x.st)]

/-- FW_VERIFY (R495, R576). -/
def fwVerifyBody (r : Req) (s : State) : Effect := do
  r.lenIs 0
  let i := s.boot.slot
  let x := s.boot.img i
  ensure (x.st != 0 && imageOk s.boot.minSvn x.bytes) eFwImage
  let s := s.setBoot (s.boot.setImg i { x with valid := true, st := 2 })
  return (s, fwStatusBytes s.boot)

/-- What a failed FW_VERIFY leaves: the next FW_STAGE erases the slot (R495). -/
def fwVerifyFailed (e : Err) (s : State) : State :=
  if e.code = eFwImage then
    let i := s.boot.slot
    s.setBoot (s.boot.setImg i { s.boot.img i with erase := true })
  else s

/-- FW_ACTIVATE (R496, R578). -/
def fwActivateBody (r : Req) (s : State) : Effect := do
  r.lenIs 8
  r.rsvIs 1 7
  ensure (r.u 0 1 ≤ 1) eRange 0
  let i := s.boot.slot
  let x := s.boot.img i
  let run := s.boot.img s.boot.image
  if r.u 0 1 = 1 then do
    ensure (x.st != 0) eFwState
    return (s.setBoot { s.boot with tryFirst := some i, gen := (s.boot.gen + 1) % 2 ^ 32 }, [])
  else do
    ensure (s.boot.st == 1 && x.st == 2 && x.major == run.major) eFwState
    ensure (s.coll.formed.all fun e => e.2.1 == run.major) eMajorMismatch
    return (s, [])

/-- What follows the response of FW_ACTIVATE (R496, R498): with MODE 0 the activation begins. -/
def activationBegins (r : Req) (s : State) : State :=
  if r.u 0 1 = 1 then s
  else
    let i := s.boot.slot
    restartBegins 3 (s.setBoot (s.boot.setImg i { s.boot.img i with st := 3 }))

/-- FW_STATUS (R495). -/
def fwStatusBody (r : Req) (s : State) : Effect := do
  r.lenIs 0
  return (s, fwStatusBytes s.boot)

end Sys2Proof.Machine
end

