-- ==== Sys2Proof/Machine/Sequence.lean ====
section
/-! DEFINITION. The cadence as it reaches every unit: the anchor and re-anchoring (R43, R62, R63), marks (R55, R56, R60,
R61), scheduled actions as they come due (R49 to R54), and analysis that resumes (R70). -/
namespace Sys2Proof.Machine

/-! ### The sample axis moves (R43, R62)

At an anchor the sample index jumps from `old` to `S`. State that stands for an instant of the past or of the near
future on the running sample count moves with it (DEDUCED, log 80); instants that the manual names by index keep it. -/

/-- An index at rate fs/2^e after the axis moved from fs-sample `old` to `S`. -/
def shiftAt (old S : Nat) (e : Int) (n : Nat) : Nat := n + rateCeil e S - rateCeil e old

/-- A running span that began at `f`. -/
def shiftOpen (S : Nat) (f : Option Nat) : Option Nat := f.map fun a => min a S

/-- Spans of quality conditions after the move. -/
def shiftSpans (old S : Nat) (l : List QSpan) : List QSpan :=
  l.filterMap fun p =>
    match p.hi with
    | none => some { p with lo := min p.lo S }
    | some hi =>
      if old < hi then some { p with lo := min p.lo S, hi := some (S + (hi - old)) }
      else if S < old then (if S ≤ p.lo then none else some { p with hi := some (min hi S) })
      else some p

/-- The cadence's own spans after the move. The lock windows run from the new anchor (R69; DESIGN CHOICE, log 109). -/
def Cad.shift (c : Cad) (old S : Nat) : Cad :=
  { c with
    syncAt := c.syncAt + S - old
    holdFrom := shiftOpen S c.holdFrom
    holdSpans := if S < old then c.holdSpans.filterMap fun p => if S ≤ p.1 then none else some (p.1, min p.2 S)
      else c.holdSpans
    plls := tmap c.plls fun _ p => { p with winFrom := S, lockAt := shiftAt old S 0 p.lockAt,
                                            lossFrom := p.lossFrom.map fun _ => S } }

/-- Wings and mounts. -/
def moveWings (old S : Nat) (s : State) : State :=
  { s with
    chan := tmap s.chan fun _ x => { x with marks := shiftSpans old S x.marks, stale := shiftOpen S x.stale,
                                            drift := shiftOpen S x.drift, loop := shiftOpen S x.loop, loops := [],
                                            was := x.hist, hist := x.placedFrom S }
    calSpans := shiftSpans old S s.calSpans
    mount := tmap s.mount fun _ m => { m with unknown := shiftOpen S m.unknown, expiredOn := shiftOpen S m.expiredOn,
                                              wroteAt := m.wroteAt.map (shiftAt old S 0), spans := shiftSpans old S m.spans,
                                              past := m.past.map fun p => (min p.1 S, p.2),
                                              below := m.below.map fun b => b.map (shiftAt old S 0) } }

/-- Decimation, pipelines and triggers: what waits for a sample up to the jump waits for the new one. -/
def moveAnalysis (old S : Nat) (s : State) : State :=
  let v := s.view
  { s with
    chain := tmap s.chain fun h x =>
      { x with
        cfgs := x.cfgs.map fun c => { c with start := shiftAt old S (v.gridExp h) c.start }
        evs := x.evs.map fun e => { e with pos := shiftAt old S (v.gridExp h) e.pos }
        counted := rateCeil (v.gridExp h) S
        resume := x.resume.map (shiftAt old S (v.gridExp h)) }
    pipe := tmap s.pipe fun h p =>
      let e := srcExp v h p.cfg
      { p.openPeriods s.cad S p.cfg.strs with
        next := frameFrom p.cfg (rateCeil e S)
        fails := p.fails.map fun f => (shiftAt old S e f.1, f.2)
        waiting := p.waiting.map fun c => if c.at0 ≤ old then { c with at0 := S } else c }
    conc := tmap s.conc fun _ x =>
      { x with waiting := x.waiting.map fun c => if c.at0 ≤ old then { c with at0 := S } else c,
               parts := [], upTo := intervalFrom s.cad S x.cfg.len x.cfg.turns }
    trig := tmap s.trig fun h x =>
      let k := v.gridK h
      let was := gridCeil k old 1
      let g := gridCeil k S 1
      { x with
        next := g
        waiting := x.waiting.map fun c => if c.n0 ≤ was then { c with n0 := g } else c
        arms := x.arms.map fun a => if a.1 ≤ was then (g, a.2) else a
        conds := tmap x.conds fun _ o =>
          { o with start := if o.start ≤ was then o.start + g - was else g, waiting := o.waiting.map fun q => if was < q.pos then { q with pos := q.pos + g - was } else { q with pos := g } }
        prog := if x.prog.waiting then { x.prog with pp := g } else x.prog }
    lastEval := (0, 0)
    cross := tmap s.cross fun _ x => { x with start := shiftAt old S 0 x.start }
    core := tmap s.core fun _ x =>
      let d (n : Nat) := n + S / 8 - old / 8
      { x with
        origin := d x.origin, since := S
        ports := x.ports.map fun p => { p with arrived := none, first := none }
        swaps := x.swaps.map fun w => { w with at0 := S }
        stim := x.stim.map fun l => l.map fun w => { w with clock := d w.clock } } }

/-- Outputs, housekeeping and the bus. -/
def moveOutputs (old S : Nat) (s : State) : State :=
  let f := shiftAt old S 0
  { s with
    dac := tmap s.dac fun _ x => { x with play := shiftAt old S (-1) x.play, grid := shiftAt old S (-1) x.grid,
                                          formed := shiftAt old S (-1) x.formed, held := x.held.map f }
    level := tmap s.level fun _ x =>
      { x with next := ceilDiv S 8192, waiting := x.waiting.map fun w => { w with tick := ceilDiv S 8192 } }
    hk := { s.hk with
            convs := tmap s.hk.convs fun _ x =>
              { x with ready := f x.ready, job := x.job.map fun j => { j with start := f j.start, stop := f j.stop } }
            win := s.hk.win.map fun w => { w with at0 := f w.at0 } }
    store := tmap s.store fun _ x => { x with since := min x.since S }
    clkOut := tmap s.clkOut fun _ o => { o with fall := o.fall + 64 * ((S : Int) - old), rise := o.rise + 64 * ((S : Int) - old) }
    lines := tmap s.lines fun _ x => { x with stop := x.stop.map (shiftAt old S 3), togAt := x.togAt.map (shiftAt old S 3) }
    coll := { s.coll with nextTrg := 0, nextCtl := 0 } }

/-- Everything moves from fs-sample `old` to `S`; `s` still reads the old count. -/
def moveAxis (old S : Nat) (s : State) : State :=
  let s := (List.range 8).foldl (fun s d => settleDac d s) s
  let s := moveOutputs old S (moveAnalysis old S (moveWings old S s))
  s.setCad (s.cad.shift old S)

/-- Records that wait when the axis moves are final: no lock window that held one of their samples can end badly any more
(R70; DESIGN CHOICE, log 109). -/
def settleAll (s : State) : State :=
  let f (r : Rec) : Rec := { r with deps := [] }
  { s with produced := s.produced.map f, store := tmap s.store fun _ x => { x with ahead := x.ahead.map f } }

/-! ### The anchor (R43) -/

/-- ANCHOR (R43): the sample index is 0; scans and scheduled windows begin on it. -/
def anchorNow (s : State) : State :=
  let old := s.cad.now
  let c := s.cad
  if !(c.awaitAnchor && allLocked c) then s
  else
    let s := anchor (moveAxis old 0 (settleAll s))
    let s := { s with comp := tmap s.comp fun _ x => { x with latch := x.latch.map fun _ => -1, was := none, cleared := -(2 ^ 80) } }
    let s := if s.pow.domains.testBit 30 then hkStart 0 s else s
    let s : State := { s with trig := tmap s.trig fun _ x => { x with times := [] } }
    let s := (s.view.ofType btCalSchedule).foldl (fun s b => applyCalSchedule b s) s
    s.publishAll

/-! ### Late actions (R54, R63) -/

/-- Sample of an action on the present map. -/
def actionSample (s : State) (a : Action) : Nat := sampleOf s.cad a.time

/-- Synthesisers whose CLOCK lacuna defers an action: its exhibit's, or FPLL (R54, R71). -/
def lostFor (s : State) (h : Option Nat) : Bool :=
  (clockLoss s.cad (match h with | some h => s.view.deps h | none => [4])).isSome

/-- Handles of a commit's items. -/
def pendingHandles (s : State) (p : Pending) : List Nat := (p.items.flatMap (itemHandles s.view)).eraseDups

/-- A commit is deferred by a CLOCK lacuna (R54). -/
def commitDeferred (s : State) (p : Pending) : Bool :=
  let hs := pendingHandles s p
  if hs.isEmpty then lostFor s none else hs.any fun h => lostFor s (some h)

/-- A commit takes effect now (R481): configuration, epochs, and the lacunae of losses that run. -/
def commitNow (p : Pending) (s : State) : State :=
  let v := s.view
  let moved := (galleryMoves v p.items).map (·.1)
  let s := applyCommit p s
  let v' := s.view
  let by0 (h : Nat) : Bool := (v'.channels h).any fun c => moved.contains (c / 6)
  openRunning (epochsMoved v v' s.cad.now by0 (stepTags v v' s))

/-- A scheduled action takes effect now, late where a lacuna or a jump delayed it. -/
def actNow (late : Bool) (a : Action) (s : State) : State :=
  match a.act with
  | .clear mask => doClear mask (s.dropAction a.id)
  | .snapshot bits => doSnapshot a bits late (s.dropAction a.id)
  | .arm v => doArm a v late (s.dropAction a.id)
  | .force => doForce a late (s.dropAction a.id)
  | .cal _ _ _ => s
  | .inject _ _ _ => s

/-- Key of R53 behind the sample: kind, without a handle, handle, order of acceptance. -/
structure DueKey where
  sample : Nat
  cls    : Nat
  bare   : Nat
  handle : Nat
  id     : Nat
deriving DecidableEq, Repr

/-- The key as a list, for comparison. -/
def DueKey.list (k : DueKey) : List Nat := [k.sample, k.cls, k.bare, k.handle, k.id]

/-- Lexicographic order of equally long lists. -/
def lexLt : List Nat → List Nat → Bool
  | [], _ => false
  | _, [] => false
  | a :: as, b :: bs => if a = b then lexLt as bs else a < b

/-- Key of a pending commit: the order of its lowest handle (R53). -/
def commitKey (s : State) (p : Pending) : DueKey :=
  match pendingHandles s p with
  | [] => ⟨p.sT, 0, 1, 0, p.id⟩
  | h :: hs => ⟨p.sT, 0, 0, hs.foldl min h, p.id⟩

/-- Key of a scheduled action (R53). -/
def actionKey (s : State) (a : Action) : DueKey :=
  ⟨actionSample s a, a.act.kind, b2n a.handle.isNone, a.handle.getD 0, a.id⟩

/-- Actions that run by a row of their own: housekeeping takes the rest when its converters are free (R382). -/
def Act.timed (a : Act) : Bool := a.kind != 4

/-- Something else comes first (R53): a commit or an action with a smaller key that no lacuna defers. -/
def laterThan (s : State) (k : DueKey) : Bool :=
  (s.cur.pending.any fun p => !commitDeferred s p && lexLt (commitKey s p).list k.list) ||
    s.cur.actions.any fun a => a.act.timed && !lostFor s a.handle && lexLt (actionKey s a).list k.list

/-- COMMIT_EFFECT (R49, R53, R481). -/
def commitEffect (id : Nat) (s : State) : State :=
  match s.cur.pending.find? (·.id == id) with
  | none => s
  | some p =>
    if !s.cad.anchored || commitDeferred s p || laterThan s (commitKey s p) then s else commitNow p (s.tick p.sT)

/-- A scheduled action of the given kind reaches its sample (R49, R50, R53). -/
def actionEffect (ok : Act → Bool) (id : Nat) (s : State) : State :=
  match s.cur.actions.find? (·.id == id) with
  | none => s
  | some a =>
    if !ok a.act || !s.cad.anchored || lostFor s a.handle || laterThan s (actionKey s a) then s
    else actNow false a (s.tick (actionSample s a))

/-- What comes due: a commit, an action, a time of a SCHEDULE condition. -/
inductive Due where
  | commit (p : Pending)
  | action (a : Action)
  | time (h cond : Nat) (t : CT)
deriving DecidableEq, Repr

/-- Commits and actions that are due and not deferred, with their keys. -/
def dueNow (s : State) (due : Nat → Bool) : List (DueKey × Due) :=
  ((s.cur.pending.filter fun p => due p.sT && !commitDeferred s p).map fun p => (commitKey s p, Due.commit p)) ++
    (s.cur.actions.filter fun a => a.act.timed && due (actionSample s a) && !lostFor s a.handle).map fun a =>
      (actionKey s a, Due.action a)

/-- The item of the smallest key. -/
def firstDue : List (DueKey × Due) → Option (DueKey × Due)
  | [] => none
  | x :: xs => match firstDue xs with | none => some x | some y => if lexLt y.1.list x.1.list then some y else some x

/-- Everything due runs in time order, late where its sample lies before the present one (R54, R63); `times` are the times
of SCHEDULE conditions that were passed over. -/
def runLate (due : Nat → Bool) : Nat → List (DueKey × Due) → State → State
  | 0, _, s => s
  | k + 1, times, s =>
    match firstDue (dueNow s due ++ times) with
    | none => s
    | some (_, .commit p) => runLate due k times (commitNow p s)
    | some (key, .action a) => runLate due k times (actNow (decide (key.sample < s.cad.now)) a s)
    | some (key, .time h c t) =>
      runLate due k (times.filter fun x => x.1 != key) (occurAt h t true (fun y => getU y 2 1 == c && getU y 3 1 == 11) s)

/-- First time of a SCHEDULE condition strictly after cadence time `a`, if it lies before `b` (R211). -/
def scheduleBetween (c : Cad) (blk : Block) (a b : CT) : Option CT :=
  let d := blk.u 32 4
  let first : CT := ⟨blk.u 12 8 % 2 ^ 48, blk.u 28 2, blk.u 30 2⟩
  let t : CT :=
    if ctLt a first then first
    else if d = 0 then a
    else
      -- times lie at slots first.slot + i d of each turn (R211)
      let i := if first.slot ≤ a.slot then (a.slot - first.slot) / d else 0
      let here := [i, i + 1].map fun i => (⟨a.turn, first.slot + i * d, first.phase⟩ : CT)
      match here.find? fun x => decide (x.slot < c.spt) && ctLt a x with
      | some x => x
      | none => ⟨(a.turn + 1) % 2 ^ 48, first.slot, first.phase⟩
  if ctLt a t && ctLt t b then some t else none

/-- The cadence time one phase unit before another. -/
def ctBefore (c : Cad) (t : CT) : CT :=
  if t.phase ≠ 0 then { t with phase := t.phase - 1 }
  else if t.slot ≠ 0 then { t with slot := t.slot - 1, phase := 65535 }
  else ⟨(t.turn + 2 ^ 48 - 1) % 2 ^ 48, c.spt - 1, 65535⟩

/-- SCHEDULE conditions of the chosen exhibits with a time strictly between `a` and `b` that has not occurred: each occurs
once for all of them (R54, R63, R211), and none of them again (R50). -/
def lateSchedules (who : Nat → Bool) (a b : CT) (s : State) : List (DueKey × Due) × State :=
  ((s.view.ofType btCondition).filter fun x => x.u 3 1 == 11 && who (x.u 0 2)).foldl (fun acc x =>
    let h := x.u 0 2
    let n := x.u 2 1
    let from' := match tfind (acc.2.tr h).times n with | some l => if ctLt a l then l else a | none => a
    match scheduleBetween acc.2.cad x from' b with
    | none => acc
    | some t => (acc.1 ++ [(⟨sampleOf acc.2.cad t, 6, 0, h, 2 ^ 40 + n⟩, Due.time h n t)],
        noteTime h n (ctBefore acc.2.cad b) acc.2)) ([], s)

/-- Injected conversions and calibration windows whose time a lacuna or a jump took are late (R54, R63, R382). -/
def markLate (due : Nat → Bool) (s : State) : State :=
  let f (a : Action) : Action := if !a.act.timed && due (actionSample s a) then { a with late := true } else a
  { s with cur := { s.cur with actions := s.cur.actions.map f } }

/-! ### Re-anchoring (R36, R62, R63, R604) -/

/-- One active stream at a re-anchoring: an open gap is cut there and goes on; samples not yet taken end there on the old
index; the discontinuity record follows (R36, R63, R604; DEDUCED, log 81). `s0` is the state before the axis moved, with its
gaps closed. -/
def anchorStream (s0 : State) (gap : Option Gap) (old S : Nat) (oldT : CT) (back : Bool) (d : StreamDef) (s : State) : State :=
  if !s0.view.active d.h d.st then s
  else
    let k := skey d.h d.st
    let rec' := { s.number (discontinuityRec s.cad d oldT back old) with deps := [] }
    let x := s.stream k
    let limit := rateCeil d.rate old
    let tails := if isSampleType d.typ ∧ gap.isNone then x.tails ++ (s0.tailTo d.h d.st limit).toList else x.tails
    let tails := tails.map fun t =>
      if t.moved then t
      else { t with moved := true, carry := some (exQuality s0 d.h (fsCeil d.rate t.next) (fsCeil d.rate (t.limit.getD limit))) }
    let s := s.setStream k { x with tails := tails, next := if isSampleType d.typ then rateCeil d.rate S else x.next }
    let s := if tails.isEmpty then s.produce rec' else s.setStream k ((s.stream k).behind rec')
    match gap with
    | some g => let y := s.stream k; s.setStream k { y with gap := some ⟨g.cause, g.unit, S, 0, y.seq⟩ }
    | none => s

/-- The device re-anchors at a mark that the coasting cadence reads as `pos` (R62, R63). -/
def reanchor (pos : CT) (s : State) : State :=
  let old := s.cad.now
  let ds := s.view.streams
  let gaps := s
  -- gaps that run end at the anchor on the old index
  let s := ds.foldl (fun s d => if s.view.active d.h d.st then s.closeGap d.h d.st old else s) s
  let s0 := s
  let new := anchorTime s.cad pos
  let S := sampleOf s.cad new
  let s := moveAxis old S (settleAll s)
  let s := (moveAnchor pos s).1
  let back := !ctLt pos new
  let s := ds.foldl (fun s d => anchorStream s0 (gaps.stream (skey d.h d.st)).gap old S pos back d s) s
  let s := haltGleaning (List.range 48) s
  -- R63: what the jump skipped runs at the anchor sample
  let s := if back then s
    else
      let due (n : Nat) : Bool := decide (old < n ∧ n < S)
      let (times, s) := lateSchedules (fun h => !lostFor s (some h)) pos new (markLate due s)
      runLate due 4096 times s
  s.publishAll

/-- CAD_MARK (R55, R56, R60 to R62): a mark on a reference edge at which the count reads `pos`. In internal mode the input is
ignored, and after a loss of BASE_CLK the row stands for the next marker that the device generates (R40, R43; DESIGN CHOICE,
DESIGN CHOICE, log 113). -/
def cadMark (pos : CT) (s : State) : State :=
  if !s.cad.anchored || (s.cad.source != 1 && s.cad.returned.isNone) then s
  else
    let pos := edgeTime s.cad pos
    let s := s.tick (sampleOf s.cad pos)
    let c := s.cad
    let jw := s.cadBlock.u 30 2
    if c.coasting then s
    else
      match c.returned with
      | some phase =>
        if decide (phase.natAbs ≤ jw) && markAtPhase s phase pos then beginSlew phase s else reanchor pos s
      | none =>
        if c.slewing && markWithin c jw pos then s.setCad { c with markRun := 0 }
        else if !c.slewing && pos.slot == 0 && pos.phase == 0 then s.setCad { c with markRun := 0 }
        else
          let (s, limit) := misplaced pos s
          if limit then reanchor pos s else s

/-! ### Analysis resumes (R54, R70) -/

/-- ANALYSIS_RESUME (R54, R70): the lacunae end, and what fell into them runs late in time order. -/
def analysisResume (t : Nat) (s : State) : State :=
  let lost (s : State) : List Nat := s.view.allHandles.filter fun h => lostFor s (some h)
  let before := lost s
  let hadFpll := hkLost s
  let from' := (pllOf s.cad 4).lossFrom.getD 0
  let lossAt := (List.range 5).foldl (fun m k =>
    let p := pllOf s.cad k
    if p.lossFrom.isSome then min m p.lossAt else m) (max s.cad.now t)
  let a := ctOf s.cad lossAt
  let s := analysisBack t s
  let back := before.filter fun h => !(lost s).contains h
  let s := if hadFpll && !hkLost s then markLate (fun n => decide (from' ≤ n ∧ n ≤ s.cad.now)) s else s
  let (times, s) := lateSchedules back.contains a s.time s
  runLate (fun n => decide (n ≤ s.cad.now)) 4096 times s

end Sys2Proof.Machine
end

