-- ==== Sys2Proof/Machine/RowsDevice.lean ====
section
/-! DEFINITION. The rows of the collection, of power and faults, and of the Curator and start-up (17 to 22). -/
namespace Sys2Proof.Machine

/-- TRIGGER_MESSAGE (R508). -/
def execTriggerMessage (w0 w1 : BitVec 64) (v : Nat) (down ok : Bool) (s : State) : Host.Outcome State Fault Refusal :=
  .next (Sys2Proof.Machine.triggerMessage w0 w1 v down ok s)

/-- MESSAGE_TARGET (R508). -/
def execMessageTarget (i : Nat) (s : State) : Host.Outcome State Fault Refusal :=
  .next (Sys2Proof.Machine.messageTarget i s)

/-- MESSAGE_SEND (R507). -/
def execMessageSend (cls v : Nat) (s : State) : Host.Outcome State Fault Refusal :=
  .next (Sys2Proof.Machine.messageSend cls v s)

/-- PREPARE (R519). -/
def execPrepare (w0 w1 : BitVec 64) (v t : Nat) (s : State) : Host.Outcome State Fault Refusal :=
  .next (prepareMsg w0 w1 v t s)

/-- ACCEPT (R519). -/
def execAccept (w0 w1 : BitVec 64) (v : Nat) (s : State) : Host.Outcome State Fault Refusal :=
  .next (acceptVote w0 w1 v s)

/-- REFUSE (R519). -/
def execRefuse (w0 w1 : BitVec 64) (v : Nat) (s : State) : Host.Outcome State Fault Refusal :=
  .next (refuseVote w0 w1 v s)

/-- GO (R519). -/
def execGo (w0 w1 : BitVec 64) (v : Nat) (s : State) : Host.Outcome State Fault Refusal :=
  .next (goMsg w0 w1 v s)

/-- ABORT (R519). -/
def execAbort (w0 w1 : BitVec 64) (v : Nat) (s : State) : Host.Outcome State Fault Refusal :=
  .next (abortMsg w0 w1 v s)

/-- VOTE_TIMEOUT (R519). -/
def execVoteTimeout (id : Nat) (s : State) : Host.Outcome State Fault Refusal :=
  .next (Sys2Proof.Machine.voteTimeout id s)

/-- TENTATIVE_TIMEOUT (R519). -/
def execTentativeTimeout (id t : Nat) (s : State) : Host.Outcome State Fault Refusal :=
  .next (Sys2Proof.Machine.tentativeTimeout id t s)

/-- STOP (R508). -/
def execStop (w0 w1 : BitVec 64) (v : Nat) (s : State) : Host.Outcome State Fault Refusal :=
  .next (stopMessage w0 w1 v s)

/-- RETURN (R518). -/
def execReturnMessage (w0 w1 : BitVec 64) (v : Nat) (s : State) : Host.Outcome State Fault Refusal :=
  .next (returnMsg w0 w1 v s)

/-- PROBE (R513). -/
def execProbe (s : Nat) (a1 : Int) (s0 : State) : Host.Outcome State Fault Refusal :=
  .next (probeMsg s a1 s0)

/-- ECHO (R513). -/
def execEcho (w0 w1 : BitVec 64) (hop s : Nat) (a3 : Int) (s0 : State) : Host.Outcome State Fault Refusal :=
  .next (echoMsg w0 w1 hop s a3 s0)

/-- ALIGN (R512). -/
def execAlign (w0 w1 : BitVec 64) (v : Nat) (s : State) : Host.Outcome State Fault Refusal :=
  .next (alignMsg w0 w1 v s)

/-- LANE_LOCK (R502). -/
def execLaneLock (lane t : Nat) (s : State) : Host.Outcome State Fault Refusal :=
  .next (Sys2Proof.Machine.laneLock lane t s)

/-- LANE_LOSS (R514). -/
def execLaneLoss (lane : Nat) (lost : List Nat) (t : Nat) (s : State) : Host.Outcome State Fault Refusal :=
  .next (Sys2Proof.Machine.laneLoss lane lost t s)

/-- LEAVE_START (R527). -/
def execLeaveStart (op unit : Nat) (up : PowerUp) (s : State) : Host.Outcome State Fault Refusal :=
  .next (Sys2Proof.Machine.leaveStart op unit up.t up.ms s)

/-- DOMAIN_POWER_DOWN (R535). -/
def execDomainPowerDown (d t : Nat) (s : State) : Host.Outcome State Fault Refusal :=
  .next (Sys2Proof.Machine.domainPowerDown d t s)

/-- DOMAIN_FAULT (R536). -/
def execDomainFault (d t : Nat) (s : State) : Host.Outcome State Fault Refusal :=
  .next (Sys2Proof.Machine.domainFault d t s)

/-- DOMAIN_RESUME (R536). -/
def execDomainResume (d : Nat) (up : PowerUp) (s : State) : Host.Outcome State Fault Refusal :=
  .next (Sys2Proof.Machine.domainResume d up.t up.ms s)

/-- THERMAL_TRIP (R589). -/
def execThermalTrip (sensor : Nat) (temp : Int) (t : Nat) (s : State) : Host.Outcome State Fault Refusal :=
  .next (Sys2Proof.Machine.thermalTrip sensor temp t s)

/-- GALLERY_FAILURE (R555). -/
def execGalleryFailure (p t : Nat) (s : State) : Host.Outcome State Fault Refusal :=
  .next (galleryFails p t s)

/-- WARMUP_START (R558). -/
def execWarmupStart (pos t : Nat) (s : State) : Host.Outcome State Fault Refusal :=
  .next (Sys2Proof.Machine.warmupStart pos t s)

/-- MIGRATION_SWITCH (R558). -/
def execMigrationSwitch (pos t : Nat) (s : State) : Host.Outcome State Fault Refusal :=
  .next (Sys2Proof.Machine.migrationSwitch pos t s)

/-- LOCKSTEP_MISMATCH (R552). -/
def execLockstepMismatch (t : Nat) (s : State) : Host.Outcome State Fault Refusal :=
  .next (Sys2Proof.Machine.lockstepMismatch t s)

/-- WATCHDOG_EXPIRY (R552). -/
def execWatchdogExpiry (t : Nat) (s : State) : Host.Outcome State Fault Refusal :=
  .next (Sys2Proof.Machine.watchdogExpiry t s)

/-- CURATOR_RESTART_DONE (R497). -/
def execCuratorRestartDone (us : Nat) (damaged : Bool) (t : Nat) (s : State) : Host.Outcome State Fault Refusal :=
  .next (restartDone us damaged t s)

/-- ACTIVATION_TIMEOUT (R498). -/
def execActivationTimeout (reason t : Nat) (s : State) : Host.Outcome State Fault Refusal :=
  .next (Sys2Proof.Machine.activationTimeout reason t s)

/-- HEARTBEAT (R459). -/
def execHeartbeat (t : Nat) (s : State) : Host.Outcome State Fault Refusal :=
  .next (Sys2Proof.Machine.heartbeat t s)

/-- FALLOW_WAKE (R541). -/
def execFallowWake (retrain : Bool) (runs : List (Nat × Nat × LaneRun)) (s : State) : Host.Outcome State Fault Refusal :=
  .next (Sys2Proof.Machine.fallowWake retrain runs s)

/-- SUPPLIES_GOOD (R580). -/
def execSuppliesGood (b : BootReport) (s : State) : Host.Outcome State Fault Refusal :=
  .next (Sys2Proof.Machine.suppliesGood b s)

/-- COLD_RESET (R572). -/
def execColdReset (straps : Nat) (strapPerst : Bool) (s : State) : Host.Outcome State Fault Refusal :=
  .next (Sys2Proof.Machine.coldReset straps strapPerst s)

/-- BOOT_ATTEMPT_TIMEOUT (R578). -/
def execBootAttemptTimeout (s : State) : Host.Outcome State Fault Refusal :=
  .next (Sys2Proof.Machine.bootAttemptTimeout s)

/-- UNCORRECTABLE_WORD (R403). -/
def execUncorrectableWord (place unit key t : Nat) (s : State) : Host.Outcome State Fault Refusal :=
  .next (uncorrectable place unit key t s)

/-- TDC_CALIBRATION (R344). -/
def execTdcCalibration (pass : Bool) (r : CalResult) (t : Nat) (s : State) : Host.Outcome State Fault Refusal :=
  .next (Sys2Proof.Machine.tdcCalibration pass r t s)

/-- TRIG_OUT_PULSE_END (R227). -/
def execTrigOutPulseEnd (line fc : Nat) (s : State) : Host.Outcome State Fault Refusal :=
  .next (Sys2Proof.Machine.trigOutPulseEnd line fc s)

/-- LINK_L1_EXIT (R540). -/
def execLinkL1Exit (s : State) : Host.Outcome State Fault Refusal :=
  .next (Sys2Proof.Machine.linkL1Exit s)

/-- LINK_L1_ENTRY (R540). -/
def execLinkL1Entry (s : State) : Host.Outcome State Fault Refusal :=
  .next (Sys2Proof.Machine.linkL1Entry s)

/-- SUPPLY_OUT_OF_RANGE (R569). -/
def execSupplyOutOfRange (sup : Nat) (s : State) : Host.Outcome State Fault Refusal :=
  .next (Sys2Proof.Machine.supplyOutOfRange sup s)

/-- BOUNDARY_SCAN_INSTRUCTION (R584). -/
def execBoundaryScanInstruction (drives : Bool) (s : State) : Host.Outcome State Fault Refusal :=
  .next (boundaryScan drives s)

end Sys2Proof.Machine
end

