-- ==== Sys2Proof/Machine/RowsHost.lean ====
section
/-! DEFINITION. The rows of the host's direct accesses (16, 17), of Couriers and archive (16), and of function and link resets. -/
namespace Sys2Proof.Machine

/-- REGISTER_WRITE (R9). -/
def execRegisterWrite (fn off size : Nat) (v : BitVec 64) (t : Nat) (s : State) : Host.Outcome State Fault Refusal :=
  .next (Sys2Proof.Machine.registerWrite fn off size v t s)

/-- DOORBELL_LOST_CLEAR (R460). -/
def execDoorbellLostClear (fn : Nat) (v : Word) (again : Bool) (s : State) : Host.Outcome State Fault Refusal :=
  .next (Sys2Proof.Machine.doorbellLostClear fn v again s)

/-- ALERT_STATUS_CLEAR (R461). -/
def execAlertStatusClear (fn : Nat) (v set : Word) (s : State) : Host.Outcome State Fault Refusal :=
  .next (Sys2Proof.Machine.alertStatusClear fn v set s)

/-- EVENT_CONSUMED_WRITE (R488). -/
def execEventConsumedWrite (fn : Nat) (v : Word) (t : Nat) (s : State) : Host.Outcome State Fault Refusal :=
  .next (eventConsumed fn v t s)

/-- REFUSALS_READ (R463). -/
def execRefusalsRead (fn same : Nat) (s : State) : Host.Outcome State Fault Refusal :=
  .next (Sys2Proof.Machine.refusalsRead fn same s)

/-- DOORBELL_TAIL (R424). -/
def execDoorbellTail (fn q : Nat) (v : Word) (s : State) : Host.Outcome State Fault Refusal :=
  .next (doorbell fn q v false s)

/-- DOORBELL_ACK (R435). -/
def execDoorbellAck (fn q : Nat) (v : Word) (s : State) : Host.Outcome State Fault Refusal :=
  .next (doorbell fn q v true s)

/-- BAR4_READ (R277 to R279): no address beyond 64 GiB exists. -/
def execBar4Read (fn off len : Nat) (bad : List BadWord) (rows : List (Nat × Nat)) (t : Nat) (s : State) : Host.Outcome State Fault Refusal :=
  if 2 ^ 36 < off + len then .fault .noSuchAddress else .next (Sys2Proof.Machine.bar4Read fn off len bad rows t s)

/-- THROTTLE_END (R414). -/
def execThrottleEnd (stack requester : Nat) (s : State) : Host.Outcome State Fault Refusal :=
  .next (Sys2Proof.Machine.throttleEnd stack requester s)

/-- REFRESH_WINDOW (R413). -/
def execRefreshWindow (stack : Nat) (s : State) : Host.Outcome State Fault Refusal :=
  .next (Sys2Proof.Machine.refreshWindow stack s)

/-- DESCRIPTOR_FETCH (R427). -/
def execDescriptorFetch (q : Nat) (d : HostRead) (s : State) : Host.Outcome State Fault Refusal :=
  .next (Sys2Proof.Machine.descriptorFetch q d s)

/-- BUFFER_HAND_BACK (R431). -/
def execBufferHandBack (q : Nat) (rows : List (Nat × Nat)) (bad : List BadWord) (s : State) : Host.Outcome State Fault Refusal :=
  .next (handBack q rows bad false s)

/-- FLUSH_TIMEOUT (R428). -/
def execFlushTimeout (q : Nat) (s : State) : Host.Outcome State Fault Refusal :=
  .next (handBack q [] [] true s)

/-- IRQ_HOLDOFF_EXPIRY (R432). -/
def execIrqHoldoffExpiry (q : Nat) (s : State) : Host.Outcome State Fault Refusal :=
  .next (irqHoldoff q s)

/-- LOAD_READ_COMPLETION (R437). -/
def execLoadReadCompletion (q : Nat) (d : HostRead) (s : State) : Host.Outcome State Fault Refusal :=
  .next (Sys2Proof.Machine.loadReadCompletion q d s)

/-- DRAIN_TIMEOUT (R436). -/
def execDrainTimeout (domain : Nat) (s : State) : Host.Outcome State Fault Refusal :=
  .next (Sys2Proof.Machine.drainTimeout domain s)

/-- CHUNK_WRITE (R446). -/
def execChunkWrite (rows : List (Nat × Nat)) (bad : List BadWord) (s : State) : Host.Outcome State Fault Refusal :=
  .next (writeChunk rows bad false s)

/-- ARCHIVE_FLUSH_TIMEOUT (R446). -/
def execArchiveFlushTimeout (s : State) : Host.Outcome State Fault Refusal :=
  .next (writeChunk [] [] true s)

/-- WRITE_COMPLETION (R447). -/
def execWriteCompletion (drive chunk status : Nat) (s : State) : Host.Outcome State Fault Refusal :=
  .next (Sys2Proof.Machine.writeCompletion drive chunk status s)

/-- WRITE_TIMEOUT (R447). -/
def execWriteTimeout (drive chunk : Nat) (s : State) : Host.Outcome State Fault Refusal :=
  .next (Sys2Proof.Machine.writeTimeout drive chunk s)

/-- SMART_READ (R449). -/
def execSmartRead (drive warn pct spare temp units media : Nat) (s : State) : Host.Outcome State Fault Refusal :=
  .next (Sys2Proof.Machine.smartRead drive warn pct spare temp units media s)

/-- FUNCTION_LEVEL_RESET (R422). -/
def execFunctionLevelReset (fn t : Nat) (s : State) : Host.Outcome State Fault Refusal :=
  .next (Sys2Proof.Machine.functionLevelReset fn t s)

/-- HOT_RESET (R422). -/
def execHotReset (t : Nat) (s : State) : Host.Outcome State Fault Refusal :=
  .next (Sys2Proof.Machine.hotReset t s)

/-- LINK_RETRAINED (R450). -/
def execLinkRetrained (rate width : Nat) (s : State) : Host.Outcome State Fault Refusal :=
  .next (Sys2Proof.Machine.linkRetrained rate width s)

/-- PERST (R573). -/
def execPerst (asserted : Bool) (t : Nat) (s : State) : Host.Outcome State Fault Refusal :=
  .next (Sys2Proof.Machine.perst asserted t s)

end Sys2Proof.Machine
end

