-- ==== Sys2Proof/Machine/RowsMailbox.lean ====
section
/-! DEFINITION. The rows of the mailbox commands (R493): opcode, whether PF0 alone may issue it, and its body. -/
namespace Sys2Proof.Machine

/-- The request names a collection exhibit, and its handle is not ALL (R516, R519). -/
def collectionRequest (r : Req) (s : State) : Bool := s.view.isCollection (r.u 0 2)

/-- COMMIT (R479, R480, R519): this device's configuration, or a collection-wide commit. -/
def commitRow (r : Req) (s : State) : State :=
  if collectionRequest r s && !(r.u 2 1).testBit 1 then runWithheld 0x06 r s fun s => collCommitBody r s
  else runWith (commitRefused r) 0x06 false r s fun s => localCommitBody r s

/-- TRIGGER_ARM (R235, R519): ARM 0 of a collection exhibit stops it at once. -/
def triggerArmRow (r : Req) (s : State) : State :=
  if collectionRequest r s then
    if r.u 2 1 = 0 then runCommand 0x51 false r s fun s => collStopBody r s
    else runWithheld 0x51 r s fun s => do
      let _ ← triggerHandle s r
      ensure (r.u 2 1 ≤ 2) eRange 2
      collScheduleBody 0x51 (r.u 2 1) false r s
  else runCommand 0x51 false r s fun s => armBody r s

/-- TRIGGER_FORCE (R212, R235, R519). -/
def triggerForceRow (r : Req) (s : State) : State :=
  if collectionRequest r s then
    runWithheld 0x52 r s fun s => do
      let _ ← triggerHandle s r
      ensure (r.u 2 1 ≤ 1) eReserved 2
      collScheduleBody 0x52 3 (r.u 2 1 == 1) r s
  else runCommand 0x52 false r s fun s => forceBody r s

/-- DEVICE_INFO (R494). -/
def execDeviceInfo (r : Req) (s : State) : Host.Outcome State Fault Refusal :=
  .next (runCommand 0x01 false r s fun s => deviceInfoBody r s)

/-- EVENT_RING_SET (R486). -/
def execEventRingSet (r : Req) (s : State) : Host.Outcome State Fault Refusal :=
  .next (runCommand 0x02 false r s fun s => eventRingSetBody r s)

/-- BLOCK_STAGE (R476). -/
def execBlockStage (r : Req) (s : State) : Host.Outcome State Fault Refusal :=
  .next (runCommand 0x03 false r s fun s => blockStageBody r s)

/-- BLOCK_READ (R478). -/
def execBlockRead (r : Req) (s : State) : Host.Outcome State Fault Refusal :=
  .next (runCommand 0x04 false r s fun s => blockReadBody r s)

/-- STAGE_DISCARD (R478). -/
def execStageDiscard (r : Req) (s : State) : Host.Outcome State Fault Refusal :=
  .next (runCommand 0x05 false r s fun s => stageDiscardBody r s)

/-- COMMIT (R480). -/
def execCommit (r : Req) (s : State) : Host.Outcome State Fault Refusal :=
  .next (commitRow r s)

/-- COMMIT_CANCEL (R482). -/
def execCommitCancel (r : Req) (s : State) : Host.Outcome State Fault Refusal :=
  .next (runCommand 0x07 false r s fun s => commitCancelBody r s)

/-- EXHIBIT_DEFINE (R484). -/
def execExhibitDefine (r : Req) (s : State) : Host.Outcome State Fault Refusal :=
  .next (runCommand 0x10 false r s fun s => exhibitDefineBody r s)

/-- EXHIBIT_DELETE (R484). -/
def execExhibitDelete (r : Req) (s : State) : Host.Outcome State Fault Refusal :=
  .next (runCommand 0x11 false r s fun s => exhibitDeleteBody r s)

/-- EXHIBIT_QUERY (R485). -/
def execExhibitQuery (r : Req) (s : State) : Host.Outcome State Fault Refusal :=
  .next (runCommand 0x12 false r s fun s => exhibitQueryBody r s)

/-- EXHIBIT_ASSIGN (R485). -/
def execExhibitAssign (r : Req) (s : State) : Host.Outcome State Fault Refusal :=
  .next (runCommand 0x13 true r s fun s => exhibitAssignBody r s)

/-- CADENCE_STATUS (R74). -/
def execCadenceStatus (r : Req) (s : State) : Host.Outcome State Fault Refusal :=
  .next (runCommand 0x20 false r s fun s => cadenceStatusBody r s)

/-- CLOCK_SYNC_ARM (R68). -/
def execClockSyncArm (r : Req) (s : State) : Host.Outcome State Fault Refusal :=
  .next (runCommand 0x21 true r s fun s => clockSyncArmBody r s)

/-- WING_STATUS (R100). -/
def execWingStatus (r : Req) (s : State) : Host.Outcome State Fault Refusal :=
  .next (runCommand 0x28 false r s fun s => wingStatusBody r s)

/-- MOUNT_STATUS (R118). -/
def execMountStatus (r : Req) (s : State) : Host.Outcome State Fault Refusal :=
  .next (runCommand 0x30 false r s fun s => mountStatusBody r s)

/-- MOUNT_READ (R118). -/
def execMountRead (r : Req) (s : State) : Host.Outcome State Fault Refusal :=
  .next (runCommand 0x31 false r s fun s => mountReadBody r s)

/-- MOUNT_RELEASE (R111). -/
def execMountRelease (r : Req) (s : State) : Host.Outcome State Fault Refusal :=
  .next (runCommand 0x32 true r s fun s => mountReleaseBody r s)

/-- DECIMATION_STATUS (R144). -/
def execDecimationStatus (r : Req) (s : State) : Host.Outcome State Fault Refusal :=
  .next (runCommand 0x38 false r s fun s => decimationStatusBody r s)

/-- WINDOW_LOAD (R151). -/
def execWindowLoad (r : Req) (s : State) : Host.Outcome State Fault Refusal :=
  .next (runCommand 0x40 false r s fun s => windowLoadBody r s)

/-- SPECTRUM_STATUS (R173). -/
def execSpectrumStatus (r : Req) (s : State) : Host.Outcome State Fault Refusal :=
  .next (runCommand 0x41 false r s fun s => spectrumStatusBody r s)

/-- SWARD_SNAPSHOT (R194). -/
def execSwardSnapshot (r : Req) (s : State) : Host.Outcome State Fault Refusal :=
  .next (runCommand 0x48 false r s fun s => swardSnapshotBody r s)

/-- MASK_LOAD (R206). -/
def execMaskLoad (r : Req) (s : State) : Host.Outcome State Fault Refusal :=
  .next (runCommand 0x50 false r s fun s => maskLoadBody r s)

/-- TRIGGER_ARM (R235). -/
def execTriggerArm (r : Req) (s : State) : Host.Outcome State Fault Refusal :=
  .next (triggerArmRow r s)

/-- TRIGGER_FORCE (R212). -/
def execTriggerForce (r : Req) (s : State) : Host.Outcome State Fault Refusal :=
  .next (triggerForceRow r s)

/-- TRIGGER_STATUS (R236). -/
def execTriggerStatus (r : Req) (s : State) : Host.Outcome State Fault Refusal :=
  .next (runCommand 0x53 false r s fun s => triggerStatusBody r s)

/-- ATTENDANT_LOAD (R250). -/
def execAttendantLoad (r : Req) (s : State) : Host.Outcome State Fault Refusal :=
  .next (runCommand 0x58 false r s fun s => attendantLoadBody r s)

/-- ATTENDANT_STATUS (R254). -/
def execAttendantStatus (r : Req) (s : State) : Host.Outcome State Fault Refusal :=
  .next (runCommand 0x59 false r s fun s => attendantStatusBody r s)

/-- STORE_STATUS (R288). -/
def execStoreStatus (r : Req) (s : State) : Host.Outcome State Fault Refusal :=
  .next (runCommand 0x60 false r s fun s => storeStatusBody r s)

/-- STORE_RELEASE (R276). -/
def execStoreRelease (r : Req) (s : State) : Host.Outcome State Fault Refusal :=
  .next (runCommand 0x61 false r s fun s => storeReleaseBody r s)

/-- STORE_LOAD (R285). -/
def execStoreLoad (r : Req) (s : State) : Host.Outcome State Fault Refusal :=
  .next (runCommand 0x62 true r s fun s => storeLoadBody r s)

/-- CONSERVATOR_LOAD (R320). -/
def execConservatorLoad (r : Req) (s : State) : Host.Outcome State Fault Refusal :=
  .next (runCommand 0x68 false r s fun s => conservatorLoadBody r s)

/-- CONSERVATOR_PARAM (R322). -/
def execConservatorParam (r : Req) (s : State) : Host.Outcome State Fault Refusal :=
  .next (runCommand 0x69 false r s fun s => conservatorParamBody r s)

/-- CONSERVATOR_READ (R327). -/
def execConservatorRead (r : Req) (s : State) : Host.Outcome State Fault Refusal :=
  .next (runCommand 0x6A false r s fun s => conservatorReadBody r s)

/-- CONSERVATOR_STATUS (R328). -/
def execConservatorStatus (r : Req) (s : State) : Host.Outcome State Fault Refusal :=
  .next (runCommand 0x6B false r s fun s => conservatorStatusBody r s)

/-- COMPARATOR_CLEAR (R336). -/
def execComparatorClear (r : Req) (s : State) : Host.Outcome State Fault Refusal :=
  .next (runCommand 0x70 true r s fun s => comparatorClearBody r s)

/-- COMPARATOR_STATUS (R355). -/
def execComparatorStatus (r : Req) (s : State) : Host.Outcome State Fault Refusal :=
  .next (runCommand 0x71 false r s fun s => comparatorStatusBody r s)

/-- STIMULUS_STATUS (R377). -/
def execStimulusStatus (r : Req) (s : State) : Host.Outcome State Fault Refusal :=
  .next (runCommand 0x78 false r s fun s => stimulusStatusBody r s)

/-- LEVEL_STATUS (R377). -/
def execLevelStatus (r : Req) (s : State) : Host.Outcome State Fault Refusal :=
  .next (runCommand 0x79 false r s fun s => levelStatusBody r s)

/-- HK_INJECT (R382). -/
def execHkInject (r : Req) (s : State) : Host.Outcome State Fault Refusal :=
  .next (runCommand 0x80 true r s fun s => hkInjectBody r s)

/-- CAL_START (R389). -/
def execCalStart (r : Req) (s : State) : Host.Outcome State Fault Refusal :=
  .next (runWith calStartRefused 0x81 true r s fun s => calStartBody r s)

/-- CAL_STATUS (R393). -/
def execCalStatus (r : Req) (s : State) : Host.Outcome State Fault Refusal :=
  .next (runCommand 0x82 false r s fun s => calStatusBody r s)

/-- MEMORY_STATUS (R417). -/
def execMemoryStatus (r : Req) (s : State) : Host.Outcome State Fault Refusal :=
  .next (runCommand 0x88 false r s fun s => memoryStatusBody r s)

/-- COURIER_ASSIGN (R421). -/
def execCourierAssign (r : Req) (s : State) : Host.Outcome State Fault Refusal :=
  .next (runCommand 0x90 true r s fun s => courierAssignBody r s)

/-- COURIER_RESUME (R438). -/
def execCourierResume (r : Req) (s : State) : Host.Outcome State Fault Refusal :=
  .next (runCommand 0x91 false r s fun s => courierResumeBody r s)

/-- COURIER_STATUS (R453). -/
def execCourierStatus (r : Req) (s : State) : Host.Outcome State Fault Refusal :=
  .next (runCommand 0x92 false r s fun s => courierStatusBody r s)

/-- ARCHIVE_STATUS (R455). -/
def execArchiveStatus (r : Req) (s : State) : Host.Outcome State Fault Refusal :=
  .next (runCommand 0x93 true r s fun s => archiveStatusBody r s)

/-- COLLECTION_FORM (R512). -/
def execCollectionForm (r : Req) (s : State) : Host.Outcome State Fault Refusal :=
  .next (runCommand 0xA0 true r s fun s => collectionFormBody r s)

/-- COLLECTION_DISSOLVE (R515). -/
def execCollectionDissolve (r : Req) (s : State) : Host.Outcome State Fault Refusal :=
  .next (runCommand 0xA1 true r s fun s => collectionDissolveBody r s)

/-- COLLECTION_STATUS (R521). -/
def execCollectionStatus (r : Req) (s : State) : Host.Outcome State Fault Refusal :=
  .next (runCommand 0xA2 false r s fun s => collectionStatusBody r s)

/-- POWER_STATUS (R545). -/
def execPowerStatus (r : Req) (s : State) : Host.Outcome State Fault Refusal :=
  .next (runCommand 0xA8 false r s fun s => powerStatusBody r s)

/-- FALLOW_ENTER (R538). -/
def execFallowEnter (r : Req) (s : State) : Host.Outcome State Fault Refusal :=
  .next (runThen 0xA9 true r s (fun s => fallowEnterBody r s) (fallowBegin r))

/-- HEALTH_LOG_READ (R567). -/
def execHealthLogRead (r : Req) (s : State) : Host.Outcome State Fault Refusal :=
  .next (runCommand 0xB0 false r s fun s => healthLogReadBody r s)

/-- FW_STAGE (R495). -/
def execFwStage (r : Req) (s : State) : Host.Outcome State Fault Refusal :=
  .next (runCommand 0xC0 true r s fun s => fwStageBody r s)

/-- FW_VERIFY (R495). -/
def execFwVerify (r : Req) (s : State) : Host.Outcome State Fault Refusal :=
  .next (runWith fwVerifyFailed 0xC1 true r s fun s => fwVerifyBody r s)

/-- FW_ACTIVATE (R496). -/
def execFwActivate (r : Req) (s : State) : Host.Outcome State Fault Refusal :=
  .next (runThen 0xC2 true r s (fun s => fwActivateBody r s) (activationBegins r))

/-- FW_STATUS (R495). -/
def execFwStatus (r : Req) (s : State) : Host.Outcome State Fault Refusal :=
  .next (runCommand 0xC3 false r s fun s => fwStatusBody r s)

end Sys2Proof.Machine
end

