-- ==== Sys2Proof/Machine/RowsTime.lean ====
section
/-! DEFINITION. The rows of the cadence, of scheduled actions and of the analysis (02, 05 to 08). -/
namespace Sys2Proof.Machine

/-- MARK_MISSING (R55) at the start of slot 0 of a turn. -/
def markMissingAt (turn : Nat) (s : State) : State :=
  markMissing (if s.cad.anchored then s.tick (sampleOf s.cad ⟨turn, 0, 0⟩) else s)

/-- CAD_MARK (R55). -/
def execCadMark (pos : CT) (s : State) : Host.Outcome State Fault Refusal :=
  .next (Sys2Proof.Machine.cadMark pos s)

/-- MARK_MISSING (R55). -/
def execMarkMissing (turn : Nat) (s : State) : Host.Outcome State Fault Refusal :=
  .next (markMissingAt turn s)

/-- REF_LOST (R57). -/
def execRefLost (t : Nat) (s : State) : Host.Outcome State Fault Refusal :=
  .next (Sys2Proof.Machine.refLost t s)

/-- REF_RETURNED (R59). -/
def execRefReturned (t : Nat) (phase : Int) (s : State) : Host.Outcome State Fault Refusal :=
  .next (Sys2Proof.Machine.refReturned t phase s)

/-- SLEW_END (R60). -/
def execSlewEnd (t : Nat) (s : State) : Host.Outcome State Fault Refusal :=
  .next (Sys2Proof.Machine.slewEnd t s)

/-- ANCHOR (R43). -/
def execAnchor (s : State) : Host.Outcome State Fault Refusal :=
  .next (anchorNow s)

/-- LOCK_WINDOW_END (R69). -/
def execLockWindowEnd (pll diff t : Nat) (s : State) : Host.Outcome State Fault Refusal :=
  .next (Sys2Proof.Machine.lockWindowEnd pll diff t s)

/-- PLL_UNLOCK (R70). -/
def execPllUnlock (pll t : Nat) (s : State) : Host.Outcome State Fault Refusal :=
  .next (Sys2Proof.Machine.pllUnlock pll t s)

/-- ANALYSIS_RESUME (R70). -/
def execAnalysisResume (t : Nat) (s : State) : Host.Outcome State Fault Refusal :=
  .next (Sys2Proof.Machine.analysisResume t s)

/-- SYNC_IN (R68). -/
def execSyncIn (t : Nat) (s : State) : Host.Outcome State Fault Refusal :=
  .next (Sys2Proof.Machine.syncIn t s)

/-- SYNC_ALIGN (R68). -/
def execSyncAlign (t : Nat) (s : State) : Host.Outcome State Fault Refusal :=
  .next (Sys2Proof.Machine.syncAlign t s)

/-- COMMIT_EFFECT (R481). -/
def execCommitEffect (id : Nat) (s : State) : Host.Outcome State Fault Refusal :=
  .next (Sys2Proof.Machine.commitEffect id s)

/-- LATCH_CLEAR_ACTION (R336). -/
def execLatchClearAction (id : Nat) (s : State) : Host.Outcome State Fault Refusal :=
  .next (actionEffect (fun a => a.kind == 1) id s)

/-- SWARD_SNAPSHOT_ACTION (R180). -/
def execSwardSnapshotAction (id : Nat) (s : State) : Host.Outcome State Fault Refusal :=
  .next (actionEffect (fun a => a.kind == 5) id s)

/-- ARM_ACTION (R235). -/
def execArmAction (id : Nat) (s : State) : Host.Outcome State Fault Refusal :=
  .next (actionEffect (fun a => match a with | .arm _ => true | _ => false) id s)

/-- FORCE_ACTION (R212). -/
def execForceAction (id : Nat) (s : State) : Host.Outcome State Fault Refusal :=
  .next (actionEffect (fun a => a == .force) id s)

/-- SCHEDULE_CONDITION_TIME (R211). -/
def execScheduleConditionTime (h cond : Nat) (pos : CT) (s : State) : Host.Outcome State Fault Refusal :=
  .next (Sys2Proof.Machine.scheduleConditionTime h cond pos s)

/-- PENDING_FADE_START (R138). -/
def execPendingFadeStart (h n : Nat) (s : State) : Host.Outcome State Fault Refusal :=
  .next (Sys2Proof.Machine.pendingFadeStart h n s)

/-- FFT_FRAME (R147). -/
def execFftFrame (h j first : Nat) (codes : List Conv) (s : State) : Host.Outcome State Fault Refusal :=
  .next (Sys2Proof.Machine.fftFrame h j first codes s)

/-- TRIGGER_EVALUATE (R216). -/
def execTriggerEvaluate (h i : Nat) (vs : List CondIn) (quality : Nat) (s : State) : Host.Outcome State Fault Refusal :=
  .next (Sys2Proof.Machine.triggerEvaluate h i vs quality s)

/-- HOLDOFF_END (R220). -/
def execHoldoffEnd (h i : Nat) (s : State) : Host.Outcome State Fault Refusal :=
  .next (Sys2Proof.Machine.holdoffEnd h i s)

end Sys2Proof.Machine
end

