-- ==== Sys2Proof/Machine/RowsUnits.lean ====
section
/-! DEFINITION. The rows of outputs, wings, mounts, comparators, TDC, housekeeping, stacks and Stores (03, 04, 10, 12 to 15). -/
namespace Sys2Proof.Machine

/-- STIMULUS_TAKE (R364). -/
def execStimulusTake (dac i : Nat) (s : State) : Host.Outcome State Fault Refusal :=
  .next (Sys2Proof.Machine.stimulusTake dac i s)

/-- PLAYBACK_DONE (R363). -/
def execPlaybackDone (dac t : Nat) (s : State) : Host.Outcome State Fault Refusal :=
  .next (Sys2Proof.Machine.playbackDone dac t s)

/-- LEVEL_TICK (R370). -/
def execLevelTick (dac n : Nat) (s : State) : Host.Outcome State Fault Refusal :=
  .next (Sys2Proof.Machine.levelTick dac n s)

/-- GLEAN_STEP (R82). -/
def execGleanStep (ch s : Nat) (m : Meas) (temp : Int) (s0 : State) : Host.Outcome State Fault Refusal :=
  .next (Sys2Proof.Machine.gleanStep ch s m temp s0)

/-- LIVENESS_FAIL (R90). -/
def execLivenessFail (ch slice t : Nat) (s : State) : Host.Outcome State Fault Refusal :=
  .next (Sys2Proof.Machine.livenessFail ch slice t s)

/-- ROTATION_BOUNDARY (R86). -/
def execRotationBoundary (ch t : Nat) (s : State) : Host.Outcome State Fault Refusal :=
  .next (Sys2Proof.Machine.rotationBoundary ch t s)

/-- DRIFT_CHECK (R92). -/
def execDriftCheck (ch t : Nat) (temp : Int) (s : State) : Host.Outcome State Fault Refusal :=
  .next (Sys2Proof.Machine.driftCheck ch t temp s)

/-- MOUNT_PRESENCE (R102). -/
def execMountPresence (pos : Nat) (present : Bool) (t : Nat) (s : State) : Host.Outcome State Fault Refusal :=
  .next (Sys2Proof.Machine.mountPresence pos present t s)

/-- MOUNT_READ_DONE (R110). -/
def execMountReadDone (pos : Nat) (tries : List MountTry) (t : Nat) (s : State) : Host.Outcome State Fault Refusal :=
  .next (Sys2Proof.Machine.mountReadDone pos tries t s)

/-- MOUNT_CORRECTION_APPLY (R110). -/
def execMountCorrectionApply (pos t : Nat) (s : State) : Host.Outcome State Fault Refusal :=
  .next (Sys2Proof.Machine.mountCorrectionApply pos t s)

/-- OVERDRIVE (R112). -/
def execOverdrive (ch : Nat) (level : InputLevel) (t : Nat) (s : State) : Host.Outcome State Fault Refusal :=
  .next (Sys2Proof.Machine.overdrive ch level.mv level.clocks t s)

/-- WRITE_BACK (R113). -/
def execWriteBack (pos : Nat) (tries : List MountTry) (t : Nat) (s : State) : Host.Outcome State Fault Refusal :=
  .next (Sys2Proof.Machine.writeBack pos tries t s)

/-- CROSSING (R332). -/
def execCrossing (num : Nat) (high : Bool) (t : Nat) (stamped : Option Int) (s : State) : Host.Outcome State Fault Refusal :=
  .next (Sys2Proof.Machine.crossing num high t stamped s)

/-- ARMING_END (R335). -/
def execArmingEnd (num t : Nat) (s : State) : Host.Outcome State Fault Refusal :=
  .next (Sys2Proof.Machine.armingEnd num t s)

/-- LATCH_CLEAR_BOUNDARY (R336). -/
def execLatchClearBoundary (num : Nat) (pos : CT) (s : State) : Host.Outcome State Fault Refusal :=
  .next (Sys2Proof.Machine.latchClearBoundary num pos s)

/-- CROSSINGS_PERIOD_END (R339). -/
def execCrossingsPeriodEnd (h stream : Nat) (pos : CT) (s : State) : Host.Outcome State Fault Refusal :=
  .next (Sys2Proof.Machine.crossingsPeriodEnd h stream pos s)

/-- TDC_EDGE (R343). -/
def execTdcEdge (src : Nat) (rising : Bool) (ps : Nat) (e : Int) (s : State) : Host.Outcome State Fault Refusal :=
  .next (Sys2Proof.Machine.tdcEdge src rising ps e s)

/-- PAIR (R347). -/
def execPair (unit src : Nat) (rising : Bool) (stamp : Int) (s : State) : Host.Outcome State Fault Refusal :=
  .next (pairStamp unit src rising stamp s)

/-- ORDER_WINDOW_EXPIRY (R347). -/
def execOrderWindowExpiry (unit : Nat) (s : State) : Host.Outcome State Fault Refusal :=
  .next (Sys2Proof.Machine.orderWindowExpiry unit s)

/-- STAMP_FLUSH (R345). -/
def execStampFlush (h stream : Nat) (unit : Option Nat) (pos : CT) (s : State) : Host.Outcome State Fault Refusal :=
  .next (Sys2Proof.Machine.stampFlush h stream unit pos s)

/-- CONVERSION_END (R382). -/
def execConversionEnd (conv t : Nat) (code : Int) (s : State) : Host.Outcome State Fault Refusal :=
  .next (Sys2Proof.Machine.conversionEnd conv t code s)

/-- CAL_WINDOW_START (R383). -/
def execCalWindowStart (t : Nat) (s : State) : Host.Outcome State Fault Refusal :=
  .next (Sys2Proof.Machine.calWindowStart t s)

/-- CAL_WINDOW_END (R388). -/
def execCalWindowEnd (t : Nat) (r : CalReading) (s : State) : Host.Outcome State Fault Refusal :=
  .next (Sys2Proof.Machine.calWindowEnd t r s)

/-- SCRUB_READ (R404). -/
def execScrubRead (stack pc : Nat) (burst : Burst) (holds : Option (Nat × Nat)) (s : State) : Host.Outcome State Fault Refusal :=
  .next (Sys2Proof.Machine.scrubRead stack pc burst.beats holds burst.rows s)

/-- RETRAIN_START (R407). -/
def execRetrainStart (stack pc : Nat) (temp : Int) (s : State) : Host.Outcome State Fault Refusal :=
  .next (Sys2Proof.Machine.retrainStart stack pc temp s)

/-- RETRAIN_DONE (R407). -/
def execRetrainDone (stack pc : Nat) (runs : List LaneRun) (s : State) : Host.Outcome State Fault Refusal :=
  .next (Sys2Proof.Machine.retrainDone stack pc runs s)

/-- REBUILD_DONE (R408). -/
def execRebuildDone (stack pc : Nat) (s : State) : Host.Outcome State Fault Refusal :=
  .next (Sys2Proof.Machine.rebuildDone stack pc s)

/-- RELOCATION_DONE (R411). -/
def execRelocationDone (stack : Nat) (s : State) : Host.Outcome State Fault Refusal :=
  .next (Sys2Proof.Machine.relocationDone stack s)

/-- RECORD_WRITE (R264, R413). -/
def execRecordWrite (put : Handover) (s : State) : Host.Outcome State Fault Refusal :=
  .next (Sys2Proof.Machine.recordWrite put.src (Sys2Proof.Machine.activateAll Sys2Proof.Machine.reqOwn put.rows s))

/-- CAPTURE_ARRIVAL (R269). -/
def execCaptureArrival (store tr acc : Nat) (s : State) : Host.Outcome State Fault Refusal :=
  .next (Sys2Proof.Machine.captureArrival store tr acc s)

end Sys2Proof.Machine
end

