-- ==== Sys2Proof/Machine/Dispatch.lean ====
section
/-! DEFINITION. What each command or event does to everything but the queue: one arm per row of the table. -/
namespace Sys2Proof.Machine

def exec (i : Instr) (s : State) : Host.Outcome State Fault Refusal :=
  match i with
  | .deviceInfo r => Sys2Proof.Machine.execDeviceInfo r s
  | .eventRingSet r => Sys2Proof.Machine.execEventRingSet r s
  | .blockStage r => Sys2Proof.Machine.execBlockStage r s
  | .blockRead r => Sys2Proof.Machine.execBlockRead r s
  | .stageDiscard r => Sys2Proof.Machine.execStageDiscard r s
  | .commit r => Sys2Proof.Machine.execCommit r s
  | .commitCancel r => Sys2Proof.Machine.execCommitCancel r s
  | .exhibitDefine r => Sys2Proof.Machine.execExhibitDefine r s
  | .exhibitDelete r => Sys2Proof.Machine.execExhibitDelete r s
  | .exhibitQuery r => Sys2Proof.Machine.execExhibitQuery r s
  | .exhibitAssign r => Sys2Proof.Machine.execExhibitAssign r s
  | .cadenceStatus r => Sys2Proof.Machine.execCadenceStatus r s
  | .clockSyncArm r => Sys2Proof.Machine.execClockSyncArm r s
  | .wingStatus r => Sys2Proof.Machine.execWingStatus r s
  | .mountStatus r => Sys2Proof.Machine.execMountStatus r s
  | .mountRead r => Sys2Proof.Machine.execMountRead r s
  | .mountRelease r => Sys2Proof.Machine.execMountRelease r s
  | .decimationStatus r => Sys2Proof.Machine.execDecimationStatus r s
  | .windowLoad r => Sys2Proof.Machine.execWindowLoad r s
  | .spectrumStatus r => Sys2Proof.Machine.execSpectrumStatus r s
  | .swardSnapshot r => Sys2Proof.Machine.execSwardSnapshot r s
  | .maskLoad r => Sys2Proof.Machine.execMaskLoad r s
  | .triggerArm r => Sys2Proof.Machine.execTriggerArm r s
  | .triggerForce r => Sys2Proof.Machine.execTriggerForce r s
  | .triggerStatus r => Sys2Proof.Machine.execTriggerStatus r s
  | .attendantLoad r => Sys2Proof.Machine.execAttendantLoad r s
  | .attendantStatus r => Sys2Proof.Machine.execAttendantStatus r s
  | .storeStatus r => Sys2Proof.Machine.execStoreStatus r s
  | .storeRelease r => Sys2Proof.Machine.execStoreRelease r s
  | .storeLoad r => Sys2Proof.Machine.execStoreLoad r s
  | .conservatorLoad r => Sys2Proof.Machine.execConservatorLoad r s
  | .conservatorParam r => Sys2Proof.Machine.execConservatorParam r s
  | .conservatorRead r => Sys2Proof.Machine.execConservatorRead r s
  | .conservatorStatus r => Sys2Proof.Machine.execConservatorStatus r s
  | .comparatorClear r => Sys2Proof.Machine.execComparatorClear r s
  | .comparatorStatus r => Sys2Proof.Machine.execComparatorStatus r s
  | .stimulusStatus r => Sys2Proof.Machine.execStimulusStatus r s
  | .levelStatus r => Sys2Proof.Machine.execLevelStatus r s
  | .hkInject r => Sys2Proof.Machine.execHkInject r s
  | .calStart r => Sys2Proof.Machine.execCalStart r s
  | .calStatus r => Sys2Proof.Machine.execCalStatus r s
  | .memoryStatus r => Sys2Proof.Machine.execMemoryStatus r s
  | .courierAssign r => Sys2Proof.Machine.execCourierAssign r s
  | .courierResume r => Sys2Proof.Machine.execCourierResume r s
  | .courierStatus r => Sys2Proof.Machine.execCourierStatus r s
  | .archiveStatus r => Sys2Proof.Machine.execArchiveStatus r s
  | .collectionForm r => Sys2Proof.Machine.execCollectionForm r s
  | .collectionDissolve r => Sys2Proof.Machine.execCollectionDissolve r s
  | .collectionStatus r => Sys2Proof.Machine.execCollectionStatus r s
  | .powerStatus r => Sys2Proof.Machine.execPowerStatus r s
  | .fallowEnter r => Sys2Proof.Machine.execFallowEnter r s
  | .healthLogRead r => Sys2Proof.Machine.execHealthLogRead r s
  | .fwStage r => Sys2Proof.Machine.execFwStage r s
  | .fwVerify r => Sys2Proof.Machine.execFwVerify r s
  | .fwActivate r => Sys2Proof.Machine.execFwActivate r s
  | .fwStatus r => Sys2Proof.Machine.execFwStatus r s
  | .registerWrite fn off size v t => Sys2Proof.Machine.execRegisterWrite fn off size v t s
  | .doorbellLostClear fn v again => Sys2Proof.Machine.execDoorbellLostClear fn v again s
  | .alertStatusClear fn v set => Sys2Proof.Machine.execAlertStatusClear fn v set s
  | .eventConsumedWrite fn v t => Sys2Proof.Machine.execEventConsumedWrite fn v t s
  | .refusalsRead fn same => Sys2Proof.Machine.execRefusalsRead fn same s
  | .doorbellTail fn q v => Sys2Proof.Machine.execDoorbellTail fn q v s
  | .doorbellAck fn q v => Sys2Proof.Machine.execDoorbellAck fn q v s
  | .bar4Read fn off len bad rows t => Sys2Proof.Machine.execBar4Read fn off len bad rows t s
  | .throttleEnd stack requester => Sys2Proof.Machine.execThrottleEnd stack requester s
  | .refreshWindow stack => Sys2Proof.Machine.execRefreshWindow stack s
  | .cadMark pos => Sys2Proof.Machine.execCadMark pos s
  | .markMissing turn => Sys2Proof.Machine.execMarkMissing turn s
  | .refLost t => Sys2Proof.Machine.execRefLost t s
  | .refReturned t phase => Sys2Proof.Machine.execRefReturned t phase s
  | .slewEnd t => Sys2Proof.Machine.execSlewEnd t s
  | .anchor => Sys2Proof.Machine.execAnchor s
  | .lockWindowEnd pll diff t => Sys2Proof.Machine.execLockWindowEnd pll diff t s
  | .pllUnlock pll t => Sys2Proof.Machine.execPllUnlock pll t s
  | .analysisResume t => Sys2Proof.Machine.execAnalysisResume t s
  | .syncIn t => Sys2Proof.Machine.execSyncIn t s
  | .syncAlign t => Sys2Proof.Machine.execSyncAlign t s
  | .commitEffect id => Sys2Proof.Machine.execCommitEffect id s
  | .latchClearAction id => Sys2Proof.Machine.execLatchClearAction id s
  | .swardSnapshotAction id => Sys2Proof.Machine.execSwardSnapshotAction id s
  | .armAction id => Sys2Proof.Machine.execArmAction id s
  | .forceAction id => Sys2Proof.Machine.execForceAction id s
  | .scheduleConditionTime h cond pos => Sys2Proof.Machine.execScheduleConditionTime h cond pos s
  | .pendingFadeStart h n => Sys2Proof.Machine.execPendingFadeStart h n s
  | .fftFrame h j first codes => Sys2Proof.Machine.execFftFrame h j first codes s
  | .triggerEvaluate h idx vs quality => Sys2Proof.Machine.execTriggerEvaluate h idx vs quality s
  | .holdoffEnd h idx => Sys2Proof.Machine.execHoldoffEnd h idx s
  | .attendantNop h => Sys2Proof.Machine.execAttendantNop h s
  | .attendantHalt h => Sys2Proof.Machine.execAttendantHalt h s
  | .attendantJmp h a => Sys2Proof.Machine.execAttendantJmp h a s
  | .jct h c a => Sys2Proof.Machine.execJct h c a s
  | .jcf h c a => Sys2Proof.Machine.execJcf h c a s
  | .jany h m a => Sys2Proof.Machine.execJany h m a s
  | .jall h m a => Sys2Proof.Machine.execJall h m a s
  | .jz h k a => Sys2Proof.Machine.execJz h k a s
  | .jnz h k a => Sys2Proof.Machine.execJnz h k a s
  | .jlt h k k2 a => Sys2Proof.Machine.execJlt h k k2 a s
  | .jto h a => Sys2Proof.Machine.execJto h a s
  | .jst h st a => Sys2Proof.Machine.execJst h st a s
  | .waitc h c mode tm te => Sys2Proof.Machine.execWaitc h c mode tm te s
  | .waitm h m mode tm te => Sys2Proof.Machine.execWaitm h m mode tm te s
  | .waitt h tm => Sys2Proof.Machine.execWaitt h tm s
  | .waitn h n => Sys2Proof.Machine.execWaitn h n s
  | .waitEnd h q => Sys2Proof.Machine.execWaitEnd h q s
  | .tset h tm n => Sys2Proof.Machine.execTset h tm n s
  | .tsetk h tm k => Sys2Proof.Machine.execTsetk h tm k s
  | .tclr h tm => Sys2Proof.Machine.execTclr h tm s
  | .ldk h k imm => Sys2Proof.Machine.execLdk h k imm s
  | .addk h k imm => Sys2Proof.Machine.execAddk h k imm s
  | .ldml h m imm => Sys2Proof.Machine.execLdml h m imm s
  | .ldmh h m imm => Sys2Proof.Machine.execLdmh h m imm s
  | .act h m => Sys2Proof.Machine.execAct h m s
  | .fire h c => Sys2Proof.Machine.execFire h c s
  | .nop c => Sys2Proof.Machine.execNop c s
  | .halt c => Sys2Proof.Machine.execHalt c s
  | .jmp c cond a => Sys2Proof.Machine.execJmp c cond a s
  | .call c cond a => Sys2Proof.Machine.execCall c cond a s
  | .ret c cond => Sys2Proof.Machine.execRet c cond s
  | .reti c => Sys2Proof.Machine.execReti c s
  | .loop c len count => Sys2Proof.Machine.execLoop c len count s
  | .loopd c len d => Sys2Proof.Machine.execLoopd c len d s
  | .ei c => Sys2Proof.Machine.execEi c s
  | .di c => Sys2Proof.Machine.execDi c s
  | .ld c d mem p step => Sys2Proof.Machine.execLd c d mem p step s
  | .st c d mem p step => Sys2Proof.Machine.execSt c d mem p step s
  | .ldi c d half imm => Sys2Proof.Machine.execLdi c d half imm s
  | .mov c dst src => Sys2Proof.Machine.execMov c dst src s
  | .ldpg c d w => Sys2Proof.Machine.execLdpg c d w s
  | .setr c reg imm => Sys2Proof.Machine.execSetr c reg imm s
  | .modp c p imm => Sys2Proof.Machine.execModp c p imm s
  | .addi c d imm => Sys2Proof.Machine.execAddi c d imm s
  | .logd c d sr op => Sys2Proof.Machine.execLogd c d sr op s
  | .mpy c m => Sys2Proof.Machine.execMpy c m s
  | .mac c m => Sys2Proof.Machine.execMac c m s
  | .msu c m => Sys2Proof.Machine.execMsu c m s
  | .cmpy c m => Sys2Proof.Machine.execCmpy c m s
  | .cmac c m => Sys2Proof.Machine.execCmac c m s
  | .cmsu c m => Sys2Proof.Machine.execCmsu c m s
  | .qmpy c m => Sys2Proof.Machine.execQmpy c m s
  | .qmac c m => Sys2Proof.Machine.execQmac c m s
  | .sta c f => Sys2Proof.Machine.execSta c f s
  | .csta c f => Sys2Proof.Machine.execCsta c f s
  | .adda c a b sub => Sys2Proof.Machine.execAdda c a b sub s
  | .addd c a d part sub => Sys2Proof.Machine.execAddd c a d part sub s
  | .sha c a n => Sys2Proof.Machine.execSha c a n s
  | .clra c mask => Sys2Proof.Machine.execClra c mask s
  | .cmpa c a b zero => Sys2Proof.Machine.execCmpa c a b zero s
  | .maxa c a b min => Sys2Proof.Machine.execMaxa c a b min s
  | .inp c d port => Sys2Proof.Machine.execInp c d port s
  | .inStallEnd c clocks => Sys2Proof.Machine.execInStallEnd c clocks s
  | .idx c d port => Sys2Proof.Machine.execIdx c d port s
  | .clrf c mask => Sys2Proof.Machine.execClrf c mask s
  | .recOpen c d => Sys2Proof.Machine.execRecOpen c d s
  | .recData c d => Sys2Proof.Machine.execRecData c d s
  | .recTime c d => Sys2Proof.Machine.execRecTime c d s
  | .close c d => Sys2Proof.Machine.execClose c d s
  | .creditStallEnd c clocks => Sys2Proof.Machine.execCreditStallEnd c clocks s
  | .outStim c d port => Sys2Proof.Machine.execOutStim c d port s
  | .stimStallEnd c clocks => Sys2Proof.Machine.execStimStallEnd c clocks s
  | .sig c d => Sys2Proof.Machine.execSig c d s
  | .interruptEntry c clocks => Sys2Proof.Machine.execInterruptEntry c clocks s
  | .elementArrival c port n first codes => Sys2Proof.Machine.execElementArrival c port n first codes s
  | .pageSwap c => Sys2Proof.Machine.execPageSwap c s
  | .stimulusTake dac idx => Sys2Proof.Machine.execStimulusTake dac idx s
  | .playbackDone dac t => Sys2Proof.Machine.execPlaybackDone dac t s
  | .levelTick dac n => Sys2Proof.Machine.execLevelTick dac n s
  | .gleanStep ch slot m temp => Sys2Proof.Machine.execGleanStep ch slot m temp s
  | .livenessFail ch slice t => Sys2Proof.Machine.execLivenessFail ch slice t s
  | .rotationBoundary ch t => Sys2Proof.Machine.execRotationBoundary ch t s
  | .driftCheck ch t temp => Sys2Proof.Machine.execDriftCheck ch t temp s
  | .mountPresence pos present t => Sys2Proof.Machine.execMountPresence pos present t s
  | .mountReadDone pos tries t => Sys2Proof.Machine.execMountReadDone pos tries t s
  | .mountCorrectionApply pos t => Sys2Proof.Machine.execMountCorrectionApply pos t s
  | .overdrive ch level t => Sys2Proof.Machine.execOverdrive ch level t s
  | .writeBack pos tries t => Sys2Proof.Machine.execWriteBack pos tries t s
  | .crossing num high t stamped => Sys2Proof.Machine.execCrossing num high t stamped s
  | .armingEnd num t => Sys2Proof.Machine.execArmingEnd num t s
  | .latchClearBoundary num pos => Sys2Proof.Machine.execLatchClearBoundary num pos s
  | .crossingsPeriodEnd h stream pos => Sys2Proof.Machine.execCrossingsPeriodEnd h stream pos s
  | .tdcEdge src rising ps e => Sys2Proof.Machine.execTdcEdge src rising ps e s
  | .pair unit src rising stamp => Sys2Proof.Machine.execPair unit src rising stamp s
  | .orderWindowExpiry unit => Sys2Proof.Machine.execOrderWindowExpiry unit s
  | .stampFlush h stream unit pos => Sys2Proof.Machine.execStampFlush h stream unit pos s
  | .conversionEnd conv t code => Sys2Proof.Machine.execConversionEnd conv t code s
  | .calWindowStart t => Sys2Proof.Machine.execCalWindowStart t s
  | .calWindowEnd t r => Sys2Proof.Machine.execCalWindowEnd t r s
  | .scrubRead stack pc burst holds => Sys2Proof.Machine.execScrubRead stack pc burst holds s
  | .retrainStart stack pc temp => Sys2Proof.Machine.execRetrainStart stack pc temp s
  | .retrainDone stack pc runs => Sys2Proof.Machine.execRetrainDone stack pc runs s
  | .rebuildDone stack pc => Sys2Proof.Machine.execRebuildDone stack pc s
  | .relocationDone stack => Sys2Proof.Machine.execRelocationDone stack s
  | .recordWrite put => Sys2Proof.Machine.execRecordWrite put s
  | .captureArrival store tr acc => Sys2Proof.Machine.execCaptureArrival store tr acc s
  | .descriptorFetch q d => Sys2Proof.Machine.execDescriptorFetch q d s
  | .bufferHandBack q rows bad => Sys2Proof.Machine.execBufferHandBack q rows bad s
  | .flushTimeout q => Sys2Proof.Machine.execFlushTimeout q s
  | .irqHoldoffExpiry q => Sys2Proof.Machine.execIrqHoldoffExpiry q s
  | .loadReadCompletion q d => Sys2Proof.Machine.execLoadReadCompletion q d s
  | .drainTimeout domain => Sys2Proof.Machine.execDrainTimeout domain s
  | .chunkWrite rows bad => Sys2Proof.Machine.execChunkWrite rows bad s
  | .archiveFlushTimeout => Sys2Proof.Machine.execArchiveFlushTimeout s
  | .writeCompletion drive chunk status => Sys2Proof.Machine.execWriteCompletion drive chunk status s
  | .writeTimeout drive chunk => Sys2Proof.Machine.execWriteTimeout drive chunk s
  | .smartRead drive warn pct spare temp units media => Sys2Proof.Machine.execSmartRead drive warn pct spare temp units media s
  | .functionLevelReset fn t => Sys2Proof.Machine.execFunctionLevelReset fn t s
  | .hotReset t => Sys2Proof.Machine.execHotReset t s
  | .linkRetrained rate width => Sys2Proof.Machine.execLinkRetrained rate width s
  | .perst asserted t => Sys2Proof.Machine.execPerst asserted t s
  | .triggerMessage w0 w1 v down ok => Sys2Proof.Machine.execTriggerMessage w0 w1 v down ok s
  | .messageTarget idx => Sys2Proof.Machine.execMessageTarget idx s
  | .messageSend cls v => Sys2Proof.Machine.execMessageSend cls v s
  | .prepare w0 w1 v t => Sys2Proof.Machine.execPrepare w0 w1 v t s
  | .accept w0 w1 v => Sys2Proof.Machine.execAccept w0 w1 v s
  | .refuse w0 w1 v => Sys2Proof.Machine.execRefuse w0 w1 v s
  | .go w0 w1 v => Sys2Proof.Machine.execGo w0 w1 v s
  | .abort w0 w1 v => Sys2Proof.Machine.execAbort w0 w1 v s
  | .voteTimeout id => Sys2Proof.Machine.execVoteTimeout id s
  | .tentativeTimeout id t => Sys2Proof.Machine.execTentativeTimeout id t s
  | .stop w0 w1 v => Sys2Proof.Machine.execStop w0 w1 v s
  | .returnMessage w0 w1 v => Sys2Proof.Machine.execReturnMessage w0 w1 v s
  | .probe slot a1 => Sys2Proof.Machine.execProbe slot a1 s
  | .echo w0 w1 hop slot a3 => Sys2Proof.Machine.execEcho w0 w1 hop slot a3 s
  | .align w0 w1 v => Sys2Proof.Machine.execAlign w0 w1 v s
  | .laneLock lane t => Sys2Proof.Machine.execLaneLock lane t s
  | .laneLoss lane lost t => Sys2Proof.Machine.execLaneLoss lane lost t s
  | .leaveStart op unit up => Sys2Proof.Machine.execLeaveStart op unit up s
  | .domainPowerDown d t => Sys2Proof.Machine.execDomainPowerDown d t s
  | .domainFault d t => Sys2Proof.Machine.execDomainFault d t s
  | .domainResume d up => Sys2Proof.Machine.execDomainResume d up s
  | .thermalTrip sensor temp t => Sys2Proof.Machine.execThermalTrip sensor temp t s
  | .galleryFailure p t => Sys2Proof.Machine.execGalleryFailure p t s
  | .warmupStart pos t => Sys2Proof.Machine.execWarmupStart pos t s
  | .migrationSwitch pos t => Sys2Proof.Machine.execMigrationSwitch pos t s
  | .lockstepMismatch t => Sys2Proof.Machine.execLockstepMismatch t s
  | .watchdogExpiry t => Sys2Proof.Machine.execWatchdogExpiry t s
  | .curatorRestartDone us damaged t => Sys2Proof.Machine.execCuratorRestartDone us damaged t s
  | .activationTimeout reason t => Sys2Proof.Machine.execActivationTimeout reason t s
  | .heartbeat t => Sys2Proof.Machine.execHeartbeat t s
  | .fallowWake retrain runs => Sys2Proof.Machine.execFallowWake retrain runs s
  | .suppliesGood b => Sys2Proof.Machine.execSuppliesGood b s
  | .coldReset straps strapPerst => Sys2Proof.Machine.execColdReset straps strapPerst s
  | .bootAttemptTimeout => Sys2Proof.Machine.execBootAttemptTimeout s
  | .uncorrectableWord place unit key t => Sys2Proof.Machine.execUncorrectableWord place unit key t s
  | .tdcCalibration pass r t => Sys2Proof.Machine.execTdcCalibration pass r t s
  | .trigOutPulseEnd line fc => Sys2Proof.Machine.execTrigOutPulseEnd line fc s
  | .linkL1Exit => Sys2Proof.Machine.execLinkL1Exit s
  | .linkL1Entry => Sys2Proof.Machine.execLinkL1Entry s
  | .supplyOutOfRange sup => Sys2Proof.Machine.execSupplyOutOfRange sup s
  | .boundaryScanInstruction drives => Sys2Proof.Machine.execBoundaryScanInstruction drives s

end Sys2Proof.Machine
end

