-- ==== Sys2Proof/Safety.lean ====
section
/-! DEFINITION. What claims are stated in: the canonical form of every memory, requests that Limupen takes as new,
answers, and the records and events that a step adds. -/
namespace Sys2Proof.Machine

/-! ### The canonical form of memory -/

/-- A mailbox: request area and MSI-X table. -/
def Mbox.wf (m : Mbox) : Bool := cellsWf (fun _ => 0#8) m.req && cellsWf msixDefault m.msix

/-- A window memory and its shadow copy (R151). -/
def WindowMem.wf (m : WindowMem) : Bool := cellsWf (fun _ => 0#18) m.cur && cellsWf (fun _ => 0#18) m.shadow

/-- A word memory and its shadow copy (R206, R250). -/
def WordMem.wf (d : Nat → BitVec 32) (m : WordMem) : Bool := cellsWf d m.cur && cellsWf d m.shadow

/-- Loaded words that a pending commit puts into effect. -/
def Pending.wf (p : Pending) : Bool :=
  p.progs.all (fun e => cellsWf haltWord e.2) && p.masks.all (fun e => cellsWf limitDefault e.2) &&
    p.wins.all fun e => cellsWf (fun _ => 0#18) e.2

/-- Program words of a trigger's configurations. -/
def Trig.wf (x : Trig) : Bool := cellsWf haltWord x.cfg.words && x.waiting.all fun c => cellsWf haltWord c.words

/-- Mask limits of a pipeline's configurations. -/
def Pipe.wf (p : Pipe) : Bool := cellsWf limitDefault p.cfg.lims && p.waiting.all fun c => cellsWf limitDefault c.lims

/-- Program, data, image and page memories of a core (R292, R321, R322). -/
def Core.wf (x : Core) : Bool :=
  cellsWf haltWord x.prog && [x.x, x.y, x.imgX, x.imgY, x.page, x.shadow].all (cellsWf word36) &&
    x.swaps.all fun w => cellsWf word36 w.page

/-- Every memory of the block is in the canonical form. -/
def Memory.wf (s : State) : Bool :=
  s.mbox.all (fun e => e.2.wf) && s.wram.all (fun e => e.2.wf) && s.mask.all (fun e => e.2.wf limitDefault) &&
    s.prog.all (fun e => e.2.wf haltWord) && s.cur.pending.all Pending.wf && s.trig.all (fun e => e.2.wf) &&
    s.pipe.all (fun e => e.2.wf) && s.store.all (fun e => cellsWf sampleDefault e.2.samples) &&
    s.core.all fun e => e.2.wf

/-! ### Requests and answers -/

/-- A request that Limupen takes as new in STATE 1: the next SEQ, a zero reserved field, and a parameter block of LENGTH
bytes, inline or in host memory that answers (R465 to R467). -/
abbrev Fresh (r : Req) (s : State) : Prop :=
  s.boot.st = 1 ∧ s.pow.fallow = 0 ∧ s.pow.entering = none ∧ r.seq = ((s.mb r.fn).lastSeq + 1) % 2 ^ 32 ∧
    r.rsv = 0 ∧ (r.paramAddr ≠ 0 ∨ r.len ≤ 2016) ∧ r.len ≤ 1052672 ∧ r.memOk = true

/-- The response that a request of opcode `op` gets at its time of execution. -/
def answer (op : Nat) (r : Req) (s : State) (error detail : Nat) (result : List Byte) : Resp :=
  { opcode := op, seq := r.seq, error := error, detail := detail, time := (s.tick r.t).time, result := result,
    addr := if result.length ≤ 2016 then 0 else r.respAddr }

/-- The mailbox of the request's function after the command (R467 to R470): the stored response, LAST_SEQ, BUSY clear
and RESP_VALID set. -/
abbrev Answered (op : Nat) (r : Req) (s t : State) (error detail : Nat) (result : List Byte) : Prop :=
  (t.mb r.fn).stored = some (answer op r s error detail result) ∧ (t.mb r.fn).lastSeq = r.seq ∧
    (t.mb r.fn).busy = false ∧ (t.mb r.fn).respValid = true

/-- The command leaves nothing but the mailbox of its function, what has been sent, and the time (R471). -/
abbrev MailOnly (r : Req) (s t : State) : Prop :=
  { t with mbox := s.mbox, sent := s.sent } = s.tick r.t ∧ s.sent <+: t.sent ∧ ∀ g, g ≠ r.fn → t.mb g = s.mb g

/-- The command runs to a next state that `P` describes. -/
abbrev Completes (c : Instr) (s : State) (P : State → Prop) : Prop := ∃ t, exec c s = .next t ∧ P t

/-- The command answers with these result bytes and changes nothing else. -/
abbrev Reports (c : Instr) (op : Nat) (r : Req) (s : State) (result : List Byte) : Prop :=
  Completes c s fun t => Answered op r s t eOk 0 result ∧ MailOnly r s t

/-- A result of `n` bytes has a place: in the mailbox, or at the host address that the request gives (R465). -/
abbrev Fits (r : Req) (n : Nat) : Prop := n ≤ 2016 ∨ r.respAddr ≠ 0

/-- The command is accepted with an empty result, and `P` describes the rest of the next state. -/
abbrev Accepts (c : Instr) (op : Nat) (r : Req) (s : State) (P : State → Prop) : Prop :=
  Completes c s fun t => Answered op r s t eOk 0 [] ∧ P t

/-- `t` is `u` but for mailboxes and what has been sent. -/
abbrev Leaves (u t : State) : Prop := { t with mbox := u.mbox, sent := u.sent } = u

/-- `t` is `u` but for mailboxes, what has been sent and events held for later (R497). -/
abbrev Notes (u t : State) : Prop :=
  { t with mbox := u.mbox, sent := u.sent, cur := { t.cur with held := u.cur.held } } = u

/-- Nothing waits for its time: no commit, no scheduled action, no SCHEDULE condition. -/
abbrev NothingWaits (s : State) : Prop :=
  s.cur.pending = [] ∧ s.cur.actions = [] ∧ ∀ b ∈ s.view.ofType btCondition, b.u 3 1 ≠ 11

/-- A scheduled action of this kind on these exhibits is accepted for T (R46, R51, R52). -/
abbrev Schedulable (s : State) (T : CT) (kind : Nat) (hs : List Nat) : Prop :=
  T.slot < s.cad.spt ∧ tooSoon s.cad T = false ∧ pendingCount s < 1024 ∧
    ∀ a ∈ s.cur.actions, ¬(a.act.kind = kind ∧ a.time = T ∧ ∃ m ∈ hs, m ∈ a.handles s.view)

/-- The actions after one more is scheduled. -/
def scheduled (s : State) (fn : Nat) (T : CT) (h : Option Nat) (a : Act) : Cur :=
  { s.cur with actions := s.cur.actions ++ [{ id := s.cur.nextAction, fn := fn, time := T, handle := h, act := a }],
               nextAction := s.cur.nextAction + 1 }

/-- The command's checks pass. -/
abbrev Passes (e : Effect) : Prop := e.toBool = true

/-- A word of a load's parameter block or payload: `size` bytes at `off + size * k`, word `a` of a load from `first`. -/
def loadWord (b : List Byte) (off size first a : Nat) : Nat := getU b (off + size * (a - first)) size

/-- Opcode, whether PF0 alone may issue it, request and body of a mailbox command that a refusal leaves unchanged (R471, R493);
COMMIT, TRIGGER_ARM, TRIGGER_FORCE, CAL_START, FALLOW_ENTER, FW_VERIFY and FW_ACTIVATE have statements of their own. -/
def mailRow : Instr → Option (Nat × Bool × Req × (State → Effect))
  | .deviceInfo r => some (0x01, false, r, deviceInfoBody r)
  | .eventRingSet r => some (0x02, false, r, eventRingSetBody r)
  | .blockStage r => some (0x03, false, r, blockStageBody r)
  | .blockRead r => some (0x04, false, r, blockReadBody r)
  | .stageDiscard r => some (0x05, false, r, stageDiscardBody r)
  | .commitCancel r => some (0x07, false, r, commitCancelBody r)
  | .exhibitDefine r => some (0x10, false, r, exhibitDefineBody r)
  | .exhibitDelete r => some (0x11, false, r, exhibitDeleteBody r)
  | .exhibitQuery r => some (0x12, false, r, exhibitQueryBody r)
  | .exhibitAssign r => some (0x13, true, r, exhibitAssignBody r)
  | .cadenceStatus r => some (0x20, false, r, cadenceStatusBody r)
  | .clockSyncArm r => some (0x21, true, r, clockSyncArmBody r)
  | .wingStatus r => some (0x28, false, r, wingStatusBody r)
  | .mountStatus r => some (0x30, false, r, mountStatusBody r)
  | .mountRead r => some (0x31, false, r, mountReadBody r)
  | .mountRelease r => some (0x32, true, r, mountReleaseBody r)
  | .decimationStatus r => some (0x38, false, r, decimationStatusBody r)
  | .windowLoad r => some (0x40, false, r, windowLoadBody r)
  | .spectrumStatus r => some (0x41, false, r, spectrumStatusBody r)
  | .swardSnapshot r => some (0x48, false, r, swardSnapshotBody r)
  | .maskLoad r => some (0x50, false, r, maskLoadBody r)
  | .triggerStatus r => some (0x53, false, r, triggerStatusBody r)
  | .attendantLoad r => some (0x58, false, r, attendantLoadBody r)
  | .attendantStatus r => some (0x59, false, r, attendantStatusBody r)
  | .storeStatus r => some (0x60, false, r, storeStatusBody r)
  | .storeRelease r => some (0x61, false, r, storeReleaseBody r)
  | .storeLoad r => some (0x62, true, r, storeLoadBody r)
  | .conservatorLoad r => some (0x68, false, r, conservatorLoadBody r)
  | .conservatorParam r => some (0x69, false, r, conservatorParamBody r)
  | .conservatorRead r => some (0x6A, false, r, conservatorReadBody r)
  | .conservatorStatus r => some (0x6B, false, r, conservatorStatusBody r)
  | .comparatorClear r => some (0x70, true, r, comparatorClearBody r)
  | .comparatorStatus r => some (0x71, false, r, comparatorStatusBody r)
  | .stimulusStatus r => some (0x78, false, r, stimulusStatusBody r)
  | .levelStatus r => some (0x79, false, r, levelStatusBody r)
  | .hkInject r => some (0x80, true, r, hkInjectBody r)
  | .calStatus r => some (0x82, false, r, calStatusBody r)
  | .memoryStatus r => some (0x88, false, r, memoryStatusBody r)
  | .courierAssign r => some (0x90, true, r, courierAssignBody r)
  | .courierResume r => some (0x91, false, r, courierResumeBody r)
  | .courierStatus r => some (0x92, false, r, courierStatusBody r)
  | .archiveStatus r => some (0x93, true, r, archiveStatusBody r)
  | .collectionForm r => some (0xA0, true, r, collectionFormBody r)
  | .collectionDissolve r => some (0xA1, true, r, collectionDissolveBody r)
  | .collectionStatus r => some (0xA2, false, r, collectionStatusBody r)
  | .powerStatus r => some (0xA8, false, r, powerStatusBody r)
  | .healthLogRead r => some (0xB0, false, r, healthLogReadBody r)
  | .fwStage r => some (0xC0, true, r, fwStageBody r)
  | .fwStatus r => some (0xC3, false, r, fwStatusBody r)
  | _ => none

/-! ### Attendant programs -/

/-- The program of `h` stands at `i` and may execute one more instruction in this beat (R240, R247). -/
abbrev AttRuns (h : Nat) (i : Instr) (s : State) : Prop :=
  attReady h i s = true ∧ (s.tr h).prog.spent (s.view.gridK h) (s.tr h).prog.p < 16

/-- The program one instruction on: the next word, and one more instruction in the beat (R240, R247). -/
def attNext (h : Nat) (s : State) : Prog :=
  let p := (s.tr h).prog
  let k := s.view.gridK h
  { p with pc := (p.pc + 1) % 256, beat := beatOf k p.p, count := p.spent k p.p + 1 }

/-! ### Conservator cores -/

/-- Core `c` as its next instruction sees it: every write that is visible by then has landed (R300). -/
abbrev seen (c : Nat) (s : State) : Core := (s.cc c).land

/-- Core `c` issues one instruction at once: only core `c` changes, one fabric clock passes, the issuing bank, as the
instruction sees it, becomes `f` of itself one instruction on, and memories and shared registers become `m` of themselves
(R292, R300). -/
abbrev Issues (c : Nat) (s t : State) (f : Bank → Bank) (m : Core → Core := id) : Prop :=
  t = s.setCore c (t.cc c) ∧ (t.cc c).cyc = ((seen c s).cyc + 1) % 2 ^ 64 ∧
    (t.cc c).cur = (f (seen c s).cur).next ∧
    { t.cc c with fg := (seen c s).fg, sh := (seen c s).sh, cyc := (seen c s).cyc,
                  credit := (seen c s).credit, irq := (seen c s).irq, resumed := (seen c s).resumed } = m (seen c s) ∧
    (t.cc c).resumed = ((seen c s).bank && (seen c s).resumed) ∧
    if (seen c s).bank then (t.cc c).fg = (seen c s).fg else (t.cc c).sh = (seen c s).sh

end Sys2Proof.Machine
end

