-- ==== Sys2Proof/Certificates/Slice0/Obligations.lean ====
section
/-! DEFINITION. The statements for the provers: one `def Obligations.<Name> : Prop` each. Every rule is one of spec/;
a log entry is named where a clause rests on a reading of the model. -/
open Sys2Proof Sys2Proof.Machine

/-! ### The block as a whole -/

/-- A step runs the command at the front of the queue on the state with the rest of the queue, and idles on an empty
queue (the model's form, log 8). -/
def Obligations.StepRunsFrontCommand : Prop :=
  (∀ (c : Instr) (rest : List Instr) (s : State),
    step { s with pending := c :: rest } = exec c { s with pending := rest }) ∧
  ∀ s : State, s.pending = [] → step s = .next s

/-- The state after reset: channel exhibits 0 to 47 exist at epoch 1 and belong to PF0, every block is at its defaults,
STATE is 0, PD00 alone has power, no deaccession cause has occurred (R18, R19, R22, R480, R522, R565); nothing is
queued, and every memory is in its canonical form (the model's, log 8 and 10). -/
def Obligations.ResetState : Prop :=
  (∀ h, h < 48 → (State.reset.view.ex h).st = 2 ∧ (State.reset.view.ex h).epoch = 1 ∧ (State.reset.view.ex h).kind = 0 ∧
      (State.reset.view.ex h).owner = 0) ∧
    (∀ n, 48 ≤ n → (State.reset.view.ex n).st = 0) ∧ State.reset.view.blocks = [] ∧
    State.reset.boot.st = 0 ∧ State.reset.pow.domains = 1 ∧ State.reset.cad.anchored = false ∧
    State.reset.deaccLow = false ∧ State.reset.pending = [] ∧ Memory.wf State.reset = true

/-! ### Attendant programs (09) -/

/-- Decode of encode is the instruction: every Attendant instruction, every value of every field (R249). -/
def Obligations.AttendantRoundTrip : Prop :=
  ∀ (i : Instr) (w : Nat), attEncode i = some w → w < 2 ^ 32 ∧ ∃ h, attDecode h w = some i

/-- Jumps (R249): the target when the test holds, else the next word; the program alone changes. Timers, counters,
masks, ACT, NOP and HALT (R243, R244, R246): the one register written, the next word, and nothing else. ADDK saturates
at 0 and 0xFFFF_FFFF. -/
def Obligations.AttendantInstructions : Prop :=
  (∀ (h a : Nat) (s : State),
     (AttRuns h (.attendantJmp h a) s →
       exec (.attendantJmp h a) s = .next (s.setProg h { attNext h s with pc := a })) ∧
     (∀ c, AttRuns h (.jct h c a) s → exec (.jct h c a) s =
       .next (s.setProg h (if (s.tr h).bits.testBit c then { attNext h s with pc := a } else attNext h s))) ∧
     (∀ c, AttRuns h (.jcf h c a) s → exec (.jcf h c a) s =
       .next (s.setProg h (if (s.tr h).bits.testBit c then attNext h s else { attNext h s with pc := a }))) ∧
     (∀ m, AttRuns h (.jany h m a) s →
       ((∃ n, (s.tr h).bits.testBit n ∧ ((s.tr h).prog.mv m).testBit n) →
         exec (.jany h m a) s = .next (s.setProg h { attNext h s with pc := a })) ∧
       ((∀ n, (s.tr h).bits.testBit n → ((s.tr h).prog.mv m).testBit n → False) →
         exec (.jany h m a) s = .next (s.setProg h (attNext h s)))) ∧
     (∀ m, AttRuns h (.jall h m a) s →
       ((∀ n, ((s.tr h).prog.mv m).testBit n → (s.tr h).bits.testBit n) →
         exec (.jall h m a) s = .next (s.setProg h { attNext h s with pc := a })) ∧
       ((∃ n, ((s.tr h).prog.mv m).testBit n ∧ (s.tr h).bits.testBit n = false) →
         exec (.jall h m a) s = .next (s.setProg h (attNext h s)))) ∧
     (∀ k, AttRuns h (.jz h k a) s → exec (.jz h k a) s =
       .next (s.setProg h (if (s.tr h).prog.kv k = 0 then { attNext h s with pc := a } else attNext h s))) ∧
     (∀ k, AttRuns h (.jnz h k a) s → exec (.jnz h k a) s =
       .next (s.setProg h (if (s.tr h).prog.kv k = 0 then attNext h s else { attNext h s with pc := a }))) ∧
     (∀ k k2, AttRuns h (.jlt h k k2 a) s → exec (.jlt h k k2 a) s =
       .next (s.setProg h (if (s.tr h).prog.kv k < (s.tr h).prog.kv k2 then { attNext h s with pc := a }
         else attNext h s))) ∧
     (AttRuns h (.jto h a) s → exec (.jto h a) s =
       .next (s.setProg h (if (s.tr h).prog.tmo then { attNext h s with pc := a } else attNext h s))) ∧
     (AttRuns h (.jst h 0 a) s → exec (.jst h 0 a) s =
       .next (s.setProg h (if (s.tr h).held (s.tr h).prog.p then { attNext h s with pc := a } else attNext h s))) ∧
     (AttRuns h (.jst h 1 a) s → exec (.jst h 1 a) s =
       .next (s.setProg h (if (s.tr h).busy (s.tr h).prog.p then { attNext h s with pc := a } else attNext h s))) ∧
     (AttRuns h (.jst h 2 a) s → exec (.jst h 2 a) s =
       .next (s.setProg h (if (s.tr h).arm ≠ 0 ∧ (s.tr h).spent = false then { attNext h s with pc := a }
         else attNext h s)))) ∧
  (∀ (h : Nat) (s : State),
     (AttRuns h (.attendantNop h) s → exec (.attendantNop h) s = .next (s.setProg h (attNext h s))) ∧
     (AttRuns h (.attendantHalt h) s →
       exec (.attendantHalt h) s = .next (s.setProg h { attNext h s with st := 2 })) ∧
     (∀ k imm, AttRuns h (.ldk h k imm) s →
       exec (.ldk h k imm) s = .next (s.setProg h { attNext h s with k := (s.tr h).prog.k.set k imm })) ∧
     (∀ (k : Nat) (imm : BitVec 16) (v : Nat), AttRuns h (.addk h k imm) s →
       ((((s.tr h).prog.kv k : Nat) : Int) + imm.toInt < 0 ∧ v = 0 ∨
         (v : Int) = ((s.tr h).prog.kv k : Nat) + imm.toInt ∧ v ≤ 0xFFFFFFFF ∨
         (0xFFFFFFFF : Int) < ((s.tr h).prog.kv k : Nat) + imm.toInt ∧ v = 0xFFFFFFFF) →
       exec (.addk h k imm) s = .next (s.setProg h { attNext h s with k := (s.tr h).prog.k.set k v })) ∧
     (∀ m imm, AttRuns h (.ldml h m imm) s → exec (.ldml h m imm) s = .next (s.setProg h { attNext h s with
       m := (s.tr h).prog.m.set m ((s.tr h).prog.mv m - (s.tr h).prog.mv m % 65536 + imm.toNat) })) ∧
     (∀ m imm, AttRuns h (.ldmh h m imm) s → exec (.ldmh h m imm) s = .next (s.setProg h { attNext h s with
       m := (s.tr h).prog.m.set m (imm.toNat * 65536 + (s.tr h).prog.mv m % 65536) })) ∧
     (∀ m, AttRuns h (.act h m) s →
       exec (.act h m) s = .next (s.setProg h { attNext h s with act := (s.tr h).prog.mv m })) ∧
     (∀ tm n, AttRuns h (.tset h tm n) s → exec (.tset h tm n) s = .next (s.setProg h { attNext h s with
       t := (s.tr h).prog.t.set tm (some (timerAt s h (s.tr h).prog.p n)) })) ∧
     (∀ tm k, AttRuns h (.tsetk h tm k) s → exec (.tsetk h tm k) s = .next (s.setProg h { attNext h s with
       t := (s.tr h).prog.t.set tm (some (timerAt s h (s.tr h).prog.p ((s.tr h).prog.kv k))) })) ∧
     (∀ tm, AttRuns h (.tclr h tm) s →
       exec (.tclr h tm) s = .next (s.setProg h { attNext h s with t := (s.tr h).prog.t.set tm none })))

/-- A waiting instruction begins (R240 to R242): the program waits at its word, tested from p + 1 on, or from p on for
the first wait since the restart; nothing else changes. WAIT_END (R240 to R242): at the sample just evaluated, at or
after p', a wait whose test holds ends with TO 0, a WAITN n that has lasted n samples with TO 0, and a WAITT, or a WAITC
or WAITM with T, whose timer has expired with TO 1; the program stands at the next word and its current sample is that
sample. -/
def Obligations.AttendantWaiting : Prop :=
  (∀ (h : Nat) (s : State) (i : Instr),
     ((∃ c mode tm te, i = .waitc h c mode tm te) ∨ (∃ m mode tm te, i = .waitm h m mode tm te) ∨
       (∃ tm, i = .waitt h tm) ∨ ∃ n, i = .waitn h n) →
     attReady h i s = true →
     exec i s = .next (s.setProg h { (s.tr h).prog with
       waiting := true, pp := if (s.tr h).prog.first then (s.tr h).prog.p else (s.tr h).prog.p + 1 })) ∧
  (∀ (h q : Nat) (s : State) (tmo : Bool),
     (s.tr h).prog.st = 1 → (s.tr h).prog.waiting = true → (s.tr h).next = q + 1 → (s.tr h).prog.pp ≤ q →
     (s.tr h).prog.spent (s.view.gridK h) q < 16 →
     ((tmo = false ∧ (s.tr h).waitTest = true) ∨
       (∃ n, attEncode (.waitn h n) = some (s.tr h).word ∧ tmo = false ∧ (s.tr h).prog.p + n ≤ q) ∨
       (∃ tm e, attEncode (.waitt h tm) = some (s.tr h).word ∧ tmo = true ∧
         (s.tr h).prog.t.getD tm none = some e ∧ e ≤ q) ∨
       (∃ c mode tm e, (attEncode (.waitc h c mode tm true) = some (s.tr h).word ∨
           attEncode (.waitm h c mode tm true) = some (s.tr h).word) ∧ tmo = true ∧ (s.tr h).waitTest = false ∧
         (s.tr h).prog.t.getD tm none = some e ∧ e ≤ q)) →
     exec (.waitEnd h q) s = .next (s.setProg h { (s.tr h).prog with
       p := q, pc := ((s.tr h).prog.pc + 1) % 256, waiting := false, first := false, tmo := tmo,
       fired := if q = (s.tr h).prog.p then (s.tr h).prog.fired else none,
       beat := beatOf (s.view.gridK h) q, count := (s.tr h).prog.spent (s.view.gridK h) q + 1 }))

/-- FIRE (R245, R216): it counts and names the sample; in hold-off the occurrence is counted as suppressed; armed, not
in hold-off and not busy, it is a trigger event that takes the next accession number; a second FIRE at one sample only
counts. The 17th instruction of a beat puts the program into fault at its word, whichever it is (R247). -/
def Obligations.AttendantFireAndBudget : Prop :=
  (∀ (h c : Nat) (s : State), AttRuns h (.fire h c) s →
     Completes (.fire h c) s fun t =>
       (t.tr h).prog = { attNext h s with fires := satAdd 64 (s.tr h).prog.fires 1, fired := some (s.tr h).prog.p } ∧
       (∀ g, g ≠ h → t.tr g = s.tr g) ∧ t.core = s.core ∧ t.hk = s.hk ∧ t.health = s.health ∧
       ((s.tr h).prog.fired = some (s.tr h).prog.p →
         t = s.setProg h { attNext h s with
           fires := satAdd 64 (s.tr h).prog.fires 1, fired := some (s.tr h).prog.p }) ∧
       ((s.tr h).prog.fired ≠ some (s.tr h).prog.p → (s.tr h).arm ≠ 0 → (s.tr h).held (s.tr h).prog.p = true →
         (t.tr h).hTot = satAdd 32 (s.tr h).hTot 1 ∧ t.accession = s.accession) ∧
       ((s.tr h).prog.fired ≠ some (s.tr h).prog.p → (s.tr h).arm ≠ 0 → (s.tr h).held (s.tr h).prog.p = false →
         (s.tr h).busy (s.tr h).prog.p = false →
         (t.tr h).events = satAdd 64 (s.tr h).events 1 ∧ (t.tr h).lastAcc = t.accession ∧
         t.accession = if s.accession = 2 ^ 48 - 1 then 1 else s.accession + 1)) ∧
  (∀ (h : Nat) (i : Instr) (s : State), attReady h i s = true →
     16 ≤ (s.tr h).prog.spent (s.view.gridK h) (s.tr h).prog.p →
     ((i = .attendantNop h ∨ i = .attendantHalt h ∨ (∃ a, i = .attendantJmp h a) ∨ (∃ k imm, i = .ldk h k imm) ∨
       ∃ c, i = .fire h c) →
     Completes i s fun t => (t.tr h).prog = { (s.tr h).prog with st := 3, waiting := false } ∧
       (∀ g, g ≠ h → t.tr g = s.tr g) ∧ t.accession = s.accession))

/-! ### Conservator cores (11) -/

/-- Decode of encode is the instruction: every Conservator instruction, every value of every field; the word of an OUT
to REC_CTL reads as its opening form, since the data opens or closes (R310, R319). -/
def Obligations.ConservatorRoundTrip : Prop :=
  ∀ (i : Instr) (w : Nat), consEncode i = some w → w < 2 ^ 32 ∧
    ((∀ c d, i ≠ .close c d) → ∃ c, consDecode c w = some i) ∧
    ∀ c d, i = .close c d → ∃ c, consDecode c w = some (.recOpen c d)

/-- Pointer steps (R294): linear, modulo and bit-reversed. Moves between registers and memories (R293 to R295, R300,
R319): what the bank gets, when its instructions see it, the memory word that ST writes, and nothing else. A load after
a store to the same word, with no cycle between (R295): the second of two instructions of one bank reads what the first
has stored. -/
def Obligations.ConservatorMoves : Prop :=
  (∀ (b : Bank) (p : Nat) (step : Int),
     ((bitsOf b.am.toNat (2 * p) 2 = 0 ∨ bitsOf b.am.toNat (2 * p) 2 = 3) →
       ((stepPtr b p step).toNat : Int) = (((b.pt.getD p 0).toNat : Int) + step) % 16384) ∧
     (bitsOf b.am.toNat (2 * p) 2 = 1 → (b.ln.getD p 0).toNat ≠ 0 →
       ((stepPtr b p step).toNat : Int) =
         (((b.bs.getD p 0).toNat : Int) + (((b.pt.getD p 0).toNat : Int) - (b.bs.getD p 0).toNat + step) %
           ((b.ln.getD p 0).toNat : Int)) % 16384) ∧
     (bitsOf b.am.toNat (2 * p) 2 = 2 → b.ln.getD p 0 = 8 → b.bs.getD p 0 = 0 → step = 4 →
       (b.pt.getD p 0 = 0 → stepPtr b p step = 4) ∧ (b.pt.getD p 0 = 4 → stepPtr b p step = 2) ∧
       (b.pt.getD p 0 = 2 → stepPtr b p step = 6) ∧ (b.pt.getD p 0 = 6 → stepPtr b p step = 1) ∧
       (b.pt.getD p 0 = 1 → stepPtr b p step = 5) ∧ (b.pt.getD p 0 = 5 → stepPtr b p step = 3) ∧
       (b.pt.getD p 0 = 3 → stepPtr b p step = 7) ∧ (b.pt.getD p 0 = 7 → stepPtr b p step = 0))) ∧
  (∀ (c : Nat) (s : State),
     (∀ d mem p step, consReady c (.ld c d mem p step) s → Completes (.ld c d mem p step) s fun t =>
       Issues c s t fun b => (b.delay 2 (.d d ((seen c s).mem mem (b.addr p)))).bump p (stepOf b p step)) ∧
     (∀ d mem p step, consReady c (.st c d mem p step) s → Completes (.st c d mem p step) s fun t =>
       Issues c s t (fun b => b.bump p (stepOf b p step))
         (fun y => y.setMem mem ((seen c s).cur.addr p) ((seen c s).cur.dv d))) ∧
     (∀ d half imm, consReady c (.ldi c d half imm) s → Completes (.ldi c d half imm) s fun t =>
       Issues c s t fun b => b.delay 1 (.half d half imm.toInt)) ∧
     (∀ d w, consReady c (.ldpg c d w) s → Completes (.ldpg c d w) s fun t =>
       Issues c s t fun b => b.delay 2 (.d d (cget word36 (seen c s).page w))) ∧
     (∀ d src, d < 8 → src < 8 → consReady c (.mov c d src) s → Completes (.mov c d src) s fun t =>
       Issues c s t fun b => b.delay 1 (.d d (b.dv src))) ∧
     (∀ num src, 16 ≤ num → num ≤ 50 → src < 8 → consReady c (.mov c num src) s → Completes (.mov c num src) s fun t =>
       Issues c s t fun b => b.delay 2 (.reg num (b.dv src))) ∧
     (∀ num imm, 16 ≤ num → num ≤ 50 → consReady c (.setr c num imm) s → Completes (.setr c num imm) s fun t =>
       Issues c s t fun b => b.delay 2 (.reg num (imm.signExtend 36))) ∧
     (∀ num imm, 51 ≤ num → num ≤ 53 → consReady c (.setr c num imm) s → Completes (.setr c num imm) s fun t =>
       Issues c s t id) ∧
     (∀ p imm, consReady c (.modp c p imm) s → Completes (.modp c p imm) s fun t =>
       Issues c s t fun b => b.delay 2 (.ptr p (stepPtr b p imm.toInt)))) ∧
  (∀ (c d p e q k : Nat) (mem : Bool) (s t : State),
     cellsWf word36 (if mem then (seen c s).y else (seen c s).x) = true →
     consReady c (.st c d mem p 0) s → exec (.st c d mem p 0) s = .next t → (seen c t).bank = (seen c s).bank →
     consReady c (.ld c e mem q k) t → (seen c t).cur.addr q = (seen c s).cur.addr p →
     Completes (.ld c e mem q k) t fun u =>
       (⟨(seen c t).cur.issued + 2, .d e ((seen c s).cur.dv d)⟩ : Late) ∈ (u.cc c).cur.late)

/-- ADDI and LOGD work modulo 2^36, the bank's next instruction sees the result, and Z and N follow from the third
instruction on (R298, R300). -/
def Obligations.ConservatorDataArithmetic : Prop :=
  ∀ (c d : Nat) (s : State), d < 8 → (seen c s).cur.d.length = 8 →
    (∀ imm, consReady c (.addi c d imm) s → Completes (.addi c d imm) s fun t =>
      (Issues c s t fun b => (b.delay 1 (.d d (b.dv d + imm.signExtend 36))).delay 3
        (.zn (b.dv d + imm.signExtend 36 == 0) ((b.dv d + imm.signExtend 36).msb))) ∧
      (seen c t).cur.dv d = (seen c s).cur.dv d + imm.signExtend 36) ∧
    (∀ (r op : Nat) (v : DWord), consReady c (.logd c d r op) s →
      (op = 0 ∧ v = (seen c s).cur.dv d &&& (seen c s).cur.dv r ∨
        op = 1 ∧ v = (seen c s).cur.dv d ||| (seen c s).cur.dv r ∨
        op = 2 ∧ v = (seen c s).cur.dv d ^^^ (seen c s).cur.dv r ∨
        op = 3 ∧ v = (seen c s).cur.dv d &&& ~~~(seen c s).cur.dv r) →
      Completes (.logd c d r op) s fun t =>
        (Issues c s t fun b => (b.delay 1 (.d d v)).delay 3 (.zn (v == 0) v.msb)) ∧ (seen c t).cur.dv d = v)

/-- Multiply instructions (R296, R297): the accumulators that become the exact, once saturated results; MPY-class write
(op 0), MAC-class add, MSU-class subtract. Accumulator results are saturated once to the range of R297, the saturation
sets AOV, and sources see them three instructions on (R300). -/
def Obligations.ConservatorMultiplies : Prop :=
  (∀ (c : Nat) (m : FmtM) (s : State) (i : Instr), (seen c s).cur.acc.length = 4 → m.a < 4 → consReady c i s →
     let y := seen c s
     let xw := if m.xsrc then y.cur.dv m.xd else y.mem false (y.cur.addr m.xp)
     let yw := if m.ysrc then y.cur.dv m.yd else y.mem true (y.cur.addr (4 + m.yp))
     (∀ op, (op = 0 ∧ i = .mpy c m ∨ op = 1 ∧ i = .mac c m ∨ op = 2 ∧ i = .msu c m) → Completes i s fun t =>
       Issues c s t fun b => mulBump m (b.accWrite m.a
         (combine op (b.accv m.a) (halfOf xw m.xh * halfOf yw m.yh)))) ∧
     (∀ op, m.a ≤ 2 → (op = 0 ∧ i = .cmpy c m ∨ op = 1 ∧ i = .cmac c m ∨ op = 2 ∧ i = .cmsu c m) → Completes i s fun t =>
       t = s.setCore c (t.cc c) ∧
       (t.cc c).cur.accv m.a = satAcc (combine op (y.cur.accv m.a) (halfOf xw false * halfOf yw false -
         halfOf xw true * (if m.conj then -halfOf yw true else halfOf yw true))) ∧
       (t.cc c).cur.accv (m.a + 1) = satAcc (combine op (y.cur.accv (m.a + 1))
         (halfOf xw false * (if m.conj then -halfOf yw true else halfOf yw true) + halfOf xw true * halfOf yw false)) ∧
       (∀ k, k ≠ m.a → k ≠ m.a + 1 → (t.cc c).cur.accv k = y.cur.accv k) ∧ (t.cc c).x = y.x ∧ (t.cc c).y = y.y) ∧
     (∀ op, (op = 0 ∧ i = .qmpy c m ∨ op = 1 ∧ i = .qmac c m) →
       let e := y.cur.addr (4 + m.yp) / 2 * 2
       let y0 := if m.ysrc then y.cur.dv (m.yd / 2 * 2) else y.mem true e
       let y1 := if m.ysrc then y.cur.dv (m.yd / 2 * 2 + 1) else y.mem true (e + 1)
       Completes i s fun t => t = s.setCore c (t.cc c) ∧
         (t.cc c).cur.accv 0 = satAcc (combine op (y.cur.accv 0) (halfOf xw m.xh * halfOf y0 false)) ∧
         (t.cc c).cur.accv 1 = satAcc (combine op (y.cur.accv 1) (halfOf xw m.xh * halfOf y0 true)) ∧
         (t.cc c).cur.accv 2 = satAcc (combine op (y.cur.accv 2) (halfOf xw m.xh * halfOf y1 false)) ∧
         (t.cc c).cur.accv 3 = satAcc (combine op (y.cur.accv 3) (halfOf xw m.xh * halfOf y1 true)) ∧
         (t.cc c).x = y.x ∧ (t.cc c).y = y.y)) ∧
  (∀ (b : Bank) (i : Nat) (z : Int), b.acc.length = 4 → i < 4 →
     -(2 ^ 43 - 1) ≤ (b.accWrite i z).accv i ∧ (b.accWrite i z).accv i ≤ 2 ^ 43 - 1 ∧
     (-(2 ^ 43 - 1) ≤ z → z ≤ 2 ^ 43 - 1 →
       (b.accWrite i z).accv i = z ∧ (b.accWrite i z).late = b.late ++ [⟨b.issued + 3, .src i z⟩]) ∧
     (2 ^ 43 - 1 < z → (b.accWrite i z).accv i = 2 ^ 43 - 1 ∧ ⟨b.issued + 3, .aov⟩ ∈ (b.accWrite i z).late) ∧
     (z < -(2 ^ 43 - 1) → (b.accWrite i z).accv i = -(2 ^ 43 - 1) ∧ ⟨b.issued + 3, .aov⟩ ∈ (b.accWrite i z).late) ∧
     (∀ k, k ≠ i → (b.accWrite i z).accv k = b.accv k) ∧ (b.accWrite i z).src = b.src ∧ (b.accWrite i z).d = b.d)

/-- ADDA, ADDD, SHA, CLRA, CMPA, MAXA and CLRF (R298, R319); part 3 of ADDD, which R319 does not list, adds some value
of which nothing is known (log 7). -/
def Obligations.ConservatorAccumulators : Prop :=
  ∀ (c a b : Nat) (s : State),
    let y := (seen c s).cur
    (∀ sub z, consReady c (.adda c a b sub) s → z = (if sub then y.accv a - y.srcv b else y.accv a + y.srcv b) →
      Completes (.adda c a b sub) s fun t => Issues c s t fun x => (x.accWrite a z).flags (satAcc z)) ∧
    (∀ d part sub v, consReady c (.addd c a d part sub) s →
      (part = 0 ∧ v = (y.dv d).toInt ∨ part = 1 ∧ v = halfOf (y.dv d) false ∨ part = 2 ∧ v = halfOf (y.dv d) true) →
      Completes (.addd c a d part sub) s fun t => Issues c s t fun x =>
        (x.accWrite a (if sub then y.accv a - v else y.accv a + v)).flags
          (satAcc (if sub then y.accv a - v else y.accv a + v))) ∧
    (∀ d sub, consReady c (.addd c a d 3 sub) s → Completes (.addd c a d 3 sub) s fun t =>
      ∃ v, Issues c { s with free := s.free + 1 } t fun x =>
        (x.accWrite a (if sub then y.accv a - v else y.accv a + v)).flags
          (satAcc (if sub then y.accv a - v else y.accv a + v))) ∧
    (∀ n z, consReady c (.sha c a n) s → 0 ≤ n.toInt → z = y.accv a * 2 ^ n.toInt.toNat →
      Completes (.sha c a n) s fun t => Issues c s t fun x => (x.accWrite a z).flags (satAcc z)) ∧
    (∀ n z, consReady c (.sha c a n) s → n.toInt < 0 → z = rhe (y.accv a) (2 ^ (-n.toInt).toNat) →
      Completes (.sha c a n) s fun t => Issues c s t fun x => (x.accWrite a z).flags (satAcc z)) ∧
    (∀ mask, y.acc.length = 4 → consReady c (.clra c mask) s → Completes (.clra c mask) s fun t =>
      t = s.setCore c (t.cc c) ∧ (t.cc c).x = (seen c s).x ∧ (t.cc c).y = (seen c s).y ∧
      ∀ i, i < 4 → (t.cc c).cur.accv i = if mask.getLsbD i then 0 else y.accv i) ∧
    (∀ zero z, consReady c (.cmpa c a b zero) s → z = (if zero then y.srcv a else y.srcv a - y.srcv b) →
      Completes (.cmpa c a b zero) s fun t => Issues c s t fun x => x.flags z) ∧
    (∀ least z, consReady c (.maxa c a b least) s →
      (least = false ∧ z = (if y.accv a < y.srcv b then y.srcv b else y.accv a) ∨
        least = true ∧ z = (if y.srcv b < y.accv a then y.srcv b else y.accv a)) →
      Completes (.maxa c a b least) s fun t => Issues c s t fun x => (x.accWrite a z).flags (satAcc z)) ∧
    (∀ mask, consReady c (.clrf c mask) s → Completes (.clrf c mask) s fun t => Issues c s t fun x =>
      { x with aov := x.aov && !mask.getLsbD 0, sov := x.sov && !mask.getLsbD 1 })

/-- Stores of accumulators (R299): rounded half to even, clamped with SOV set, the other half of a word kept. -/
def Obligations.ConservatorStores : Prop :=
  ∀ (c : Nat) (f : StaF) (s : State),
    let y := (seen c s).cur
    let v (a w : Nat) : Int := max (-(2 ^ (w - 1))) (min (2 ^ (w - 1) - 1) (rhe (y.srcv a) (2 ^ f.s)))
    let hit (a w : Nat) : Bool := decide (v a w ≠ rhe (y.srcv a) (2 ^ f.s))
    let old := (seen c s).mem f.mem (y.addr f.p)
    (consReady c (.sta c f) s → f.dst = false → f.width = true → Completes (.sta c f) s fun t =>
      Issues c s t (fun b => (if hit f.a 36 then b.delay 3 .sov else b).bump f.p (stepOf b f.p f.step))
        fun z => z.setMem f.mem (y.addr f.p) (dword (v f.a 36))) ∧
    (consReady c (.sta c f) s → f.dst = false → f.width = false → Completes (.sta c f) s fun t =>
      Issues c s t (fun b => (if hit f.a 18 then b.delay 3 .sov else b).bump f.p (stepOf b f.p f.step))
        fun z => z.setMem f.mem (y.addr f.p) (withHalf old f.half (v f.a 18))) ∧
    (consReady c (.sta c f) s → f.dst = true → f.width = true → Completes (.sta c f) s fun t =>
      Issues c s t fun b => (if hit f.a 36 then b.delay 3 .sov else b).delay 3 (.d f.p (dword (v f.a 36)))) ∧
    (consReady c (.sta c f) s → f.dst = true → f.width = false → Completes (.sta c f) s fun t =>
      Issues c s t fun b => (if hit f.a 18 then b.delay 3 .sov else b).delay 3 (.half f.p f.half (v f.a 18))) ∧
    (consReady c (.csta c f) s → f.dst = true → Completes (.csta c f) s fun t => t = s.setCore c (t.cc c) ∧
      (⟨y.issued + 3, .d f.p (withHalf (withHalf 0 false (v f.a 18)) true (v (f.a + 1) 18))⟩ : Late) ∈ (t.cc c).cur.late ∧
      (t.cc c).x = (seen c s).x ∧ (t.cc c).y = (seen c s).y) ∧
    (consReady c (.csta c f) s → f.dst = false → Completes (.csta c f) s fun t => t = s.setCore c (t.cc c) ∧
      (if f.mem then (t.cc c).y else (t.cc c).x) = cset word36 (if f.mem then (seen c s).y else (seen c s).x) (y.addr f.p)
        (withHalf (withHalf 0 false (v f.a 18)) true (v (f.a + 1) 18)) ∧
      (if f.mem then (t.cc c).x else (t.cc c).y) = if f.mem then (seen c s).x else (seen c s).y)

/-- Control flow (R301, R302, R306, R318, R319). Faults of a core (R318): it stops with the code, the bank and the PC
kept, and issues nothing more. -/
def Obligations.ConservatorControl : Prop :=
  (∀ (c : Nat) (s : State),
     let y := seen c s
     (consReady c (.nop c) s → Completes (.nop c) s fun t => Issues c s t id) ∧
     (consReady c (.ei c) s → Completes (.ei c) s fun t => Issues c s t id fun z => { z with ie := true }) ∧
     (consReady c (.di c) s → Completes (.di c) s fun t => Issues c s t id fun z => { z with ie := false }) ∧
     (∀ cd a, consReady c (.jmp c cd a) s → Completes (.jmp c cd a) s fun t => Issues c s t fun b =>
       if b.cond cd then { b with branch := b.branch ++ [⟨b.issued + 3, a⟩] } else b) ∧
     (∀ cd a, consReady c (.call c cd a) s → y.cur.cond cd = true → y.cur.calls.length < 4 →
       Completes (.call c cd a) s fun t => Issues c s t fun b =>
         { b with calls := (b.pc + 3) % 2 ^ 14 :: b.calls, branch := b.branch ++ [⟨b.issued + 3, a⟩] }) ∧
     (∀ cd a, consReady c (.call c cd a) s → y.cur.cond cd = false → Completes (.call c cd a) s fun t => Issues c s t id) ∧
     (∀ cd a l, consReady c (.ret c cd) s → y.cur.cond cd = true → y.cur.calls = a :: l →
       Completes (.ret c cd) s fun t => Issues c s t fun b =>
         { b with calls := l, branch := b.branch ++ [⟨b.issued + 3, a⟩] }) ∧
     (∀ cd, consReady c (.ret c cd) s → y.cur.cond cd = false → Completes (.ret c cd) s fun t => Issues c s t id) ∧
     (consReady c (.reti c) s → y.bank = true → Completes (.reti c) s fun t => t = s.setCore c (t.cc c) ∧
       (t.cc c).bank = false ∧ (t.cc c).fg = y.fg ∧ (t.cc c).sh = y.sh.next ∧ (t.cc c).resumed = true) ∧
     (∀ len n, consReady c (.loop c len n) s → y.cur.loops.length < 4 → Completes (.loop c len n) s fun t =>
       Issues c s t fun b =>
         { b with loops := ⟨b.pc + 1, b.pc + 1 + len, if n = 0 then 65536 else n⟩ :: b.loops }) ∧
     (∀ len d, consReady c (.loopd c len d) s → y.cur.loops.length < 4 → (y.cur.dv d).toNat % 2 ^ 20 ≠ 0 →
       Completes (.loopd c len d) s fun t => Issues c s t fun b =>
         { b with loops := ⟨b.pc + 1, b.pc + 1 + len, (y.cur.dv d).toNat % 2 ^ 20⟩ :: b.loops }) ∧
     (∀ len d, consReady c (.loopd c len d) s → (y.cur.dv d).toNat % 2 ^ 20 = 0 →
       Completes (.loopd c len d) s fun t => Issues c s t fun b => { b with pc := b.pc + 1 + len }) ∧
     (consReady c (.halt c) s → Completes (.halt c) s fun t => (t.cc c).st = 0 ∧ (t.cc c).x = y.x ∧ (t.cc c).y = y.y ∧
       (t.cc c).prog = y.prog ∧ ∀ g, g ≠ c → t.cc g = s.cc g) ∧
     -- two delay slots, then the transfer
     (∀ (b : Bank) (a : Nat), b.branch = [] → b.loops = [] →
       (b.jump a).next.pc = (b.pc + 1) % 2 ^ 14 ∧ (b.jump a).next.next.pc = ((b.pc + 1) % 2 ^ 14 + 1) % 2 ^ 14 ∧
       (b.jump a).next.next.next.pc = a)) ∧
  (∀ (c : Nat) (s : State) (i : Instr) (code : Nat), consReady c i s →
     ((∃ cd a, i = .call c cd a ∧ code = 2 ∧ (seen c s).cur.cond cd = true ∧ 4 ≤ (seen c s).cur.calls.length) ∨
       (∃ cd, i = .ret c cd ∧ code = 2 ∧ (seen c s).cur.cond cd = true ∧ (seen c s).cur.calls = []) ∨
       (∃ len n, i = .loop c len n ∧ code = 3 ∧ 4 ≤ (seen c s).cur.loops.length) ∨
       (i = .reti c ∧ code = 4 ∧ (seen c s).bank = false) ∨
       (∃ d, i = .recData c d ∧ code = 5 ∧ (seen c s).cur.opened = none)) →
     Completes i s fun t => (t.cc c).st = 2 ∧ (t.cc c).fault = code ∧ (t.cc c).fbank = (s.cc c).bank ∧
       (t.cc c).fpc = (s.cc c).cur.pc ∧ (t.cc c).x = (s.cc c).x ∧ (t.cc c).y = (s.cc c).y ∧ ∀ g, g ≠ c → t.cc g = s.cc g)

/-- Input ports (R307 to R309): IN takes the oldest element, seen two instructions on; an empty port stalls the bank,
and the stalled IN completes when an element is there; IDX gives the index of the element read last. An element arrives
at a running core (R307, R309): the port's next element is held, or, as the 257th, it is the fault of R318. -/
def Obligations.ConservatorInputPorts : Prop :=
  (∀ (c d p : Nat) (s : State), p < (s.cc c).ports.length →
     (∀ e es, consReady c (.inp c d p) s → ((s.cc c).port p).elems = e :: es → Completes (.inp c d p) s fun t =>
       t = s.setCore c (t.cc c) ∧ ((t.cc c).port p).elems = es ∧ ((t.cc c).port p).last = some e.n ∧
       ((t.cc c).port p).read = ((s.cc c).port p).read + 1 ∧ (∀ q, q ≠ p → (t.cc c).port q = (s.cc c).port q) ∧
       (⟨(seen c s).cur.issued + 2, .d d e.v⟩ : Late) ∈ (t.cc c).cur.late ∧
       (t.cc c).cur.quality = (seen c s).cur.quality ||| e.quality) ∧
     (consReady c (.inp c d p) s → ((s.cc c).port p).elems = [] → exec (.inp c d p) s =
       .next (s.setCore c ((s.cc c).onBank fun b => { b with stall := 1 }))) ∧
     (∀ clocks e es, (s.cc c).st = 1 → (s.cc c).cur.stall = 1 → swapDue s c (s.cc c) = false →
       bitsOf (s.cc c).word 23 3 = d → bitsOf (s.cc c).word 20 3 = p → ((s.cc c).port p).elems = e :: es →
       Completes (.inStallEnd c clocks) s fun t => t = s.setCore c (t.cc c) ∧ ((t.cc c).port p).elems = es ∧
         ((t.cc c).port p).last = some e.n ∧ (t.cc c).cur.stall = 0 ∧
         (t.cc c).cyc = (((s.cc c).cyc + clocks) % 2 ^ 64 + 1) % 2 ^ 64) ∧
     (consReady c (.idx c d p) s → Completes (.idx c d p) s fun t => Issues c s t fun b =>
       b.delay 1 (.d d (BitVec.ofNat 36 (((s.cc c).port p).last.getD 0))))) ∧
  (∀ (c p n first : Nat) (codes : List Conv) (e : Elem) (s : State), (s.cc c).st = 1 → p < 8 → p < (s.cc c).ports.length →
     (s.cc c).kind p ≠ 0 → nextElement s c (s.cc c) p n first codes = some e →
     (((s.cc c).port p).elems.length < 256 → Completes (.elementArrival c p n first codes) s fun t =>
       t = s.setCore c (t.cc c) ∧ ((t.cc c).port p).elems = ((s.cc c).port p).elems ++ [e] ∧
       ((t.cc c).port p).arrived = some n ∧ (t.cc c).fg = (s.cc c).fg ∧ (t.cc c).sh = (s.cc c).sh ∧
       ∀ g, g ≠ p → (t.cc c).port g = (s.cc c).port g) ∧
     (256 ≤ ((s.cc c).port p).elems.length → Completes (.elementArrival c p n first codes) s fun t =>
       (t.cc c).st = 2 ∧ (t.cc c).fault = 1 ∧ (t.cc c).fport = p ∧ ∀ g, g ≠ c → t.cc g = s.cc g))

/-- The record port (R310 to R312, R315): OPEN, data words, REC_TIME, CLOSE with enough credit, the stall without, and
its end. REC_TIME (R312): the greatest index at or below the latest one read whose low 36 bits are the word; the word
itself where there is none. -/
def Obligations.ConservatorRecords : Prop :=
  (∀ (c d : Nat) (s : State),
     let y := seen c s
     let w := (y.cur.dv d).toNat
     (consReady c (.recOpen c d) s → bitsOf w 34 2 = 1 → y.cur.opened = none →
       getU y.blk (8 + bitsOf w 32 2) 1 ≠ 0xFF → [2, 4, 5, 7, 8].contains (bitsOf w 28 4) = true →
       Completes (.recOpen c d) s fun t => Issues c s t fun b => { b with
         opened := some { stream := getU y.blk (8 + bitsOf w 32 2) 1, elem := bitsOf w 28 4, ref := bitsOf w 25 3,
                          sample := (y.port (bitsOf w 25 3)).last } }) ∧
     (∀ o, consReady c (.recData c d) s → y.cur.opened = some o → 4 * (o.words.length + 1) ≤ 16288 →
       Completes (.recData c d) s fun t => Issues c s t fun b =>
         { b with opened := some { o with words := BitVec.ofNat 32 w :: o.words } }) ∧
     (∀ o, consReady c (.recTime c d) s → y.cur.opened = some o → Completes (.recTime c d) s fun t =>
       Issues c s t fun b => { b with opened := some { o with time := some (timeFrom w (y.port o.ref).last) } }) ∧
     (∀ o n, consReady c (.close c d) s → bitsOf w 34 2 = 2 → y.cur.opened = some o → consElem o.elem = some n →
       4 * o.words.length % n = 0 →
       (consLength o.words.length * 256 ≤ y.credit → Completes (.close c d) s fun t =>
         (t.cc c).cur.opened = none ∧ (t.cc c).records = satAdd 64 (s.cc c).records 1 ∧
         (t.cc c).credit = min (16384 * 256) (y.credit - consLength o.words.length * 256 + getU y.blk 12 2) ∧
         (t.cc c).x = y.x ∧ (t.cc c).y = y.y ∧ ∀ g, g ≠ c → t.cc g = s.cc g) ∧
       (y.credit < consLength o.words.length * 256 → exec (.close c d) s =
         .next (s.setCore c (y.onBank fun b => { b with stall := 3 })))) ∧
     (∀ o clocks, (s.cc c).st = 1 → (s.cc c).cur.opened = some o → (s.cc c).cur.stall = 3 → swapDue s c (s.cc c) = false →
       consLength o.words.length * 256 ≤ (s.cc c).credit + clocks * getU (s.cc c).blk 12 2 →
       (clocks = 0 ∨ (s.cc c).credit + (clocks - 1) * getU (s.cc c).blk 12 2 < consLength o.words.length * 256) →
       Completes (.creditStallEnd c clocks) s fun t => (t.cc c).cur.opened = none ∧ (t.cc c).cur.stall = 0 ∧
         (t.cc c).stalled = satAdd 64 (s.cc c).stalled clocks ∧ (t.cc c).records = satAdd 64 (s.cc c).records 1)) ∧
  (∀ (v l : Nat), v < 2 ^ 36 →
     timeFrom v none = v ∧ timeFrom v (some l) % 2 ^ 36 = v ∧
     (v ≤ l → timeFrom v (some l) ≤ l ∧ ∀ k, k ≤ l → k % 2 ^ 36 = v → k ≤ timeFrom v (some l)) ∧
     (l < v → timeFrom v (some l) = v))

/-- Stimulus and signal ports (R316, R317). Interrupt entry (R305) and page swaps (R322, R323). -/
def Obligations.ConservatorOutputsAndInterrupts : Prop :=
  (∀ (c d k : Nat) (s : State),
     (k < (seen c s).stim.length → getU (seen c s).blk (14 + k) 1 ≠ 0xFF → ((seen c s).stimPort k).length < 256 →
       consReady c (.outStim c d k) s → Completes (.outStim c d k) s fun t => t = s.setCore c (t.cc c) ∧
         (t.cc c).stimPort k = (seen c s).stimPort k ++ [⟨(seen c s).origin + (seen c s).cyc + 2, (seen c s).cur.dv d⟩] ∧
         (t.cc c).cur = (seen c s).cur.next) ∧
     (getU (seen c s).blk (14 + k) 1 = 0xFF → consReady c (.outStim c d k) s → Completes (.outStim c d k) s fun t =>
       Issues c s t id) ∧
     (getU (s.cc c).blk (14 + k) 1 ≠ 0xFF → 256 ≤ ((s.cc c).stimPort k).length → consReady c (.outStim c d k) s →
       exec (.outStim c d k) s = .next (s.setCore c ((s.cc c).onBank fun b => { b with stall := 2 }))) ∧
     (∀ clocks, (s.cc c).st = 1 → (s.cc c).cur.stall = 2 → swapDue s c (s.cc c) = false →
       bitsOf (s.cc c).word 20 3 = k + 3 → ((s.cc c).stimPort k).length < 256 →
       Completes (.stimStallEnd c clocks) s fun t => t = s.setCore c (t.cc c) ∧ (t.cc c).cur.stall = 0 ∧
         (t.cc c).x = (s.cc c).x ∧ (t.cc c).y = (s.cc c).y) ∧
     (consReady c (.sig c d) s → ((seen c s).cur.dv d).toNat % 256 = 0 → Completes (.sig c d) s fun t =>
       Issues c s t id) ∧
     (consReady c (.sig c d) s → ((seen c s).cur.dv d).toNat % 256 ≠ 0 → s.coll.trgQ.length < 64 →
       Completes (.sig c d) s fun t => (t.cc c).cur = (seen c s).cur.next ∧ (∀ g, g ≠ c → t.cc g = s.cc g) ∧
         t.coll.ctlQ = s.coll.ctlQ ∧ t.coll.trgQ.length = s.coll.trgQ.length + 1 ∧
         ∃ m ∈ t.coll.trgQ, m.kind = 1 ∧ m.code = ((seen c s).cur.dv d).toNat % 256 ∧ m.sender = s.view.index ∧
           m.handle = getU (s.cc c).blk 0 2)) ∧
  (∀ (c : Nat) (s : State),
     ((s.cc c).st = 1 → swapDue s c (s.cc c) = false → (s.cc c).irq = true → Completes (.interruptEntry c 0) s fun t =>
       t = s.setCore c (t.cc c) ∧ (t.cc c).bank = true ∧ (t.cc c).irq = false ∧ (t.cc c).fg = (s.cc c).fg ∧
       (t.cc c).sh = { (s.cc c).sh with pc := getU (s.cc c).blk 6 2 }) ∧
     (∀ w ws, (s.cc c).swaps = w :: ws → swapDue s c (s.cc c) = true → w.halt = false → exec (.pageSwap c) s =
       .next (s.setCore c { s.cc c with swaps := ws, page := w.page, pseq := ((s.cc c).pseq + 1) % 2 ^ 32 })) ∧
     (∀ w ws, (s.cc c).swaps = w :: ws → swapDue s c (s.cc c) = true → w.halt = true →
       Completes (.pageSwap c) s fun t => (t.cc c).st = 0 ∧ (t.cc c).page = w.page ∧ (t.cc c).swaps = ws ∧
         (t.cc c).prog = (s.cc c).prog ∧ (t.cc c).x = (s.cc c).x ∧ (t.cc c).y = (s.cc c).y ∧ ∀ g, g ≠ c → t.cc g = s.cc g))

/-! ### The mailbox protocol (17) -/

/-- A refused command changes nothing but its mailbox, what has been sent and the time; LAST_SEQ and the stored response
are its own (R467, R471). A function other than PF0 is refused a command of PF0 (E_NOT_PF), and nothing else changes
(R463, R493). -/
def Obligations.RefusedCommandChangesNothing : Prop :=
  (∀ (i : Instr) (op : Nat) (pf : Bool) (r : Req) (body : State → Effect) (s : State) (e : Err),
     mailRow i = some (op, pf, r, body) → Fresh r s → (pf = true → r.fn = 0) → body (s.tick r.t) = .error e →
     e.result.length ≤ 2016 →
     Completes i s fun t => Answered op r s t e.code e.detail e.result ∧ MailOnly r s t) ∧
  (∀ (i : Instr) (op : Nat) (r : Req) (body : State → Effect) (s : State),
     mailRow i = some (op, true, r, body) → Fresh r s → r.fn ≠ 0 →
     Completes i s fun t => Answered op r s t eNotPf 0 [] ∧ MailOnly r s t)

/-- SEQ = LAST_SEQ + 1 executes and becomes LAST_SEQ, whether the command succeeds or is refused; SEQ = LAST_SEQ repeats
the stored response with REPLAY set and executes nothing; any other is refused with E_SEQ, and DETAIL gives the low 16
bits of LAST_SEQ + 1. LAST_SEQ and the stored response outlive every reset but a cold one (R467). -/
def Obligations.SequenceNumbers : Prop :=
  (∀ (i : Instr) (op : Nat) (pf : Bool) (r : Req) (body : State → Effect) (s : State) (p : Resp),
     mailRow i = some (op, pf, r, body) → (s.tick r.t).accepting = true → r.seq = (s.mb r.fn).lastSeq →
     r.seq < 2 ^ 32 → (s.mb r.fn).stored = some p →
     Completes i s fun t => (t.mb r.fn).stored = some p ∧ (t.mb r.fn).lastSeq = (s.mb r.fn).lastSeq ∧
       (t.mb r.fn).replay = true ∧ (t.mb r.fn).respValid = true ∧ (t.mb r.fn).busy = false ∧
       (t.mb r.fn).area.take 32 = p.header true ∧ MailOnly r s t) ∧
  (∀ (i : Instr) (op : Nat) (pf : Bool) (r : Req) (body : State → Effect) (s : State),
     mailRow i = some (op, pf, r, body) → (s.tick r.t).accepting = true → r.seq ≠ (s.mb r.fn).lastSeq →
     r.seq ≠ ((s.mb r.fn).lastSeq + 1) % 2 ^ 32 →
     Completes i s fun t => (t.mb r.fn).stored = (s.mb r.fn).stored ∧ (t.mb r.fn).lastSeq = (s.mb r.fn).lastSeq ∧
       (t.mb r.fn).respValid = true ∧ getU (t.mb r.fn).area 12 2 = 3 ∧
       getU (t.mb r.fn).area 14 2 = ((s.mb r.fn).lastSeq + 1) % 65536 ∧ MailOnly r s t) ∧
  (∀ (s : State) (g : Nat),
     (∀ (i : Instr) (op : Nat) (pf : Bool) (r : Req) (body : State → Effect),
       mailRow i = some (op, pf, r, body) → (s.tick r.t).accepting = true →
       r.seq = ((s.mb r.fn).lastSeq + 1) % 2 ^ 32 → Completes i s fun t => (t.mb r.fn).lastSeq = r.seq) ∧
     (∀ i, ((∃ fn t, i = .functionLevelReset fn t) ∨ (∃ t, i = .hotReset t) ∨ (∃ p t, i = .perst p t ∧ s.boot.strapPerst = false) ∨
         (∃ us d t, i = .curatorRestartDone us d t) ∨ (∃ t, i = .watchdogExpiry t) ∨ (∃ t, i = .lockstepMismatch t) ∨
         ∃ x t, i = .activationTimeout x t) →
       Completes i s fun t => (t.mb g).lastSeq = (s.mb g).lastSeq ∧ (t.mb g).stored = (s.mb g).stored) ∧
     ∀ straps sp, Completes (.coldReset straps sp) s fun t => (t.mb g).lastSeq = 0 ∧ (t.mb g).stored = none)

/-- Status of the device (R74, R355, R455, R494, R495, R521, R545): the command answers with its block as it stands at
the time of the response and changes nothing else. Status of one numbered unit (R100, R118, R377, R417, R453): the block
of that unit. WING_STATUS takes the clipped samples of the channels since the last one (log 35), STIMULUS_STATUS the
clamped samples up to now. -/
def Obligations.DeviceAndUnitStatus : Prop :=
  (∀ (r : Req) (s : State), Fresh r s → r.len = 0 →
     let u := s.tick r.t
     Reports (.deviceInfo r) 0x01 r s (deviceInfoBytes u r.fn) ∧
     Reports (.cadenceStatus r) 0x20 r s (cadenceStatusBytes u) ∧
     Reports (.comparatorStatus r) 0x71 r s (comparatorStatusBytes u) ∧
     (r.fn = 0 → Fits r (64 + 64 * s.arcD) → Reports (.archiveStatus r) 0x93 r s (archiveStatusBytes u)) ∧
     Reports (.collectionStatus r) 0xA2 r s (collectionStatusBytes u) ∧
     Reports (.powerStatus r) 0xA8 r s (powerStatusBytes u) ∧
     Reports (.fwStatus r) 0xC3 r s (fwStatusBytes u.boot)) ∧
  (∀ (r : Req) (s : State) (n : Nat), Fresh r s → r.len = 8 → r.u 2 6 = 0 → r.u 0 2 = n →
     let u := s.tick r.t
     (n < 4 → r.env = [] → Reports (.wingStatus r) 0x28 r s (wingStatusBytes u n)) ∧
     (n < 4 → r.env.length ≤ 12 → Completes (.wingStatus r) s fun t =>
       Answered 0x28 r s t eOk 0 (wingStatusBytes t n) ∧ Leaves { u with chan := t.chan } t ∧
       (∀ i k, r.env[i]? = some k → t.ch (12 * n + i) =
         { s.ch (12 * n + i) with clip := min ((s.ch (12 * n + i)).clip + k) 0xFFFFFFFF }) ∧
       ∀ c, (∀ i, i < r.env.length → c ≠ 12 * n + i) → t.ch c = s.ch c) ∧
     (n < 12 → Reports (.mountStatus r) 0x30 r s (mountStatusBytes u n)) ∧
     (n < 12 → Reports (.mountRead r) 0x31 r s (padTo 512 (s.mt n).record)) ∧
     (n < 8 → Completes (.stimulusStatus r) s fun t => Answered 0x78 r s t eOk 0 (stimulusStatusBytes t n) ∧
       Leaves { u with dac := t.dac } t ∧ (∀ d, d ≠ n → t.dc d = s.dc d) ∧
       t.dc n = { s.dc n with clip := (t.dc n).clip, formed := (t.dc n).formed } ∧
       ((s.dc n).source = 1 ∨ (s.dc n).source = 2 → (s.dc n).held = none → (t.dc n).clip = satAdd 32 (s.dc n).clip
         ((List.range (u.cad.now - (s.dc n).formed)).filter fun i =>
           match rawCode (u.samplesOf (s.dc n)) (s.dc n) ((s.dc n).formed + i) with
           | some c => satHit 14 c | none => false).length) ∧
       (¬((s.dc n).source = 1 ∨ (s.dc n).source = 2) → (t.dc n).clip = (s.dc n).clip)) ∧
     (n < 16 → Reports (.levelStatus r) 0x79 r s (levelStatusBytes u n)) ∧
     (n < 2 → Reports (.memoryStatus r) 0x88 r s (memoryStatusBytes u n)) ∧
     (n < 64 → (r.fn = 0 ∨ (s.qu n).fn = r.fn) → Reports (.courierStatus r) 0x92 r s (courierStatusBytes u n)) ∧
     (n < 1024 → (s.sto n).on = true → s.storeOwner n = r.fn → Reports (.storeStatus r) 0x60 r s (pageBytes u n)))

/-- Status of an exhibit that the function owns (R144, R173, R236, R254, R328), and EXHIBIT_QUERY of any handle of this
device (R485). -/
def Obligations.ExhibitStatusCommands : Prop :=
  ∀ (r : Req) (s : State) (h : Nat), Fresh r s → r.len = 8 →
    let u := s.tick r.t
    (∀ e, r.u 2 6 = 0 → r.u 0 2 = h → s.view.find h = some e → e.owner = r.fn →
      (e.kind ≤ 1 → Reports (.decimationStatus r) 0x38 r s (decimationStatusBytes u h)) ∧
      (e.kind ≤ 1 → Reports (.spectrumStatus r) 0x41 r s (spectrumStatusBytes u h)) ∧
      Reports (.triggerStatus r) 0x53 r s (triggerStatusBytes u h) ∧
      ((s.block btTrigger [h]).u 3 1 = 2 → Reports (.attendantStatus r) 0x59 r s (attendantStatusBytes u h))) ∧
    (∀ c, r.u 3 5 = 0 → slotOf s r = .ok c →
      Reports (.conservatorStatus r) 0x6B r s (conservatorStatusBytes (r.u 0 2) c (s.cc c))) ∧
    (r.u 2 6 = 0 → r.u 0 2 = h → s.view.isOwn h = true →
      let e := s.view.ex (h % 4096)
      Fits r (16 + 2 * e.members.length) → Reports (.exhibitQuery r) 0x12 r s (fields ([(2, h), (1, e.kind), (1, e.owner),
        (4, if e.st = 1 then e.epoch + 1 else e.epoch), (1, if e.st = 2 ∧ s.dying h then 3 else e.st), (3, 0),
        (2, e.members.length), (2, 0)] ++ e.members.map (2, ·))))

/-- Reads of blocks, memories and logs (R327, R393, R478, R567). CAL_STATUS of a calibration that has not reported
answers with bytes of which nothing is known (log 51). -/
def Obligations.ReadCommands : Prop :=
  ∀ (r : Req) (s : State), Fresh r s →
    let u := s.tick r.t
    (∀ b : Block, blockSize b.typ ≠ 0 → r.len = 8 + blockSize b.typ → r.u 0 2 = b.typ → r.u 3 5 = 0 →
      b.data = slice r.bytes 8 (blockSize b.typ) →
      allZero ((blockKey b.typ).foldl (fun d k => putU d k.1 k.2 0) b.data) = true → keyOwned s r.fn b = .ok () →
      (r.u 2 1 = 1 → Fits r (s.view.instanceIn s.cur.committed b).data.length →
        Reports (.blockRead r) 0x04 r s (s.view.instanceIn s.cur.committed b).data) ∧
      (r.u 2 1 = 2 → Fits r (s.lastView.instanceIn s.lastView.blocks b).data.length →
        Reports (.blockRead r) 0x04 r s (s.lastView.instanceIn s.lastView.blocks b).data) ∧
      (r.u 2 1 = 0 → s.cur.staged = [] → Fits r (s.view.instanceIn s.cur.committed b).data.length →
        Reports (.blockRead r) 0x04 r s (s.view.instanceIn s.cur.committed b).data)) ∧
    (∀ c, r.len = 24 → r.u 12 4 = 0 → r.u 16 8 = 0 → slotOf s r = .ok c → 1 ≤ r.u 8 4 → r.u 4 4 + r.u 8 4 ≤ 16384 →
      (r.u 3 1 = 0 → Fits r (4 * r.u 8 4) → Reports (.conservatorRead r) 0x6A r s
        ((cgetAll haltWord (s.cc c).prog (r.u 4 4) (r.u 8 4)).flatMap fun w => leBytes 4 w.toNat)) ∧
      (r.u 3 1 = 1 → Fits r (8 * r.u 8 4) → Reports (.conservatorRead r) 0x6A r s
        ((cgetAll word36 (s.cc c).x (r.u 4 4) (r.u 8 4)).flatMap fun w => leBytes 8 w.toNat)) ∧
      (r.u 3 1 = 2 → Fits r (8 * r.u 8 4) → Reports (.conservatorRead r) 0x6A r s
        ((cgetAll word36 (s.cc c).y (r.u 4 4) (r.u 8 4)).flatMap fun w => leBytes 8 w.toNat))) ∧
    (r.len = 16 → r.u 8 8 = 0 → 1 ≤ r.u 4 4 → r.u 4 4 ≤ 64 → s.health.total - s.health.entries.length ≤ r.u 0 4 →
      Fits r (16 + 32 * r.u 4 4) → Reports (.healthLogRead r) 0xB0 r s (healthLogBytes s.health (r.u 0 4) (r.u 4 4))) ∧
    (∀ k n, r.len = 8 → r.u 4 4 = 0 → r.u 0 2 = k → r.u 2 2 = n → k ≤ 5 → calUnitOk k n = true →
      (∀ b, tfind s.hk.reports (calTag k n) = some b → Fits r (b.length + 1) → Reports (.calStatus r) 0x82 r s
        (b ++ leBytes 1 (b2n (s.calSpans.any fun p => p.tag == calTag k n && p.hi.isNone)))) ∧
      (tfind s.hk.reports (calTag k n) = none → Completes (.calStatus r) s fun t =>
        ∃ b : List Byte, Answered 0x82 r s t eOk 0 b ∧
          { t with mbox := s.mbox, sent := s.sent, free := s.free } = u))

/-! ### What commands do (16 to 21) -/

/-- EVENT_RING_SET sets the function's ring and starts its count at 0 (R486); EV_EVENTS_LOST is its first record where
events were lost before (R488), and an EV_FW_ROLLBACK that waited goes out (R579). BLOCK_STAGE puts a block that passes
its checks into the function's staged set in place of one with the same type and key, and STAGE_DISCARD empties the set
and frees the numbers that it defined (R476, R478, R484). -/
def Obligations.EventRingAndStagedSet : Prop :=
  (∀ (r : Req) (s : State) (k : Nat), Fresh r s → r.len = 16 → r.u 12 4 = 0 → r.u 0 8 % 4096 = 0 → 6 ≤ k → k ≤ 16 →
     r.u 8 4 = 2 ^ k →
     Accepts (.eventRingSet r) 0x02 r s fun t =>
       (t.mb r.fn).ringAddr = r.u 0 8 ∧ (t.mb r.fn).ringSize = 2 ^ k ∧ (t.mb r.fn).consumed = 0 ∧
       (s.boot.rollback = none →
         ((s.mb r.fn).lostCount = 0 → (t.mb r.fn).produced = 0 ∧ MailOnly r s t) ∧
         ((s.mb r.fn).lostCount ≠ 0 → (t.mb r.fn).produced = 1 ∧ (t.mb r.fn).lostCount = 0 ∧ MailOnly r s t)) ∧
       (s.boot.rollback.isSome → t.boot = { s.boot with rollback := none } ∧
         Leaves { s.tick r.t with boot := t.boot } t)) ∧
  (∀ (r : Req) (s : State), Fresh r s →
     let u := s.tick r.t
     (∀ b : Block, blockSize b.typ ≠ 0 → r.len = 8 + blockSize b.typ → r.u 0 2 = b.typ → r.u 2 6 = 0 →
       b.data = slice r.bytes 8 (blockSize b.typ) → blockOwned s r.fn b = .ok () → stageCheck b = none →
       Accepts (.blockStage r) 0x03 r s fun t =>
         (∀ x, x ∈ t.cur.staged ↔ x = ⟨r.fn, .block b⟩ ∨
           (x ∈ s.cur.staged ∧ ¬∃ c, x = ⟨r.fn, .block c⟩ ∧ s.view.sameKey b c = true)) ∧
         t.cur = { s.cur with staged := t.cur.staged } ∧ Leaves { u with cur := t.cur } t) ∧
     (r.len = 0 → Accepts (.stageDiscard r) 0x05 r s fun t =>
       (∀ x, x ∈ t.cur.staged ↔ x ∈ s.cur.staged ∧ x.fn ≠ r.fn) ∧
       (∀ n, (∃ h kd ms, ⟨r.fn, .define h kd ms⟩ ∈ s.cur.staged ∧ h % 4096 = n) → (s.view.ex n).st = 1 →
         t.view.ex n = { epoch := (s.view.ex n).epoch }) ∧
       (∀ n, ((¬∃ h kd ms, ⟨r.fn, .define h kd ms⟩ ∈ s.cur.staged ∧ h % 4096 = n) ∨ (s.view.ex n).st ≠ 1) →
         t.view.ex n = s.view.ex n) ∧
       t.cur = { s.cur with staged := t.cur.staged } ∧ Leaves { u with cur := t.cur, exh := t.exh } t))

/-- A COMMIT that passes the checks of R480 and that the Commons admits waits for S_T: it joins the pending commits, its
blocks leave the staged set, and the committed blocks and exhibits stay as they are; the response gives its number,
sample and time (R479, R480, R530). One that fails them for another reason than leave changes nothing. COMMIT_CANCEL
takes a pending commit of the function away while its lead has not begun, where no later commit needs it (R482); the
numbers of definitions in it are free again (R484; log 28). -/
def Obligations.CommitIsPlannedOrCancelled : Prop :=
  (∀ (r : Req) (s : State), Fresh r s → r.len = 16 → r.u 3 1 = 0 → r.u 14 2 = 0 → r.u 2 1 < 4 →
     let u := s.tick r.t
     let all := r.u 2 1 / 2 == 1
     let T := if r.u 2 1 % 2 = 1 then asapTime u.cad else ctOfBytes r.params 4
     (all = true ∨ (collectionRequest r s = false ∧ ∃ e, s.view.find (r.u 0 2) = some e ∧ e.owner = r.fn)) →
     T.slot < s.cad.spt →
     (∀ a, planCommit u r.fn all (r.u 0 2) T r.env leadSamples none = .ok a → Completes (.commit r) s fun t =>
       Answered 0x06 r s t eOk 0 (fields ([(4, a.p.id), (4, 0), (8, a.p.sT)] ++ ctFields a.p.time)) ∧
       t.cur.pending = s.cur.pending ++ [a.p] ∧ t.cur.committed = s.cur.committed ∧ t.exh = s.exh ∧
       (∀ x, x ∈ t.cur.staged ↔ x ∈ s.cur.staged ∧ ¬(x.fn = a.p.fn ∧ x.item ∈ a.p.items)) ∧
       a.p.id = s.cur.nextCommit ∧ a.p.fn = r.fn ∧ (a.delay = none → a.p.time = T ∧ a.p.sT = sampleOf u.cad T) ∧
       Leaves { u with cur := t.cur, gal := { s.gal with migr := s.gal.migr ++ a.migr },
                       pow := { s.pow with delayed := t.pow.delayed } } t) ∧
     (∀ e, planCommit u r.fn all (r.u 0 2) T r.env leadSamples none = .error e → e.code ≠ eLeaveRefused →
       e.result.length ≤ 2016 →
       Completes (.commit r) s fun t => Answered 0x06 r s t e.code e.detail e.result ∧ MailOnly r s t) ∧
     (∀ e, planCommit u r.fn all (r.u 0 2) T r.env leadSamples none = .error e → e.code = eLeaveRefused →
       e.result.length ≤ 2016 → Completes (.commit r) s fun t =>
         Answered 0x06 r s t eLeaveRefused e.detail e.result ∧ t.cur.staged = s.cur.staged ∧
         t.cur.pending = s.cur.pending ∧ t.cur.committed = s.cur.committed ∧ t.exh = s.exh ∧
         t.pow.refused = satAdd 32 s.pow.refused 1)) ∧
  (∀ (r : Req) (s : State) (p : Pending), Fresh r s → r.len = 8 → r.u 4 4 = 0 →
     s.cur.pending.find? (fun p => p.id == r.u 0 4 && p.fn == r.fn) = some p →
     tooSoon (s.tick r.t).cad p.time = false →
     (∀ q ∈ s.cur.pending, q.id ≠ p.id → ctLt q.time p.time = true) →
     Accepts (.commitCancel r) 0x07 r s fun t =>
       (∀ q, q ∈ t.cur.pending ↔ q ∈ s.cur.pending ∧ q.id ≠ p.id) ∧ t.cur.staged = s.cur.staged ∧
       t.cur.committed = s.cur.committed ∧ (galleryMoves s.view p.items = [] → t.gal = s.gal) ∧
       (∀ n, (∃ h kd ms, .define h kd ms ∈ p.items ∧ h % 4096 = n) → (s.view.ex n).st = 1 →
         t.view.ex n = { epoch := (s.view.ex n).epoch }) ∧
       (∀ n, (¬∃ h kd ms, .define h kd ms ∈ p.items ∧ h % 4096 = n) ∨ (s.view.ex n).st ≠ 1 →
         t.view.ex n = s.view.ex n) ∧ Leaves { s.tick r.t with cur := t.cur, gal := t.gal, exh := t.exh } t)

/-- EXHIBIT_DEFINE takes a free number at once and stages the definition; EXHIBIT_DELETE frees a definition that has not
been committed, and stages the deletion of a committed exhibit; EXHIBIT_ASSIGN stages the change of owner (R484, R485).
-/
def Obligations.ExhibitCommands : Prop :=
  ∀ (r : Req) (s : State), Fresh r s →
    let u := s.tick r.t
    (Passes (exhibitDefineBody r u) → ∃ n, (s.view.ex n).st = 0 ∧
      let h := (if r.u 2 1 = 3 then s.view.lead else s.view.index) * 4096 + n
      let ms := (List.range (r.u 4 2)).map fun i => r.u (8 + 2 * i) 2
      ((r.u 3 1).testBit 0 = false → n = r.u 0 2 % 4096) ∧
      ((r.u 3 1).testBit 0 = true → ∀ m < n, (s.view.ex m).st ≠ 0) ∧
      Completes (.exhibitDefine r) s fun t =>
        Answered 0x10 r s t eOk 0 (fields [(2, h)]) ∧
        t.view.ex n = { s.view.ex n with kind := r.u 2 1, owner := r.fn, st := 1, members := ms } ∧
        (∀ m, m ≠ n → t.view.ex m = s.view.ex m) ∧
        t.cur = { s.cur with staged := s.cur.staged ++ [⟨r.fn, .define h (r.u 2 1) ms⟩] } ∧
        Leaves { u with cur := t.cur, exh := t.exh } t) ∧
    -- an array under the first free number, of defined exhibits of the function or undefined ones
    (∀ n, r.len = 8 + 2 * r.u 4 2 → r.u 2 1 = 2 → r.u 3 1 = 1 → r.u 6 2 = 0 → 1 ≤ r.u 4 2 → r.u 4 2 ≤ 4095 → n < 4096 →
      (s.view.ex n).st = 0 → (∀ i e, i < r.u 4 2 → s.view.find (r.u (8 + 2 * i) 2) = some e → e.owner = r.fn) →
      Passes (exhibitDefineBody r u)) ∧
    (∀ h e, r.len = 8 → r.u 2 6 = 0 → r.u 0 2 = h → s.view.find h = some e → e.owner = r.fn → e.kind ≠ 0 →
      (e.st = 2 → Accepts (.exhibitDelete r) 0x11 r s fun t =>
        (∀ x, x ∈ t.cur.staged ↔ x = ⟨r.fn, .delete h⟩ ∨ x ∈ s.cur.staged) ∧
        t.cur = { s.cur with staged := t.cur.staged } ∧ Leaves { u with cur := t.cur } t) ∧
      (e.st = 1 → (∃ kd ms, ⟨r.fn, .define h kd ms⟩ ∈ s.cur.staged) → Accepts (.exhibitDelete r) 0x11 r s fun t =>
        (∀ x, x ∈ t.cur.staged ↔ x ∈ s.cur.staged ∧ ¬∃ kd ms, x = ⟨r.fn, .define h kd ms⟩) ∧
        t.view.ex (h % 4096) = { epoch := e.epoch } ∧ (∀ m, m ≠ h % 4096 → t.view.ex m = s.view.ex m) ∧
        t.cur = { s.cur with staged := t.cur.staged } ∧ Leaves { u with cur := t.cur, exh := t.exh } t)) ∧
    (∀ h e, r.fn = 0 → r.len = 8 → r.u 4 4 = 0 → r.u 0 2 = h → s.view.committed h = some e →
      r.u 2 2 ≤ s.boot.numVfs → s.view.exActive h = false → Accepts (.exhibitAssign r) 0x13 r s fun t =>
        (∀ x, x ∈ t.cur.staged ↔ x = ⟨0, .assign h (r.u 2 2)⟩ ∨
          (x ∈ s.cur.staged ∧ ¬∃ f, x.item = .assign h f)) ∧
        t.exh = s.exh ∧ t.cur = { s.cur with staged := t.cur.staged } ∧ Leaves { u with cur := t.cur } t)

/-- WINDOW_LOAD, MASK_LOAD and ATTENDANT_LOAD write their words into the shadow copy, word by word in the order of the
block, and leave every other word, every other copy, and the words in effect as they are (R151, R206, R250, R474). -/
def Obligations.ShadowLoads : Prop :=
  ∀ (r : Req) (s : State) (x f n : Nat), Fresh r s → Memory.wf s = true → r.u 0 2 = x → r.u 4 4 = f → r.u 8 4 = n →
    r.u 2 2 = 0 → r.u 12 4 = 0 →
    let u := s.tick r.t
    (r.len = 16 + 4 * n → x < 8 → f + n ≤ 65536 →
      (∀ i < n, -131072 ≤ getI r.params (16 + 4 * i) 4 ∧ getI r.params (16 + 4 * i) 4 ≤ 131071) →
      Accepts (.windowLoad r) 0x40 r s fun t =>
        let m := tget ({} : WindowMem) s.wram x
        let m' := tget ({} : WindowMem) t.wram x
        (∀ a, cget (fun _ => 0) m'.shadow a =
          if f ≤ a ∧ a < f + n then BitVec.ofInt 18 (getI r.params (16 + 4 * (a - f)) 4)
          else cget (fun _ => 0) (if m.dirty then m.shadow else m.cur) a) ∧
        m'.dirty = true ∧ m'.cur = m.cur ∧ (∀ p, p ≠ x → tget ({} : WindowMem) t.wram p = tget {} s.wram p) ∧
        Leaves { u with wram := t.wram } t) ∧
    (∀ e, s.view.find x = some e → e.owner = r.fn → e.kind ≤ 1 → s.view.gangMember x = false → r.len = 16 + 8 * n →
      f + n ≤ 2 ^ (u.stagedBlock r.fn btMask [x]).u 2 1 → Passes (maskLoadBody r u) →
      Accepts (.maskLoad r) 0x50 r s fun t =>
        let m := tget ({} : WordMem) s.mask x
        let m' := tget ({} : WordMem) t.mask x
        (∀ a, cget limitDefault m'.shadow a =
          if 2 * f ≤ a ∧ a < 2 * (f + n) then BitVec.ofNat 32 (loadWord r.params 16 4 (2 * f) a)
          else cget limitDefault (if m.dirty then m.shadow else m.cur) a) ∧
        m'.dirty = true ∧ m'.cur = m.cur ∧ (∀ p, p ≠ x → tget ({} : WordMem) t.mask p = tget {} s.mask p) ∧
        Leaves { u with mask := t.mask } t) ∧
    (∀ e, s.view.find x = some e → e.owner = r.fn → r.len = 16 + 4 * n →
      f + n ≤ (u.stagedBlock r.fn btProgram [x]).u 2 2 →
      Accepts (.attendantLoad r) 0x58 r s fun t =>
        let m := tget ({} : WordMem) s.prog x
        let m' := tget ({} : WordMem) t.prog x
        (∀ a, cget haltWord m'.shadow a =
          if f ≤ a ∧ a < f + n then BitVec.ofNat 32 (loadWord r.params 16 4 f a)
          else cget haltWord (if m.dirty then m.shadow else m.cur) a) ∧
        m'.dirty = true ∧ m'.cur = m.cur ∧ (∀ p, p ≠ x → tget ({} : WordMem) t.prog p = tget {} s.prog p) ∧
        Leaves { u with prog := t.prog } t)

/-- CONSERVATOR_LOAD writes program words, or X or Y words and their image, of a halted core; CONSERVATOR_PARAM writes
the shadow page; STORE_LOAD writes samples of a playback Store that nothing plays (R285, R320, R322, R327).
STORE_RELEASE moves the release pointer of a window Store to a record's start, and releases the complete segments of a
segment Store below its count (R276, R289). -/
def Obligations.MemoryLoadsAndReleases : Prop :=
  (∀ (r : Req) (s : State) (f n : Nat), Fresh r s → Memory.wf s = true →
     let u := s.tick r.t
     (∀ c, r.len = 24 → r.u 12 4 = 0 → slotOf s r = .ok c → r.u 4 4 = f → r.u 8 4 = n → f < 16384 → 1 ≤ n →
       f + n ≤ 16384 → (s.cc c).st ≠ 1 →
       (r.u 3 1 = 0 → Accepts (.conservatorLoad r) 0x68 r s fun t =>
         (∀ a, cget haltWord (t.cc c).prog a = if f ≤ a ∧ a < f + n then BitVec.ofNat 32 (loadWord r.payload 0 4 f a)
           else cget haltWord (s.cc c).prog a) ∧
         t.cc c = { s.cc c with prog := (t.cc c).prog } ∧ Leaves (u.setCore c (t.cc c)) t) ∧
       ((∀ w ∈ wide r.payload 0 n, w < 2 ^ 36) →
         (r.u 3 1 = 1 → Accepts (.conservatorLoad r) 0x68 r s fun t =>
           (∀ a, cget word36 (t.cc c).x a = if f ≤ a ∧ a < f + n then BitVec.ofNat 36 (loadWord r.payload 0 8 f a)
             else cget word36 (s.cc c).x a) ∧
           (∀ a, cget word36 (t.cc c).imgX a = if f ≤ a ∧ a < f + n then BitVec.ofNat 36 (loadWord r.payload 0 8 f a)
             else cget word36 (s.cc c).imgX a) ∧
           t.cc c = { s.cc c with x := (t.cc c).x, imgX := (t.cc c).imgX } ∧ Leaves (u.setCore c (t.cc c)) t) ∧
         (r.u 3 1 = 2 → Accepts (.conservatorLoad r) 0x68 r s fun t =>
           (∀ a, cget word36 (t.cc c).y a = if f ≤ a ∧ a < f + n then BitVec.ofNat 36 (loadWord r.payload 0 8 f a)
             else cget word36 (s.cc c).y a) ∧
           (∀ a, cget word36 (t.cc c).imgY a = if f ≤ a ∧ a < f + n then BitVec.ofNat 36 (loadWord r.payload 0 8 f a)
             else cget word36 (s.cc c).imgY a) ∧
           t.cc c = { s.cc c with y := (t.cc c).y, imgY := (t.cc c).imgY } ∧ Leaves (u.setCore c (t.cc c)) t))) ∧
     (∀ c, r.len = 24 + 8 * n → r.u 3 1 = 0 → r.u 12 12 = 0 → slotOf s r = .ok c → r.u 4 4 = f → r.u 8 4 = n → 1 ≤ n →
       n ≤ 256 → f + n ≤ 256 → (∀ w ∈ wide r.params 24 n, w < 2 ^ 36) → Accepts (.conservatorParam r) 0x69 r s fun t =>
         (∀ a, cget word36 (t.cc c).shadow a =
           if f ≤ a ∧ a < f + n then BitVec.ofNat 36 (loadWord r.params 24 8 f a) else cget word36 (s.cc c).shadow a) ∧
         t.cc c = { s.cc c with shadow := (t.cc c).shadow } ∧ Leaves (u.setCore c (t.cc c)) t) ∧
     (∀ m, r.fn = 0 → r.len = 32 → r.u 2 6 = 0 → r.u 0 2 = m → m < 1024 → (s.sto m).on = true → (s.sto m).mode = 2 →
       s.plays m = false → r.u 8 8 = f → r.u 16 8 = n → f % 16 = 0 → n % 16 = 0 → 2 * (f + n) ≤ (s.sto m).size - 4096 →
       Accepts (.storeLoad r) 0x62 r s fun t =>
         (∀ a, cget sampleDefault (t.sto m).samples a =
           if f ≤ a ∧ a < f + n then BitVec.ofNat 16 (loadWord r.payload 0 2 f a)
           else cget sampleDefault (s.sto m).samples a) ∧
         t.sto m = { s.sto m with samples := (t.sto m).samples, gen := (t.sto m).gen } ∧ (∀ k, k ≠ m → t.sto k = s.sto k) ∧
         Leaves { u with store := t.store } t)) ∧
  (∀ (r : Req) (s : State) (n v : Nat), Fresh r s → r.len = 16 → r.u 2 6 = 0 → r.u 0 2 = n → r.u 8 8 = v → n < 1024 →
     (s.sto n).on = true → s.storeOwner n = r.fn → s.view.consumed n = false →
     ((s.sto n).mode = 0 → (s.sto n).release ≤ v → (v = (s.sto n).write ∨ ∃ k ∈ (s.sto n).recs, k.pos = v) →
       Accepts (.storeRelease r) 0x61 r s fun t =>
         t.sto n = { s.sto n with release := v, head := [], head2 := [], gen := (t.sto n).gen } ∧
         (∀ k, k ≠ n → t.sto k = s.sto k) ∧ Leaves { s.tick r.t with store := t.store } t) ∧
     ((s.sto n).mode = 1 → v ≤ (s.sto n).segNext → Accepts (.storeRelease r) 0x61 r s fun t =>
       (t.sto n).segs.length = (s.sto n).segs.length ∧
       (∀ (i : Nat) (g : Seg), (s.sto n).segs[i]? = some g →
         (t.sto n).segs[i]? = some { g with st := if g.n < v ∧ g.st = 2 then 3 else g.st }) ∧
       (t.sto n).segRel = (t.sto n).segFloor ∧
       t.sto n = { s.sto n with segs := (t.sto n).segs, segRel := (t.sto n).segRel, gen := (t.sto n).gen } ∧
       (∀ k, k ≠ n → t.sto k = s.sto k) ∧ Leaves { s.tick r.t with store := t.store } t))

/-- Scheduled actions wait for their time under the next action number: Sward snapshots, TRIGGER_ARM and TRIGGER_FORCE,
comparator clears, injected conversions, calibrations (R49 to R53, R180, R235, R336, R382, R389). -/
def Obligations.ActionsAreScheduled : Prop :=
  ∀ (r : Req) (s : State), Fresh r s →
    let u := s.tick r.t
    (Passes (swardSnapshotBody r u) → Accepts (.swardSnapshot r) 0x48 r s fun t =>
      t.cur = scheduled s r.fn ⟨r.u 4 6, r.u 2 2, r.u 10 2⟩ (some (r.u 0 2)) (.snapshot (r.u 12 1)) ∧
      Leaves { u with cur := t.cur } t) ∧
    (∀ h e, r.len = 16 → r.u 3 1 = 0 → r.u 14 2 = 0 → r.u 0 2 = h → s.view.find h = some e → e.owner = r.fn →
      s.view.gangMember h = false → collectionRequest r s = false →
      (∀ m ∈ s.view.triggerReach h, ∀ e', s.view.find m = some e' → e'.owner = r.fn) →
      (r.u 2 1 ≤ 2 → Schedulable u (ctOfBytes r.params 4) 6 (s.view.triggerReach h) → Accepts (.triggerArm r) 0x51 r s fun t =>
        t.cur = scheduled s r.fn (ctOfBytes r.params 4) (some h) (.arm (r.u 2 1)) ∧ Leaves { u with cur := t.cur } t) ∧
      (∀ T, (r.u 2 1 = 0 ∧ T = ctOfBytes r.params 4 ∨ r.u 2 1 = 1 ∧ T = asapTime u.cad) →
        Schedulable u T 6 (s.view.triggerReach h) → (e.kind = 0 ∨ ∃ b ∈ (u.viewAt T).conditions h, b.u 3 1 = 12) →
        Completes (.triggerForce r) s fun t => Answered 0x52 r s t eOk 0 (fields (ctFields T)) ∧
          t.cur = scheduled s r.fn T (some h) .force ∧ Leaves { u with cur := t.cur } t)) ∧
    (r.fn = 0 → r.len = 24 → r.u 10 6 = 0 → Schedulable u (ctOfBytes r.params 0) 1 [] →
      Accepts (.comparatorClear r) 0x70 r s fun t =>
        t.cur = scheduled s r.fn (ctOfBytes r.params 0) none (.clear (r.u 16 8)) ∧ Leaves { u with cur := t.cur } t) ∧
    (r.fn = 0 → r.len = 16 → r.u 13 3 = 0 → r.u 10 1 ≤ 1 → r.u 11 1 ≤ 31 → r.u 12 1 ≤ 8 →
      (s.cur.actions.filter fun a => match a.act with | .inject c _ _ => c == r.u 10 1 | _ => false).length < 16 →
      Schedulable u (ctOfBytes r.params 0) 4 [] → Accepts (.hkInject r) 0x80 r s fun t =>
        t.cur = scheduled s r.fn (ctOfBytes r.params 0) none (.inject (r.u 10 1) (r.u 11 1) (r.u 12 1)) ∧
        Leaves { u with cur := t.cur } t) ∧
    (∀ k n T, r.fn = 0 → r.len = 16 → r.u 12 4 = 0 → r.u 10 1 = k → r.u 11 1 = n → k ≤ 5 → calUnitOk k n = true →
      T = ctOfBytes r.params 0 → Schedulable u T 4 [] →
      (∀ a ∈ s.cur.actions, a.time = T → a.act ≠ .cal k n true ∧ a.act ≠ .cal k n false) →
      let g : Grant := ⟨11, calTag k n, 500, sampleOf u.cad T, some (sampleOf u.cad T + calSpan), 0⟩
      (grantFits u g = true → Accepts (.calStart r) 0x81 r s fun t =>
        t.cur = scheduled s r.fn T none (.cal k n false) ∧ Leaves { u with cur := t.cur } t) ∧
      (grantFits u g = false → Completes (.calStart r) s fun t => Answered 0x81 r s t eLeaveRefused 0 [] ∧
        t.pow = { s.pow with refused := satAdd 32 s.pow.refused 1 } ∧
        t.cur = { s.cur with refusals := satAdd 32 s.cur.refusals 1 } ∧
        Leaves { u with cur := t.cur, pow := t.pow } t))

/-- CLOCK_SYNC_ARM arms the next alignment edge; MOUNT_RELEASE writes the counters back and asks for removal;
COURIER_ASSIGN gives a disabled queue to a function, and COURIER_RESUME starts a STOPPED one again (R68, R111, R421,
R438). -/
def Obligations.UnitCommands : Prop :=
  ∀ (r : Req) (s : State), Fresh r s →
    let u := s.tick r.t
    (r.fn = 0 → r.len = 0 → s.view.anyActive = false → Accepts (.clockSyncArm r) 0x21 r s fun t =>
      Leaves { u with cad := { u.cad with syncArmed := true } } t) ∧
    (∀ p, r.fn = 0 → r.len = 8 → r.u 2 6 = 0 → r.u 0 2 = p → p < 12 → Accepts (.mountRelease r) 0x32 r s fun t =>
      (t.mt p).released = (s.mt p).present ∧ (t.mt p).due = true ∧
      ((s.mt p).governs = true → (mountXfer (envTries r.env)).done.isSome → (t.mt p).gen = ((s.mt p).gen + 1) % 2 ^ 32 ∧
        (t.mt p).copyB = !(s.mt p).copyB ∧ (t.mt p).wRelay = (s.mt p).relay ∧ (t.mt p).wEvents = (s.mt p).events ∧
        (t.mt p).wTime = (s.mt p).timeUs ∧ (t.mt p).failing = false) ∧
      ((s.mt p).governs = true → (mountXfer (envTries r.env)).done = none →
        (t.mt p).failing = ((s.mt p).failing || !(mountXfer (envTries r.env)).gone) ∧ (t.mt p).gen = (s.mt p).gen ∧
        (t.mt p).wTime = (s.mt p).wTime) ∧
      (t.mt p).record = (s.mt p).record ∧ ((s.mt p).governs = true → (t.mt p).wroteAt = some u.cad.now) ∧
      ((s.mt p).governs = false → t.mt p = { s.mt p with released := (s.mt p).present, due := true }) ∧
      Leaves (u.setMt p (t.mt p)) t) ∧
    (∀ q, r.fn = 0 → r.len = 8 → r.u 4 4 = 0 → r.u 0 2 = q → q < 64 → r.u 2 2 ≤ s.boot.numVfs →
      (s.quBlock q).u 1 1 = 0 → Accepts (.courierAssign r) 0x90 r s fun t =>
        Leaves (u.setQu q { s.qu q with fn := r.u 2 2 }) t) ∧
    (Passes (courierResumeBody r u) → Accepts (.courierResume r) 0x91 r s fun t =>
      let q := r.u 0 1
      t.qu q = { s.qu q with st := 1, head := 0, tail := 0, desc := none, reads := [], next := 0, asked := false,
                             waiting := 0, sample := (s.quBlock q).u 64 8 } ∧
      (∀ i n, i < r.u 1 1 → n = r.u (8 + 10 * i) 2 →
        { t.sto n with gen := (s.sto n).gen } = resumeStore u.cad (r.u (10 + 10 * i) 8) (s.sto n)) ∧
      (∀ n, (∀ i, i < r.u 1 1 → r.u (8 + 10 * i) 2 ≠ n) → t.sto n = s.sto n) ∧
      Leaves { (u.setQu q (t.qu q)) with store := t.store } t)

/-- COLLECTION_FORM forms the collection with the lead's own correction and the next turn as its start; with no stream
active, no group and no other device active, COLLECTION_DISSOLVE returns the COLLECTION block to its defaults (R512 to
R515; what the other devices report is the request's environment, log 71). -/
def Obligations.CollectionCommands : Prop :=
  ∀ (r : Req) (s : State), Fresh r s → r.fn = 0 →
    let u := s.tick r.t
    (Passes (collectionFormBody r u) → Completes (.collectionForm r) s fun t =>
      t.coll = { s.coll with st := 2, corr := correctionAt u r.env (s.posOf s.view.index), formed := s.coll.aligns,
                             lost := [], nextTrg := 0, nextCtl := 0 } ∧
      t.cad = { u.cad with awaitAnchor := true, keptTurn := some ((u.time.turn + 1) % 2 ^ 48) } ∧
      Leaves { u with cad := t.cad, coll := t.coll } t) ∧
    (r.len = 0 → s.isLead = true → s.view.anyActive = false → r.env = [] →
      (∀ e ∈ s.exh, 48 ≤ e.1 → e.2.st = 0) →
      Accepts (.collectionDissolve r) 0xA1 r s fun t =>
        t.collBlock = defaultBlock btCollection [] ∧
        (s.collBlock.data ≠ (defaultBlock btCollection []).data →
          t.coll.st = 0 ∧ t.coll.formed = [] ∧ t.coll.corr = 0 ∧ t.coll.lost = []) ∧
        (s.collBlock.data = (defaultBlock btCollection []).data → t.coll = s.coll) ∧
        t.cad = u.cad ∧ t.health = s.health ∧ t.boot = s.boot)

/-- FW_STAGE writes bytes of an image into the slot that does not run, erasing it first where the last image failed or
ran; FW_VERIFY answers from the image alone and keeps it or marks it for erasure (R495, R576); FW_ACTIVATE names the
image for the next start, or starts it now (R496). -/
def Obligations.FirmwareCommands : Prop :=
  ∀ (r : Req) (s : State) (b : Boot), Fresh r s → r.fn = 0 → b = s.boot →
    let u := s.tick r.t
    let x := b.img b.slot
    (8 ≤ r.len → r.len ≤ 8 + 2 ^ 20 → r.u 4 4 = 0 → r.u 0 4 + (r.bytes.drop 8).length ≤ 12 * 2 ^ 20 →
      Accepts (.fwStage r) 0xC0 r s fun t =>
        (t.boot.img b.slot).bytes = flashWrite (if x.erase then [] else x.bytes) (r.u 0 4) (r.bytes.drop 8) ∧
        (t.boot.img b.slot).st = 1 ∧ (t.boot.img b.slot).erase = false ∧ t.boot.slot = b.slot ∧
        t.boot.img b.image = b.img b.image ∧ Leaves { u with boot := b.setImg b.slot (t.boot.img b.slot) } t) ∧
    (r.len = 0 → x.st ≠ 0 → Completes (.fwVerify r) s fun t =>
      (imageOk b.minSvn x.bytes = true → Answered 0xC1 r s t eOk 0 (fwStatusBytes t.boot) ∧
        Leaves { u with boot := b.setImg b.slot { x with valid := true, st := 2 } } t) ∧
      (imageOk b.minSvn x.bytes = false → Answered 0xC1 r s t eFwImage 0 [] ∧
        Leaves { u with boot := b.setImg b.slot { x with erase := true } } t)) ∧
    (r.len = 8 → r.u 1 7 = 0 → r.u 0 1 = 1 → x.st ≠ 0 → Accepts (.fwActivate r) 0xC2 r s fun t =>
      Leaves { u with boot := { b with tryFirst := some b.slot, gen := (b.gen + 1) % 2 ^ 32 } } t) ∧
    (r.len = 8 → r.u 1 7 = 0 → r.u 0 1 = 0 → x.st = 2 → x.major = (b.img b.image).major →
      (∀ e ∈ s.coll.formed, e.2.1 = x.major) → Accepts (.fwActivate r) 0xC2 r s fun t =>
        t.boot.st = 3 ∧ (t.boot.img b.slot).st = 3 ∧ t.cur.restart = some (3, u.cad.now) ∧
        t.cur.restarts = satAdd 32 s.cur.restarts 1 ∧ t.cur.alert = s.cur.alert ||| 8 ∧
        Leaves { u with boot := t.boot, cur := t.cur } t)

/-! ### Direct accesses of the host (15 to 17) -/

/-- A write to BAR0 that names a register with a row of its own does what that row says; RING submits the request area
or, while BUSY, is lost; the alert mask, the request area and the MSI-X table take what is written; anything else is
discarded (R10, R420, R456 to R461, R468). DOORBELL_LOST, ALERT_STATUS, EVENT_CONSUMED and REFUSALS (R10, R460, R461,
R463, R488). A bit that the device sets in the same cycle stays set. -/
def Obligations.RegisterAccesses : Prop :=
  (∀ (fn t : Nat) (v : BitVec 64) (s : State), fn ≤ s.boot.numVfs →
     let u := s.tick t
     let w : Word := v.setWidth 32
     let run (off size : Nat) := exec (.registerWrite fn off size v t) s
     (s.pow.fallow = 0 →
       run 0x104 4 = exec (.doorbellLostClear fn w false) u ∧ run 0x110 4 = exec (.eventConsumedWrite fn w t) u ∧
       run 0x208 4 = exec (.alertStatusClear fn w 0) u ∧
       (∀ q, q < 64 → run (0x2000 + 4 * q) 4 = if w.getLsbD 31 then exec (.doorbellAck fn q w) u
         else exec (.doorbellTail fn q w) u) ∧
       (fn = 0 → run 0x20C 4 = .next { u with cur := { s.cur with alertMask := v.toNat % 16 } }) ∧
       (fn ≠ 0 → run 0x20C 4 = .next u) ∧
       (∀ a, a < 1024 → (¬(a / 4 ∈ (s.mb fn).pba)) → Memory.wf s = true → ∃ u', run (0x4000 + 4 * a) 4 = .next u' ∧
         cget msixDefault (u'.mb fn).msix a = (if a % 4 = 3 then w &&& 1 else w) ∧
         (∀ b, b ≠ a → cget msixDefault (u'.mb fn).msix b = cget msixDefault (s.mb fn).msix b) ∧
         u'.mb fn = { s.mb fn with msix := (u'.mb fn).msix } ∧ u' = u.setMb fn (u'.mb fn))) ∧
     (v.getLsbD 0 = false → run 0x100 4 = .next u) ∧
     (v.getLsbD 0 = true → s.boot.st = 1 ∨ s.boot.st = 4 →
       ((s.mb fn).busy = true → run 0x100 4 = .next (u.setMb fn { s.mb fn with lost := true })) ∧
       ((s.mb fn).busy = false →
         (s.pow.fallow = 0 → opcodes.contains (getU (cgetAll (fun _ => (0 : Byte)) (s.mb fn).req 0 8) 0 2) = true →
           run 0x100 4 = .next (u.setMb fn { s.mb fn with busy := true, respValid := false, replay := false })) ∧
         (s.pow.fallow ≠ 0 → run 0x100 4 = .next { (u.setMb fn { s.mb fn with busy := true, respValid := false, replay := false })
           with pow := { s.pow with rung := true } }))) ∧
     (∀ a size, 0x1000 ≤ a → a + size ≤ 0x1800 → size ∈ [1, 2, 4, 8] → a % size = 0 → Memory.wf s = true →
       (s.busyOf fn = true → run a size = .next u) ∧
       (s.busyOf fn = false → ∃ u', run a size = .next u' ∧
         (∀ b, cget (fun _ => (0 : Byte)) (u'.mb fn).req b = if a - 0x1000 ≤ b ∧ b < a - 0x1000 + size
           then (leBytes size v.toNat).getD (b - (a - 0x1000)) 0 else cget (fun _ => 0) (s.mb fn).req b) ∧
         u'.mb fn = { s.mb fn with req := (u'.mb fn).req } ∧ u' = u.setMb fn (u'.mb fn))) ∧
     (∀ a size, 0x5000 ≤ a → run a size = .next u)) ∧
  (∀ (fn t : Nat) (v set : Word) (again : Bool) (same : Nat) (s : State),
     (fn ≤ s.boot.numVfs → Completes (.doorbellLostClear fn v again) s fun t =>
       t = s.setMb fn { s.mb fn with lost := (t.mb fn).lost } ∧
       (t.mb fn).lost = (again || ((s.mb fn).lost && !(v.getLsbD 2 && decide (s.pow.fallow = 0))))) ∧
     (Completes (.alertStatusClear fn v set) s fun t => t = { s with cur := { s.cur with alert := t.cur.alert } } ∧
       t.cur.alert < 16 ∧ ∀ i, i < 4 → t.cur.alert.testBit i =
         (set.getLsbD i || (s.cur.alert.testBit i && !(v.getLsbD i && decide (fn = 0) && decide (s.pow.fallow = 0))))) ∧
     (fn ≤ s.boot.numVfs → s.pow.fallow = 0 → Completes (.eventConsumedWrite fn v t) s fun t' =>
       (t'.mb fn).consumed = v.toNat ∧ Leaves (s.tick t) t' ∧ (∀ g, g ≠ fn → t'.mb g = s.mb g) ∧
       ((s.mb fn).lostCount = 0 → t' = (s.tick t).setMb fn { s.mb fn with consumed := v.toNat }) ∧
       ((s.mb fn).lostCount ≠ 0 → s.boot.st = 1 → { s.mb fn with consumed := v.toNat }.room = true →
         (t'.mb fn).lostCount = 0 ∧ (t'.mb fn).produced = ((s.mb fn).produced + 1) % 2 ^ 32)) ∧
     (fn > s.boot.numVfs ∨ s.pow.fallow ≠ 0 → exec (.eventConsumedWrite fn v t) s = .next (s.tick t)) ∧
     Completes (.refusalsRead fn same) s fun t => t = { s with
       sent := s.sent ++ [.regData fn 0x030C s.cur.refusals], cur := { s.cur with refusals := min same (2 ^ 32 - 1) } })

/-- A doorbell of a function's own queue sets TAIL modulo the ring; one with ACK also starts a HALTED queue again; any
other function's changes nothing (R424, R425, R435, R540). -/
def Obligations.Doorbells : Prop :=
  ∀ (fn q : Nat) (v : Word) (ack : Bool) (s : State),
    let c : Instr := if ack then .doorbellAck fn q v else .doorbellTail fn q v
    let x := s.qu q
    (64 ≤ q ∨ x.fn ≠ fn ∨ s.pow.fallow ≠ 0 → exec c s = .next s) ∧
    (q < 64 → x.fn = fn → s.pow.fallow = 0 → Completes c s fun t =>
      (t.qu q).tail = v.toNat % 65536 % (s.quBlock q).u 4 4 ∧
      (t.qu q).st = (if ack = true ∧ x.st = 2 then 1 else x.st) ∧
      t.qu q = { x with tail := (t.qu q).tail, st := (t.qu q).st, asked := (t.qu q).asked,
                        waiting := (t.qu q).waiting } ∧
      ((t.qu q).waiting = 0 ∨ (t.qu q).waiting = x.waiting) ∧
      (∀ p, p ≠ q → t.qu p = s.qu p) ∧ { t with queue := s.queue, sent := s.sent, mbox := s.mbox } = s ∧
      ((t.qu q).st = 1 → x.desc = none → x.drain = false → (t.qu q).tail ≠ x.head → s.isUp 24 = true → s.isUp 25 = true →
        ((s.quBlock q).u 2 1 = 1 → s.plays ((s.quBlock q).u 32 2) = false) → (t.qu q).asked = true) ∧
      ((t.qu q).st ≠ 1 → (t.qu q).asked = x.asked ∧ (x.waiting = 0 → t.sent = s.sent)))

/-- A read of BAR4 answers with its bytes: those of the windows and of the directory as the Stores stand, free bytes
where the manual states none (log 7); a read beyond 64 GiB has no address and faults; in fallow mode it answers zeros
(R277 to R279, R540). What Limupen does when a throttle ends and when a refresh window passes (R413, R414). -/
def Obligations.Bar4ReadsAndGuard : Prop :=
  (∀ (fn off len t : Nat) (bad : List BadWord) (rows : List (Nat × Nat)) (s : State),
     (2 ^ 36 < off + len → exec (.bar4Read fn off len bad rows t) s = .fault .noSuchAddress) ∧
     (off + len ≤ 2 ^ 36 →
       (s.pow.fallow ≠ 0 → exec (.bar4Read fn off len bad rows t) s =
         .next { s.tick t with sent := s.sent ++ [.readData fn off (zeros len) []] }) ∧
       (s.pow.fallow = 0 → Completes (.bar4Read fn off len bad rows t) s fun t' =>
         ∃ bytes poison, t'.sent.getLast? = some (.readData fn off bytes poison) ∧ bytes.length = len ∧
           (∀ i ∈ poison, i < len ∧ ∃ w ∈ bad, w.fixed = false ∧ w.key / 32 = (off + i) / 32) ∧
           (bad = [] → rows = [] → (∀ i b, i < len → bar4Byte (s.tick t) fn (off + i) = some b → bytes[i]? = some b) ∧
             { t' with sent := s.sent, free := s.free } = s.tick t)))) ∧
  (∀ (k req : Nat) (s : State),
     (Completes (.throttleEnd k req) s fun t => t = s.setStk k (t.stk k) ∧
       t.stk k = { s.stk k with slowed := (t.stk k).slowed } ∧
       ∀ q, q ∈ (t.stk k).slowed ↔ q ∈ (s.stk k).slowed ∧ q ≠ req) ∧
     Completes (.refreshWindow k) s fun t => t = s.setStk k { s.stk k with counts := [] })

/-! ### Cadence, commits, analysis (02, 05 to 09, 17) -/

/-- Loss and return of the reference, the end of slewing, missing marks, and the alignment of the output dividers (R55,
R57 to R60, R68). -/
def Obligations.ReferenceEvents : Prop :=
  ∀ (t : Nat) (s : State),
    let u := s.tick t
    let c := u.cad
    (c.coasting = true → exec (.refLost t) s = .next u) ∧
    (c.coasting = false → Completes (.refLost t) s fun t' => ∃ f, t' = (u.setCad { c with
        coasting := true, refPresent := false, returned := none, slewing := false, slewPpb := 0, holdFrom := some f }).post
        evRefLost [(1, c.source)] ∧ (c.holdFrom = none → f = c.now) ∧ (∀ g, c.holdFrom = some g → f = g)) ∧
    (∀ phase, c.coasting = false → exec (.refReturned t phase) s = .next u) ∧
    (∀ phase, c.coasting = true → Completes (.refReturned t phase) s fun t' => t' = u.setCad t'.cad ∧
      t'.cad.coasting = false ∧ t'.cad.refPresent = true ∧ t'.cad.now = c.now ∧ t'.cad.returnedAt = c.now ∧
      (c.anchored = true → t'.cad.returned = some phase) ∧ (c.anchored = false → t'.cad.returned = none) ∧
      (c.anchored = true → phase.natAbs ≤ s.cadBlock.u 30 2 → t'.cad.holdFrom = c.holdFrom) ∧
      (s.cadBlock.u 30 2 < phase.natAbs → t'.cad.holdFrom = none ∧
        ∀ f, c.holdFrom = some f → t'.cad.holdSpans = c.holdSpans ++ [(f, c.now)])) ∧
    (c.slewing = false → exec (.slewEnd t) s = .next u) ∧
    (c.slewing = true → ∀ f, c.holdFrom = some f → exec (.slewEnd t) s = .next ((u.setCad { c with
      slewing := false, slewPpb := 0, holdFrom := none, holdSpans := c.holdSpans ++ [(f, c.now)] }).post
        evRefRestored [(1, 0)])) ∧
    (c.slewing = true → c.holdFrom = none → exec (.slewEnd t) s = .next ((u.setCad { c with
      slewing := false, slewPpb := 0 }).post evRefRestored [(1, 0)])) ∧
    (∀ turn, s.cad.anchored = false → exec (.markMissing turn) s = .next s) ∧
    (∀ turn, s.cad.anchored = true → s.cad.source = 1 → s.cad.coasting = false →
      let v := s.tick (sampleOf s.cad ⟨turn, 0, 0⟩)
      exec (.markMissing turn) s = .next (v.setCad { v.cad with markMissing := satAdd 32 s.cad.markMissing 1 })) ∧
    (c.syncArmed = true → exec (.syncIn t) s = .next (u.setCad { c with syncDue := true })) ∧
    (c.syncArmed = false → exec (.syncIn t) s = .next u) ∧
    (c.syncDue = true → Completes (.syncAlign t) s fun t' => t'.cad = { c with
        syncDue := false, syncArmed := false, syncAt := c.now, synced := true, align := t'.cad.align } ∧
      (∀ k o, tfind s.clkOut k = some o →
        tfind t'.clkOut k = some { o with fall := 64 * c.now, rise := clkFirst t'.cad o (64 * c.now) }) ∧
      Notes { u with cad := t'.cad, clkOut := t'.clkOut, free := t'.free } t') ∧
    (c.syncDue = false → exec (.syncAlign t) s = .next u)

/-- A mark on slot 0 ends a run of misplaced marks; after the reference has returned within JUMP_WINDOW it begins
slewing; a misplaced mark counts, and one that ends a run of MARK_LIMIT, or that finds the returned reference outside
the window, re-anchors the device (R55, R56, R60 to R62). -/
def Obligations.Marks : Prop :=
  ∀ (mark : CT) (s : State),
    let pos := edgeTime s.cad mark
    let u := s.tick (sampleOf s.cad pos)
    let c := u.cad
    let jw := s.cadBlock.u 30 2
    (c.anchored = false ∨ (c.source ≠ 1 ∧ c.returned = none) → exec (.cadMark mark) s = .next s) ∧
    (c.anchored = true → c.source = 1 ∨ c.returned.isSome → c.coasting = true → exec (.cadMark mark) s = .next u) ∧
    (c.anchored = true → c.source = 1 ∨ c.returned.isSome → c.coasting = false →
      (c.returned = none → c.slewing = false →
        (pos.slot = 0 ∧ pos.phase = 0 → exec (.cadMark mark) s = .next (u.setCad { c with markRun := 0 })) ∧
        (¬(pos.slot = 0 ∧ pos.phase = 0) → ∀ run,
          run = (if c.markRun ≠ 0 ∧ c.markLast.slot = pos.slot ∧ c.markLast.phase = pos.phase ∧
            turnDiff pos.turn c.markLast.turn = 1 then c.markRun + 1 else 1) →
          (run < s.cadBlock.u 38 1 → exec (.cadMark mark) s = .next ((u.setCad { c with
            markFaults := satAdd 32 c.markFaults 1, markRun := run, markLast := pos }).post evMarkFault
              [(2, pos.slot), (4, satAdd 32 c.markFaults 1)])) ∧
          (s.cadBlock.u 38 1 ≤ run → NothingWaits s → Completes (.cadMark mark) s fun t =>
            t.cad.now = sampleOf c (anchorTime c pos) ∧ t.cad.jumps = satAdd 32 c.jumps 1 ∧
            t.cad.markFaults = satAdd 32 c.markFaults 1 ∧ t.cad.markRun = 0 ∧ t.cad.anchored = true))) ∧
      (c.returned = none → c.slewing = true → markWithin c jw pos = true →
        exec (.cadMark mark) s = .next (u.setCad { c with markRun := 0 })) ∧
      (∀ phase, c.returned = some phase →
        (phase.natAbs ≤ jw → markAtPhase u phase pos = true → Completes (.cadMark mark) s fun t =>
          t = u.setCad { c with returned := none, slewing := true, slewPpb := t.cad.slewPpb } ∧
          (phase < 0 → t.cad.slewPpb = 1000) ∧ (0 < phase → t.cad.slewPpb = -1000) ∧ (phase = 0 → t.cad.slewPpb = 0)) ∧
        (jw < phase.natAbs ∨ markAtPhase u phase pos = false → NothingWaits s → Completes (.cadMark mark) s fun t =>
          t.cad.now = sampleOf c (anchorTime c pos) ∧ t.cad.jumps = satAdd 32 c.jumps 1 ∧ t.cad.returned = none ∧
          t.cad.slewing = false ∧ t.cad.markFaults = c.markFaults ∧
          t.cad.jumpSpan = some (t.cad.now, nextTurn c t.cad.now))))

/-- Lock detection: a locked synthesiser loses lock over a window of more than 8 counts, and the CLOCK lacuna starts
with the window; four windows in a row within 2 counts declare lock (R69, R70). The anchor: with every synthesiser
locked and an anchor awaited, the sample index is 0, the CADENCE block sets SLOTS_PER_TURN and R, and the turn count is
the one that fallow mode kept, else TURN_INIT (R43, R46, R539). -/
def Obligations.LockAndAnchor : Prop :=
  (∀ (k diff t : Nat) (s : State),
     let u := s.tick t
     let c := u.cad
     let p := pllOf c k
     (c.coasting = true → Completes (.lockWindowEnd k diff t) s fun t' =>
       t'.cad = c.setPll k { p with winFrom := c.now } ∧ t' = { u with cad := t'.cad, store := t'.store }) ∧
     (c.coasting = false → p.locked = true → diff ≤ 8 → Completes (.lockWindowEnd k diff t) s fun t' =>
       t'.cad = { c with refPresent := true }.setPll k { p with winFrom := c.now } ∧
       t' = { u with cad := t'.cad, store := t'.store }) ∧
     (c.coasting = false → p.locked = false → ∀ n, n = (if diff ≤ 2 then p.good + 1 else 0) →
       (n < 4 → Completes (.lockWindowEnd k diff t) s fun t' =>
         t'.cad = { c with refPresent := true }.setPll k { p with good := n, winFrom := c.now } ∧
         t' = { u with cad := t'.cad, store := t'.store }) ∧
       (4 ≤ n → Completes (.lockWindowEnd k diff t) s fun t' =>
         pllOf t'.cad k = { p with good := n, winFrom := c.now, locked := true, acquiring := false, lockAt := c.now } ∧
         (∀ j, j ≠ k → pllOf t'.cad j = pllOf c j) ∧ Notes { u with cad := t'.cad, store := t'.store } t')) ∧
     (c.coasting = false → p.locked = true → 8 < diff → Completes (.lockWindowEnd k diff t) s fun t' =>
       (pllOf t'.cad k).locked = false ∧ (pllOf t'.cad k).good = 0 ∧
       (pllOf t'.cad k).lossFrom = some (p.lossFrom.getD p.winFrom) ∧ (∀ j, j ≠ k → pllOf t'.cad j = pllOf c j) ∧
       t'.cad.unlocks = satAdd 32 c.unlocks 1 ∧ t'.health = s.health ∧ t'.exh = s.exh ∧
       t'.cur.committed = s.cur.committed) ∧
     (c.coasting = true ∨ p.locked = false → exec (.pllUnlock k t) s = .next u) ∧
     (c.coasting = false → p.locked = true → Completes (.pllUnlock k t) s fun t' =>
       (pllOf t'.cad k).locked = false ∧ (pllOf t'.cad k).good = 0 ∧
       (pllOf t'.cad k).lossFrom = some (p.lossFrom.getD p.winFrom) ∧ (∀ j, j ≠ k → pllOf t'.cad j = pllOf c j) ∧
       t'.cad.unlocks = satAdd 32 c.unlocks 1) ∧
     (resumable c c.now = [] → s.losses = [] → NothingWaits s → exec (.analysisResume t) s = .next u) ∧
     (s.losses = [] → NothingWaits s → Completes (.analysisResume t) s fun t' =>
       (∀ j ∈ resumable c c.now, pllOf t'.cad j = { pllOf c j with lossFrom := none }) ∧
       ∀ j, j ∉ resumable c c.now → pllOf t'.cad j = pllOf c j)) ∧
  (∀ s : State,
     (s.cad.awaitAnchor = false ∨ allLocked s.cad = false → exec .anchor s = .next s) ∧
     (s.cad.awaitAnchor = true → allLocked s.cad = true → Completes .anchor s fun t =>
       t.cad.now = 0 ∧ t.cad.anchored = true ∧ t.cad.awaitAnchor = false ∧ t.cad.keptTurn = none ∧
       t.cad.rnum = cadRnum s.cadBlock ∧ t.cad.spt = cadSpt s.cadBlock ∧ t.cad.source = s.cad.source ∧
       (s.cad.keptTurn = none → t.cad.turnInit = s.cadBlock.u 24 6) ∧
       (∀ n, s.cad.keptTurn = some n → t.cad.turnInit = n) ∧ t.cad.markFaults = s.cad.markFaults ∧
       t.cad.jumps = s.cad.jumps ∧ t.cad.jumpSpan = none))

/-- A commit that is due, first in the order of R53 and not deferred by a CLOCK lacuna, takes effect at S_T, and a
scheduled action at its sample, once: neither waits any more (R49, R50, R53, R54, R481). Anything else leaves the state
as it is. -/
def Obligations.DueActionsTakeEffect : Prop :=
  ∀ (id : Nat) (s : State),
    ((∀ p ∈ s.cur.pending, p.id ≠ id) → exec (.commitEffect id) s = .next s) ∧
    (∀ p, s.cur.pending.find? (·.id == id) = some p →
      (s.cad.anchored = false ∨ commitDeferred s p = true ∨ laterThan s (commitKey s p) = true →
        exec (.commitEffect id) s = .next s) ∧
      (s.cad.anchored = true → commitDeferred s p = false → laterThan s (commitKey s p) = false →
        exec (.commitEffect id) s = .next (commitNow p (s.tick p.sT)))) ∧
    ((∀ a ∈ s.cur.actions, a.id ≠ id) → ∀ c ∈ [Instr.latchClearAction id, .swardSnapshotAction id, .armAction id,
      .forceAction id], exec c s = .next s) ∧
    (∀ a, s.cur.actions.find? (·.id == id) = some a → s.cad.anchored = true → lostFor s a.handle = false →
      laterThan s (actionKey s a) = false →
      let u := s.tick (sampleOf s.cad a.time)
      let w := u.dropAction id
      (∀ mask, a.act = .clear mask → exec (.latchClearAction id) s =
        .next ((bitList mask 64).foldl (fun s n => clearLatch n (clockStamp 0 + ((s.cad.now * 1024 : Nat) : Int)) s) w)) ∧
      (∀ v, a.act = .arm v → (a.handles s.view).Nodup → Completes (.armAction id) s fun t =>
        (∀ h ∈ a.handles s.view, t.tr h = { s.tr h with
          arms := (s.tr h).arms ++ [(max (s.tr h).next (gridOf u.cad (s.view.gridK h) a.time), v)] }) ∧
        (∀ h, h ∉ a.handles s.view → t.tr h = s.tr h) ∧ t = { w with trig := t.trig }) ∧
      (a.act = .force → (a.handles s.view).Nodup → Completes (.forceAction id) s fun t =>
        (∀ h ∈ a.handles s.view, t.tr h = { s.tr h with conds := (t.tr h).conds } ∧
          ∀ b ∈ ((s.tr h).cfgAt (max (s.tr h).next (gridOf u.cad (s.view.gridK h) a.time))).conds, getU b 3 1 = 12 →
            ∃ q ∈ (tget ({} : CondSt) (t.tr h).conds (getU b 2 1)).waiting,
              q.pos = max (s.tr h).next (gridOf u.cad (s.view.gridK h) a.time) ∧ q.set = none) ∧
        (∀ h, h ∉ a.handles s.view → t.tr h = s.tr h) ∧ t = { w with trig := t.trig }) ∧
      (∀ h bits, a.act = .snapshot bits → a.handle = some h →
        let n0 := rateCeil (srcExp s.view h (s.pp h).cfg) (sampleOf u.cad a.time)
        (frameStart (s.pp h).cfg (s.pp h).next < n0 → Completes (.swardSnapshotAction id) s fun t =>
          t = w.setPlane h { s.plane h with asked := (s.plane h).asked ++ [(n0, bits)] }) ∧
        (n0 ≤ frameStart (s.pp h).cfg (s.pp h).next → getU (s.pp h).cfg.sward 2 1 = 1 →
          exec (.swardSnapshotAction id) s = .next (swardSnap h ((s.pp h).next - 1)
            (if bits.testBit 0 = true ∧ (s.plane h).snapped ≠ some ((s.pp h).next - 1) then 4 else 0)
            (bits.testBit 1 || (bits.testBit 0 && getU (s.pp h).cfg.sward 18 1 == 1)) false w)))) ∧
    (∀ h cond pos, let b := s.block btCondition [h, cond]
      b.u 3 1 = 11 → pos.phase = b.u 30 2 → (s.cad.now : Int) * 2 ^ 48 ≤ ctPos s.cad pos →
      clockLoss s.cad (s.view.deps h) = none → timeFresh s h cond pos = true →
      (b.u 32 4 = 0 ∧ pos.slot = b.u 28 2 ∧ pos.turn = b.u 12 8 ∨
        b.u 32 4 ≠ 0 ∧ 0 ≤ turnDiff pos.turn (b.u 12 8) ∧ pos.slot < s.cad.spt ∧
          ∃ i, pos.slot = b.u 28 2 + i * b.u 32 4) → exec (.scheduleConditionTime h cond pos) s =
        .next (occurAt h pos false (fun x => getU x 2 1 == cond && getU x 3 1 == 11)
          (noteTime h cond pos (s.tick (sampleOf s.cad pos)))))

/-- What each block of a commit does to its unit when it takes effect, at the sample of the state (R72, R66, R67, R97,
R117, R376, R424): the cadence starts over where a field other than JUMP_WINDOW and MARK_LIMIT changes; outputs, mounts,
channels, level DACs and queues take their new settings. -/
def Obligations.BlocksTakeEffect : Prop :=
  ∀ (o b : Block) (s : State),
    (cadenceChanges o b = false → applyCadence o b s = s) ∧
    (cadenceChanges o b = true → (applyCadence o b s).cad.anchored = false ∧
      (applyCadence o b s).cad.awaitAnchor = true ∧ (applyCadence o b s).cad.source = b.u 0 1 ∧
      (applyCadence o b s).cad.synced = false ∧
      (applyCadence o b s).cad.offset = toInt 32 (b.u 32 4) ∧
      (∀ k, k < 5 → pllOf (applyCadence o b s).cad k =
        { fb := dividerOf b, acquiring := true, winFrom := s.cad.now }) ∧
      applyCadence o b s = { s with cad := (applyCadence o b s).cad }) ∧
    (let x : ClkOut := tget {} s.clkOut (b.u 0 1)
      let y : ClkOut := tget {} (applyClockOutput b s).clkOut (b.u 0 1)
      let z : ClkOut := { enable := b.u 1 1 == 1, divider := b.u 2 2, coarse := b.u 4 2, fine := b.u 6 1, std := b.u 7 1 }
      y = { z with fall := x.lastFall (64 * s.cad.now), rise := y.rise } ∧
      y.rise = clkFirst s.cad z (max (64 * s.cad.now) (y.fall + 32 * min x.divider z.divider)) ∧
      (∀ n, n ≠ b.u 0 1 → tget ({} : ClkOut) (applyClockOutput b s).clkOut n = tget {} s.clkOut n) ∧
      applyClockOutput b s = { s with clkOut := (applyClockOutput b s).clkOut }) ∧
    ((s.mt (b.u 0 1)).mode = b.u 1 1 → ((applyMount b s).mt (b.u 0 1)).ctl = b.u 2 1 ∧
      ((applyMount b s).mt (b.u 0 1)).speed = b.u 3 1 ∧
      ∀ i n, (s.mt (b.u 0 1)).relay[i]? = some n → ((applyMount b s).mt (b.u 0 1)).relay[i]? =
        some (if ((s.mt (b.u 0 1)).ctl ^^^ b.u 2 1).testBit i then satAdd 32 n 1 else n)) ∧
    (b.u 3 1 = 0 → ((applyChannelInput o b s).ch (b.u 0 1)).rotating = false) ∧
    ((applyLevel b s).lv (b.u 0 1) = { s.lv (b.u 0 1) with
        waiting := (s.lv (b.u 0 1)).waiting ++ [⟨ceilDiv s.cad.now 8192, b.data⟩] } ∧
      applyLevel b s = s.setLv (b.u 0 1) ((applyLevel b s).lv (b.u 0 1))) ∧
    (o.u 1 1 = 0 → b.u 1 1 = 1 → applyCourierQueue o b s = s.setQu (b.u 0 1) { s.qu (b.u 0 1) with
      st := 1, head := 0, tail := 0, desc := none, reads := [], next := 0, asked := false, waiting := 0,
      sample := b.u 64 8 }) ∧
    (o.u 1 1 = b.u 1 1 → (s.qu (b.u 0 1)).waiting = 0 → applyCourierQueue o b s = s)

/-- A fade that was pending starts where the running one ends, or is replaced by it (R138); an FFT frame that is the
next of its pipeline, of a channel or gang that no gang has taken, is counted and the next one awaited, and any other
leaves the state as it is (R147, R164, R168). The table of R216 where the expression is true: a trigger that is not
armed does nothing; hold-off suppresses and counts an occurrence; a busy trigger that cannot extend suppresses and
counts it; else an event starts. An evaluation that is due moves the trigger past its grid sample, and one that is not
changes nothing; the end of a hold-off lets the trigger be armed again, and a line's pulse ends at its clock (R200,
R216, R220, R227). -/
def Obligations.AnalysisAndTriggerEvents : Prop :=
  (∀ (h n j first : Nat) (codes : List Conv) (s : State),
     let x : Chain := tget {} s.chain h
     (x.wait = none → exec (.pendingFadeStart h n) s = .next s) ∧
     (∀ k p e, x.cfgs.getLast? = some k → x.wait = some p → x.evs.getLast? = some e → e.kind = 2 →
       n = e.at (iqRatio k 1) + 64 →
       let z : Chain := if p = e.new then { x with wait := none, replaced := satAdd 32 x.replaced 1 }
         else { x with wait := none, evs := x.evs ++ [⟨2, n * iqRatio k 1, e.new, p⟩] }
       exec (.pendingFadeStart h n) s = .next { s with chain := tset s.chain h z }) ∧
     let c := (s.pp h).cfg
     (getU c.spec 7 1 ≠ 1 ∨ s.view.gangMember h = true ∨ j ≠ (s.pp h).next →
       exec (.fftFrame h j first codes) s = .next s) ∧
     (getU c.spec 7 1 = 1 → s.view.gangMember h = false → j = (s.pp h).next → clockLoss s.cad (s.view.deps h) = none →
       (∀ a ∈ s.cur.actions, a.act.kind ≠ 5) → (s.pp h).waiting = [] → Completes (.fftFrame h j first codes) s fun t =>
         (t.pp h).next = j + 1 ∧ (t.pp h).frames = satAdd 64 (s.pp h).frames 1 ∧ (t.pp h).cfg = c ∧
         (t.pp h).lastExp = (transform c ((frameSource s h first codes c (frameStart c j) (2 ^ getU c.spec 2 1)).1.map
           fun y => (y.re, y.im))).2 ∧ t.cad = s.cad ∧ t.cur = s.cur)) ∧
  (∀ (h i lead mask : Nat) (occ : Bool) (s : State),
     let x := s.tr h
     (x.arm = 0 → (x.spent = false ∨ x.busy i = false ∨ x.held i = true ∨ getU x.cfg.trig 9 1 ≠ 1 ∨ canExtend s h x i = false) → act216 h i lead mask occ s = s) ∧
     (x.arm ≠ 0 → x.held i = true → occ = true → act216 h i lead mask occ s = s.setTr h { x with
       hSup := satAdd 32 x.hSup 1, hTot := satAdd 32 x.hTot 1, holdLeft := x.holdLeft - 1 }) ∧
     (x.arm ≠ 0 → x.held i = true → occ = false → act216 h i lead mask occ s = s) ∧
     (x.arm ≠ 0 → x.held i = false → x.busy i = true → (getU x.cfg.trig 9 1 ≠ 1 ∨ canExtend s h x i = false) →
       act216 h i lead mask occ s = if occ then s.setTr h { x with
         bSup := satAdd 32 x.bSup 1, bTot := satAdd 32 x.bTot 1 } else s) ∧
     (x.arm ≠ 0 → x.held i = false → x.busy i = false → act216 h i lead mask occ s = triggerEvent h i lead mask s)) ∧
  (∀ (h i q : Nat) (vs : List CondIn) (s : State),
     (evalDue s h i = false → exec (.triggerEvaluate h i vs q) s = .next s) ∧
     (evalDue s h i = true → Completes (.triggerEvaluate h i vs q) s fun t =>
       (t.tr h).next = i + 1 ∧ t.lastEval = evalKey s.view h i ∧ t.cad = s.cad ∧ t.cur.committed = s.cur.committed ∧
       ∀ g, g ≠ h → t.tr g = s.tr g) ∧
     ((s.tr h).holdEnd = none → exec (.holdoffEnd h i) s = .next s) ∧
     (∀ e, (s.tr h).holdEnd = some e → e ≤ i → (s.tr h).holdLeft = 0 → (s.tr h).next ≤ i →
       Completes (.holdoffEnd h i) s fun t => t.tr h = { s.tr h with holdEnd := none } ∧
         (∀ g, g ≠ h → t.tr g = s.tr g) ∧ t = { s with trig := t.trig, lines := t.lines, sent := t.sent }) ∧
     (∀ l fc, let x : Line := tget {} s.lines l
       (x.active = true → x.stop = some fc → exec (.trigOutPulseEnd l fc) s =
         .next ({ s with lines := tset s.lines l { x with active := false, stop := none } }.send
           (.trigOut l ((s.block btTrigOut [l]).u 2 1 == 1) fc))) ∧
       (x.active = false ∨ x.stop ≠ some fc → exec (.trigOutPulseEnd l fc) s = .next s)))

/-! ### Wings, mounts, TDC, outputs, housekeeping (03, 04, 12 to 14) -/

/-- A take gives the DAC the oldest word that its port has held for 40 clocks, else 0 with an underflow; playback is
done after its last pass; a level tick forms the code of its set-point (R362 to R366, R370 to R374). -/
def Obligations.OutputEvents : Prop :=
  ∀ (d i t n : Nat) (s : State),
    let x := s.dc d
    (stimSource s d = none → exec (.stimulusTake d i) s = .next s) ∧
    (∀ c k, stimSource s d = some (c, k) →
      (x.source ≠ 3 ∨ i ≠ x.take ∨ x.held ≠ none ∨ s.outPower = false → exec (.stimulusTake d i) s = .next s) ∧
      (x.source = 3 → i = x.take → x.held = none → s.outPower = true →
        let b := takeClock x i
        Completes (.stimulusTake d i) s fun t' =>
          (t'.dc d).take = i + 1 ∧ (∃ codes, t'.sent = s.sent ++ [.dac d (8 * b + 320) codes] ∧
            codes.length = 2 * 2 ^ getU x.blk 5 1 ∧ ∀ z ∈ codes, -8192 ≤ z ∧ z ≤ 8191) ∧
          (∀ w ws, (s.cc c).stimPort k = w :: ws → w.clock ≤ b →
            t'.cc c = { s.cc c with stim := (s.cc c).stim.set k ws }) ∧
          (((s.cc c).stimPort k = [] ∨ ∃ w ws, (s.cc c).stimPort k = w :: ws ∧ b < w.clock) →
            t'.cc c = { s.cc c with under := (s.cc c).under.set k (satAdd 32 ((s.cc c).under.getD k 0) 1) }) ∧
          t' = { s.tick (8 * b) with core := t'.core, dac := t'.dac, sent := t'.sent })) ∧
    (∀ m, x.total = some m →
      (x.source = 2 → x.done = false → x.play + m ≤ t → s.outPower = true → Completes (.playbackDone d t) s fun t' =>
        (t'.dc d).done = true ∧ (t'.dc d).blk = x.blk ∧ (∀ e, e ≠ d → t'.dc e = s.dc e) ∧
        Notes { s.tick t with dac := t'.dac } t') ∧
      (x.source ≠ 2 ∨ x.done = true ∨ t < x.play + m ∨ s.outPower = false → exec (.playbackDone d t) s = .next s)) ∧
    (x.total = none → exec (.playbackDone d t) s = .next s) ∧
    let y := s.lv d
    let u := s.tick (8192 * n)
    (n = y.next → y.takes n = true) ∧ (y.isOn = true → n ≠ y.next → y.takes n = false) ∧
    (y.takes n = false ∨ y.held = true ∨ s.outPower = false → exec (.levelTick d n) s = .next u) ∧
    (y.takes n = true → y.held = false → s.outPower = true →
      ((y.upTo n).isOn = false → exec (.levelTick d n) s = .next (u.setLv d { y.upTo n with next := n + 1 })) ∧
      ((y.upTo n).isOn = true → Completes (.levelTick d n) s fun t' =>
        let z := { y.upTo n with next := n + 1 }.move n
        t' = u.setLv d { z with code := (z.form n).1, clamps := (t'.lv d).clamps } ∧
        ((z.form n).2 = false → (t'.lv d).clamps = z.clamps) ∧
        ((z.form n).2 = true → (t'.lv d).clamps = satAdd 32 z.clamps 1)))

/-- A gleaning step measures the slice that is out and puts the next one out; a slice that fails GLEAN_FAIL_LIMIT times
in a row, or the liveness check, is retired for good, and a second one of the channel leaves its position failed and is
a deaccession cause (R79, R82, R84 to R91, R564); rotations and the drift of a wing's temperature count (R86, R92). -/
def Obligations.WingEvents : Prop :=
  ∀ (ch n t : Nat) (m : Meas) (temp : Int) (s : State),
    let b := s.inputBlock ch
    let u := (s.tick (n * stepLen (b.u 4 1))).setWingTemp (ch / 12) temp
    let x := s.ch ch
    let p := n % 16
    (s.pow.domains.testBit (5 + ch / 12) = false ∨ chanClockLost s ch = true → exec (.gleanStep ch n m temp) s = .next u) ∧
    (s.pow.domains.testBit (5 + ch / 12) = true → chanClockLost s ch = false →
      (b.u 3 1 = 0 ∨ x.retired.isSome → exec (.gleanStep ch n m temp) s = .next (u.setCh ch { x with rotating := false })) ∧
      (∀ out, b.u 3 1 ≠ 0 → x.retired = none → x.at 16 = some out →
        (∀ l, x.rotating = false → x.at p = some l → Completes (.gleanStep ch n m temp) s fun t' =>
          ((t'.ch ch).slice l).pos = 16 ∧ ((t'.ch ch).slice out).pos = p ∧ (t'.ch ch).rotating = true ∧
          (∀ k, k ≠ l → k ≠ out → (t'.ch ch).slice k = x.slice k) ∧ t' = u.setCh ch (t'.ch ch)) ∧
        (∀ l, x.rotating = true → measFails (x.slice out) m = 0 → x.at p = some l → Completes (.gleanStep ch n m temp) s
          fun t' => ((t'.ch ch).slice l).pos = 16 ∧ ((t'.ch ch).slice out).pos = p ∧ ((t'.ch ch).slice out).fails = 0 ∧
            ((t'.ch ch).slice out).off = m.newOff ∧ ((t'.ch ch).slice out).gc = m.newGc ∧
            ((t'.ch ch).slice out).trim = m.newTrim ∧ (t'.ch ch).rotating = true ∧ (t'.ch ch).rotations =
              (if n % 17 = 0 ∧ 17 ≤ x.steps + 1 then satAdd 32 x.rotations 1 else x.rotations) ∧
            t' = u.setCh ch (t'.ch ch)) ∧
        (∀ l, x.rotating = true → measFails (x.slice out) m ≠ 0 → (x.slice out).fails + 1 < b.u 5 1 → x.at p = some l →
          Completes (.gleanStep ch n m temp) s fun t' =>
            ((t'.ch ch).slice l).pos = 16 ∧ ((t'.ch ch).slice out).pos = p ∧
            ((t'.ch ch).slice out).fails = (x.slice out).fails + 1 ∧ ((t'.ch ch).slice out).off = (x.slice out).off ∧
            Notes { u with chan := t'.chan } t') ∧
        (x.rotating = true → measFails (x.slice out) m ≠ 0 → b.u 5 1 ≤ (x.slice out).fails + 1 →
          Completes (.gleanStep ch n m temp) s fun t' => (t'.ch ch).retired = some out ∧ (t'.ch ch).rotating = false ∧
            ((t'.ch ch).slice out).pos = 0x11 ∧ ((t'.ch ch).slice out).fails = (x.slice out).fails + 1 ∧ tfind t'.health.slices ch = some out ∧
            t'.health.total = s.health.total + 1 ∧ t'.health.causes = s.health.causes))) ∧
    (∀ k, 17 ≤ (x.slice k).pos ∨ (x.slice k).dead = true → exec (.livenessFail ch k t) s = .next (s.tick t)) ∧
    (∀ k, (x.slice k).pos ≤ 16 → (x.slice k).dead = false →
      (x.retired = none → Completes (.livenessFail ch k t) s fun t' =>
        (t'.ch ch).retired = some k ∧ ((t'.ch ch).slice k).pos = 0x11 ∧ (t'.ch ch).rotating = false ∧
        tfind t'.health.slices ch = some k ∧ t'.health.causes = s.health.causes) ∧
      (x.retired.isSome → Completes (.livenessFail ch k t) s fun t' =>
        ((t'.ch ch).slice k).dead = true ∧ ((t'.ch ch).slice k).pos = (x.slice k).pos ∧ (t'.ch ch).second = true ∧ (ch, k) ∈ t'.health.seconds ∧
        t'.health.causes.testBit hcSlice = true)) ∧
    (let v := s.tick t
     (v.cad.now % (17 * stepLen (b.u 4 1)) ≠ 0 ∨ b.u 7 1 = 0xFF → exec (.rotationBoundary ch t) s = .next v) ∧
     (v.cad.now % (17 * stepLen (b.u 4 1)) = 0 → b.u 7 1 ≠ 0xFF → Completes (.rotationBoundary ch t) s fun t' =>
       t' = { v with streams := t'.streams, produced := t'.produced } ∧
         ∀ r ∈ t'.produced, r ∉ s.produced → r.typ = rtSliceQuality ∧ r.sample = v.cad.now ∧ r.stream = b.u 7 1)) ∧
    (let v := (s.tick t).setWingTemp (ch / 12) temp
     let dev := (temp - driftRef x).natAbs
     (50 * b.u 6 1 < dev → Completes (.driftCheck ch t temp) s fun t' =>
       t' = v.setCh ch { x with drift := some (x.drift.getD v.cad.now) }) ∧
     (dev + 100 ≤ 50 * b.u 6 1 → Completes (.driftCheck ch t temp) s fun t' => (t'.ch ch).drift = none ∧
       t' = v.setCh ch (t'.ch ch)) ∧
     (dev ≤ 50 * b.u 6 1 → 50 * b.u 6 1 < dev + 100 → exec (.driftCheck ch t temp) s = .next v))

/-- A mount that comes or goes, its record once read, its correction at the next turn boundary, overdrive, and the
write-back of its counters at most every ten minutes; a transfer that fails is tried three times (R102, R105 to R116).
-/
def Obligations.MountEvents : Prop :=
  ∀ (p t : Nat) (s : State),
    let u := s.tick t
    let m := s.mt p
    (∀ on, m.present = on → exec (.mountPresence p on t) s = .next u) ∧
    (∀ on, m.mode = 1 → m.present ≠ on → exec (.mountPresence p on t) s = .next (u.setMt p { m with present := on })) ∧
    (m.mode ≠ 1 → m.present = false → Completes (.mountPresence p true t) s fun t' =>
      t'.mt p = { m with present := true, released := false, valid := false, warned := false, expired := false,
                         xfer := some (u.busSlow (p / 3)) } ∧
      t' = { (u.setMt p (t'.mt p)) with sent := t'.sent }) ∧
    (m.mode ≠ 1 → m.present = true → Completes (.mountPresence p false t) s fun t' =>
      (t'.mt p).present = false ∧ (t'.mt p).valid = false ∧ (t'.mt p).released = false ∧ (t'.mt p).due = true ∧
      (t'.mt p).relay = [0, 0, 0, 0] ∧ (t'.mt p).events = [0, 0, 0, 0] ∧ (t'.mt p).timeUs = [0, 0, 0, 0] ∧
      (t'.mt p).xfer = none ∧ (t'.mt p).wroteAt = m.wroteAt ∧
      (m.released = true → t' = u.setMt p (t'.mt p)) ∧ Notes (u.setMt p (t'.mt p)) t') ∧
    (∀ tries, m.xfer = none → exec (.mountReadDone p tries t) s = .next u) ∧
    (∀ tries, m.xfer.isSome → m.mode = 1 ∨ m.released = true → Completes (.mountReadDone p tries t) s fun t' =>
      t'.mt p = { m with xfer := none } ∧ t' = { (u.setMt p (t'.mt p)) with sent := t'.sent }) ∧
    (∀ tries, m.xfer.isSome → m.mode ≠ 1 → m.released = false →
      let y := mountXfer tries
      let bytes := match y.done with | some a => padTo 512 a.bytes | none => m.record
      Completes (.mountReadDone p tries t) s fun t' =>
        (t'.mt p).record = bytes ∧ (t'.mt p).due = true ∧ (t'.mt p).xfer = none ∧
        (t'.mt p).valid = (y.done.isSome && recordOk bytes) ∧ (∀ q, q ≠ p → t'.mt q = s.mt q) ∧
        ∀ o, (t'.mt p).valid = true → currentCopy bytes = some o →
          (t'.mt p).gen = getU (slice bytes o 80) 0 4 ∧ (t'.mt p).copyB = (o == 432) ∧
          (t'.mt p).relay = (t'.mt p).wRelay ∧ (t'.mt p).events = (t'.mt p).wEvents) ∧
    (m.due = false ∨ turnAtOrAfter u.cad u.cad.now ≠ u.cad.now → exec (.mountCorrectionApply p t) s = .next u) ∧
    (m.due = true → turnAtOrAfter u.cad u.cad.now = u.cad.now → Completes (.mountCorrectionApply p t) s fun t' =>
      (t'.mt p).due = false ∧ (t'.mt p).applied = (if m.governs then some m.record else none) ∧
      (m.fresh = false → ∀ c, t'.ch c = s.ch c) ∧
      t' = { u with mount := t'.mount, chan := t'.chan } ∧ ∀ c, c / 4 ≠ p → t'.ch c = s.ch c) ∧
    (∀ c mv k, c / 4 = p → (m.overLevel = none ∨ ∃ level, m.overLevel = some level ∧ mv < level) →
      exec (.overdrive c ⟨mv, k⟩ t) s = .next u) ∧
    (∀ c mv k level, c / 4 = p → m.overLevel = some level → level < mv → Completes (.overdrive c ⟨mv, k⟩ t) s fun t' =>
      (∀ b, m.below.getD (c % 4) none = some b → u.cad.now < b + microsecond → (t'.mt p).events = m.events) ∧
      (m.below.getD (c % 4) none = none →
        (t'.mt p).events = m.events.set (c % 4) (satAdd 32 (m.events.getD (c % 4) 0) 1)) ∧
      (t'.mt p).timeUs = m.timeUs.set (c % 4)
        (satAdd 64 (m.timeUs.getD (c % 4) 0) ((m.frac.getD (c % 4) 0 + k) / 1280)) ∧
      (t'.mt p).frac = m.frac.set (c % 4) ((m.frac.getD (c % 4) 0 + k) % 1280) ∧ ∀ q, q ≠ p → t'.mt q = s.mt q) ∧
    (∀ tries, (m.relay = m.wRelay ∧ m.events = m.wEvents ∧ m.timeUs = m.wTime) ∨
        (∃ w, m.wroteAt = some w ∧ u.cad.now < w + tenMinutes) ∨ m.governs = false →
      exec (.writeBack p tries t) s = .next u) ∧
    ((m.relay ≠ m.wRelay ∨ m.events ≠ m.wEvents ∨ m.timeUs ≠ m.wTime) →
      (∀ w, m.wroteAt = some w → w + tenMinutes ≤ u.cad.now) → m.governs = true → ∀ tries,
      let y := mountXfer tries
      Completes (.writeBack p tries t) s fun t' => (t'.mt p).wroteAt = some u.cad.now ∧
        (y.done.isSome → (t'.mt p).gen = (m.gen + 1) % 2 ^ 32 ∧ (t'.mt p).copyB = !m.copyB ∧
          (t'.mt p).wRelay = m.relay ∧ (t'.mt p).wEvents = m.events ∧ (t'.mt p).wTime = m.timeUs ∧
          t' = { (u.setMt p (t'.mt p)) with sent := t'.sent } ∧
          t'.sent = s.sent ++ (List.range y.made).flatMap fun _ => (List.range 5).map fun i =>
            .mountPage (p / 3) (mountAddr p) (u.busSlow (p / 3)) ((if m.copyB then 352 else 432) + 16 * i)
              (slice (copyBytes m ((m.gen + 1) % 2 ^ 32)) (16 * i) 16)) ∧
        (y.done = none → (t'.mt p).gen = m.gen ∧ (t'.mt p).failing = (m.failing || !y.gone) ∧
          Notes (u.setMt p (t'.mt p)) t'))

/-- A crossing moves the output and counts; arming ends after its interval, and only an armed latch is set or cleared;
edges are stamped by a free converter, and an edge less than 1.0 ns after another is discarded with its pair (R332 to
R336, R339, R342, R343). -/
def Obligations.ComparatorAndTdcEvents : Prop :=
  ∀ (n t : Nat) (pos : CT) (s : State),
    let u := s.tick t
    let x := s.cmp n
    let b := s.view.cmpBlock n
    (∀ high st, s.view.cmpOn n = false ∨ s.cmpPowered n = false ∨ 64 ≤ n → exec (.crossing n high t st) s = .next u) ∧
    (∀ high st, s.view.cmpOn n = true → s.cmpPowered n = true → n < 64 → Completes (.crossing n high t st) s fun t' =>
      (t'.cmp n).out = high ∧ (t'.cmp n).arming = x.arming ∧
      (t'.cmp n).total = (if countTakes (b.u 7 1) high then satAdd 32 x.total 1 else x.total) ∧
      (x.arming ≠ 2 ∨ latchTakes (b.u 3 1) high = false → (t'.cmp n).latch = x.latch) ∧
      (x.arming = 2 → latchTakes (b.u 3 1) high = true → x.latch = none → x.cleared ≤ st.getD (clockStamp t) →
        (t'.cmp n).latch = some (st.getD (clockStamp t))) ∧
      (∀ z, x.latch = some z → (t'.cmp n).latch = some z) ∧ ∀ k, k ≠ n → t'.cmp k = s.cmp k) ∧
    (x.arming ≠ 1 ∨ s.cmpPowered n = false → exec (.armingEnd n t) s = .next u) ∧
    (x.arming = 1 → s.cmpPowered n = true → s.cad.anchored = false → Completes (.armingEnd n t) s fun t' =>
      (t'.cmp n).arming = 2 ∧ (t'.cmp n).out = x.out ∧ (t'.cmp n).total = x.total ∧
      (levelHolds (b.u 3 1) x.out = false → t' = u.setCmp n { x with arming := 2 }) ∧ ∀ k, k ≠ n → t'.cmp k = s.cmp k) ∧
    (b.u 6 1 = 0 → exec (.latchClearBoundary n pos) s = .next s) ∧
    (b.u 6 1 = 1 → pos.phase = 0 → pos.slot = 0 → 0 < s.cad.spt → s.view.cmpOn n = true → x.arming = 2 →
      ∀ z, x.latch = some z → z < ctStamp s.cad pos → levelHolds (b.u 3 1) x.out = false →
      Completes (.latchClearBoundary n pos) s fun t' => (t'.cmp n).latch = none ∧
        (t'.cmp n).was = some ⟨z, ctStamp s.cad pos⟩ ∧ (t'.cmp n).out = x.out ∧ ∀ k, k ≠ n → t'.cmp k = s.cmp k) ∧
    (∀ h st, let y : CrossStream := tget {} s.cross (skey h st)
      (st = 0xFF ∨ s.crossBlock h st = none → exec (.crossingsPeriodEnd h st pos) s = .next s) ∧
      (∀ cb j, s.crossBlock h st = some cb → st ≠ 0xFF → pos.phase = 0 → j = crossEnd s.cad cb y →
        slotCount s.cad pos.turn pos.slot = (j : Int) →
        Completes (.crossingsPeriodEnd h st pos) s fun t' => tget ({} : CrossStream) t'.cross (skey h st) =
          { start := slotStart s.cad j, cut := false, lost := y.lost && !y.resumed,
            marks := y.marks.filter fun m => !decide (m.2 * 2 ^ 32 < j * s.cad.rnum) })) ∧
    (∀ src rising ps e, s.srcLive src = false → exec (.tdcEdge src rising ps e) s = .next (s.tick (e.toNat / 1024))) ∧
    (∀ src rising ps e, s.srcLive src = true →
      let y : TdcSrc := tget {} s.tdc src
      Completes (.tdcEdge src rising ps e) s fun t' =>
        let y' : TdcSrc := tget {} t'.tdc src
        y'.prev = some ps ∧ y'.high = rising ∧
        (y.force = true → y'.disc = y.disc + 1 ∧ y'.force = false ∧ y'.last = none) ∧
        (y.force = false → ∀ p, y.prev = some p → ps < p + 1000 →
          (∀ q, y.last = some q → y'.disc = y.disc + 2 ∧ y'.last = none) ∧
          (y.last = none → y'.disc = y.disc + 1 ∧ y'.force = true)) ∧
        (y.force = false → (∀ p, y.prev = some p → p + 1000 ≤ ps) →
          (∀ i, freeConverter y ps = some i → y'.conv = y.conv.set i (ps + 200000) ∧ y'.rot = (i + 1) % 4 ∧
            y'.last = some ⟨e - (s.block btTdcSource [src]).i 4 4, src, !rising, ps, y.disc⟩) ∧
          (freeConverter y ps = none → y'.disc = y.disc + 1 ∧ y'.force = true)) ∧
        ∀ k, k ≠ src → tget ({} : TdcSrc) t'.tdc k = tget {} s.tdc k)

/-- A pairing unit takes its stamps in order; a stop that waits longer than ORDER_WINDOW is an orphan; a flush boundary
moves the limit up to which stamps and intervals are reported (R345 to R348, R352). A TDC calibration that fails leaves
CAL_STALE running, and one that passes ends it (R344). -/
def Obligations.PairingAndFlush : Prop :=
  ∀ (n src : Nat) (rising : Bool) (v : Int) (pos : CT) (s : State),
    let b := s.block btPairing [n]
    let x := s.pu n
    ((∀ q ∈ x.queue, ¬(q.src = src ∧ q.falling = !rising ∧ q.t = v)) → exec (.pair n src rising v) s = .next s) ∧
    (∀ q, x.queue.find? (fun q => q.src == src && q.falling == !rising && q.t == v) = some q →
      (b.u 1 1 ≠ 1 ∨ x.queue.any (fun p => takesBefore b p q) = true → exec (.pair n src rising v) s = .next s) ∧
      (b.u 1 1 = 1 → x.queue.any (fun p => takesBefore b p q) = false → Completes (.pair n src rising v) s fun t =>
        (t.pu n).queue = x.queue.erase q ∧ (∀ m, m ≠ n → t.pu m = s.pu m) ∧
        (isStart b q = true → isStop b q = false → x.waits = [] → x.stack.length < 16 →
          (t.pu n).stack = v :: x.stack ∧ (t.pu n).waits = []) ∧
        (isStart b q = false → isStop b q = true → x.waits = [] → x.stack = [] →
          (t.pu n).waits = [v] ∧ (t.pu n).stack = []))) ∧
    (x.waits = [] → exec (.orderWindowExpiry n) s = .next s) ∧
    (∀ w ws, x.waits = w :: ws → (∀ q ∈ x.queue, w + 16 * b.u 8 4 < q.t) → Completes (.orderWindowExpiry n) s fun t =>
      (t.pu n).waits = ws ∧ (t.pu n).stack = x.stack ∧ (t.pu n).queue = x.queue ∧ ∀ m, m ≠ n → t.pu m = s.pu m) ∧
    (∀ h st, (s.stampBlock h st = none → exec (.stampFlush h st none pos) s = .next s) ∧
      (∀ sb, s.stampBlock h st = some sb → pos.phase = 0 → pos.slot % sb.u 6 2 = 0 → pos.slot < s.cad.spt →
        Completes (.stampFlush h st none pos) s fun t =>
          (tget ({} : Entries) t.stampStr (skey h st)).flush =
            max (tget ({} : Entries) s.stampStr (skey h st)).flush (ctPos (s.tick (sampleOf s.cad pos)).cad pos)) ∧
      (b.u 1 1 = 1 → b.u 2 2 = h → b.u 12 1 = st → pos.phase = 0 → pos.slot % b.u 20 2 = 0 → pos.slot < s.cad.spt →
        Completes (.stampFlush h st (some n) pos) s fun t =>
          (t.pu n).ents.flush = max x.ents.flush (ctPos (s.tick (sampleOf s.cad pos)).cad pos) ∧
          (t.pu n).stack = x.stack ∧ (t.pu n).waits = x.waits)) ∧
    ∀ (r : CalResult) (t : Nat),
      (Completes (.tdcCalibration false r t) s fun t' => ∃ p ∈ t'.calSpans, p.tag = calTag 6 0xFF ∧ p.hi = none) ∧
      ((∃ p ∈ s.calSpans, p.tag = calTag 6 0xFF ∧ p.hi = none) → Completes (.tdcCalibration true r t) s fun t' =>
        ∀ p ∈ t'.calSpans, p.tag = calTag 6 0xFF → p.hi ≠ none)

/-- A conversion that ends is recorded, or entered in its pass, and the converter goes on; a window holds both
converters from its start for its length (R378, R381 to R384, R387 to R389). -/
def Obligations.HousekeepingEvents : Prop :=
  ∀ (c t : Nat) (code : Int) (r : CalReading) (s : State),
    (s.hk.isOn = false → (s.conv c).job = none → exec (.conversionEnd c t code) s = .next (s.tick t)) ∧
    (∀ j, (s.conv c).job = some j → (j.stop ≠ t ∨ j.kind = 2) → exec (.conversionEnd c t code) s = .next (s.tick t)) ∧
    (∀ j, c < 2 → s.hk.isOn = true → (s.conv c).job = some j → j.kind = 0 → j.stop = t → j.input ≠ 0 → j.bad = false →
      clockLoss s.cad [4] = none → (∀ a ∈ s.cur.actions, a.act.kind ≠ 4) → s.hk.due = [] →
      ((s.conv c).pos + 1) % (scanList s.hkBlock c).length ≠ 0 → Completes (.conversionEnd c t code) s fun t' =>
        (t'.conv c).entries = (s.conv c).entries ++ [⟨j.input, j.rate, j.start, code⟩] ∧
        (t'.conv c).pos = ((s.conv c).pos + 1) % (scanList s.hkBlock c).length ∧ (t'.conv c).cut = (s.conv c).cut ∧
        (t'.conv c).job.isSome ∧ t'.hk.refs = s.hk.refs) ∧
    (s.hk.due = [] → (∀ a ∈ s.cur.actions, a.act.kind ≠ 4) → (s.hk.isOn = false ∨ (s.conv 0).job.isSome ∧ (s.conv 1).job.isSome) →
      exec (.calWindowStart t) s = .next (s.tick t)) ∧
    (∀ w, s.hk.isOn = true → s.hk.win = none → s.hk.due = [w] → w.at0 ≤ t → w.again = false → w.sched = false →
      (∀ a ∈ s.cur.actions, a.act.kind ≠ 4) → (s.conv 0).job = none → (s.conv 1).job = none →
      max (s.conv 0).ready (s.conv 1).ready = t → Completes (.calWindowStart t) s fun t' =>
        t'.hk.win = some { w with at0 := t, again := false } ∧ t'.hk.due = [] ∧
        (∀ k, k < 2 → ∃ j, (t'.conv k).job = some j ∧ j.kind = 2 ∧ j.start = t ∧ j.stop = t + calSpan)) ∧
    (s.hk.win = none → exec (.calWindowEnd t r) s = .next (s.tick t)) ∧
    (∀ w, s.hk.win = some w → t ≠ w.at0 + calSpan → exec (.calWindowEnd t r) s = .next (s.tick t)) ∧
    (∀ w, s.hk.win = some w → t = w.at0 + calSpan → clockLoss s.cad [4] ≠ none → Completes (.calWindowEnd t r) s fun t' =>
      t'.hk.win = none ∧ (∃ v ∈ t'.hk.due, v.again = true ∧ v.kind = w.kind ∧ v.unit = w.unit ∧ v.at0 = t) ∧
      t'.hk.trims = s.hk.trims ∧ t'.hk.reports = s.hk.reports) ∧
    (∀ w, s.hk.win = some w → t = w.at0 + calSpan → clockLoss s.cad [4] = none →
      (∀ x ∈ s.hk.convs, ∀ j, x.2.job = some j → j.bad = false) →
      let v := takeRefs r ((s.tick t).setHk { s.hk with
        win := none, convs := tmap s.hk.convs fun _ x => { x with job := none } })
      let z := calMeasure v w.kind w.unit r
      calFails v w.kind w.unit z = [] → w.kind ≠ 5 → z.error % 100 = 0 → Completes (.calWindowEnd t r) s fun t' =>
        t'.hk.win = none ∧ tfind t'.hk.trims (calTag w.kind w.unit) =
          some (tget (Config.storedTrim (calTag w.kind w.unit)) s.hk.trims (calTag w.kind w.unit) - z.error / 100) ∧
        (tfind t'.hk.reports (calTag w.kind w.unit)).isSome)

/-! ### Memory stacks, Stores, Couriers, archive, link (10, 15, 16) -/

/-- The code of the stacks corrects every error of one symbol: symbol i of a word in which only it is wrong is found,
with its error (R398 to R400); bit j of a symbol travels on its own lane in beat j, so a word comes back from its burst,
and a lane that fails touches the one symbol that it carries (R395). -/
def Obligations.OneSymbolIsCorrected : Prop :=
  (∀ (d : List Byte) (i : Nat) (e : Byte), d.length = 32 → i < 36 → e ≠ 0 →
    zxDecode (zxEncode d) = .ok ∧
    zxDecode ((zxEncode d).set i ((zxEncode d).getD i 0 ^^^ e)) = .fixed i e ∧
    zxRepair ((zxEncode d).set i ((zxEncode d).getD i 0 ^^^ e)) = zxEncode d) ∧
  (∀ c : List Byte, c.length = 36 → burstWord (wordBurst c) = c) ∧
  ∀ (a b : List (BitVec 36)) (lane : Nat),
    (∀ j i, j < 8 → i < 36 → i ≠ lane → (a.getD j 0).getLsbD i = (b.getD j 0).getLsbD i) →
    ∀ i, i < 36 → i ≠ lane → (burstWord a).getD i 0 = (burstWord b).getD i 0

/-- A scrub read counts what the code says of its word and moves on, and the pass ends after the last word; a pseudo-
channel trains when its temperature has moved far enough; rebuilds and relocations end (R404, R406 to R408, R411). -/
def Obligations.StackEvents : Prop :=
  ∀ (k p : Nat) (beats : List (BitVec 36)) (temp : Int) (s : State),
    let x := s.stk k
    let l := s.service k
    let y := x.pc p
    (∀ hold rows, x.st ≠ 0 ∨ beats.length ≠ 8 ∨ l[x.word / 8 % l.length]? ≠ some p →
      exec (.scrubRead k p ⟨beats, rows⟩ hold) s = .next s) ∧
    (y.rebuild = none → readCodeword k p beats s = (burstWord beats, s)) ∧
    (∀ hold rows, x.st = 0 → beats.length = 8 → l[x.word / 8 % l.length]? = some p →
      let w := (readCodeword k p beats (activateAll reqOwn rows s)).1
      let v := (readCodeword k p beats (activateAll reqOwn rows s)).2
      let z := v.stk k
      (x.word + 1 < passWords s k →
        (zxDecode w = .ok → exec (.scrubRead k p ⟨beats, rows⟩ hold) s = .next (v.setStk k { z with word := z.word + 1 })) ∧
        (∀ i e, zxDecode w = .fixed i e → Completes (.scrubRead k p ⟨beats, rows⟩ hold) s fun t =>
          t.stk k = { z with word := z.word + 1, corr := satAdd 64 z.corr 1 } ∧ t = v.setStk k (t.stk k)) ∧
        (zxDecode w = .bad → (z.pc p).uncorr < 16 → Completes (.scrubRead k p ⟨beats, rows⟩ none) s fun t =>
          (t.stk k).word = z.word + 1 ∧ (t.stk k).uncorr = satAdd 64 z.uncorr 1 ∧ (t.stk k).corr = z.corr ∧
          ((t.stk k).pc p).uncorr = (z.pc p).uncorr + 1 ∧ Notes (v.setStk k (t.stk k)) t)) ∧
      (passWords s k ≤ x.word + 1 → zxDecode w = .ok → Completes (.scrubRead k p ⟨beats, rows⟩ hold) s fun t =>
        (t.stk k).word = 0 ∧ (t.stk k).passes = satAdd 32 z.passes 1 ∧ (∀ n, ((t.stk k).pc n).uncorr = 0) ∧
        t = v.setStk k (t.stk k))) ∧
    (x.st = 0 → p ∈ l → y.train = none → 50 * s.memBlock.u 2 1 < (temp - y.temp).natAbs →
      exec (.retrainStart k p temp) s = .next (s.setStk k ({ x with temp := temp }.setPc p { y with train := some temp }))) ∧
    (x.st ≠ 0 ∨ p ∉ l ∨ y.train ≠ none ∨ (temp - y.temp).natAbs ≤ 50 * s.memBlock.u 2 1 →
      exec (.retrainStart k p temp) s = .next s) ∧
    (∀ runs, y.train = none → exec (.retrainDone k p runs) s = .next s) ∧
    (∀ z, y.train = some z →
      (exec (.retrainDone k p []) s = .next (s.setStk k (x.setPc p { y with train := none, temp := z }))) ∧
      (∀ r lane tap, r.lane ≤ 4 → judgeLane r (s.deadLanes k p) = ([lane], some tap) → lane ∉ s.deadLanes k p →
        s.spares k p = [] → y.rebuild = none → Completes (.retrainDone k p [r]) s fun t =>
          (k, p, lane, some 0) ∈ t.health.lanes ∧ ((t.stk k).pc p).rebuild = some lane ∧ ((t.stk k).pc p).train = none ∧
          tfind ((t.stk k).pc p).taps (2 * r.lane + b2n r.write) = some tap ∧ t.health.causes = s.health.causes)) ∧
    (y.rebuild = none ∨ y.train.isSome → exec (.rebuildDone k p) s = .next s) ∧
    (∀ lane, y.rebuild = some lane → y.train = none → Completes (.rebuildDone k p) s fun t =>
      t.stk k = x.setPc p { y with rebuild := none } ∧ t.health.total = s.health.total + 1 ∧
      t.health.lanes = s.health.lanes) ∧
    (x.moving = [] → exec (.relocationDone k) s = .next s) ∧
    (∀ q qs, x.moving = q :: qs → exec (.relocationDone k) s =
      .next ((s.setStk k { x with moving := qs }).post evPcRetired [(1, k), (1, q), (1, l.length)]))

/-- Produced records enter their Stores in order, and the other placement's copy is counted (R26, R264, R439, R440); a
RAW or IQ record of the next samples of a fed stream takes the next SEQ, and one of other samples is not taken; a
capture that arrives opens the next segment, or is ignored, or is refused where an unreleased segment of a KEEP policy
is in its place (R269, R272). -/
def Obligations.StoreEvents : Prop :=
  ∀ (n tr acc : Nat) (rows : List (Nat × Nat)) (s : State),
    let v := activateAll reqOwn rows s
    (s.produced = [] → exec (.recordWrite ⟨.queued, rows⟩) s = .next v) ∧
    (∀ r rs, s.produced = r :: rs →
      (tfind s.merge r.handle = none → r.epoch = s.view.epoch r.handle →
        exec (.recordWrite ⟨.queued, rows⟩) s = .next ({ v with produced := rs }.enter r)) ∧
      (tfind s.merge r.handle = none → r.epoch ≠ s.view.epoch r.handle →
        exec (.recordWrite ⟨.queued, rows⟩) s = .next ({ v with produced := rs }.countMerge r.handle r.stream true)) ∧
      (∀ old new tm, tfind s.merge r.handle = some (old, new, tm) → old ≠ new →
        ((r.epoch = old ∧ r.lo < tm) ∨ (r.epoch = new ∧ tm ≤ r.lo) →
          exec (.recordWrite ⟨.queued, rows⟩) s = .next ({ v with produced := rs }.enter r)) ∧
        ((r.epoch = old ∧ tm ≤ r.lo) ∨ (r.epoch = new ∧ r.lo < tm) →
          exec (.recordWrite ⟨.queued, rows⟩) s = .next ({ v with produced := rs }.countMerge r.handle r.stream false)))) ∧
    (∀ h path start count first codes src,
      (path = 3 ∧ src = .raw h start codes ∧ count = codes.length) ∨ src = .iq h path start count first codes →
      (v.nextSource h path = none → exec (.recordWrite ⟨src, rows⟩) s = .next v) ∧
      ∀ st behind t, v.nextSource h path = some (st, behind, t) →
        let k := skey h st
        let taken := v.fed h st ≠ [] ∧ (∀ r ∈ v.produced, r.key ≠ k) ∧ start = t.next ∧ 0 < count ∧
          start + count = t.stop start
        (taken → Completes (.recordWrite ⟨src, rows⟩) s fun u =>
          u.produced = v.produced ∧ (behind = false → (∀ j, j ≠ k → u.stream j = v.stream j) ∧
            (u.stream k).next = start + count ∧ (u.stream k).seq = ((v.stream k).seq + 1) % 2 ^ 64)) ∧
        (¬taken → exec (.recordWrite ⟨src, rows⟩) s = .next v)) ∧
    ((∀ q ∈ s.caps, ¬(q.store = n ∧ q.tr = tr ∧ q.acc = acc)) → exec (.captureArrival n tr acc) s = .next s) ∧
    (∀ q, s.caps.find? (fun q => q.store == n && q.tr == tr && q.acc == acc) = some q →
      let x := s.sto n
      (x.on = false ∨ x.mode ≠ 1 ∨ q.pair ≠ (x.handle, s.view.epoch x.handle) → exec (.captureArrival n tr acc) s = .next { s with caps := s.caps.erase q }) ∧
      (x.on = true → x.mode = 1 → q.pair = (x.handle, s.view.epoch x.handle) → (x.stopped = true ∨ (x.u 20 4 ≠ 0 ∧ x.u 20 4 ≤ x.segNext)) →
        Completes (.captureArrival n tr acc) s fun t => (t.sto n).ignored = satAdd 32 x.ignored 1 ∧
          (t.sto n).segs = x.segs ∧ (t.sto n).segNext = x.segNext ∧ t.caps = s.caps.erase q ∧
          ∀ m, m ≠ n → t.sto m = s.sto m) ∧
      (x.on = true → x.mode = 1 → q.pair = (x.handle, s.view.epoch x.handle) → x.stopped = false → (x.u 20 4 = 0 ∨ x.segNext < x.u 20 4) →
        (∀ g, x.segs.find? (fun g => g.n % x.segments == x.segNext % x.segments && g.unreleased) = some g →
          x.nextPol.getD x.policy = 1 → Completes (.captureArrival n tr acc) s fun t =>
            (t.sto n).refused = satAdd 32 x.refused 1 ∧ (t.sto n).segs = x.segs ∧ (t.sto n).segNext = x.segNext ∧
            t.caps = s.caps.erase q) ∧
        ((x.segs.find? (fun g => g.n % x.segments == x.segNext % x.segments && g.unreleased) = none ∨
            x.nextPol.getD x.policy ≠ 1) → Completes (.captureArrival n tr acc) s fun t =>
          (t.sto n).segNext = x.segNext + 1 ∧ (∃ g ∈ (t.sto n).segs, g.n = x.segNext ∧ g.acc = acc ∧ g.trig = tr) ∧
          t.caps = s.caps.erase q ∧ ∀ m, m ≠ n → t.sto m = s.sto m)))

/-- A queue's descriptors: a fetch that fails halts the queue, one that arrives is taken; a finished or flushed buffer
is handed back with its status; a load's data enter the Store; an interrupt held off is sent; a drain that does not end
in time is cut (R426 to R437). -/
def Obligations.CourierEvents : Prop :=
  ∀ (q : Nat) (s : State),
    let x := s.qu q
    let b := s.quBlock q
    (∀ d, x.asked = false → exec (.descriptorFetch q d) s = .next s) ∧
    (∀ kind bs lst, x.asked = true → Completes (.descriptorFetch q (.fail kind bs lst)) s fun t =>
      (t.qu q).st = 2 ∧ (t.qu q).asked = false ∧ (t.qu q).fetch = kind ∧ (t.qu q).head = x.head ∧
      ∀ p, p ≠ q → t.qu p = s.qu p) ∧
    (∀ raw, x.asked = true → badDesc (padTo 32 raw) (b.u 2 1 == 1) = false → b.u 2 1 = 0 →
      ∀ e : Desc, e = { index := x.head, addr := getU (padTo 32 raw) 0 8, len := getU (padTo 32 raw) 8 4,
                        swap := getU (padTo 32 raw) 12 1, ctrl := getU (padTo 32 raw) 13 1 } →
      exec (.descriptorFetch q (.data raw)) s =
        .next (s.setQu q { x with asked := false, fetch := 0, head := (x.head + 1) % b.u 4 4, desc := some e, reads := [],
                                  next := 0 })) ∧
    (∀ raw, x.asked = true → badDesc (padTo 32 raw) (b.u 2 1 == 1) = true →
      Completes (.descriptorFetch q (.data raw)) s fun t => (t.qu q).st = 2 ∧ (t.qu q).lastSt = 4 ∧ (t.qu q).desc = none ∧
        (t.qu q).asked = false ∧ ∀ p, p ≠ q → t.qu p = s.qu p) ∧
    (∀ rows bad, x.desc = none ∨ b.u 2 1 = 1 ∨ x.st ≠ 1 → exec (.bufferHandBack q rows bad) s = .next s ∧
      exec (.flushTimeout q) s = .next s) ∧
    (∀ d s' f, x.desc = some d → b.u 2 1 ≠ 1 → x.st = 1 →
      fillBuffer (quStores b) d.swap d.len (d.len + 1) [] (fillFuel d.len) s {} = (s', f) →
      (f.bytes = [] → exec (.bufferHandBack q [] []) s = .next s ∧ exec (.flushTimeout q) s = .next s) ∧
      (f.bytes ≠ [] → f.full = true → exec (.flushTimeout q) s = .next s ∧
        Completes (.bufferHandBack q [] []) s fun t => (∀ w ∈ bufferWrites s d.addr f.bytes, .hostWrite x.fn w.1 w.2 ∈ t.sent) ∧ (t.qu q).desc = none ∧
          (t.qu q).lastSt = 0 ∧ (t.qu q).bytes = satAdd 64 x.bytes f.bytes.length ∧ (t.qu q).descs = satAdd 64 x.descs 1) ∧
      (f.bytes ≠ [] → f.full = false → exec (.bufferHandBack q [] []) s = .next s ∧
        Completes (.flushTimeout q) s fun t => (∀ w ∈ bufferWrites s d.addr f.bytes, .hostWrite x.fn w.1 w.2 ∈ t.sent) ∧ (t.qu q).desc = none ∧
          (t.qu q).lastSt = 0 ∧ (t.qu q).bytes = satAdd 64 x.bytes f.bytes.length ∧ (t.qu q).descs = satAdd 64 x.descs 1)) ∧
    (x.waiting = 0 ∨ b.u 20 4 = 0 → exec (.irqHoldoffExpiry q) s = .next s) ∧
    (x.waiting ≠ 0 → b.u 20 4 ≠ 0 → exec (.irqHoldoffExpiry q) s =
      .next ((s.setQu q { x with waiting := 0 }).msix x.fn (b.u 3 1))) ∧
    (∀ d, x.desc = none ∨ x.st ≠ 1 ∨ (b.u 2 1 = 1 ∧ x.reads = []) → exec (.loadReadCompletion q d) s = .next s) ∧
    (∀ d bs off rest, x.desc = some d → x.st = 1 → b.u 2 1 = 1 → x.reads = (off, bs.length) :: rest →
      Completes (.loadReadCompletion q (.data bs)) s fun t =>
        (t.sto (b.u 32 2)).samples =
          csetAll sampleDefault (s.sto (b.u 32 2)).samples (x.sample + off / 2) (samplesOfBytes bs) ∧
        (rest = [] → d.len ≤ x.next → (t.qu q).desc = none ∧ (t.qu q).sample = x.sample + d.len / 2 ∧
          (t.qu q).lastSt = 0 ∧ (t.qu q).bytes = satAdd 64 x.bytes d.len) ∧
        (rest ≠ [] ∨ x.next < d.len → (t.qu q).desc = some d ∧ (t.qu q).sample = x.sample ∧ (t.qu q).bytes = x.bytes)) ∧
    (∀ d kind bs lst, x.desc = some d → x.st = 1 → b.u 2 1 = 1 → x.reads ≠ [] →
      Completes (.loadReadCompletion q (.fail kind bs lst)) s fun t => (t.qu q).st = 2 ∧ (t.qu q).desc = none ∧
        (t.qu q).lastSt = 1) ∧
    (∀ d mode, s.pow.entering = some mode → Completes (.drainTimeout d) s fun t =>
      t.pow.entering = none ∧ t.pow.fallow = (if mode = 0 then 1 else 2) ∧ t.pow.domains = 1) ∧
    (∀ d, s.pow.entering = none → (d < 22 ∨ 25 < d ∨ s.isUp d = false) → exec (.drainTimeout d) s = .next s) ∧
    (∀ d, s.pow.entering = none → d = 24 ∨ d = 25 → s.isUp d = true → x.st ≠ 0 → x.drain = true → x.desc.isSome →
      Completes (.drainTimeout d) s fun t => t.isUp d = false ∧ (t.qu q).st = 3 ∧ (t.qu q).desc = none ∧
        (t.qu q).lastSt = 2)

/-- The archive writes a full chunk, or what it has at a flush, to the next drive that works; a completion counts it, a
failed write is tried once more, and SMART warnings are told once (R443 to R449). -/
def Obligations.ArchiveEvents : Prop :=
  ∀ (d c status : Nat) (s : State),
    let a := s.archive
    (∀ rows bad, a.st ≠ 1 → exec (.chunkWrite rows bad) s = .next s ∧ exec .archiveFlushTimeout s = .next s) ∧
    (∀ s' f, a.st = 1 → a.rest = [] → a.lost = [] → a.flying.length ≤ Config.archiveStaging →
      fillChunk (arcStores s.arcBlock) [] (chunkRoom / 64 + 1) s {} = (s', f) →
      let num := nextChunk s (s.arcD + 1) a.next
      (f.bytes = [] ∨ (s.drv (num % s.arcD)).failed = true →
        exec (.chunkWrite [] []) s = .next s ∧ exec .archiveFlushTimeout s = .next s) ∧
      (f.bytes ≠ [] → (s.drv (num % s.arcD)).failed = false → ∀ cmd, cmd = (if chunkRoom ≤ f.bytes.length then Instr.chunkWrite [] []
          else .archiveFlushTimeout) → Completes cmd s fun t =>
        t.archive.next = num + 1 ∧ (∃ y ∈ t.archive.flying, y.num = num ∧ y.drive = num % s.arcD ∧ y.again = false ∧
          .nvmeWrite (num % s.arcD) (s.chunkLba num) num y.bytes ∈ t.sent))) ∧
    ((∀ y ∈ a.flying, ¬(y.drive = d ∧ y.num = c)) → exec (.writeCompletion d c 0) s = .next s ∧
      (status ≠ 0 → exec (.writeCompletion d c status) s = .next s)) ∧
    ((∃ y ∈ a.flying, y.drive = d ∧ y.num = c) → Completes (.writeCompletion d c 0) s fun t =>
      (∀ y, y ∈ t.archive.flying ↔ y ∈ a.flying ∧ ¬(y.drive = d ∧ y.num = c)) ∧
      (t.drv d).chunks = satAdd 64 (s.drv d).chunks 1 ∧ (∀ e, e ≠ d → t.drv e = s.drv e) ∧ t.sent = s.sent) ∧
    (∀ y, a.flying.find? (fun y => y.drive == d && y.num == c) = some y → y.again = false →
      (status ≠ 0 → Completes (.writeCompletion d c status) s fun t =>
        (t.drv d).retries = satAdd 32 (s.drv d).retries 1 ∧ (t.drv d).failed = (s.drv d).failed ∧
        t.sent = s.sent ++ [.nvmeWrite d (s.chunkLba c) c y.bytes]) ∧
      (Completes (.writeTimeout d c) s fun t =>
        (t.drv d).retries = satAdd 32 (s.drv d).retries 1 ∧ (t.drv d).failed = (s.drv d).failed ∧
        t.sent = s.sent ++ [.nvmeWrite d (s.chunkLba c) c y.bytes])) ∧
    (∀ warn pct spare temp units media,
      (a.st = 0 ∨ s.arcD ≤ d → exec (.smartRead d warn pct spare temp units media) s = .next s) ∧
      (a.st ≠ 0 → d < s.arcD → Completes (.smartRead d warn pct spare temp units media) s fun t =>
        t.drv d = { s.drv d with warn := warn, pct := pct, spare := spare, temp := temp, units := units, media := media,
                                 warned := (s.drv d).warned || decide (90 ≤ pct) || warn != 0 } ∧
        (∀ e, e ≠ d → t.drv e = s.drv e) ∧ Notes { s with archive := t.archive } t ∧
        ((s.drv d).warned = true ∨ (pct < 90 ∧ warn = 0) → t.sent = s.sent)))

/-- A function-level reset stops the function's queues and discards what it has staged; a hot reset and a fundamental
reset by PERST# stop every queue and the archive; a retrained link is told (R422, R450, R483, R573). -/
def Obligations.LinkEvents : Prop :=
  ∀ (fn t : Nat) (s : State),
    let u := s.tick t
    (s.boot.numVfs < fn → exec (.functionLevelReset fn t) s = .next u) ∧
    (fn ≤ s.boot.numVfs → Completes (.functionLevelReset fn t) s fun t' =>
      (∀ q, (s.qu q).st ≠ 0 → (s.qu q).fn = fn → (t'.qu q).st = 3 ∧ (t'.qu q).desc = none) ∧
      (∀ q, (s.qu q).fn ≠ fn → t'.qu q = s.qu q) ∧
      (s.boot.st = 1 → ∀ x, x ∈ t'.cur.staged ↔ x ∈ s.cur.staged ∧ x.fn ≠ fn) ∧
      t'.cur.committed = s.cur.committed ∧ t'.cur.pending = s.cur.pending ∧ t'.health = s.health) ∧
    (Completes (.hotReset t) s fun t' => (∀ q, (s.qu q).st ≠ 0 → (t'.qu q).st = 3 ∧ (t'.qu q).desc = none) ∧
      t'.archive = { s.archive with st := 0, flying := [] } ∧ t' = { u with queue := t'.queue, archive := t'.archive }) ∧
    (∀ rate width, rate ∈ [64, 32, 16, 8, 5, 2] → width ∈ [16, 8, 4, 1] → exec (.linkRetrained rate width) s =
      .next ((s.setBoot { s.boot with rate := rate, width := width }).post evLinkRetrained [(1, rate), (1, width)])) ∧
    (exec (.perst s.boot.perst t) s = .next u) ∧
    (∀ p, p = !s.boot.perst → s.boot.strapPerst = false →
      (p = true → Completes (.perst p t) s fun t' => t'.boot = { s.boot with perst := true } ∧
        (∀ q, (s.qu q).st ≠ 0 → (t'.qu q).st = 3) ∧ t'.archive.st = 0 ∧ t'.cur = s.cur ∧ t'.health = s.health) ∧
      (p = false → s.pow.fallow = 0 → exec (.perst p t) s = .next { u with boot := { s.boot with perst := false } }) ∧
      (p = false → s.pow.fallow ≠ 0 → exec (.perst p t) s =
        .next { u with boot := { s.boot with perst := false }, pow := { s.pow with rung := true } })) ∧
    (s.boot.strapPerst = true → s.boot.perst = false → Completes (.perst true t) s fun t' =>
      t'.boot.st = 0 ∧ t'.boot.supplies = false ∧ t'.health = s.health ∧ t'.cur = {} ∧ t'.exh = [])

/-! ### Collections (18) -/

/-- Messages of the trigger bus: one that fails its CRC is counted and goes no further; a good one is counted, forwarded
unless the chain ends here, and held until its target (R503, R508); a RETURN is counted by the lead (R518); a message of
a class goes out in its own slot or is dropped (R507); at its target it acts, or is returned as stale (R508, R518), and
one of this device's own exhibit whose epoch has changed is counted as returned (R23; log 111). -/
def Obligations.BusMessages : Prop :=
  ∀ (w0 w1 : BitVec 64) (v i cls : Nat) (s : State),
    let m := busMsgOf w0 w1 v
    let u := s.tick (linkStart (holdSlot s m.sender v))
    let on (down : Bool) : List Sent := if (if down then s.busPos + 1 < s.busD else 0 < s.busPos) then [.bus w0 w1] else []
    let got (c : Coll) : Coll := { c with received := satAdd 64 c.received 1 }
    (∀ down ok, s.busD = 1 → exec (.triggerMessage w0 w1 v down ok) s = .next s ∧ exec (.stop w0 w1 v) s = .next s ∧
      exec (.returnMessage w0 w1 v) s = .next s) ∧
    (∀ down, s.busD ≠ 1 → exec (.triggerMessage w0 w1 v down false) s =
      .next (s.setColl { s.coll with crcErr := satAdd 32 s.coll.crcErr 1 })) ∧
    (∀ down, busFrom s m [1] none = true → s.inColl = true → exec (.triggerMessage w0 w1 v down true) s =
      .next { u with coll := { got s.coll with held := s.coll.held ++ [m] }, sent := s.sent ++ on down }) ∧
    (busFrom s m [4] none = true → s.inColl = true → exec (.stop w0 w1 v) s =
      .next { u with coll := { got s.coll with held := s.coll.held ++ [m] }, sent := s.sent ++ on (s.fromUp m.sender) }) ∧
    (busFrom s m [5] none = true → s.inColl = true → exec (.returnMessage w0 w1 v) s =
      .next { u with coll := { got s.coll with
                       staleRet := if s.isLead then satAdd 32 s.coll.staleRet 1 else s.coll.staleRet },
                     sent := s.sent ++ on (s.fromUp m.sender) }) ∧
    (s.coll.held[i]? = none → exec (.messageTarget i) s = .next s) ∧
    (∀ x, s.coll.held[i]? = some x →
      let y := s.tick (ceilDiv x.q 4)
      (s.view.isCollection x.handle = true → x.tag ≠ s.tagOf x.handle → s.coll.ctlQ.length < 64 →
        Completes (.messageTarget i) s fun t => t.coll.staleIn = satAdd 32 s.coll.staleIn 1 ∧
          t.coll.held = s.coll.held.eraseIdx i ∧
          (∃ z ∈ t.coll.ctlQ, z.kind = 5 ∧ z.sender = s.view.index ∧ z.handle = x.handle ∧ z.tag = x.tag ∧ z.arg = 0x0026 * 2 ^ 32) ∧
          t.trig = s.trig ∧ t.caps = s.caps ∧ t.store = s.store) ∧
      (s.view.isCollection x.handle = false → x.sender = s.view.index → (s.view.find x.handle).isSome →
        x.tag ≠ s.view.epoch x.handle % 2 ^ 16 → exec (.messageTarget i) s = .next (y.setColl { s.coll with
          held := s.coll.held.eraseIdx i, staleRet := satAdd 32 s.coll.staleRet 1 })) ∧
      (s.view.isCollection x.handle = true ∧ x.tag = s.tagOf x.handle ∨ s.view.isCollection x.handle = false ∧
          (x.sender = s.view.index → s.view.find x.handle = none ∨ x.tag = s.view.epoch x.handle % 2 ^ 16) →
        Completes (.messageTarget i) s fun t =>
        t.coll = { s.coll with held := s.coll.held.eraseIdx i } ∧ { t with trig := s.trig, caps := s.caps, coll := s.coll } = y ∧
        (x.kind = 4 → t.caps = s.caps ∧ (∀ h, h ∉ s.view.reach x.handle → t.tr h = s.tr h) ∧
          ∀ h ∈ s.view.reach x.handle, (max (s.tr h).next (gridCeil (s.view.gridK h) x.q 4), 0) ∈ (t.tr h).arms) ∧
        (x.kind ≠ 4 → s.view.isCollection x.handle = false ∨ x.sender = s.view.index → t.caps = s.caps))) ∧
    (∀ q, q = (if cls = 0 then s.coll.trgQ else s.coll.ctlQ) →
      (q = [] → exec (.messageSend cls v) s = .next s) ∧
      (∀ x rest, q = x :: rest →
        let first := firstSlot s cls (if cls = 0 then s.coll.nextTrg else s.coll.nextCtl) x
        let c : Coll := if cls = 0 then { s.coll with trgQ := rest } else { s.coll with ctlQ := rest }
        (v ≠ first → exec (.messageSend cls v) s = .next s) ∧
        (v = first → tooLate s v x = true → exec (.messageSend cls v) s =
          .next ((s.tick (linkStart v)).setColl { c with dropped := satAdd 32 s.coll.dropped 1 })) ∧
        (v = first → tooLate s v x = false → Completes (.messageSend cls v) s fun t =>
          t.coll.sent = satAdd 64 s.coll.sent 1 ∧ (t.coll.trgQ, t.coll.ctlQ) = (c.trgQ, c.ctlQ) ∧
          t.coll.dropped = s.coll.dropped ∧ { t with coll := s.coll, sent := s.sent } = s.tick (linkStart v) ∧
          t.coll.held = s.coll.held ++ (if x.kind = 1 ∨ x.kind = 4 then [{ x with slot := v }] else []) ∧
          t.sent = s.sent ++ (if s.busD = 1 then [] else [.bus x.word0 (x.word1 v)]))))

/-- A collection-wide action: a member votes on PREPARE, makes its tentative action pending on GO and discards it on
ABORT or 5 ms before its time; the lead counts votes, and answers the waiting command when all are in or 2 ms after
PREPARE (R519). -/
def Obligations.CollectionActions : Prop :=
  ∀ (w0 w1 : BitVec 64) (v t id : Nat) (s : State),
    let m := busMsgOf w0 w1 v
    let u := s.tick (linkStart (holdSlot s m.sender v))
    let on : List Sent := if (if s.fromUp m.sender then s.busPos + 1 < s.busD else 0 < s.busPos) then [.bus w0 w1] else []
    let a : State := { u with coll := { s.coll with received := satAdd 64 s.coll.received 1 }, sent := s.sent ++ on }
    (s.busD = 1 ∨ s.inColl = false → exec (.prepare w0 w1 v t) s = .next s ∧ exec (.accept w0 w1 v) s = .next s ∧
      exec (.refuse w0 w1 v) s = .next s ∧ exec (.go w0 w1 v) s = .next s ∧ exec (.abort w0 w1 v) s = .next s) ∧
    (busFrom s m [2, 3] (some 0) = true → s.inColl = true → m.sender = s.view.lead → s.coll.ctlQ.length < 64 →
      Completes (.prepare w0 w1 v t) s fun t' =>
        tfind t'.coll.tags m.handle = some m.tag ∧ t'.coll.received = satAdd 64 s.coll.received 1 ∧ t'.sent = s.sent ++ on ∧
        (∃ x ∈ t'.coll.ctlQ, x.kind = m.kind ∧ x.sender = s.view.index ∧ x.handle = m.handle ∧ x.tag = m.tag ∧
          x.arg % 2 ^ 16 = m.arg % 2 ^ 16 ∧ (x.phase = 1 ∨ x.phase = 2) ∧ x.code % 16 = m.code % 16 ∧
          (x.phase = 1 ↔ t'.coll.txns ≠ s.coll.txns) ∧
          (s.view.find m.handle = none → x.phase = 2 ∧ x.arg / 2 ^ 32 = eUndefined)) ∧
        t'.cur.committed = s.cur.committed ∧ t'.cur.pending = s.cur.pending ∧ t'.exh = s.exh) ∧
    (busFrom s m [2, 3] (some 3) = true → s.inColl = true → m.sender = s.view.lead →
      (tentative m s = none → exec (.go w0 w1 v) s = .next a) ∧
      (∀ x, tentative m s = some x → x.plan = none → Completes (.go w0 w1 v) s fun t' =>
        (∀ y, y ∈ t'.coll.txns ↔ y ∈ s.coll.txns ∧ y ≠ x) ∧
        (∃ z ∈ t'.cur.actions, z.time = x.time ∧ z.handle = some x.handle ∧
          z.act = if x.action = 3 then .force else .arm x.action) ∧ t'.cur.committed = s.cur.committed)) ∧
    (busFrom s m [2, 3] (some 4) = true → s.inColl = true → m.sender = s.view.lead →
      (tentative m s = none → exec (.abort w0 w1 v) s = .next a) ∧
      (∀ x, tentative m s = some x → Completes (.abort w0 w1 v) s fun t' =>
        (∀ y, y ∈ t'.coll.txns ↔ y ∈ s.coll.txns ∧ y ≠ x) ∧ t'.cur.actions = s.cur.actions ∧
        t'.cur.staged = s.cur.staged ++ (match x.plan with | some p => p.items.map fun i => ⟨0, i⟩ | none => []) ∧
        t'.cur.committed = s.cur.committed ∧ t'.cur.pending = s.cur.pending)) ∧
    (busFrom s m [2, 3] (some 1) = true → s.inColl = true →
      (s.isLead = false → exec (.accept w0 w1 v) s = .next a) ∧
      (s.isLead = true → ∀ x, s.coll.txns = [x] → x.lead = true → x.kind = m.kind → x.handle = m.handle →
        x.id % 2 ^ 16 = m.arg % 2 ^ 16 → m.sender ∉ x.votes → (∀ e ∈ x.refused, e.1 ≠ m.sender) →
        ((∃ d ∈ s.chainOrder, d ≠ s.view.index ∧ d ≠ m.sender ∧ d ∉ x.votes ∧ ∀ e ∈ x.refused, e.1 ≠ d) →
          exec (.accept w0 w1 v) s = .next (a.setColl { a.coll with txns := [{ x with votes := x.votes ++ [m.sender] }] })) ∧
        ((∀ d ∈ s.chainOrder, d ≠ s.view.index → d ≠ m.sender → d ∈ x.votes) → x.refused = [] → x.plan = none →
          Completes (.accept w0 w1 v) s fun t' => t'.coll.txns = [] ∧ (t'.mb x.fn).respValid = true ∧
            (∃ p, (t'.mb x.fn).stored = some p ∧ p.error = eOk ∧ p.seq = x.seq ∧ p.opcode = x.op) ∧
            ∃ z ∈ t'.cur.actions, z.time = x.time ∧ z.handle = some x.handle))) ∧
    (busFrom s m [2, 3] (some 2) = true → s.inColl = true →
      (s.isLead = false → exec (.refuse w0 w1 v) s = .next a) ∧
      (s.isLead = true → ∀ x, s.coll.txns = [x] → x.lead = true → x.kind = m.kind → x.handle = m.handle →
        x.id % 2 ^ 16 = m.arg % 2 ^ 16 → m.sender ∉ x.votes → (∀ e ∈ x.refused, e.1 ≠ m.sender) →
        (∀ d ∈ s.chainOrder, d ≠ s.view.index → d ≠ m.sender → d ∈ x.votes) → x.refused = [] →
          Completes (.refuse w0 w1 v) s fun t' => t'.coll.txns = [] ∧ t'.cur.actions = s.cur.actions ∧
            t'.cur.pending = s.cur.pending ∧
            ∃ p, (t'.mb x.fn).stored = some p ∧ p.error = bitsOf m.arg 32 16 ∧ p.seq = x.seq ∧
              p.result = zeros 16 ++ leBytes 2 (bitsOf m.arg 16 16))) ∧
    ((∀ x ∈ s.coll.txns, ¬(x.lead = true ∧ x.id = id)) → exec (.voteTimeout id) s = .next s) ∧
    (∀ x, s.coll.txns.find? (fun x => x.lead && x.id == id) = some x →
      (∃ d ∈ s.chainOrder, d ≠ s.view.index ∧ d ∉ x.votes ∧ ∀ e ∈ x.refused, e.1 ≠ d) →
      Completes (.voteTimeout id) s fun t' => x ∉ t'.coll.txns ∧ t'.cur.actions = s.cur.actions ∧
        t'.cur.pending = s.cur.pending ∧ (t'.mb x.fn).respValid = true ∧
        ∃ p, (t'.mb x.fn).stored = some p ∧ p.error = eCollectionState ∧ p.seq = x.seq) ∧
    ((∀ x ∈ s.coll.txns, ¬(x.lead = false ∧ x.id = id)) → exec (.tentativeTimeout id t) s = .next s) ∧
    (∀ x, s.coll.txns.find? (fun x => !x.lead && x.id == id) = some x →
      (t + 51200000 < sampleOf s.cad x.time → exec (.tentativeTimeout id t) s = .next s) ∧
      (sampleOf s.cad x.time ≤ t + 51200000 → Completes (.tentativeTimeout id t) s fun t' =>
        (∀ y, y ∈ t'.coll.txns ↔ y ∈ s.coll.txns ∧ y ≠ x) ∧ t'.cur.actions = s.cur.actions ∧
        t'.cur.staged = s.cur.staged ++ (match x.plan with | some p => p.items.map fun i => ⟨0, i⟩ | none => [])))

/-- Lanes and alignment: a lane in use that locks is listed, the last one sends ALIGN; a lost lane breaks a formed
collection (R502, R512, R514); a PROBE is answered by an ECHO two link slots later, and an ECHO gives an offset (R513).
-/
def Obligations.CollectionLanes : Prop :=
  ∀ (w0 w1 : BitVec 64) (v lane t hop : Nat) (z : Int) (lost : List Nat) (s : State),
    let m := busMsgOf w0 w1 v
    let u := s.tick t
    (s.collD ≤ 1 ∨ lane ∉ s.ownLanes ∨ lane ∈ s.coll.lanes → exec (.laneLock lane t) s = .next u) ∧
    (1 < s.collD → lane ∈ s.ownLanes → lane ∉ s.coll.lanes →
      ((∃ l ∈ s.ownLanes, l ≠ lane ∧ l ∉ s.coll.lanes) → exec (.laneLock lane t) s =
        .next (u.setColl { s.coll with lanes := lane :: s.coll.lanes, st := max 1 s.coll.st })) ∧
      ((∀ l ∈ s.ownLanes, l ≠ lane → l ∈ s.coll.lanes) → s.coll.ctlQ.length < 64 → s.coll.st ≠ 3 →
        Completes (.laneLock lane t) s fun t' => t'.coll.st = max 1 s.coll.st ∧ t'.coll.lanes = lane :: s.coll.lanes ∧
          (∃ x ∈ t'.coll.ctlQ, x.kind = 8 ∧ x.sender = s.view.index ∧ x.code = s.major ∧ x.q = 4 * nextTurn u.cad u.cad.now) ∧
          { t' with coll := s.coll } = u)) ∧
    (lane ∉ s.coll.lanes → exec (.laneLoss lane lost t) s = .next u) ∧
    (lane ∈ s.coll.lanes →
      (s.inColl = false → Completes (.laneLoss lane lost t) s fun t' => { t' with coll := s.coll } = u ∧
        (∀ l, l ∈ t'.coll.lanes ↔ l ∈ s.coll.lanes ∧ l ≠ lane) ∧ t'.coll.aligns = []) ∧
      (s.inColl = true → Completes (.laneLoss lane lost t) s fun t' => t'.coll.st = 3 ∧
        (∀ l, l ∈ t'.coll.lanes ↔ l ∈ s.coll.lanes ∧ l ≠ lane) ∧
        (∀ d, d ∈ t'.coll.lost ↔ d ∈ s.coll.lost ∨ (d ∈ s.chainOrder ∧ d ∈ lost ∧ d ≠ s.view.index)) ∧
        Notes { u with coll := t'.coll } t')) ∧
    (s.collD ≤ 1 ∨ s.lanesUp = false → exec (.probe v z) s = .next s) ∧
    (1 < s.collD → s.lanesUp = true → Completes (.probe v z) s fun t' =>
      (∃ w0 w1, t'.sent = s.sent ++ [.bus w0 w1] ∧ (busMsgOf w0 w1 0).kind = 7 ∧
        (busMsgOf w0 w1 0).sender = s.view.index % 16 ∧ (busMsgOf w0 w1 0).handle = 0xFFFF ∧
        (busMsgOf w0 w1 0).arg = ofInt 48 (z - 327680 * (v + 2))) ∧
      { t' with sent := s.sent, free := s.free } = s.tick (linkStart (v + 2))) ∧
    (s.collD ≤ 1 ∨ m.kind ≠ 7 ∨ hop ≠ s.posOf s.view.index ∨ s.collD ≤ hop + 1 → exec (.echo w0 w1 hop v z) s = .next s) ∧
    (1 < s.collD → m.kind = 7 → hop = s.posOf s.view.index → hop + 1 < s.collD → s.coll.offsets.length < 1024 →
      exec (.echo w0 w1 hop v z) s = .next (s.setColl { s.coll with offsets := s.coll.offsets ++
        [toInt 48 m.arg + 655360 - (z - (327680 * (v : Int) + 655360))] })) ∧
    (busFrom s m [8] none = false → exec (.align w0 w1 v) s = .next s) ∧
    (busFrom s m [8] none = true → s.coll.st ≠ 3 → (s.coll.st ≠ 1 ∨ s.isLead = true ∨ s.lanesUp = false) →
      Completes (.align w0 w1 v) s fun t' =>
        tfind t'.coll.aligns m.sender = some (m.code, bitsOf m.arg 16 32, m.q) ∧
        t'.coll.st = s.coll.st ∧ t'.coll.received = satAdd 64 s.coll.received 1 ∧
        { t' with coll := s.coll, sent := s.sent } = s.tick (linkStart (holdSlot s m.sender v))) ∧
    (busFrom s m [8] none = true → s.coll.st = 1 → s.isLead = false → s.lanesUp = true → s.cad.synced = true →
      (∀ d ∈ s.chainOrder, d ≠ s.view.index → d ≠ m.sender → ∃ q, tfind s.coll.aligns d = some (s.major, cadenceCrc s, q)) →
      m.code = s.major → bitsOf m.arg 16 32 = cadenceCrc s →
      Completes (.align w0 w1 v) s fun t' => t'.coll.st = 2 ∧ t'.coll.lost = [] ∧ t'.cad.awaitAnchor = true ∧
        tfind t'.coll.formed m.sender = some (m.code, bitsOf m.arg 16 32, m.q))

/-! ### Power, galleries, faults, Curator, start-up (17, 19 to 21) -/

/-- Leave that starts powers its domains; a domain that nothing needs loses power; a fault of a domain is counted, the
third in 60 s leaves it down, and its losses end when it resumes; a thermal trip takes every switched domain down (R522,
R525, R535, R536, R554, R589). -/
def Obligations.DomainEvents : Prop :=
  ∀ (d op unit sensor t : Nat) (temp : Int) (ms : List Meas) (s : State),
    let u := s.tick t
    ((∀ g ∈ u.ledger, ¬(g.op = op ∧ g.unit = unit ∧ g.holds u.cad.now = true)) →
      exec (.leaveStart op unit ⟨t, ms⟩) s = .next u) ∧
    ((∃ g ∈ u.ledger, g.op = op ∧ g.unit = unit ∧ g.holds u.cad.now = true) → op ≠ 11 → op ≠ 12 →
      Completes (.leaveStart op unit ⟨t, ms⟩) s fun t' =>
        (∀ e ∈ opDomains s.view op unit, e < 31 → e ∉ s.pow.down → t'.isUp e = true) ∧
        (∀ e, s.isUp e = true → t'.isUp e = true) ∧ t'.health = s.health ∧ t'.view = s.view) ∧
    (d = 0 ∨ s.isUp d = false ∨ d ∈ u.neededDomains u.cad.now ∨ (∃ e, e < 31 ∧ s.isUp e = true ∧ d ∈ requires e) →
      exec (.domainPowerDown d t) s = .next u) ∧
    (d ≠ 0 → s.isUp d = true → d ∉ u.neededDomains u.cad.now → (∀ e, e < 31 → s.isUp e = true → d ∉ requires e) →
      ((d < 22 ∨ 25 < d ∨ ∀ q, (s.qu q).desc = none) → Completes (.domainPowerDown d t) s fun t' => t'.isUp d = false ∧
        (∀ e, e ≠ d → t'.isUp e = s.isUp e) ∧ t'.health = s.health ∧ t'.view = s.view) ∧
      (d = 24 ∨ d = 25 → (∃ q, (s.qu q).st ≠ 0 ∧ (s.qu q).desc.isSome) → Completes (.domainPowerDown d t) s fun t' =>
        t'.pow = s.pow ∧ (∀ q, (s.qu q).st ≠ 0 → (t'.qu q).drain = true ∨ (s.qu q).desc = none))) ∧
    (d = 0 ∨ 30 < d ∨ s.isUp d = false → exec (.domainFault d t) s = .next u) ∧
    (∀ n l, 1 ≤ d → d ≤ 30 → s.isUp d = true → tget (0, []) s.pow.faults d = (n, l) →
      let near := l.filter fun x => decide (u.cad.now ≤ x + sixtySeconds)
      (near.length < 2 → Completes (.domainFault d t) s fun t' =>
        t'.pow = { s.pow with faults := tset s.pow.faults d (satAdd 16 n 1, near ++ [u.cad.now]) } ∧ t'.health = s.health ∧
        (d ≤ 12 ∨ 26 ≤ d ∧ d ≤ 28 → ∃ x ∈ t'.losses, x.unit = d ∧ x.cause = caDomain ∧ x.resume = some (domainBack u d))) ∧
      (2 ≤ near.length → Completes (.domainFault d t) s fun t' =>
        (tget (0, []) t'.pow.faults d).1 = satAdd 16 n 1 ∧ d ∈ t'.pow.down ∧ t'.isUp d = false ∧
        (d ≤ 12 → ∃ x ∈ t'.losses, x.unit = d ∧ x.cause = caDomain ∧ x.resume = none) ∧
        (13 ≤ d → d ≤ 21 → d - 13 ∈ t'.health.galleries))) ∧
    (d ∈ s.pow.down → exec (.domainResume d ⟨t, ms⟩) s = .next u) ∧
    (d ∉ s.pow.down → d ≠ 30 →
      ((∀ x ∈ s.losses, ¬(x.unit = d ∧ x.cause = caDomain ∧ x.due u.cad.now = true)) →
        exec (.domainResume d ⟨t, ms⟩) s = .next u) ∧
      (Completes (.domainResume d ⟨t, ms⟩) s fun t' => t'.health = s.health ∧
        ∀ x, x ∈ t'.losses ↔ x ∈ s.losses ∧ ¬(x.unit = d ∧ x.cause = caDomain ∧ x.due u.cad.now = true))) ∧
    (temp < 11500 ∨ s.pow.tripped = true ∨ 8 < sensor ∨ sensor = 0 → exec (.thermalTrip sensor temp t) s = .next u) ∧
    (11500 ≤ temp → s.pow.tripped = false → 1 ≤ sensor → sensor ≤ 8 → Completes (.thermalTrip sensor temp t) s fun t' =>
      t'.pow = { s.pow with tripped := true, domains := 1, down := (List.range 30).map (· + 1) } ∧
      (t'.stk 0).st = 3 ∧ (t'.stk 1).st = 3 ∧ (∀ q, (s.qu q).st ≠ 0 → (t'.qu q).st = 3) ∧ t'.archive.st = 0 ∧
      t'.health = s.health ∧ t'.view = s.view)

/-- A gallery that fails never serves again: what it served moves to the lowest free gallery, or goes out of service;
its target warms up, and takes over at Tm (R555, R558 to R561, R564). Words that cannot be corrected take what they hit
(R403, R552). -/
def Obligations.GalleryEvents : Prop :=
  ∀ (g p place unit key t : Nat) (s : State),
    let u := s.tick t
    (g ∈ s.health.galleries ∨ 9 ≤ g → exec (.galleryFailure g t) s = .next u) ∧
    (g ∉ s.health.galleries → g < 9 →
      (Completes (.galleryFailure g t) s fun t' => t'.health.galleries = s.health.galleries ++ [g] ∧
        t'.health.causes = s.health.causes ||| 2 ^ hcReserve ∧ t'.isUp (13 + g) = false ∧ t'.view = s.view) ∧
      (p < 8 → s.view.gallery p = g → p ∉ s.gal.out → s.gal.migr = [] →
        (∀ q, q < 8 → q ≠ p → s.view.gallery q ≠ g) →
        (s.freeGalleries = [] → Completes (.galleryFailure g t) s fun t' => p ∈ t'.gal.out ∧ t'.gal.migr = []) ∧
        (∀ x xs, s.freeGalleries = x :: xs → Completes (.galleryFailure g t) s fun t' => t'.gal.out = s.gal.out ∧
          (13 + x ∉ s.pow.down → t'.isUp (13 + x) = true) ∧
          ∃ m, t'.gal.migr = [m] ∧ m.pos = p ∧ m.target = x ∧ m.planned = false ∧ m.source = g ∧
            m.tm = turnAtOrAfter u.cad (m.warm + s.view.migrationSpan p false)))) ∧
    ((∀ m ∈ s.gal.migr, ¬(m.pos = p ∧ m.warming = false ∧ m.warm ≤ t)) → exec (.warmupStart p t) s = .next s) ∧
    (∀ m, s.gal.migr.find? (fun m => m.pos == p && !m.warming && decide (m.warm ≤ t)) = some m →
      exec (.warmupStart p t) s = .next ((u.powerUp (13 + m.target)).setMigr
        (s.gal.migr.map fun (x : Migration) => if x.pos = p then { x with warming := true } else x))) ∧
    ((∀ m ∈ s.gal.migr, ¬(m.pos = p ∧ m.tm ≤ t)) → exec (.migrationSwitch p t) s = .next s) ∧
    (∀ m, s.gal.migr.find? (fun m => m.pos == p && decide (m.tm ≤ t)) = some m → p < 8 → m.target < 9 →
      s.view.gallery p = m.target ∨ s.cur.pending = [] → Completes (.migrationSwitch p t) s fun t' =>
        t'.view.gallery p = m.target ∧ (∀ x, x ∈ t'.gal.migr ↔ x ∈ s.gal.migr ∧ x.pos ≠ p) ∧
        (∀ q, q ∈ t'.gal.out ↔ q ∈ s.gal.out ∧ q ≠ p) ∧ t'.health = s.health) ∧
    (4 < place → exec (.uncorrectableWord place unit key t) s = .next u) ∧
    (place = 0 → Completes (.uncorrectableWord place unit key t) s fun t' => t'.health = s.health ∧ t'.view = s.view ∧
      ∃ x ∈ t'.losses, x.unit = 9 + unit ∧ x.cause = caDomain ∧ x.resume = some (nextTurn u.cad u.cad.now)) ∧
    (place = 1 → unit = 0xFF → Completes (.uncorrectableWord place unit key t) s fun t' => t'.health = s.health ∧ t'.view = s.view ∧
      ∃ x ∈ t'.losses, x.unit = 26 ∧ x.cause = caDomain ∧ x.resume = some (nextTurn u.cad u.cad.now)) ∧
    (place = 2 ∨ place = 3 → Completes (.uncorrectableWord place unit key t) s fun t' => t'.health = s.health ∧
      t'.view = s.view ∧ t'.losses = s.losses) ∧
    (place = 4 → s.boot.st ≠ 1 ∨ s.pow.fallow ≠ 0 → Completes (.uncorrectableWord place unit key t) s fun t' => Notes u t') ∧
    (place = 4 → s.boot.st = 1 → s.pow.fallow = 0 → Completes (.uncorrectableWord place unit key t) s fun t' =>
      t'.boot = { s.boot with st := 2 } ∧ t'.cur.restart = some (2, u.cad.now) ∧
      t'.cur.restarts = satAdd 32 s.cur.restarts 1 ∧ t'.health = s.health ∧ t'.view = s.view)

/-- The Curator restarts on a lock-step mismatch, which is counted and logged, and on its watchdog; an activation that
does not succeed is rolled back; when a restart is done, held events and answers are written and STATE is 1 again (R497,
R498, R552, R564); the heartbeat counts (R459). -/
def Obligations.CuratorEvents : Prop :=
  ∀ (us reason t : Nat) (damaged : Bool) (s : State),
    let u := s.tick t
    let runs := s.boot.st = 1 ∧ s.pow.fallow = 0
    (¬runs → exec (.watchdogExpiry t) s = .next u ∧ exec (.heartbeat t) s = .next u ∧
      (s.boot.st ≠ 3 → exec (.lockstepMismatch t) s = .next u)) ∧
    (runs → ∀ c : Cur, c = { s.cur with
        restart := some (1, u.cad.now), restarts := satAdd 32 s.cur.restarts 1, alert := s.cur.alert ||| 8 } →
      exec (.watchdogExpiry t) s = .next { u with boot := { s.boot with st := 2 }, cur := c }) ∧
    (runs → exec (.heartbeat t) s = .next { u with
      boot := { s.boot with heartbeat := (s.boot.heartbeat + 1) % 2 ^ 32 },
      health := { s.health with onMs := s.health.onMs + 1 } }) ∧
    (runs → Completes (.lockstepMismatch t) s fun t' =>
      t'.boot = { s.boot with st := 2 } ∧ t'.cur.restart = some (0, u.cad.now) ∧
      t'.cur.restarts = satAdd 32 s.cur.restarts 1 ∧ t'.cur.mismatches = satAdd 32 s.cur.mismatches 1 ∧
      t'.view = s.view ∧
      (((s.health.mismatches.filter fun x => decide (s.health.onMs ≤ x + 720 * 3600000)).length < 3 →
        t'.health.causes = s.health.causes ∧ t'.health.total = s.health.total + 1) ∧
       (3 ≤ (s.health.mismatches.filter fun x => decide (s.health.onMs ≤ x + 720 * 3600000)).length →
        t'.health.causes = s.health.causes ||| 2 ^ hcLockstep))) ∧
    (s.boot.st = 3 → Completes (.lockstepMismatch t) s fun t' =>
      t'.boot.st = 2 ∧ t'.boot.image = s.boot.image ∧ t'.cur.mismatches = satAdd 32 s.cur.mismatches 1) ∧
    (s.boot.st ≠ 3 ∨ 1 < reason → exec (.activationTimeout reason t) s = .next u) ∧
    (s.boot.st = 3 → reason ≤ 1 → Completes (.activationTimeout reason t) s fun t' =>
      t'.boot = { (s.boot.setImg (1 - s.boot.image) { s.boot.img (1 - s.boot.image) with st := 2 }) with st := 2 } ∧
      Notes { u with boot := t'.boot } t') ∧
    (s.cur.restart = none → exec (.curatorRestartDone us damaged t) s = .next u) ∧
    (∀ cause at0, s.cur.restart = some (cause, at0) → Completes (.curatorRestartDone us damaged t) s fun t' =>
      t'.boot.st = 1 ∧ t'.cur.restart = none ∧ t'.cur.held = [] ∧ t'.cur.committed = s.cur.committed ∧
      t'.cur.pending = s.cur.pending ∧ t'.health.causes = s.health.causes ∧
      (damaged = false → t'.cur.staged = s.cur.staged ∧ t'.exh = s.exh) ∧
      (damaged = true → ∀ x, x ∈ t'.cur.staged ↔ x ∈ s.cur.staged ∧ s.boot.numVfs < x.fn) ∧
      (∀ fn, fn ≤ s.boot.numVfs → (s.mb fn).busy = true → (t'.mb fn).busy = false ∧ (t'.mb fn).respValid = true ∧
        (t'.mb fn).lastSeq = (s.mb fn).lastSeq ∧ (t'.mb fn).stored = (s.mb fn).stored) ∧
      (s.boot.st ≠ 3 → t'.boot = { s.boot with st := 1 } ∧ t'.health = s.health) ∧
      (s.boot.st = 3 → t'.boot.image = 1 - s.boot.image ∧ t'.boot.select = 1 - s.boot.image ∧
        t'.boot.tryFirst = none ∧ t'.health.total = s.health.total + 1))

/-- Start-up: when the supplies are good the first usable image of the order starts, its domains and stacks come up and
STATE is 1; one that hangs gives way when its time is over, and with none left the device is in recovery; a supply out
of range before STATE 1 holds it; a cold reset keeps flash, health log and straps alone (R566, R569, R571, R572, R578,
R580). The TAP drives pins in STATE 0 and 4 alone (R584). -/
def Obligations.StartUpEvents : Prop :=
  ∀ (rep : BootReport) (straps sup i : Nat) (sp drives : Bool) (s : State),
    (s.boot.st ≠ 0 → exec (.suppliesGood rep) s = .next s ∧ exec .bootAttemptTimeout s = .next s ∧
      exec (.supplyOutOfRange sup) s = .next s) ∧
    (s.boot.st = 0 → s.boot.strapPerst = true → s.boot.perst = true → exec (.suppliesGood rep) s =
      .next { s with boot := { s.boot with supplies := true, report := some (s.boot.report.getD rep) } }) ∧
    (s.boot.st = 0 → s.boot.strapPerst = false ∨ s.boot.perst = false → s.boot.report = none → s.boot.tries = 0 →
      s.pow.ledger = [] →
      (s.boot.order[0]? = none → Completes (.suppliesGood rep) s fun t =>
        t.boot.st = 4 ∧ t.boot.recovery = true ∧ t.health = s.health ∧ t.cur.committed = s.cur.committed) ∧
      (s.boot.order[0]? = some i → s.boot.usable i = true → rep.attempts.getD 0 2 = 0 →
        Completes (.suppliesGood rep) s fun t => t.boot.st = 1 ∧ t.boot.image = i ∧ t.boot.rollback = none ∧
          t.boot.report = none ∧ t.boot.select = i ∧ t.pow.ledger = baseGrants 0 ∧ (t.stk 0).st = 0 ∧ (t.stk 1).st = 0 ∧
          (∀ d ∈ [27, 26, 24, 25, 28, 30, 22, 23], d ∉ s.pow.down → t.isUp d = true) ∧
          (s.boot.select = i → rep.training = [] → rep.failedGals = [] → t.health = s.health)) ∧
      (s.boot.order[0]? = some i → s.boot.usable i = true → rep.attempts.getD 0 2 = 1 →
        Completes (.suppliesGood rep) s fun t => t.boot = { s.boot with supplies := true, report := some rep } ∧
          t.health = s.health ∧ t.cur = s.cur)) ∧
    (∀ r, s.boot.st = 0 → s.boot.report = some r → s.boot.supplies = true → s.boot.strapPerst = false ∨ s.boot.perst = false →
      s.pow.ledger ≠ [] →
      (s.boot.order[s.boot.tries + 1]? = none → Completes .bootAttemptTimeout s fun t =>
        t.boot.st = 4 ∧ t.boot.recovery = true ∧ t.health = s.health) ∧
      (s.boot.order[s.boot.tries + 1]? = some i → s.boot.usable i = true → r.attempts.getD (s.boot.tries + 1) 2 = 0 →
        Completes .bootAttemptTimeout s fun t => t.boot.st = 1 ∧ t.boot.image = i ∧ t.boot.rollback.isSome = true)) ∧
    (s.boot.report = none ∨ s.boot.supplies = false ∨ s.pow.ledger = [] → exec .bootAttemptTimeout s = .next s) ∧
    (s.boot.st = 0 → sup ≠ 0 → exec (.supplyOutOfRange sup) s = .next { s with boot := { s.boot with supplies := false } }) ∧
    (exec (.supplyOutOfRange 0) s = .next s) ∧
    (Completes (.coldReset straps sp) s fun t =>
      t.health = { s.health with cycles := (s.health.cycles + 1) % 2 ^ 32 } ∧
      t.boot = { State.reset.boot with
        imgA := s.boot.imgA, imgB := s.boot.imgB, select := s.boot.select, tryFirst := s.boot.tryFirst, gen := s.boot.gen, minSvn := s.boot.minSvn, straps := straps % 4, strapPerst := sp,
        perst := s.boot.perst, scan := s.boot.scan } ∧
      t.sent = s.sent ∧ t.free = s.free ∧
      { t with boot := State.reset.boot, health := State.reset.health, chan := State.reset.chan, hk := State.reset.hk,
               sent := [], free := State.reset.free, pending := [] } = { State.reset with sent := [] }) ∧
    (exec (.boundaryScanInstruction drives) s =
      .next { s with boot := { s.boot with scan := drives && (s.boot.st == 0 || s.boot.st == 4) } })

/-- FALLOW_ENTER with nothing running and nothing pending begins fallow mode in the mode asked for, or first lets the
Couriers drain (R436, R538). Fallow mode: the link comes up and goes down without waking the device, and a comparator's
latch or a host request ends the mode with every domain of start-up powered, both stacks in service and STATE 1 (R537,
R540 to R542). -/
def Obligations.FallowMode : Prop :=
  (∀ (r : Req) (s : State), Fresh r s → r.fn = 0 → Passes (fallowEnterBody r (s.tick r.t)) →
     ((∀ q, (s.qu q).desc = none) → Completes (.fallowEnter r) s fun t =>
       t.pow.fallow = 1 + r.u 0 1 ∧ t.pow.entering = none ∧ t.pow.domains = 1 ∧ t.pow.link = false ∧ t.pow.ledger = [] ∧
       t.cad.anchored = false ∧ t.cad.awaitAnchor = true ∧ t.hk.due = []) ∧
     (∀ q, (s.qu q).st ≠ 0 → (s.qu q).desc.isSome → Completes (.fallowEnter r) s fun t =>
       t.pow.entering = some (r.u 0 1) ∧ t.pow.fallow = 0 ∧ t.health = s.health ∧ t.boot = s.boot)) ∧
  (∀ (retrain : Bool) (runs : List (Nat × Nat × LaneRun)) (s : State),
     (s.pow.fallow = 0 → exec (.fallowWake retrain runs) s = .next s ∧ exec .linkL1Exit s = .next s ∧
       exec .linkL1Entry s = .next s) ∧
     (s.pow.wake = none → s.pow.rung = false → exec (.fallowWake retrain runs) s = .next s) ∧
     (s.pow.fallow ≠ 0 → s.pow.wake.isSome ∨ s.pow.rung = true → Completes (.fallowWake retrain runs) s fun t =>
       t.boot = { s.boot with st := 1 } ∧ t.pow.fallow = 0 ∧ t.pow.wake = none ∧ t.pow.rung = false ∧
       t.pow.ledger = baseGrants s.cad.now ∧ (t.stk 0).st = 0 ∧ (t.stk 1).st = 0 ∧
       (∀ d ∈ [27, 26, 24, 25, 28, 30, 22, 23], d ∉ s.pow.down → t.isUp d = true) ∧
       (retrain = false → s.pow.fallow ≠ 1 → t.health = s.health) ∧ (∀ q, (t.qu q).drain = true → (s.qu q).st = 0)) ∧
     (s.pow.fallow ≠ 0 → s.pow.link = false → Completes .linkL1Exit s fun t => t.pow.link = true ∧
       (24 ∉ s.pow.down → t.isUp 24 = true) ∧ (∀ d, d ≠ 24 → t.isUp d = s.isUp d) ∧ t = { s with pow := t.pow }) ∧
     (s.pow.fallow ≠ 0 → s.pow.link = true → Completes .linkL1Entry s fun t => t.pow.link = false ∧ t.isUp 24 = false ∧
       (∀ d, d ≠ 24 → t.isUp d = s.isUp d) ∧ t = { s with pow := t.pow }) ∧
     (s.pow.link = true → exec .linkL1Exit s = .next s) ∧ (s.pow.link = false → exec .linkL1Entry s = .next s))

/-- At a deaccession notice the cause bit sets, DEACC is 1, DEACC_N is low, HEALTH_CHANGED sets, EV_DEACCESSION goes to
every function with every cause then set, and the log gets an entry; and a cause that has occurred stays, whatever
command or reset comes (R565). -/
def Obligations.DeaccessionCausesStay : Prop :=
  (∀ (s t : State), step s = .next t →
     (∀ i, s.health.causes.testBit i = true → t.health.causes.testBit i = true) ∧
     (s.deaccLow = true → t.deaccLow = true)) ∧
  (∀ (cause : Nat) (s : State), 1 ≤ cause → s.health.causes % 2 = 0 → s.health.causes.testBit cause = false →
     let t := deaccession cause s
     let c := s.health.causes ||| 2 ^ cause
     t.health.causes = c ∧ t.deaccLow = true ∧ healthReg t.health % 2 = 1 ∧
       t.cur.alert = s.cur.alert ||| alHealth ∧
       (∃ l e, t.health.entries = l ++ [e] ∧ e.kind = 8 ∧ e.detail = c) ∧
       { t with health := s.health } = (s.alert alHealth).postAll evDeaccession [(4, c)])
end

