-- ==== Sys2Proof/Laws/Couriers.lean ====
section
/-! SUPPORT. The writes of a buffer carry its bytes, each once and in order (R429). -/
namespace Sys2Proof.Machine

theorem splitWrites_bytes (mps : Nat) (h : 0 < mps) (f addr : Nat) (bytes : List Byte) (hf : bytes.length < f) :
    (splitWrites mps f addr bytes).flatMap (·.2) = bytes := by
  induction f generalizing addr bytes with
  | zero => omega
  | succ f ih =>
    have hm := Nat.mod_lt addr h
    rcases bytes with _ | ⟨b, l⟩
    · simp [splitWrites]
    · have hd : ((b :: l).drop (mps - addr % mps)).length < f := by
        rw [List.length_drop]; simp only [List.length_cons] at hf ⊢; omega
      simp [splitWrites, ih _ _ hd]

end Sys2Proof.Machine
end

