-- ==== Sys2Proof/Laws/State.lean ====
section
/-! SUPPORT. What each named update of the state leaves in each field: one lemma per field per update. -/
namespace Sys2Proof.Machine

variable (s : State)

/-! ### setCad -/
@[simp] theorem State.setCad_cad (c : Cad) : (s.setCad c).cad = c := rfl
@[simp] theorem State.setCad_clkOut (c : Cad) : (s.setCad c).clkOut = s.clkOut := rfl
@[simp] theorem State.setCad_boot (c : Cad) : (s.setCad c).boot = s.boot := rfl
@[simp] theorem State.setCad_mbox (c : Cad) : (s.setCad c).mbox = s.mbox := rfl
@[simp] theorem State.setCad_cur (c : Cad) : (s.setCad c).cur = s.cur := rfl
@[simp] theorem State.setCad_exh (c : Cad) : (s.setCad c).exh = s.exh := rfl
@[simp] theorem State.setCad_streams (c : Cad) : (s.setCad c).streams = s.streams := rfl
@[simp] theorem State.setCad_produced (c : Cad) : (s.setCad c).produced = s.produced := rfl
@[simp] theorem State.setCad_chan (c : Cad) : (s.setCad c).chan = s.chan := rfl
@[simp] theorem State.setCad_wing (c : Cad) : (s.setCad c).wing = s.wing := rfl
@[simp] theorem State.setCad_mount (c : Cad) : (s.setCad c).mount = s.mount := rfl
@[simp] theorem State.setCad_pow (c : Cad) : (s.setCad c).pow = s.pow := rfl
@[simp] theorem State.setCad_health (c : Cad) : (s.setCad c).health = s.health := rfl
@[simp] theorem State.setCad_gal (c : Cad) : (s.setCad c).gal = s.gal := rfl
@[simp] theorem State.setCad_chain (c : Cad) : (s.setCad c).chain = s.chain := rfl
@[simp] theorem State.setCad_pipe (c : Cad) : (s.setCad c).pipe = s.pipe := rfl
@[simp] theorem State.setCad_sward (c : Cad) : (s.setCad c).sward = s.sward := rfl
@[simp] theorem State.setCad_wram (c : Cad) : (s.setCad c).wram = s.wram := rfl
@[simp] theorem State.setCad_mask (c : Cad) : (s.setCad c).mask = s.mask := rfl
@[simp] theorem State.setCad_conc (c : Cad) : (s.setCad c).conc = s.conc := rfl
@[simp] theorem State.setCad_trig (c : Cad) : (s.setCad c).trig = s.trig := rfl
@[simp] theorem State.setCad_accession (c : Cad) : (s.setCad c).accession = s.accession := rfl
@[simp] theorem State.setCad_lastEval (c : Cad) : (s.setCad c).lastEval = s.lastEval := rfl
@[simp] theorem State.setCad_caps (c : Cad) : (s.setCad c).caps = s.caps := rfl
@[simp] theorem State.setCad_lines (c : Cad) : (s.setCad c).lines = s.lines := rfl
@[simp] theorem State.setCad_prog (c : Cad) : (s.setCad c).prog = s.prog := rfl
@[simp] theorem State.setCad_store (c : Cad) : (s.setCad c).store = s.store := rfl
@[simp] theorem State.setCad_merge (c : Cad) : (s.setCad c).merge = s.merge := rfl
@[simp] theorem State.setCad_queue (c : Cad) : (s.setCad c).queue = s.queue := rfl
@[simp] theorem State.setCad_archive (c : Cad) : (s.setCad c).archive = s.archive := rfl
@[simp] theorem State.setCad_coll (c : Cad) : (s.setCad c).coll = s.coll := rfl
@[simp] theorem State.setCad_comp (c : Cad) : (s.setCad c).comp = s.comp := rfl
@[simp] theorem State.setCad_tdc (c : Cad) : (s.setCad c).tdc = s.tdc := rfl
@[simp] theorem State.setCad_stampStr (c : Cad) : (s.setCad c).stampStr = s.stampStr := rfl
@[simp] theorem State.setCad_pairer (c : Cad) : (s.setCad c).pairer = s.pairer := rfl
@[simp] theorem State.setCad_cross (c : Cad) : (s.setCad c).cross = s.cross := rfl
@[simp] theorem State.setCad_calSpans (c : Cad) : (s.setCad c).calSpans = s.calSpans := rfl
@[simp] theorem State.setCad_core (c : Cad) : (s.setCad c).core = s.core := rfl
@[simp] theorem State.setCad_dac (c : Cad) : (s.setCad c).dac = s.dac := rfl
@[simp] theorem State.setCad_level (c : Cad) : (s.setCad c).level = s.level := rfl
@[simp] theorem State.setCad_hk (c : Cad) : (s.setCad c).hk = s.hk := rfl
@[simp] theorem State.setCad_stack (c : Cad) : (s.setCad c).stack = s.stack := rfl
@[simp] theorem State.setCad_losses (c : Cad) : (s.setCad c).losses = s.losses := rfl
@[simp] theorem State.setCad_sent (c : Cad) : (s.setCad c).sent = s.sent := rfl
@[simp] theorem State.setCad_free (c : Cad) : (s.setCad c).free = s.free := rfl
@[simp] theorem State.setCad_pending (c : Cad) : (s.setCad c).pending = s.pending := rfl

/-! ### setColl -/
@[simp] theorem State.setColl_cad (c : Coll) : (s.setColl c).cad = s.cad := rfl
@[simp] theorem State.setColl_clkOut (c : Coll) : (s.setColl c).clkOut = s.clkOut := rfl
@[simp] theorem State.setColl_boot (c : Coll) : (s.setColl c).boot = s.boot := rfl
@[simp] theorem State.setColl_mbox (c : Coll) : (s.setColl c).mbox = s.mbox := rfl
@[simp] theorem State.setColl_cur (c : Coll) : (s.setColl c).cur = s.cur := rfl
@[simp] theorem State.setColl_exh (c : Coll) : (s.setColl c).exh = s.exh := rfl
@[simp] theorem State.setColl_streams (c : Coll) : (s.setColl c).streams = s.streams := rfl
@[simp] theorem State.setColl_produced (c : Coll) : (s.setColl c).produced = s.produced := rfl
@[simp] theorem State.setColl_chan (c : Coll) : (s.setColl c).chan = s.chan := rfl
@[simp] theorem State.setColl_wing (c : Coll) : (s.setColl c).wing = s.wing := rfl
@[simp] theorem State.setColl_mount (c : Coll) : (s.setColl c).mount = s.mount := rfl
@[simp] theorem State.setColl_pow (c : Coll) : (s.setColl c).pow = s.pow := rfl
@[simp] theorem State.setColl_health (c : Coll) : (s.setColl c).health = s.health := rfl
@[simp] theorem State.setColl_gal (c : Coll) : (s.setColl c).gal = s.gal := rfl
@[simp] theorem State.setColl_chain (c : Coll) : (s.setColl c).chain = s.chain := rfl
@[simp] theorem State.setColl_pipe (c : Coll) : (s.setColl c).pipe = s.pipe := rfl
@[simp] theorem State.setColl_sward (c : Coll) : (s.setColl c).sward = s.sward := rfl
@[simp] theorem State.setColl_wram (c : Coll) : (s.setColl c).wram = s.wram := rfl
@[simp] theorem State.setColl_mask (c : Coll) : (s.setColl c).mask = s.mask := rfl
@[simp] theorem State.setColl_conc (c : Coll) : (s.setColl c).conc = s.conc := rfl
@[simp] theorem State.setColl_trig (c : Coll) : (s.setColl c).trig = s.trig := rfl
@[simp] theorem State.setColl_accession (c : Coll) : (s.setColl c).accession = s.accession := rfl
@[simp] theorem State.setColl_lastEval (c : Coll) : (s.setColl c).lastEval = s.lastEval := rfl
@[simp] theorem State.setColl_caps (c : Coll) : (s.setColl c).caps = s.caps := rfl
@[simp] theorem State.setColl_lines (c : Coll) : (s.setColl c).lines = s.lines := rfl
@[simp] theorem State.setColl_prog (c : Coll) : (s.setColl c).prog = s.prog := rfl
@[simp] theorem State.setColl_store (c : Coll) : (s.setColl c).store = s.store := rfl
@[simp] theorem State.setColl_merge (c : Coll) : (s.setColl c).merge = s.merge := rfl
@[simp] theorem State.setColl_queue (c : Coll) : (s.setColl c).queue = s.queue := rfl
@[simp] theorem State.setColl_archive (c : Coll) : (s.setColl c).archive = s.archive := rfl
@[simp] theorem State.setColl_coll (c : Coll) : (s.setColl c).coll = c := rfl
@[simp] theorem State.setColl_comp (c : Coll) : (s.setColl c).comp = s.comp := rfl
@[simp] theorem State.setColl_tdc (c : Coll) : (s.setColl c).tdc = s.tdc := rfl
@[simp] theorem State.setColl_stampStr (c : Coll) : (s.setColl c).stampStr = s.stampStr := rfl
@[simp] theorem State.setColl_pairer (c : Coll) : (s.setColl c).pairer = s.pairer := rfl
@[simp] theorem State.setColl_cross (c : Coll) : (s.setColl c).cross = s.cross := rfl
@[simp] theorem State.setColl_calSpans (c : Coll) : (s.setColl c).calSpans = s.calSpans := rfl
@[simp] theorem State.setColl_core (c : Coll) : (s.setColl c).core = s.core := rfl
@[simp] theorem State.setColl_dac (c : Coll) : (s.setColl c).dac = s.dac := rfl
@[simp] theorem State.setColl_level (c : Coll) : (s.setColl c).level = s.level := rfl
@[simp] theorem State.setColl_hk (c : Coll) : (s.setColl c).hk = s.hk := rfl
@[simp] theorem State.setColl_stack (c : Coll) : (s.setColl c).stack = s.stack := rfl
@[simp] theorem State.setColl_losses (c : Coll) : (s.setColl c).losses = s.losses := rfl
@[simp] theorem State.setColl_sent (c : Coll) : (s.setColl c).sent = s.sent := rfl
@[simp] theorem State.setColl_free (c : Coll) : (s.setColl c).free = s.free := rfl
@[simp] theorem State.setColl_pending (c : Coll) : (s.setColl c).pending = s.pending := rfl

/-! ### setCmp -/
@[simp] theorem State.setCmp_cad (n : Nat) (x : Comp) : (s.setCmp n x).cad = s.cad := rfl
@[simp] theorem State.setCmp_clkOut (n : Nat) (x : Comp) : (s.setCmp n x).clkOut = s.clkOut := rfl
@[simp] theorem State.setCmp_boot (n : Nat) (x : Comp) : (s.setCmp n x).boot = s.boot := rfl
@[simp] theorem State.setCmp_mbox (n : Nat) (x : Comp) : (s.setCmp n x).mbox = s.mbox := rfl
@[simp] theorem State.setCmp_cur (n : Nat) (x : Comp) : (s.setCmp n x).cur = s.cur := rfl
@[simp] theorem State.setCmp_exh (n : Nat) (x : Comp) : (s.setCmp n x).exh = s.exh := rfl
@[simp] theorem State.setCmp_streams (n : Nat) (x : Comp) : (s.setCmp n x).streams = s.streams := rfl
@[simp] theorem State.setCmp_produced (n : Nat) (x : Comp) : (s.setCmp n x).produced = s.produced := rfl
@[simp] theorem State.setCmp_chan (n : Nat) (x : Comp) : (s.setCmp n x).chan = s.chan := rfl
@[simp] theorem State.setCmp_wing (n : Nat) (x : Comp) : (s.setCmp n x).wing = s.wing := rfl
@[simp] theorem State.setCmp_mount (n : Nat) (x : Comp) : (s.setCmp n x).mount = s.mount := rfl
@[simp] theorem State.setCmp_pow (n : Nat) (x : Comp) : (s.setCmp n x).pow = s.pow := rfl
@[simp] theorem State.setCmp_health (n : Nat) (x : Comp) : (s.setCmp n x).health = s.health := rfl
@[simp] theorem State.setCmp_gal (n : Nat) (x : Comp) : (s.setCmp n x).gal = s.gal := rfl
@[simp] theorem State.setCmp_chain (n : Nat) (x : Comp) : (s.setCmp n x).chain = s.chain := rfl
@[simp] theorem State.setCmp_pipe (n : Nat) (x : Comp) : (s.setCmp n x).pipe = s.pipe := rfl
@[simp] theorem State.setCmp_sward (n : Nat) (x : Comp) : (s.setCmp n x).sward = s.sward := rfl
@[simp] theorem State.setCmp_wram (n : Nat) (x : Comp) : (s.setCmp n x).wram = s.wram := rfl
@[simp] theorem State.setCmp_mask (n : Nat) (x : Comp) : (s.setCmp n x).mask = s.mask := rfl
@[simp] theorem State.setCmp_conc (n : Nat) (x : Comp) : (s.setCmp n x).conc = s.conc := rfl
@[simp] theorem State.setCmp_trig (n : Nat) (x : Comp) : (s.setCmp n x).trig = s.trig := rfl
@[simp] theorem State.setCmp_accession (n : Nat) (x : Comp) : (s.setCmp n x).accession = s.accession := rfl
@[simp] theorem State.setCmp_lastEval (n : Nat) (x : Comp) : (s.setCmp n x).lastEval = s.lastEval := rfl
@[simp] theorem State.setCmp_caps (n : Nat) (x : Comp) : (s.setCmp n x).caps = s.caps := rfl
@[simp] theorem State.setCmp_lines (n : Nat) (x : Comp) : (s.setCmp n x).lines = s.lines := rfl
@[simp] theorem State.setCmp_prog (n : Nat) (x : Comp) : (s.setCmp n x).prog = s.prog := rfl
@[simp] theorem State.setCmp_store (n : Nat) (x : Comp) : (s.setCmp n x).store = s.store := rfl
@[simp] theorem State.setCmp_merge (n : Nat) (x : Comp) : (s.setCmp n x).merge = s.merge := rfl
@[simp] theorem State.setCmp_queue (n : Nat) (x : Comp) : (s.setCmp n x).queue = s.queue := rfl
@[simp] theorem State.setCmp_archive (n : Nat) (x : Comp) : (s.setCmp n x).archive = s.archive := rfl
@[simp] theorem State.setCmp_coll (n : Nat) (x : Comp) : (s.setCmp n x).coll = s.coll := rfl
@[simp] theorem State.setCmp_comp (n : Nat) (x : Comp) : (s.setCmp n x).comp = tset s.comp n x := rfl
@[simp] theorem State.setCmp_tdc (n : Nat) (x : Comp) : (s.setCmp n x).tdc = s.tdc := rfl
@[simp] theorem State.setCmp_stampStr (n : Nat) (x : Comp) : (s.setCmp n x).stampStr = s.stampStr := rfl
@[simp] theorem State.setCmp_pairer (n : Nat) (x : Comp) : (s.setCmp n x).pairer = s.pairer := rfl
@[simp] theorem State.setCmp_cross (n : Nat) (x : Comp) : (s.setCmp n x).cross = s.cross := rfl
@[simp] theorem State.setCmp_calSpans (n : Nat) (x : Comp) : (s.setCmp n x).calSpans = s.calSpans := rfl
@[simp] theorem State.setCmp_core (n : Nat) (x : Comp) : (s.setCmp n x).core = s.core := rfl
@[simp] theorem State.setCmp_dac (n : Nat) (x : Comp) : (s.setCmp n x).dac = s.dac := rfl
@[simp] theorem State.setCmp_level (n : Nat) (x : Comp) : (s.setCmp n x).level = s.level := rfl
@[simp] theorem State.setCmp_hk (n : Nat) (x : Comp) : (s.setCmp n x).hk = s.hk := rfl
@[simp] theorem State.setCmp_stack (n : Nat) (x : Comp) : (s.setCmp n x).stack = s.stack := rfl
@[simp] theorem State.setCmp_losses (n : Nat) (x : Comp) : (s.setCmp n x).losses = s.losses := rfl
@[simp] theorem State.setCmp_sent (n : Nat) (x : Comp) : (s.setCmp n x).sent = s.sent := rfl
@[simp] theorem State.setCmp_free (n : Nat) (x : Comp) : (s.setCmp n x).free = s.free := rfl
@[simp] theorem State.setCmp_pending (n : Nat) (x : Comp) : (s.setCmp n x).pending = s.pending := rfl

/-! ### setCore -/
@[simp] theorem State.setCore_cad (c : Nat) (x : Core) : (s.setCore c x).cad = s.cad := rfl
@[simp] theorem State.setCore_clkOut (c : Nat) (x : Core) : (s.setCore c x).clkOut = s.clkOut := rfl
@[simp] theorem State.setCore_boot (c : Nat) (x : Core) : (s.setCore c x).boot = s.boot := rfl
@[simp] theorem State.setCore_mbox (c : Nat) (x : Core) : (s.setCore c x).mbox = s.mbox := rfl
@[simp] theorem State.setCore_cur (c : Nat) (x : Core) : (s.setCore c x).cur = s.cur := rfl
@[simp] theorem State.setCore_exh (c : Nat) (x : Core) : (s.setCore c x).exh = s.exh := rfl
@[simp] theorem State.setCore_streams (c : Nat) (x : Core) : (s.setCore c x).streams = s.streams := rfl
@[simp] theorem State.setCore_produced (c : Nat) (x : Core) : (s.setCore c x).produced = s.produced := rfl
@[simp] theorem State.setCore_chan (c : Nat) (x : Core) : (s.setCore c x).chan = s.chan := rfl
@[simp] theorem State.setCore_wing (c : Nat) (x : Core) : (s.setCore c x).wing = s.wing := rfl
@[simp] theorem State.setCore_mount (c : Nat) (x : Core) : (s.setCore c x).mount = s.mount := rfl
@[simp] theorem State.setCore_pow (c : Nat) (x : Core) : (s.setCore c x).pow = s.pow := rfl
@[simp] theorem State.setCore_health (c : Nat) (x : Core) : (s.setCore c x).health = s.health := rfl
@[simp] theorem State.setCore_gal (c : Nat) (x : Core) : (s.setCore c x).gal = s.gal := rfl
@[simp] theorem State.setCore_chain (c : Nat) (x : Core) : (s.setCore c x).chain = s.chain := rfl
@[simp] theorem State.setCore_pipe (c : Nat) (x : Core) : (s.setCore c x).pipe = s.pipe := rfl
@[simp] theorem State.setCore_sward (c : Nat) (x : Core) : (s.setCore c x).sward = s.sward := rfl
@[simp] theorem State.setCore_wram (c : Nat) (x : Core) : (s.setCore c x).wram = s.wram := rfl
@[simp] theorem State.setCore_mask (c : Nat) (x : Core) : (s.setCore c x).mask = s.mask := rfl
@[simp] theorem State.setCore_conc (c : Nat) (x : Core) : (s.setCore c x).conc = s.conc := rfl
@[simp] theorem State.setCore_trig (c : Nat) (x : Core) : (s.setCore c x).trig = s.trig := rfl
@[simp] theorem State.setCore_accession (c : Nat) (x : Core) : (s.setCore c x).accession = s.accession := rfl
@[simp] theorem State.setCore_lastEval (c : Nat) (x : Core) : (s.setCore c x).lastEval = s.lastEval := rfl
@[simp] theorem State.setCore_caps (c : Nat) (x : Core) : (s.setCore c x).caps = s.caps := rfl
@[simp] theorem State.setCore_lines (c : Nat) (x : Core) : (s.setCore c x).lines = s.lines := rfl
@[simp] theorem State.setCore_prog (c : Nat) (x : Core) : (s.setCore c x).prog = s.prog := rfl
@[simp] theorem State.setCore_store (c : Nat) (x : Core) : (s.setCore c x).store = s.store := rfl
@[simp] theorem State.setCore_merge (c : Nat) (x : Core) : (s.setCore c x).merge = s.merge := rfl
@[simp] theorem State.setCore_queue (c : Nat) (x : Core) : (s.setCore c x).queue = s.queue := rfl
@[simp] theorem State.setCore_archive (c : Nat) (x : Core) : (s.setCore c x).archive = s.archive := rfl
@[simp] theorem State.setCore_coll (c : Nat) (x : Core) : (s.setCore c x).coll = s.coll := rfl
@[simp] theorem State.setCore_comp (c : Nat) (x : Core) : (s.setCore c x).comp = s.comp := rfl
@[simp] theorem State.setCore_tdc (c : Nat) (x : Core) : (s.setCore c x).tdc = s.tdc := rfl
@[simp] theorem State.setCore_stampStr (c : Nat) (x : Core) : (s.setCore c x).stampStr = s.stampStr := rfl
@[simp] theorem State.setCore_pairer (c : Nat) (x : Core) : (s.setCore c x).pairer = s.pairer := rfl
@[simp] theorem State.setCore_cross (c : Nat) (x : Core) : (s.setCore c x).cross = s.cross := rfl
@[simp] theorem State.setCore_calSpans (c : Nat) (x : Core) : (s.setCore c x).calSpans = s.calSpans := rfl
@[simp] theorem State.setCore_core (c : Nat) (x : Core) : (s.setCore c x).core = tset s.core c x := rfl
@[simp] theorem State.setCore_dac (c : Nat) (x : Core) : (s.setCore c x).dac = s.dac := rfl
@[simp] theorem State.setCore_level (c : Nat) (x : Core) : (s.setCore c x).level = s.level := rfl
@[simp] theorem State.setCore_hk (c : Nat) (x : Core) : (s.setCore c x).hk = s.hk := rfl
@[simp] theorem State.setCore_stack (c : Nat) (x : Core) : (s.setCore c x).stack = s.stack := rfl
@[simp] theorem State.setCore_losses (c : Nat) (x : Core) : (s.setCore c x).losses = s.losses := rfl
@[simp] theorem State.setCore_sent (c : Nat) (x : Core) : (s.setCore c x).sent = s.sent := rfl
@[simp] theorem State.setCore_free (c : Nat) (x : Core) : (s.setCore c x).free = s.free := rfl
@[simp] theorem State.setCore_pending (c : Nat) (x : Core) : (s.setCore c x).pending = s.pending := rfl

/-! ### setQu -/
@[simp] theorem State.setQu_cad (q : Nat) (x : Queue) : (s.setQu q x).cad = s.cad := rfl
@[simp] theorem State.setQu_clkOut (q : Nat) (x : Queue) : (s.setQu q x).clkOut = s.clkOut := rfl
@[simp] theorem State.setQu_boot (q : Nat) (x : Queue) : (s.setQu q x).boot = s.boot := rfl
@[simp] theorem State.setQu_mbox (q : Nat) (x : Queue) : (s.setQu q x).mbox = s.mbox := rfl
@[simp] theorem State.setQu_cur (q : Nat) (x : Queue) : (s.setQu q x).cur = s.cur := rfl
@[simp] theorem State.setQu_exh (q : Nat) (x : Queue) : (s.setQu q x).exh = s.exh := rfl
@[simp] theorem State.setQu_streams (q : Nat) (x : Queue) : (s.setQu q x).streams = s.streams := rfl
@[simp] theorem State.setQu_produced (q : Nat) (x : Queue) : (s.setQu q x).produced = s.produced := rfl
@[simp] theorem State.setQu_chan (q : Nat) (x : Queue) : (s.setQu q x).chan = s.chan := rfl
@[simp] theorem State.setQu_wing (q : Nat) (x : Queue) : (s.setQu q x).wing = s.wing := rfl
@[simp] theorem State.setQu_mount (q : Nat) (x : Queue) : (s.setQu q x).mount = s.mount := rfl
@[simp] theorem State.setQu_pow (q : Nat) (x : Queue) : (s.setQu q x).pow = s.pow := rfl
@[simp] theorem State.setQu_health (q : Nat) (x : Queue) : (s.setQu q x).health = s.health := rfl
@[simp] theorem State.setQu_gal (q : Nat) (x : Queue) : (s.setQu q x).gal = s.gal := rfl
@[simp] theorem State.setQu_chain (q : Nat) (x : Queue) : (s.setQu q x).chain = s.chain := rfl
@[simp] theorem State.setQu_pipe (q : Nat) (x : Queue) : (s.setQu q x).pipe = s.pipe := rfl
@[simp] theorem State.setQu_sward (q : Nat) (x : Queue) : (s.setQu q x).sward = s.sward := rfl
@[simp] theorem State.setQu_wram (q : Nat) (x : Queue) : (s.setQu q x).wram = s.wram := rfl
@[simp] theorem State.setQu_mask (q : Nat) (x : Queue) : (s.setQu q x).mask = s.mask := rfl
@[simp] theorem State.setQu_conc (q : Nat) (x : Queue) : (s.setQu q x).conc = s.conc := rfl
@[simp] theorem State.setQu_trig (q : Nat) (x : Queue) : (s.setQu q x).trig = s.trig := rfl
@[simp] theorem State.setQu_accession (q : Nat) (x : Queue) : (s.setQu q x).accession = s.accession := rfl
@[simp] theorem State.setQu_lastEval (q : Nat) (x : Queue) : (s.setQu q x).lastEval = s.lastEval := rfl
@[simp] theorem State.setQu_caps (q : Nat) (x : Queue) : (s.setQu q x).caps = s.caps := rfl
@[simp] theorem State.setQu_lines (q : Nat) (x : Queue) : (s.setQu q x).lines = s.lines := rfl
@[simp] theorem State.setQu_prog (q : Nat) (x : Queue) : (s.setQu q x).prog = s.prog := rfl
@[simp] theorem State.setQu_store (q : Nat) (x : Queue) : (s.setQu q x).store = s.store := rfl
@[simp] theorem State.setQu_merge (q : Nat) (x : Queue) : (s.setQu q x).merge = s.merge := rfl
@[simp] theorem State.setQu_queue (q : Nat) (x : Queue) : (s.setQu q x).queue = tset s.queue q x := rfl
@[simp] theorem State.setQu_archive (q : Nat) (x : Queue) : (s.setQu q x).archive = s.archive := rfl
@[simp] theorem State.setQu_coll (q : Nat) (x : Queue) : (s.setQu q x).coll = s.coll := rfl
@[simp] theorem State.setQu_comp (q : Nat) (x : Queue) : (s.setQu q x).comp = s.comp := rfl
@[simp] theorem State.setQu_tdc (q : Nat) (x : Queue) : (s.setQu q x).tdc = s.tdc := rfl
@[simp] theorem State.setQu_stampStr (q : Nat) (x : Queue) : (s.setQu q x).stampStr = s.stampStr := rfl
@[simp] theorem State.setQu_pairer (q : Nat) (x : Queue) : (s.setQu q x).pairer = s.pairer := rfl
@[simp] theorem State.setQu_cross (q : Nat) (x : Queue) : (s.setQu q x).cross = s.cross := rfl
@[simp] theorem State.setQu_calSpans (q : Nat) (x : Queue) : (s.setQu q x).calSpans = s.calSpans := rfl
@[simp] theorem State.setQu_core (q : Nat) (x : Queue) : (s.setQu q x).core = s.core := rfl
@[simp] theorem State.setQu_dac (q : Nat) (x : Queue) : (s.setQu q x).dac = s.dac := rfl
@[simp] theorem State.setQu_level (q : Nat) (x : Queue) : (s.setQu q x).level = s.level := rfl
@[simp] theorem State.setQu_hk (q : Nat) (x : Queue) : (s.setQu q x).hk = s.hk := rfl
@[simp] theorem State.setQu_stack (q : Nat) (x : Queue) : (s.setQu q x).stack = s.stack := rfl
@[simp] theorem State.setQu_losses (q : Nat) (x : Queue) : (s.setQu q x).losses = s.losses := rfl
@[simp] theorem State.setQu_sent (q : Nat) (x : Queue) : (s.setQu q x).sent = s.sent := rfl
@[simp] theorem State.setQu_free (q : Nat) (x : Queue) : (s.setQu q x).free = s.free := rfl
@[simp] theorem State.setQu_pending (q : Nat) (x : Queue) : (s.setQu q x).pending = s.pending := rfl

/-! ### setPlane -/
@[simp] theorem State.setPlane_cad (h : Nat) (p : Plane) : (s.setPlane h p).cad = s.cad := rfl
@[simp] theorem State.setPlane_clkOut (h : Nat) (p : Plane) : (s.setPlane h p).clkOut = s.clkOut := rfl
@[simp] theorem State.setPlane_boot (h : Nat) (p : Plane) : (s.setPlane h p).boot = s.boot := rfl
@[simp] theorem State.setPlane_mbox (h : Nat) (p : Plane) : (s.setPlane h p).mbox = s.mbox := rfl
@[simp] theorem State.setPlane_cur (h : Nat) (p : Plane) : (s.setPlane h p).cur = s.cur := rfl
@[simp] theorem State.setPlane_exh (h : Nat) (p : Plane) : (s.setPlane h p).exh = s.exh := rfl
@[simp] theorem State.setPlane_streams (h : Nat) (p : Plane) : (s.setPlane h p).streams = s.streams := rfl
@[simp] theorem State.setPlane_produced (h : Nat) (p : Plane) : (s.setPlane h p).produced = s.produced := rfl
@[simp] theorem State.setPlane_chan (h : Nat) (p : Plane) : (s.setPlane h p).chan = s.chan := rfl
@[simp] theorem State.setPlane_wing (h : Nat) (p : Plane) : (s.setPlane h p).wing = s.wing := rfl
@[simp] theorem State.setPlane_mount (h : Nat) (p : Plane) : (s.setPlane h p).mount = s.mount := rfl
@[simp] theorem State.setPlane_pow (h : Nat) (p : Plane) : (s.setPlane h p).pow = s.pow := rfl
@[simp] theorem State.setPlane_health (h : Nat) (p : Plane) : (s.setPlane h p).health = s.health := rfl
@[simp] theorem State.setPlane_gal (h : Nat) (p : Plane) : (s.setPlane h p).gal = s.gal := rfl
@[simp] theorem State.setPlane_chain (h : Nat) (p : Plane) : (s.setPlane h p).chain = s.chain := rfl
@[simp] theorem State.setPlane_pipe (h : Nat) (p : Plane) : (s.setPlane h p).pipe = s.pipe := rfl
@[simp] theorem State.setPlane_sward (h : Nat) (p : Plane) : (s.setPlane h p).sward = tset s.sward h p := rfl
@[simp] theorem State.setPlane_wram (h : Nat) (p : Plane) : (s.setPlane h p).wram = s.wram := rfl
@[simp] theorem State.setPlane_mask (h : Nat) (p : Plane) : (s.setPlane h p).mask = s.mask := rfl
@[simp] theorem State.setPlane_conc (h : Nat) (p : Plane) : (s.setPlane h p).conc = s.conc := rfl
@[simp] theorem State.setPlane_trig (h : Nat) (p : Plane) : (s.setPlane h p).trig = s.trig := rfl
@[simp] theorem State.setPlane_accession (h : Nat) (p : Plane) : (s.setPlane h p).accession = s.accession := rfl
@[simp] theorem State.setPlane_lastEval (h : Nat) (p : Plane) : (s.setPlane h p).lastEval = s.lastEval := rfl
@[simp] theorem State.setPlane_caps (h : Nat) (p : Plane) : (s.setPlane h p).caps = s.caps := rfl
@[simp] theorem State.setPlane_lines (h : Nat) (p : Plane) : (s.setPlane h p).lines = s.lines := rfl
@[simp] theorem State.setPlane_prog (h : Nat) (p : Plane) : (s.setPlane h p).prog = s.prog := rfl
@[simp] theorem State.setPlane_store (h : Nat) (p : Plane) : (s.setPlane h p).store = s.store := rfl
@[simp] theorem State.setPlane_merge (h : Nat) (p : Plane) : (s.setPlane h p).merge = s.merge := rfl
@[simp] theorem State.setPlane_queue (h : Nat) (p : Plane) : (s.setPlane h p).queue = s.queue := rfl
@[simp] theorem State.setPlane_archive (h : Nat) (p : Plane) : (s.setPlane h p).archive = s.archive := rfl
@[simp] theorem State.setPlane_coll (h : Nat) (p : Plane) : (s.setPlane h p).coll = s.coll := rfl
@[simp] theorem State.setPlane_comp (h : Nat) (p : Plane) : (s.setPlane h p).comp = s.comp := rfl
@[simp] theorem State.setPlane_tdc (h : Nat) (p : Plane) : (s.setPlane h p).tdc = s.tdc := rfl
@[simp] theorem State.setPlane_stampStr (h : Nat) (p : Plane) : (s.setPlane h p).stampStr = s.stampStr := rfl
@[simp] theorem State.setPlane_pairer (h : Nat) (p : Plane) : (s.setPlane h p).pairer = s.pairer := rfl
@[simp] theorem State.setPlane_cross (h : Nat) (p : Plane) : (s.setPlane h p).cross = s.cross := rfl
@[simp] theorem State.setPlane_calSpans (h : Nat) (p : Plane) : (s.setPlane h p).calSpans = s.calSpans := rfl
@[simp] theorem State.setPlane_core (h : Nat) (p : Plane) : (s.setPlane h p).core = s.core := rfl
@[simp] theorem State.setPlane_dac (h : Nat) (p : Plane) : (s.setPlane h p).dac = s.dac := rfl
@[simp] theorem State.setPlane_level (h : Nat) (p : Plane) : (s.setPlane h p).level = s.level := rfl
@[simp] theorem State.setPlane_hk (h : Nat) (p : Plane) : (s.setPlane h p).hk = s.hk := rfl
@[simp] theorem State.setPlane_stack (h : Nat) (p : Plane) : (s.setPlane h p).stack = s.stack := rfl
@[simp] theorem State.setPlane_losses (h : Nat) (p : Plane) : (s.setPlane h p).losses = s.losses := rfl
@[simp] theorem State.setPlane_sent (h : Nat) (p : Plane) : (s.setPlane h p).sent = s.sent := rfl
@[simp] theorem State.setPlane_free (h : Nat) (p : Plane) : (s.setPlane h p).free = s.free := rfl
@[simp] theorem State.setPlane_pending (h : Nat) (p : Plane) : (s.setPlane h p).pending = s.pending := rfl

/-! ### setInterval -/
@[simp] theorem State.setInterval_cad (h : Nat) (x : Interval) : (s.setInterval h x).cad = s.cad := rfl
@[simp] theorem State.setInterval_clkOut (h : Nat) (x : Interval) : (s.setInterval h x).clkOut = s.clkOut := rfl
@[simp] theorem State.setInterval_boot (h : Nat) (x : Interval) : (s.setInterval h x).boot = s.boot := rfl
@[simp] theorem State.setInterval_mbox (h : Nat) (x : Interval) : (s.setInterval h x).mbox = s.mbox := rfl
@[simp] theorem State.setInterval_cur (h : Nat) (x : Interval) : (s.setInterval h x).cur = s.cur := rfl
@[simp] theorem State.setInterval_exh (h : Nat) (x : Interval) : (s.setInterval h x).exh = s.exh := rfl
@[simp] theorem State.setInterval_streams (h : Nat) (x : Interval) : (s.setInterval h x).streams = s.streams := rfl
@[simp] theorem State.setInterval_produced (h : Nat) (x : Interval) : (s.setInterval h x).produced = s.produced := rfl
@[simp] theorem State.setInterval_chan (h : Nat) (x : Interval) : (s.setInterval h x).chan = s.chan := rfl
@[simp] theorem State.setInterval_wing (h : Nat) (x : Interval) : (s.setInterval h x).wing = s.wing := rfl
@[simp] theorem State.setInterval_mount (h : Nat) (x : Interval) : (s.setInterval h x).mount = s.mount := rfl
@[simp] theorem State.setInterval_pow (h : Nat) (x : Interval) : (s.setInterval h x).pow = s.pow := rfl
@[simp] theorem State.setInterval_health (h : Nat) (x : Interval) : (s.setInterval h x).health = s.health := rfl
@[simp] theorem State.setInterval_gal (h : Nat) (x : Interval) : (s.setInterval h x).gal = s.gal := rfl
@[simp] theorem State.setInterval_chain (h : Nat) (x : Interval) : (s.setInterval h x).chain = s.chain := rfl
@[simp] theorem State.setInterval_pipe (h : Nat) (x : Interval) : (s.setInterval h x).pipe = s.pipe := rfl
@[simp] theorem State.setInterval_sward (h : Nat) (x : Interval) : (s.setInterval h x).sward = s.sward := rfl
@[simp] theorem State.setInterval_wram (h : Nat) (x : Interval) : (s.setInterval h x).wram = s.wram := rfl
@[simp] theorem State.setInterval_mask (h : Nat) (x : Interval) : (s.setInterval h x).mask = s.mask := rfl
@[simp] theorem State.setInterval_conc (h : Nat) (x : Interval) : (s.setInterval h x).conc = tset s.conc h x := rfl
@[simp] theorem State.setInterval_trig (h : Nat) (x : Interval) : (s.setInterval h x).trig = s.trig := rfl
@[simp] theorem State.setInterval_accession (h : Nat) (x : Interval) : (s.setInterval h x).accession = s.accession := rfl
@[simp] theorem State.setInterval_lastEval (h : Nat) (x : Interval) : (s.setInterval h x).lastEval = s.lastEval := rfl
@[simp] theorem State.setInterval_caps (h : Nat) (x : Interval) : (s.setInterval h x).caps = s.caps := rfl
@[simp] theorem State.setInterval_lines (h : Nat) (x : Interval) : (s.setInterval h x).lines = s.lines := rfl
@[simp] theorem State.setInterval_prog (h : Nat) (x : Interval) : (s.setInterval h x).prog = s.prog := rfl
@[simp] theorem State.setInterval_store (h : Nat) (x : Interval) : (s.setInterval h x).store = s.store := rfl
@[simp] theorem State.setInterval_merge (h : Nat) (x : Interval) : (s.setInterval h x).merge = s.merge := rfl
@[simp] theorem State.setInterval_queue (h : Nat) (x : Interval) : (s.setInterval h x).queue = s.queue := rfl
@[simp] theorem State.setInterval_archive (h : Nat) (x : Interval) : (s.setInterval h x).archive = s.archive := rfl
@[simp] theorem State.setInterval_coll (h : Nat) (x : Interval) : (s.setInterval h x).coll = s.coll := rfl
@[simp] theorem State.setInterval_comp (h : Nat) (x : Interval) : (s.setInterval h x).comp = s.comp := rfl
@[simp] theorem State.setInterval_tdc (h : Nat) (x : Interval) : (s.setInterval h x).tdc = s.tdc := rfl
@[simp] theorem State.setInterval_stampStr (h : Nat) (x : Interval) : (s.setInterval h x).stampStr = s.stampStr := rfl
@[simp] theorem State.setInterval_pairer (h : Nat) (x : Interval) : (s.setInterval h x).pairer = s.pairer := rfl
@[simp] theorem State.setInterval_cross (h : Nat) (x : Interval) : (s.setInterval h x).cross = s.cross := rfl
@[simp] theorem State.setInterval_calSpans (h : Nat) (x : Interval) : (s.setInterval h x).calSpans = s.calSpans := rfl
@[simp] theorem State.setInterval_core (h : Nat) (x : Interval) : (s.setInterval h x).core = s.core := rfl
@[simp] theorem State.setInterval_dac (h : Nat) (x : Interval) : (s.setInterval h x).dac = s.dac := rfl
@[simp] theorem State.setInterval_level (h : Nat) (x : Interval) : (s.setInterval h x).level = s.level := rfl
@[simp] theorem State.setInterval_hk (h : Nat) (x : Interval) : (s.setInterval h x).hk = s.hk := rfl
@[simp] theorem State.setInterval_stack (h : Nat) (x : Interval) : (s.setInterval h x).stack = s.stack := rfl
@[simp] theorem State.setInterval_losses (h : Nat) (x : Interval) : (s.setInterval h x).losses = s.losses := rfl
@[simp] theorem State.setInterval_sent (h : Nat) (x : Interval) : (s.setInterval h x).sent = s.sent := rfl
@[simp] theorem State.setInterval_free (h : Nat) (x : Interval) : (s.setInterval h x).free = s.free := rfl
@[simp] theorem State.setInterval_pending (h : Nat) (x : Interval) : (s.setInterval h x).pending = s.pending := rfl

/-! ### setHealth -/
@[simp] theorem State.setHealth_cad (h : Health) : (s.setHealth h).cad = s.cad := rfl
@[simp] theorem State.setHealth_clkOut (h : Health) : (s.setHealth h).clkOut = s.clkOut := rfl
@[simp] theorem State.setHealth_boot (h : Health) : (s.setHealth h).boot = s.boot := rfl
@[simp] theorem State.setHealth_mbox (h : Health) : (s.setHealth h).mbox = s.mbox := rfl
@[simp] theorem State.setHealth_cur (h : Health) : (s.setHealth h).cur = s.cur := rfl
@[simp] theorem State.setHealth_exh (h : Health) : (s.setHealth h).exh = s.exh := rfl
@[simp] theorem State.setHealth_streams (h : Health) : (s.setHealth h).streams = s.streams := rfl
@[simp] theorem State.setHealth_produced (h : Health) : (s.setHealth h).produced = s.produced := rfl
@[simp] theorem State.setHealth_chan (h : Health) : (s.setHealth h).chan = s.chan := rfl
@[simp] theorem State.setHealth_wing (h : Health) : (s.setHealth h).wing = s.wing := rfl
@[simp] theorem State.setHealth_mount (h : Health) : (s.setHealth h).mount = s.mount := rfl
@[simp] theorem State.setHealth_pow (h : Health) : (s.setHealth h).pow = s.pow := rfl
@[simp] theorem State.setHealth_health (h : Health) : (s.setHealth h).health = h := rfl
@[simp] theorem State.setHealth_gal (h : Health) : (s.setHealth h).gal = s.gal := rfl
@[simp] theorem State.setHealth_chain (h : Health) : (s.setHealth h).chain = s.chain := rfl
@[simp] theorem State.setHealth_pipe (h : Health) : (s.setHealth h).pipe = s.pipe := rfl
@[simp] theorem State.setHealth_sward (h : Health) : (s.setHealth h).sward = s.sward := rfl
@[simp] theorem State.setHealth_wram (h : Health) : (s.setHealth h).wram = s.wram := rfl
@[simp] theorem State.setHealth_mask (h : Health) : (s.setHealth h).mask = s.mask := rfl
@[simp] theorem State.setHealth_conc (h : Health) : (s.setHealth h).conc = s.conc := rfl
@[simp] theorem State.setHealth_trig (h : Health) : (s.setHealth h).trig = s.trig := rfl
@[simp] theorem State.setHealth_accession (h : Health) : (s.setHealth h).accession = s.accession := rfl
@[simp] theorem State.setHealth_lastEval (h : Health) : (s.setHealth h).lastEval = s.lastEval := rfl
@[simp] theorem State.setHealth_caps (h : Health) : (s.setHealth h).caps = s.caps := rfl
@[simp] theorem State.setHealth_lines (h : Health) : (s.setHealth h).lines = s.lines := rfl
@[simp] theorem State.setHealth_prog (h : Health) : (s.setHealth h).prog = s.prog := rfl
@[simp] theorem State.setHealth_store (h : Health) : (s.setHealth h).store = s.store := rfl
@[simp] theorem State.setHealth_merge (h : Health) : (s.setHealth h).merge = s.merge := rfl
@[simp] theorem State.setHealth_queue (h : Health) : (s.setHealth h).queue = s.queue := rfl
@[simp] theorem State.setHealth_archive (h : Health) : (s.setHealth h).archive = s.archive := rfl
@[simp] theorem State.setHealth_coll (h : Health) : (s.setHealth h).coll = s.coll := rfl
@[simp] theorem State.setHealth_comp (h : Health) : (s.setHealth h).comp = s.comp := rfl
@[simp] theorem State.setHealth_tdc (h : Health) : (s.setHealth h).tdc = s.tdc := rfl
@[simp] theorem State.setHealth_stampStr (h : Health) : (s.setHealth h).stampStr = s.stampStr := rfl
@[simp] theorem State.setHealth_pairer (h : Health) : (s.setHealth h).pairer = s.pairer := rfl
@[simp] theorem State.setHealth_cross (h : Health) : (s.setHealth h).cross = s.cross := rfl
@[simp] theorem State.setHealth_calSpans (h : Health) : (s.setHealth h).calSpans = s.calSpans := rfl
@[simp] theorem State.setHealth_core (h : Health) : (s.setHealth h).core = s.core := rfl
@[simp] theorem State.setHealth_dac (h : Health) : (s.setHealth h).dac = s.dac := rfl
@[simp] theorem State.setHealth_level (h : Health) : (s.setHealth h).level = s.level := rfl
@[simp] theorem State.setHealth_hk (h : Health) : (s.setHealth h).hk = s.hk := rfl
@[simp] theorem State.setHealth_stack (h : Health) : (s.setHealth h).stack = s.stack := rfl
@[simp] theorem State.setHealth_losses (h : Health) : (s.setHealth h).losses = s.losses := rfl
@[simp] theorem State.setHealth_sent (h : Health) : (s.setHealth h).sent = s.sent := rfl
@[simp] theorem State.setHealth_free (h : Health) : (s.setHealth h).free = s.free := rfl
@[simp] theorem State.setHealth_pending (h : Health) : (s.setHealth h).pending = s.pending := rfl

/-! ### setHk -/
@[simp] theorem State.setHk_cad (h : Hk) : (s.setHk h).cad = s.cad := rfl
@[simp] theorem State.setHk_clkOut (h : Hk) : (s.setHk h).clkOut = s.clkOut := rfl
@[simp] theorem State.setHk_boot (h : Hk) : (s.setHk h).boot = s.boot := rfl
@[simp] theorem State.setHk_mbox (h : Hk) : (s.setHk h).mbox = s.mbox := rfl
@[simp] theorem State.setHk_cur (h : Hk) : (s.setHk h).cur = s.cur := rfl
@[simp] theorem State.setHk_exh (h : Hk) : (s.setHk h).exh = s.exh := rfl
@[simp] theorem State.setHk_streams (h : Hk) : (s.setHk h).streams = s.streams := rfl
@[simp] theorem State.setHk_produced (h : Hk) : (s.setHk h).produced = s.produced := rfl
@[simp] theorem State.setHk_chan (h : Hk) : (s.setHk h).chan = s.chan := rfl
@[simp] theorem State.setHk_wing (h : Hk) : (s.setHk h).wing = s.wing := rfl
@[simp] theorem State.setHk_mount (h : Hk) : (s.setHk h).mount = s.mount := rfl
@[simp] theorem State.setHk_pow (h : Hk) : (s.setHk h).pow = s.pow := rfl
@[simp] theorem State.setHk_health (h : Hk) : (s.setHk h).health = s.health := rfl
@[simp] theorem State.setHk_gal (h : Hk) : (s.setHk h).gal = s.gal := rfl
@[simp] theorem State.setHk_chain (h : Hk) : (s.setHk h).chain = s.chain := rfl
@[simp] theorem State.setHk_pipe (h : Hk) : (s.setHk h).pipe = s.pipe := rfl
@[simp] theorem State.setHk_sward (h : Hk) : (s.setHk h).sward = s.sward := rfl
@[simp] theorem State.setHk_wram (h : Hk) : (s.setHk h).wram = s.wram := rfl
@[simp] theorem State.setHk_mask (h : Hk) : (s.setHk h).mask = s.mask := rfl
@[simp] theorem State.setHk_conc (h : Hk) : (s.setHk h).conc = s.conc := rfl
@[simp] theorem State.setHk_trig (h : Hk) : (s.setHk h).trig = s.trig := rfl
@[simp] theorem State.setHk_accession (h : Hk) : (s.setHk h).accession = s.accession := rfl
@[simp] theorem State.setHk_lastEval (h : Hk) : (s.setHk h).lastEval = s.lastEval := rfl
@[simp] theorem State.setHk_caps (h : Hk) : (s.setHk h).caps = s.caps := rfl
@[simp] theorem State.setHk_lines (h : Hk) : (s.setHk h).lines = s.lines := rfl
@[simp] theorem State.setHk_prog (h : Hk) : (s.setHk h).prog = s.prog := rfl
@[simp] theorem State.setHk_store (h : Hk) : (s.setHk h).store = s.store := rfl
@[simp] theorem State.setHk_merge (h : Hk) : (s.setHk h).merge = s.merge := rfl
@[simp] theorem State.setHk_queue (h : Hk) : (s.setHk h).queue = s.queue := rfl
@[simp] theorem State.setHk_archive (h : Hk) : (s.setHk h).archive = s.archive := rfl
@[simp] theorem State.setHk_coll (h : Hk) : (s.setHk h).coll = s.coll := rfl
@[simp] theorem State.setHk_comp (h : Hk) : (s.setHk h).comp = s.comp := rfl
@[simp] theorem State.setHk_tdc (h : Hk) : (s.setHk h).tdc = s.tdc := rfl
@[simp] theorem State.setHk_stampStr (h : Hk) : (s.setHk h).stampStr = s.stampStr := rfl
@[simp] theorem State.setHk_pairer (h : Hk) : (s.setHk h).pairer = s.pairer := rfl
@[simp] theorem State.setHk_cross (h : Hk) : (s.setHk h).cross = s.cross := rfl
@[simp] theorem State.setHk_calSpans (h : Hk) : (s.setHk h).calSpans = s.calSpans := rfl
@[simp] theorem State.setHk_core (h : Hk) : (s.setHk h).core = s.core := rfl
@[simp] theorem State.setHk_dac (h : Hk) : (s.setHk h).dac = s.dac := rfl
@[simp] theorem State.setHk_level (h : Hk) : (s.setHk h).level = s.level := rfl
@[simp] theorem State.setHk_hk (h : Hk) : (s.setHk h).hk = h := rfl
@[simp] theorem State.setHk_stack (h : Hk) : (s.setHk h).stack = s.stack := rfl
@[simp] theorem State.setHk_losses (h : Hk) : (s.setHk h).losses = s.losses := rfl
@[simp] theorem State.setHk_sent (h : Hk) : (s.setHk h).sent = s.sent := rfl
@[simp] theorem State.setHk_free (h : Hk) : (s.setHk h).free = s.free := rfl
@[simp] theorem State.setHk_pending (h : Hk) : (s.setHk h).pending = s.pending := rfl

/-! ### setStk -/
@[simp] theorem State.setStk_cad (k : Nat) (x : Stack) : (s.setStk k x).cad = s.cad := rfl
@[simp] theorem State.setStk_clkOut (k : Nat) (x : Stack) : (s.setStk k x).clkOut = s.clkOut := rfl
@[simp] theorem State.setStk_boot (k : Nat) (x : Stack) : (s.setStk k x).boot = s.boot := rfl
@[simp] theorem State.setStk_mbox (k : Nat) (x : Stack) : (s.setStk k x).mbox = s.mbox := rfl
@[simp] theorem State.setStk_cur (k : Nat) (x : Stack) : (s.setStk k x).cur = s.cur := rfl
@[simp] theorem State.setStk_exh (k : Nat) (x : Stack) : (s.setStk k x).exh = s.exh := rfl
@[simp] theorem State.setStk_streams (k : Nat) (x : Stack) : (s.setStk k x).streams = s.streams := rfl
@[simp] theorem State.setStk_produced (k : Nat) (x : Stack) : (s.setStk k x).produced = s.produced := rfl
@[simp] theorem State.setStk_chan (k : Nat) (x : Stack) : (s.setStk k x).chan = s.chan := rfl
@[simp] theorem State.setStk_wing (k : Nat) (x : Stack) : (s.setStk k x).wing = s.wing := rfl
@[simp] theorem State.setStk_mount (k : Nat) (x : Stack) : (s.setStk k x).mount = s.mount := rfl
@[simp] theorem State.setStk_pow (k : Nat) (x : Stack) : (s.setStk k x).pow = s.pow := rfl
@[simp] theorem State.setStk_health (k : Nat) (x : Stack) : (s.setStk k x).health = s.health := rfl
@[simp] theorem State.setStk_gal (k : Nat) (x : Stack) : (s.setStk k x).gal = s.gal := rfl
@[simp] theorem State.setStk_chain (k : Nat) (x : Stack) : (s.setStk k x).chain = s.chain := rfl
@[simp] theorem State.setStk_pipe (k : Nat) (x : Stack) : (s.setStk k x).pipe = s.pipe := rfl
@[simp] theorem State.setStk_sward (k : Nat) (x : Stack) : (s.setStk k x).sward = s.sward := rfl
@[simp] theorem State.setStk_wram (k : Nat) (x : Stack) : (s.setStk k x).wram = s.wram := rfl
@[simp] theorem State.setStk_mask (k : Nat) (x : Stack) : (s.setStk k x).mask = s.mask := rfl
@[simp] theorem State.setStk_conc (k : Nat) (x : Stack) : (s.setStk k x).conc = s.conc := rfl
@[simp] theorem State.setStk_trig (k : Nat) (x : Stack) : (s.setStk k x).trig = s.trig := rfl
@[simp] theorem State.setStk_accession (k : Nat) (x : Stack) : (s.setStk k x).accession = s.accession := rfl
@[simp] theorem State.setStk_lastEval (k : Nat) (x : Stack) : (s.setStk k x).lastEval = s.lastEval := rfl
@[simp] theorem State.setStk_caps (k : Nat) (x : Stack) : (s.setStk k x).caps = s.caps := rfl
@[simp] theorem State.setStk_lines (k : Nat) (x : Stack) : (s.setStk k x).lines = s.lines := rfl
@[simp] theorem State.setStk_prog (k : Nat) (x : Stack) : (s.setStk k x).prog = s.prog := rfl
@[simp] theorem State.setStk_store (k : Nat) (x : Stack) : (s.setStk k x).store = s.store := rfl
@[simp] theorem State.setStk_merge (k : Nat) (x : Stack) : (s.setStk k x).merge = s.merge := rfl
@[simp] theorem State.setStk_queue (k : Nat) (x : Stack) : (s.setStk k x).queue = s.queue := rfl
@[simp] theorem State.setStk_archive (k : Nat) (x : Stack) : (s.setStk k x).archive = s.archive := rfl
@[simp] theorem State.setStk_coll (k : Nat) (x : Stack) : (s.setStk k x).coll = s.coll := rfl
@[simp] theorem State.setStk_comp (k : Nat) (x : Stack) : (s.setStk k x).comp = s.comp := rfl
@[simp] theorem State.setStk_tdc (k : Nat) (x : Stack) : (s.setStk k x).tdc = s.tdc := rfl
@[simp] theorem State.setStk_stampStr (k : Nat) (x : Stack) : (s.setStk k x).stampStr = s.stampStr := rfl
@[simp] theorem State.setStk_pairer (k : Nat) (x : Stack) : (s.setStk k x).pairer = s.pairer := rfl
@[simp] theorem State.setStk_cross (k : Nat) (x : Stack) : (s.setStk k x).cross = s.cross := rfl
@[simp] theorem State.setStk_calSpans (k : Nat) (x : Stack) : (s.setStk k x).calSpans = s.calSpans := rfl
@[simp] theorem State.setStk_core (k : Nat) (x : Stack) : (s.setStk k x).core = s.core := rfl
@[simp] theorem State.setStk_dac (k : Nat) (x : Stack) : (s.setStk k x).dac = s.dac := rfl
@[simp] theorem State.setStk_level (k : Nat) (x : Stack) : (s.setStk k x).level = s.level := rfl
@[simp] theorem State.setStk_hk (k : Nat) (x : Stack) : (s.setStk k x).hk = s.hk := rfl
@[simp] theorem State.setStk_stack (k : Nat) (x : Stack) : (s.setStk k x).stack = tset s.stack k x := rfl
@[simp] theorem State.setStk_losses (k : Nat) (x : Stack) : (s.setStk k x).losses = s.losses := rfl
@[simp] theorem State.setStk_sent (k : Nat) (x : Stack) : (s.setStk k x).sent = s.sent := rfl
@[simp] theorem State.setStk_free (k : Nat) (x : Stack) : (s.setStk k x).free = s.free := rfl
@[simp] theorem State.setStk_pending (k : Nat) (x : Stack) : (s.setStk k x).pending = s.pending := rfl

/-! ### setMt -/
@[simp] theorem State.setMt_cad (p : Nat) (m : Mount) : (s.setMt p m).cad = s.cad := rfl
@[simp] theorem State.setMt_clkOut (p : Nat) (m : Mount) : (s.setMt p m).clkOut = s.clkOut := rfl
@[simp] theorem State.setMt_boot (p : Nat) (m : Mount) : (s.setMt p m).boot = s.boot := rfl
@[simp] theorem State.setMt_mbox (p : Nat) (m : Mount) : (s.setMt p m).mbox = s.mbox := rfl
@[simp] theorem State.setMt_cur (p : Nat) (m : Mount) : (s.setMt p m).cur = s.cur := rfl
@[simp] theorem State.setMt_exh (p : Nat) (m : Mount) : (s.setMt p m).exh = s.exh := rfl
@[simp] theorem State.setMt_streams (p : Nat) (m : Mount) : (s.setMt p m).streams = s.streams := rfl
@[simp] theorem State.setMt_produced (p : Nat) (m : Mount) : (s.setMt p m).produced = s.produced := rfl
@[simp] theorem State.setMt_chan (p : Nat) (m : Mount) : (s.setMt p m).chan = s.chan := rfl
@[simp] theorem State.setMt_wing (p : Nat) (m : Mount) : (s.setMt p m).wing = s.wing := rfl
@[simp] theorem State.setMt_mount (p : Nat) (m : Mount) : (s.setMt p m).mount = tset s.mount p m := rfl
@[simp] theorem State.setMt_pow (p : Nat) (m : Mount) : (s.setMt p m).pow = s.pow := rfl
@[simp] theorem State.setMt_health (p : Nat) (m : Mount) : (s.setMt p m).health = s.health := rfl
@[simp] theorem State.setMt_gal (p : Nat) (m : Mount) : (s.setMt p m).gal = s.gal := rfl
@[simp] theorem State.setMt_chain (p : Nat) (m : Mount) : (s.setMt p m).chain = s.chain := rfl
@[simp] theorem State.setMt_pipe (p : Nat) (m : Mount) : (s.setMt p m).pipe = s.pipe := rfl
@[simp] theorem State.setMt_sward (p : Nat) (m : Mount) : (s.setMt p m).sward = s.sward := rfl
@[simp] theorem State.setMt_wram (p : Nat) (m : Mount) : (s.setMt p m).wram = s.wram := rfl
@[simp] theorem State.setMt_mask (p : Nat) (m : Mount) : (s.setMt p m).mask = s.mask := rfl
@[simp] theorem State.setMt_conc (p : Nat) (m : Mount) : (s.setMt p m).conc = s.conc := rfl
@[simp] theorem State.setMt_trig (p : Nat) (m : Mount) : (s.setMt p m).trig = s.trig := rfl
@[simp] theorem State.setMt_accession (p : Nat) (m : Mount) : (s.setMt p m).accession = s.accession := rfl
@[simp] theorem State.setMt_lastEval (p : Nat) (m : Mount) : (s.setMt p m).lastEval = s.lastEval := rfl
@[simp] theorem State.setMt_caps (p : Nat) (m : Mount) : (s.setMt p m).caps = s.caps := rfl
@[simp] theorem State.setMt_lines (p : Nat) (m : Mount) : (s.setMt p m).lines = s.lines := rfl
@[simp] theorem State.setMt_prog (p : Nat) (m : Mount) : (s.setMt p m).prog = s.prog := rfl
@[simp] theorem State.setMt_store (p : Nat) (m : Mount) : (s.setMt p m).store = s.store := rfl
@[simp] theorem State.setMt_merge (p : Nat) (m : Mount) : (s.setMt p m).merge = s.merge := rfl
@[simp] theorem State.setMt_queue (p : Nat) (m : Mount) : (s.setMt p m).queue = s.queue := rfl
@[simp] theorem State.setMt_archive (p : Nat) (m : Mount) : (s.setMt p m).archive = s.archive := rfl
@[simp] theorem State.setMt_coll (p : Nat) (m : Mount) : (s.setMt p m).coll = s.coll := rfl
@[simp] theorem State.setMt_comp (p : Nat) (m : Mount) : (s.setMt p m).comp = s.comp := rfl
@[simp] theorem State.setMt_tdc (p : Nat) (m : Mount) : (s.setMt p m).tdc = s.tdc := rfl
@[simp] theorem State.setMt_stampStr (p : Nat) (m : Mount) : (s.setMt p m).stampStr = s.stampStr := rfl
@[simp] theorem State.setMt_pairer (p : Nat) (m : Mount) : (s.setMt p m).pairer = s.pairer := rfl
@[simp] theorem State.setMt_cross (p : Nat) (m : Mount) : (s.setMt p m).cross = s.cross := rfl
@[simp] theorem State.setMt_calSpans (p : Nat) (m : Mount) : (s.setMt p m).calSpans = s.calSpans := rfl
@[simp] theorem State.setMt_core (p : Nat) (m : Mount) : (s.setMt p m).core = s.core := rfl
@[simp] theorem State.setMt_dac (p : Nat) (m : Mount) : (s.setMt p m).dac = s.dac := rfl
@[simp] theorem State.setMt_level (p : Nat) (m : Mount) : (s.setMt p m).level = s.level := rfl
@[simp] theorem State.setMt_hk (p : Nat) (m : Mount) : (s.setMt p m).hk = s.hk := rfl
@[simp] theorem State.setMt_stack (p : Nat) (m : Mount) : (s.setMt p m).stack = s.stack := rfl
@[simp] theorem State.setMt_losses (p : Nat) (m : Mount) : (s.setMt p m).losses = s.losses := rfl
@[simp] theorem State.setMt_sent (p : Nat) (m : Mount) : (s.setMt p m).sent = s.sent := rfl
@[simp] theorem State.setMt_free (p : Nat) (m : Mount) : (s.setMt p m).free = s.free := rfl
@[simp] theorem State.setMt_pending (p : Nat) (m : Mount) : (s.setMt p m).pending = s.pending := rfl

/-! ### setMb -/
@[simp] theorem State.setMb_cad (fn : Nat) (m : Mbox) : (s.setMb fn m).cad = s.cad := rfl
@[simp] theorem State.setMb_clkOut (fn : Nat) (m : Mbox) : (s.setMb fn m).clkOut = s.clkOut := rfl
@[simp] theorem State.setMb_boot (fn : Nat) (m : Mbox) : (s.setMb fn m).boot = s.boot := rfl
@[simp] theorem State.setMb_mbox (fn : Nat) (m : Mbox) : (s.setMb fn m).mbox = tset s.mbox fn m := rfl
@[simp] theorem State.setMb_cur (fn : Nat) (m : Mbox) : (s.setMb fn m).cur = s.cur := rfl
@[simp] theorem State.setMb_exh (fn : Nat) (m : Mbox) : (s.setMb fn m).exh = s.exh := rfl
@[simp] theorem State.setMb_streams (fn : Nat) (m : Mbox) : (s.setMb fn m).streams = s.streams := rfl
@[simp] theorem State.setMb_produced (fn : Nat) (m : Mbox) : (s.setMb fn m).produced = s.produced := rfl
@[simp] theorem State.setMb_chan (fn : Nat) (m : Mbox) : (s.setMb fn m).chan = s.chan := rfl
@[simp] theorem State.setMb_wing (fn : Nat) (m : Mbox) : (s.setMb fn m).wing = s.wing := rfl
@[simp] theorem State.setMb_mount (fn : Nat) (m : Mbox) : (s.setMb fn m).mount = s.mount := rfl
@[simp] theorem State.setMb_pow (fn : Nat) (m : Mbox) : (s.setMb fn m).pow = s.pow := rfl
@[simp] theorem State.setMb_health (fn : Nat) (m : Mbox) : (s.setMb fn m).health = s.health := rfl
@[simp] theorem State.setMb_gal (fn : Nat) (m : Mbox) : (s.setMb fn m).gal = s.gal := rfl
@[simp] theorem State.setMb_chain (fn : Nat) (m : Mbox) : (s.setMb fn m).chain = s.chain := rfl
@[simp] theorem State.setMb_pipe (fn : Nat) (m : Mbox) : (s.setMb fn m).pipe = s.pipe := rfl
@[simp] theorem State.setMb_sward (fn : Nat) (m : Mbox) : (s.setMb fn m).sward = s.sward := rfl
@[simp] theorem State.setMb_wram (fn : Nat) (m : Mbox) : (s.setMb fn m).wram = s.wram := rfl
@[simp] theorem State.setMb_mask (fn : Nat) (m : Mbox) : (s.setMb fn m).mask = s.mask := rfl
@[simp] theorem State.setMb_conc (fn : Nat) (m : Mbox) : (s.setMb fn m).conc = s.conc := rfl
@[simp] theorem State.setMb_trig (fn : Nat) (m : Mbox) : (s.setMb fn m).trig = s.trig := rfl
@[simp] theorem State.setMb_accession (fn : Nat) (m : Mbox) : (s.setMb fn m).accession = s.accession := rfl
@[simp] theorem State.setMb_lastEval (fn : Nat) (m : Mbox) : (s.setMb fn m).lastEval = s.lastEval := rfl
@[simp] theorem State.setMb_caps (fn : Nat) (m : Mbox) : (s.setMb fn m).caps = s.caps := rfl
@[simp] theorem State.setMb_lines (fn : Nat) (m : Mbox) : (s.setMb fn m).lines = s.lines := rfl
@[simp] theorem State.setMb_prog (fn : Nat) (m : Mbox) : (s.setMb fn m).prog = s.prog := rfl
@[simp] theorem State.setMb_store (fn : Nat) (m : Mbox) : (s.setMb fn m).store = s.store := rfl
@[simp] theorem State.setMb_merge (fn : Nat) (m : Mbox) : (s.setMb fn m).merge = s.merge := rfl
@[simp] theorem State.setMb_queue (fn : Nat) (m : Mbox) : (s.setMb fn m).queue = s.queue := rfl
@[simp] theorem State.setMb_archive (fn : Nat) (m : Mbox) : (s.setMb fn m).archive = s.archive := rfl
@[simp] theorem State.setMb_coll (fn : Nat) (m : Mbox) : (s.setMb fn m).coll = s.coll := rfl
@[simp] theorem State.setMb_comp (fn : Nat) (m : Mbox) : (s.setMb fn m).comp = s.comp := rfl
@[simp] theorem State.setMb_tdc (fn : Nat) (m : Mbox) : (s.setMb fn m).tdc = s.tdc := rfl
@[simp] theorem State.setMb_stampStr (fn : Nat) (m : Mbox) : (s.setMb fn m).stampStr = s.stampStr := rfl
@[simp] theorem State.setMb_pairer (fn : Nat) (m : Mbox) : (s.setMb fn m).pairer = s.pairer := rfl
@[simp] theorem State.setMb_cross (fn : Nat) (m : Mbox) : (s.setMb fn m).cross = s.cross := rfl
@[simp] theorem State.setMb_calSpans (fn : Nat) (m : Mbox) : (s.setMb fn m).calSpans = s.calSpans := rfl
@[simp] theorem State.setMb_core (fn : Nat) (m : Mbox) : (s.setMb fn m).core = s.core := rfl
@[simp] theorem State.setMb_dac (fn : Nat) (m : Mbox) : (s.setMb fn m).dac = s.dac := rfl
@[simp] theorem State.setMb_level (fn : Nat) (m : Mbox) : (s.setMb fn m).level = s.level := rfl
@[simp] theorem State.setMb_hk (fn : Nat) (m : Mbox) : (s.setMb fn m).hk = s.hk := rfl
@[simp] theorem State.setMb_stack (fn : Nat) (m : Mbox) : (s.setMb fn m).stack = s.stack := rfl
@[simp] theorem State.setMb_losses (fn : Nat) (m : Mbox) : (s.setMb fn m).losses = s.losses := rfl
@[simp] theorem State.setMb_sent (fn : Nat) (m : Mbox) : (s.setMb fn m).sent = s.sent := rfl
@[simp] theorem State.setMb_free (fn : Nat) (m : Mbox) : (s.setMb fn m).free = s.free := rfl
@[simp] theorem State.setMb_pending (fn : Nat) (m : Mbox) : (s.setMb fn m).pending = s.pending := rfl

/-! ### send -/
@[simp] theorem State.send_cad (x : Sent) : (s.send x).cad = s.cad := rfl
@[simp] theorem State.send_clkOut (x : Sent) : (s.send x).clkOut = s.clkOut := rfl
@[simp] theorem State.send_boot (x : Sent) : (s.send x).boot = s.boot := rfl
@[simp] theorem State.send_mbox (x : Sent) : (s.send x).mbox = s.mbox := rfl
@[simp] theorem State.send_cur (x : Sent) : (s.send x).cur = s.cur := rfl
@[simp] theorem State.send_exh (x : Sent) : (s.send x).exh = s.exh := rfl
@[simp] theorem State.send_streams (x : Sent) : (s.send x).streams = s.streams := rfl
@[simp] theorem State.send_produced (x : Sent) : (s.send x).produced = s.produced := rfl
@[simp] theorem State.send_chan (x : Sent) : (s.send x).chan = s.chan := rfl
@[simp] theorem State.send_wing (x : Sent) : (s.send x).wing = s.wing := rfl
@[simp] theorem State.send_mount (x : Sent) : (s.send x).mount = s.mount := rfl
@[simp] theorem State.send_pow (x : Sent) : (s.send x).pow = s.pow := rfl
@[simp] theorem State.send_health (x : Sent) : (s.send x).health = s.health := rfl
@[simp] theorem State.send_gal (x : Sent) : (s.send x).gal = s.gal := rfl
@[simp] theorem State.send_chain (x : Sent) : (s.send x).chain = s.chain := rfl
@[simp] theorem State.send_pipe (x : Sent) : (s.send x).pipe = s.pipe := rfl
@[simp] theorem State.send_sward (x : Sent) : (s.send x).sward = s.sward := rfl
@[simp] theorem State.send_wram (x : Sent) : (s.send x).wram = s.wram := rfl
@[simp] theorem State.send_mask (x : Sent) : (s.send x).mask = s.mask := rfl
@[simp] theorem State.send_conc (x : Sent) : (s.send x).conc = s.conc := rfl
@[simp] theorem State.send_trig (x : Sent) : (s.send x).trig = s.trig := rfl
@[simp] theorem State.send_accession (x : Sent) : (s.send x).accession = s.accession := rfl
@[simp] theorem State.send_lastEval (x : Sent) : (s.send x).lastEval = s.lastEval := rfl
@[simp] theorem State.send_caps (x : Sent) : (s.send x).caps = s.caps := rfl
@[simp] theorem State.send_lines (x : Sent) : (s.send x).lines = s.lines := rfl
@[simp] theorem State.send_prog (x : Sent) : (s.send x).prog = s.prog := rfl
@[simp] theorem State.send_store (x : Sent) : (s.send x).store = s.store := rfl
@[simp] theorem State.send_merge (x : Sent) : (s.send x).merge = s.merge := rfl
@[simp] theorem State.send_queue (x : Sent) : (s.send x).queue = s.queue := rfl
@[simp] theorem State.send_archive (x : Sent) : (s.send x).archive = s.archive := rfl
@[simp] theorem State.send_coll (x : Sent) : (s.send x).coll = s.coll := rfl
@[simp] theorem State.send_comp (x : Sent) : (s.send x).comp = s.comp := rfl
@[simp] theorem State.send_tdc (x : Sent) : (s.send x).tdc = s.tdc := rfl
@[simp] theorem State.send_stampStr (x : Sent) : (s.send x).stampStr = s.stampStr := rfl
@[simp] theorem State.send_pairer (x : Sent) : (s.send x).pairer = s.pairer := rfl
@[simp] theorem State.send_cross (x : Sent) : (s.send x).cross = s.cross := rfl
@[simp] theorem State.send_calSpans (x : Sent) : (s.send x).calSpans = s.calSpans := rfl
@[simp] theorem State.send_core (x : Sent) : (s.send x).core = s.core := rfl
@[simp] theorem State.send_dac (x : Sent) : (s.send x).dac = s.dac := rfl
@[simp] theorem State.send_level (x : Sent) : (s.send x).level = s.level := rfl
@[simp] theorem State.send_hk (x : Sent) : (s.send x).hk = s.hk := rfl
@[simp] theorem State.send_stack (x : Sent) : (s.send x).stack = s.stack := rfl
@[simp] theorem State.send_losses (x : Sent) : (s.send x).losses = s.losses := rfl
@[simp] theorem State.send_sent (x : Sent) : (s.send x).sent = s.sent ++ [x] := rfl
@[simp] theorem State.send_free (x : Sent) : (s.send x).free = s.free := rfl
@[simp] theorem State.send_pending (x : Sent) : (s.send x).pending = s.pending := rfl

/-! ### setStream -/
@[simp] theorem State.setStream_cad (k : Nat) (x : Stream) : (s.setStream k x).cad = s.cad := rfl
@[simp] theorem State.setStream_clkOut (k : Nat) (x : Stream) : (s.setStream k x).clkOut = s.clkOut := rfl
@[simp] theorem State.setStream_boot (k : Nat) (x : Stream) : (s.setStream k x).boot = s.boot := rfl
@[simp] theorem State.setStream_mbox (k : Nat) (x : Stream) : (s.setStream k x).mbox = s.mbox := rfl
@[simp] theorem State.setStream_cur (k : Nat) (x : Stream) : (s.setStream k x).cur = s.cur := rfl
@[simp] theorem State.setStream_exh (k : Nat) (x : Stream) : (s.setStream k x).exh = s.exh := rfl
@[simp] theorem State.setStream_streams (k : Nat) (x : Stream) : (s.setStream k x).streams = tset s.streams k x := rfl
@[simp] theorem State.setStream_produced (k : Nat) (x : Stream) : (s.setStream k x).produced = s.produced := rfl
@[simp] theorem State.setStream_chan (k : Nat) (x : Stream) : (s.setStream k x).chan = s.chan := rfl
@[simp] theorem State.setStream_wing (k : Nat) (x : Stream) : (s.setStream k x).wing = s.wing := rfl
@[simp] theorem State.setStream_mount (k : Nat) (x : Stream) : (s.setStream k x).mount = s.mount := rfl
@[simp] theorem State.setStream_pow (k : Nat) (x : Stream) : (s.setStream k x).pow = s.pow := rfl
@[simp] theorem State.setStream_health (k : Nat) (x : Stream) : (s.setStream k x).health = s.health := rfl
@[simp] theorem State.setStream_gal (k : Nat) (x : Stream) : (s.setStream k x).gal = s.gal := rfl
@[simp] theorem State.setStream_chain (k : Nat) (x : Stream) : (s.setStream k x).chain = s.chain := rfl
@[simp] theorem State.setStream_pipe (k : Nat) (x : Stream) : (s.setStream k x).pipe = s.pipe := rfl
@[simp] theorem State.setStream_sward (k : Nat) (x : Stream) : (s.setStream k x).sward = s.sward := rfl
@[simp] theorem State.setStream_wram (k : Nat) (x : Stream) : (s.setStream k x).wram = s.wram := rfl
@[simp] theorem State.setStream_mask (k : Nat) (x : Stream) : (s.setStream k x).mask = s.mask := rfl
@[simp] theorem State.setStream_conc (k : Nat) (x : Stream) : (s.setStream k x).conc = s.conc := rfl
@[simp] theorem State.setStream_trig (k : Nat) (x : Stream) : (s.setStream k x).trig = s.trig := rfl
@[simp] theorem State.setStream_accession (k : Nat) (x : Stream) : (s.setStream k x).accession = s.accession := rfl
@[simp] theorem State.setStream_lastEval (k : Nat) (x : Stream) : (s.setStream k x).lastEval = s.lastEval := rfl
@[simp] theorem State.setStream_caps (k : Nat) (x : Stream) : (s.setStream k x).caps = s.caps := rfl
@[simp] theorem State.setStream_lines (k : Nat) (x : Stream) : (s.setStream k x).lines = s.lines := rfl
@[simp] theorem State.setStream_prog (k : Nat) (x : Stream) : (s.setStream k x).prog = s.prog := rfl
@[simp] theorem State.setStream_store (k : Nat) (x : Stream) : (s.setStream k x).store = s.store := rfl
@[simp] theorem State.setStream_merge (k : Nat) (x : Stream) : (s.setStream k x).merge = s.merge := rfl
@[simp] theorem State.setStream_queue (k : Nat) (x : Stream) : (s.setStream k x).queue = s.queue := rfl
@[simp] theorem State.setStream_archive (k : Nat) (x : Stream) : (s.setStream k x).archive = s.archive := rfl
@[simp] theorem State.setStream_coll (k : Nat) (x : Stream) : (s.setStream k x).coll = s.coll := rfl
@[simp] theorem State.setStream_comp (k : Nat) (x : Stream) : (s.setStream k x).comp = s.comp := rfl
@[simp] theorem State.setStream_tdc (k : Nat) (x : Stream) : (s.setStream k x).tdc = s.tdc := rfl
@[simp] theorem State.setStream_stampStr (k : Nat) (x : Stream) : (s.setStream k x).stampStr = s.stampStr := rfl
@[simp] theorem State.setStream_pairer (k : Nat) (x : Stream) : (s.setStream k x).pairer = s.pairer := rfl
@[simp] theorem State.setStream_cross (k : Nat) (x : Stream) : (s.setStream k x).cross = s.cross := rfl
@[simp] theorem State.setStream_calSpans (k : Nat) (x : Stream) : (s.setStream k x).calSpans = s.calSpans := rfl
@[simp] theorem State.setStream_core (k : Nat) (x : Stream) : (s.setStream k x).core = s.core := rfl
@[simp] theorem State.setStream_dac (k : Nat) (x : Stream) : (s.setStream k x).dac = s.dac := rfl
@[simp] theorem State.setStream_level (k : Nat) (x : Stream) : (s.setStream k x).level = s.level := rfl
@[simp] theorem State.setStream_hk (k : Nat) (x : Stream) : (s.setStream k x).hk = s.hk := rfl
@[simp] theorem State.setStream_stack (k : Nat) (x : Stream) : (s.setStream k x).stack = s.stack := rfl
@[simp] theorem State.setStream_losses (k : Nat) (x : Stream) : (s.setStream k x).losses = s.losses := rfl
@[simp] theorem State.setStream_sent (k : Nat) (x : Stream) : (s.setStream k x).sent = s.sent := rfl
@[simp] theorem State.setStream_free (k : Nat) (x : Stream) : (s.setStream k x).free = s.free := rfl
@[simp] theorem State.setStream_pending (k : Nat) (x : Stream) : (s.setStream k x).pending = s.pending := rfl

/-! ### setDac -/
@[simp] theorem State.setDac_cad (d : Nat) (x : Dac) : (s.setDac d x).cad = s.cad := rfl
@[simp] theorem State.setDac_clkOut (d : Nat) (x : Dac) : (s.setDac d x).clkOut = s.clkOut := rfl
@[simp] theorem State.setDac_boot (d : Nat) (x : Dac) : (s.setDac d x).boot = s.boot := rfl
@[simp] theorem State.setDac_mbox (d : Nat) (x : Dac) : (s.setDac d x).mbox = s.mbox := rfl
@[simp] theorem State.setDac_cur (d : Nat) (x : Dac) : (s.setDac d x).cur = s.cur := rfl
@[simp] theorem State.setDac_exh (d : Nat) (x : Dac) : (s.setDac d x).exh = s.exh := rfl
@[simp] theorem State.setDac_streams (d : Nat) (x : Dac) : (s.setDac d x).streams = s.streams := rfl
@[simp] theorem State.setDac_produced (d : Nat) (x : Dac) : (s.setDac d x).produced = s.produced := rfl
@[simp] theorem State.setDac_chan (d : Nat) (x : Dac) : (s.setDac d x).chan = s.chan := rfl
@[simp] theorem State.setDac_wing (d : Nat) (x : Dac) : (s.setDac d x).wing = s.wing := rfl
@[simp] theorem State.setDac_mount (d : Nat) (x : Dac) : (s.setDac d x).mount = s.mount := rfl
@[simp] theorem State.setDac_pow (d : Nat) (x : Dac) : (s.setDac d x).pow = s.pow := rfl
@[simp] theorem State.setDac_health (d : Nat) (x : Dac) : (s.setDac d x).health = s.health := rfl
@[simp] theorem State.setDac_gal (d : Nat) (x : Dac) : (s.setDac d x).gal = s.gal := rfl
@[simp] theorem State.setDac_chain (d : Nat) (x : Dac) : (s.setDac d x).chain = s.chain := rfl
@[simp] theorem State.setDac_pipe (d : Nat) (x : Dac) : (s.setDac d x).pipe = s.pipe := rfl
@[simp] theorem State.setDac_sward (d : Nat) (x : Dac) : (s.setDac d x).sward = s.sward := rfl
@[simp] theorem State.setDac_wram (d : Nat) (x : Dac) : (s.setDac d x).wram = s.wram := rfl
@[simp] theorem State.setDac_mask (d : Nat) (x : Dac) : (s.setDac d x).mask = s.mask := rfl
@[simp] theorem State.setDac_conc (d : Nat) (x : Dac) : (s.setDac d x).conc = s.conc := rfl
@[simp] theorem State.setDac_trig (d : Nat) (x : Dac) : (s.setDac d x).trig = s.trig := rfl
@[simp] theorem State.setDac_accession (d : Nat) (x : Dac) : (s.setDac d x).accession = s.accession := rfl
@[simp] theorem State.setDac_lastEval (d : Nat) (x : Dac) : (s.setDac d x).lastEval = s.lastEval := rfl
@[simp] theorem State.setDac_caps (d : Nat) (x : Dac) : (s.setDac d x).caps = s.caps := rfl
@[simp] theorem State.setDac_lines (d : Nat) (x : Dac) : (s.setDac d x).lines = s.lines := rfl
@[simp] theorem State.setDac_prog (d : Nat) (x : Dac) : (s.setDac d x).prog = s.prog := rfl
@[simp] theorem State.setDac_store (d : Nat) (x : Dac) : (s.setDac d x).store = s.store := rfl
@[simp] theorem State.setDac_merge (d : Nat) (x : Dac) : (s.setDac d x).merge = s.merge := rfl
@[simp] theorem State.setDac_queue (d : Nat) (x : Dac) : (s.setDac d x).queue = s.queue := rfl
@[simp] theorem State.setDac_archive (d : Nat) (x : Dac) : (s.setDac d x).archive = s.archive := rfl
@[simp] theorem State.setDac_coll (d : Nat) (x : Dac) : (s.setDac d x).coll = s.coll := rfl
@[simp] theorem State.setDac_comp (d : Nat) (x : Dac) : (s.setDac d x).comp = s.comp := rfl
@[simp] theorem State.setDac_tdc (d : Nat) (x : Dac) : (s.setDac d x).tdc = s.tdc := rfl
@[simp] theorem State.setDac_stampStr (d : Nat) (x : Dac) : (s.setDac d x).stampStr = s.stampStr := rfl
@[simp] theorem State.setDac_pairer (d : Nat) (x : Dac) : (s.setDac d x).pairer = s.pairer := rfl
@[simp] theorem State.setDac_cross (d : Nat) (x : Dac) : (s.setDac d x).cross = s.cross := rfl
@[simp] theorem State.setDac_calSpans (d : Nat) (x : Dac) : (s.setDac d x).calSpans = s.calSpans := rfl
@[simp] theorem State.setDac_core (d : Nat) (x : Dac) : (s.setDac d x).core = s.core := rfl
@[simp] theorem State.setDac_dac (d : Nat) (x : Dac) : (s.setDac d x).dac = tset s.dac d x := rfl
@[simp] theorem State.setDac_level (d : Nat) (x : Dac) : (s.setDac d x).level = s.level := rfl
@[simp] theorem State.setDac_hk (d : Nat) (x : Dac) : (s.setDac d x).hk = s.hk := rfl
@[simp] theorem State.setDac_stack (d : Nat) (x : Dac) : (s.setDac d x).stack = s.stack := rfl
@[simp] theorem State.setDac_losses (d : Nat) (x : Dac) : (s.setDac d x).losses = s.losses := rfl
@[simp] theorem State.setDac_sent (d : Nat) (x : Dac) : (s.setDac d x).sent = s.sent := rfl
@[simp] theorem State.setDac_free (d : Nat) (x : Dac) : (s.setDac d x).free = s.free := rfl
@[simp] theorem State.setDac_pending (d : Nat) (x : Dac) : (s.setDac d x).pending = s.pending := rfl

/-! ### setLv -/
@[simp] theorem State.setLv_cad (d : Nat) (x : Level) : (s.setLv d x).cad = s.cad := rfl
@[simp] theorem State.setLv_clkOut (d : Nat) (x : Level) : (s.setLv d x).clkOut = s.clkOut := rfl
@[simp] theorem State.setLv_boot (d : Nat) (x : Level) : (s.setLv d x).boot = s.boot := rfl
@[simp] theorem State.setLv_mbox (d : Nat) (x : Level) : (s.setLv d x).mbox = s.mbox := rfl
@[simp] theorem State.setLv_cur (d : Nat) (x : Level) : (s.setLv d x).cur = s.cur := rfl
@[simp] theorem State.setLv_exh (d : Nat) (x : Level) : (s.setLv d x).exh = s.exh := rfl
@[simp] theorem State.setLv_streams (d : Nat) (x : Level) : (s.setLv d x).streams = s.streams := rfl
@[simp] theorem State.setLv_produced (d : Nat) (x : Level) : (s.setLv d x).produced = s.produced := rfl
@[simp] theorem State.setLv_chan (d : Nat) (x : Level) : (s.setLv d x).chan = s.chan := rfl
@[simp] theorem State.setLv_wing (d : Nat) (x : Level) : (s.setLv d x).wing = s.wing := rfl
@[simp] theorem State.setLv_mount (d : Nat) (x : Level) : (s.setLv d x).mount = s.mount := rfl
@[simp] theorem State.setLv_pow (d : Nat) (x : Level) : (s.setLv d x).pow = s.pow := rfl
@[simp] theorem State.setLv_health (d : Nat) (x : Level) : (s.setLv d x).health = s.health := rfl
@[simp] theorem State.setLv_gal (d : Nat) (x : Level) : (s.setLv d x).gal = s.gal := rfl
@[simp] theorem State.setLv_chain (d : Nat) (x : Level) : (s.setLv d x).chain = s.chain := rfl
@[simp] theorem State.setLv_pipe (d : Nat) (x : Level) : (s.setLv d x).pipe = s.pipe := rfl
@[simp] theorem State.setLv_sward (d : Nat) (x : Level) : (s.setLv d x).sward = s.sward := rfl
@[simp] theorem State.setLv_wram (d : Nat) (x : Level) : (s.setLv d x).wram = s.wram := rfl
@[simp] theorem State.setLv_mask (d : Nat) (x : Level) : (s.setLv d x).mask = s.mask := rfl
@[simp] theorem State.setLv_conc (d : Nat) (x : Level) : (s.setLv d x).conc = s.conc := rfl
@[simp] theorem State.setLv_trig (d : Nat) (x : Level) : (s.setLv d x).trig = s.trig := rfl
@[simp] theorem State.setLv_accession (d : Nat) (x : Level) : (s.setLv d x).accession = s.accession := rfl
@[simp] theorem State.setLv_lastEval (d : Nat) (x : Level) : (s.setLv d x).lastEval = s.lastEval := rfl
@[simp] theorem State.setLv_caps (d : Nat) (x : Level) : (s.setLv d x).caps = s.caps := rfl
@[simp] theorem State.setLv_lines (d : Nat) (x : Level) : (s.setLv d x).lines = s.lines := rfl
@[simp] theorem State.setLv_prog (d : Nat) (x : Level) : (s.setLv d x).prog = s.prog := rfl
@[simp] theorem State.setLv_store (d : Nat) (x : Level) : (s.setLv d x).store = s.store := rfl
@[simp] theorem State.setLv_merge (d : Nat) (x : Level) : (s.setLv d x).merge = s.merge := rfl
@[simp] theorem State.setLv_queue (d : Nat) (x : Level) : (s.setLv d x).queue = s.queue := rfl
@[simp] theorem State.setLv_archive (d : Nat) (x : Level) : (s.setLv d x).archive = s.archive := rfl
@[simp] theorem State.setLv_coll (d : Nat) (x : Level) : (s.setLv d x).coll = s.coll := rfl
@[simp] theorem State.setLv_comp (d : Nat) (x : Level) : (s.setLv d x).comp = s.comp := rfl
@[simp] theorem State.setLv_tdc (d : Nat) (x : Level) : (s.setLv d x).tdc = s.tdc := rfl
@[simp] theorem State.setLv_stampStr (d : Nat) (x : Level) : (s.setLv d x).stampStr = s.stampStr := rfl
@[simp] theorem State.setLv_pairer (d : Nat) (x : Level) : (s.setLv d x).pairer = s.pairer := rfl
@[simp] theorem State.setLv_cross (d : Nat) (x : Level) : (s.setLv d x).cross = s.cross := rfl
@[simp] theorem State.setLv_calSpans (d : Nat) (x : Level) : (s.setLv d x).calSpans = s.calSpans := rfl
@[simp] theorem State.setLv_core (d : Nat) (x : Level) : (s.setLv d x).core = s.core := rfl
@[simp] theorem State.setLv_dac (d : Nat) (x : Level) : (s.setLv d x).dac = s.dac := rfl
@[simp] theorem State.setLv_level (d : Nat) (x : Level) : (s.setLv d x).level = tset s.level d x := rfl
@[simp] theorem State.setLv_hk (d : Nat) (x : Level) : (s.setLv d x).hk = s.hk := rfl
@[simp] theorem State.setLv_stack (d : Nat) (x : Level) : (s.setLv d x).stack = s.stack := rfl
@[simp] theorem State.setLv_losses (d : Nat) (x : Level) : (s.setLv d x).losses = s.losses := rfl
@[simp] theorem State.setLv_sent (d : Nat) (x : Level) : (s.setLv d x).sent = s.sent := rfl
@[simp] theorem State.setLv_free (d : Nat) (x : Level) : (s.setLv d x).free = s.free := rfl
@[simp] theorem State.setLv_pending (d : Nat) (x : Level) : (s.setLv d x).pending = s.pending := rfl

/-! ### setPipe -/
@[simp] theorem State.setPipe_cad (h : Nat) (p : Pipe) : (s.setPipe h p).cad = s.cad := rfl
@[simp] theorem State.setPipe_clkOut (h : Nat) (p : Pipe) : (s.setPipe h p).clkOut = s.clkOut := rfl
@[simp] theorem State.setPipe_boot (h : Nat) (p : Pipe) : (s.setPipe h p).boot = s.boot := rfl
@[simp] theorem State.setPipe_mbox (h : Nat) (p : Pipe) : (s.setPipe h p).mbox = s.mbox := rfl
@[simp] theorem State.setPipe_cur (h : Nat) (p : Pipe) : (s.setPipe h p).cur = s.cur := rfl
@[simp] theorem State.setPipe_exh (h : Nat) (p : Pipe) : (s.setPipe h p).exh = s.exh := rfl
@[simp] theorem State.setPipe_streams (h : Nat) (p : Pipe) : (s.setPipe h p).streams = s.streams := rfl
@[simp] theorem State.setPipe_produced (h : Nat) (p : Pipe) : (s.setPipe h p).produced = s.produced := rfl
@[simp] theorem State.setPipe_chan (h : Nat) (p : Pipe) : (s.setPipe h p).chan = s.chan := rfl
@[simp] theorem State.setPipe_wing (h : Nat) (p : Pipe) : (s.setPipe h p).wing = s.wing := rfl
@[simp] theorem State.setPipe_mount (h : Nat) (p : Pipe) : (s.setPipe h p).mount = s.mount := rfl
@[simp] theorem State.setPipe_pow (h : Nat) (p : Pipe) : (s.setPipe h p).pow = s.pow := rfl
@[simp] theorem State.setPipe_health (h : Nat) (p : Pipe) : (s.setPipe h p).health = s.health := rfl
@[simp] theorem State.setPipe_gal (h : Nat) (p : Pipe) : (s.setPipe h p).gal = s.gal := rfl
@[simp] theorem State.setPipe_chain (h : Nat) (p : Pipe) : (s.setPipe h p).chain = s.chain := rfl
@[simp] theorem State.setPipe_pipe (h : Nat) (p : Pipe) : (s.setPipe h p).pipe = tset s.pipe h p := rfl
@[simp] theorem State.setPipe_sward (h : Nat) (p : Pipe) : (s.setPipe h p).sward = s.sward := rfl
@[simp] theorem State.setPipe_wram (h : Nat) (p : Pipe) : (s.setPipe h p).wram = s.wram := rfl
@[simp] theorem State.setPipe_mask (h : Nat) (p : Pipe) : (s.setPipe h p).mask = s.mask := rfl
@[simp] theorem State.setPipe_conc (h : Nat) (p : Pipe) : (s.setPipe h p).conc = s.conc := rfl
@[simp] theorem State.setPipe_trig (h : Nat) (p : Pipe) : (s.setPipe h p).trig = s.trig := rfl
@[simp] theorem State.setPipe_accession (h : Nat) (p : Pipe) : (s.setPipe h p).accession = s.accession := rfl
@[simp] theorem State.setPipe_lastEval (h : Nat) (p : Pipe) : (s.setPipe h p).lastEval = s.lastEval := rfl
@[simp] theorem State.setPipe_caps (h : Nat) (p : Pipe) : (s.setPipe h p).caps = s.caps := rfl
@[simp] theorem State.setPipe_lines (h : Nat) (p : Pipe) : (s.setPipe h p).lines = s.lines := rfl
@[simp] theorem State.setPipe_prog (h : Nat) (p : Pipe) : (s.setPipe h p).prog = s.prog := rfl
@[simp] theorem State.setPipe_store (h : Nat) (p : Pipe) : (s.setPipe h p).store = s.store := rfl
@[simp] theorem State.setPipe_merge (h : Nat) (p : Pipe) : (s.setPipe h p).merge = s.merge := rfl
@[simp] theorem State.setPipe_queue (h : Nat) (p : Pipe) : (s.setPipe h p).queue = s.queue := rfl
@[simp] theorem State.setPipe_archive (h : Nat) (p : Pipe) : (s.setPipe h p).archive = s.archive := rfl
@[simp] theorem State.setPipe_coll (h : Nat) (p : Pipe) : (s.setPipe h p).coll = s.coll := rfl
@[simp] theorem State.setPipe_comp (h : Nat) (p : Pipe) : (s.setPipe h p).comp = s.comp := rfl
@[simp] theorem State.setPipe_tdc (h : Nat) (p : Pipe) : (s.setPipe h p).tdc = s.tdc := rfl
@[simp] theorem State.setPipe_stampStr (h : Nat) (p : Pipe) : (s.setPipe h p).stampStr = s.stampStr := rfl
@[simp] theorem State.setPipe_pairer (h : Nat) (p : Pipe) : (s.setPipe h p).pairer = s.pairer := rfl
@[simp] theorem State.setPipe_cross (h : Nat) (p : Pipe) : (s.setPipe h p).cross = s.cross := rfl
@[simp] theorem State.setPipe_calSpans (h : Nat) (p : Pipe) : (s.setPipe h p).calSpans = s.calSpans := rfl
@[simp] theorem State.setPipe_core (h : Nat) (p : Pipe) : (s.setPipe h p).core = s.core := rfl
@[simp] theorem State.setPipe_dac (h : Nat) (p : Pipe) : (s.setPipe h p).dac = s.dac := rfl
@[simp] theorem State.setPipe_level (h : Nat) (p : Pipe) : (s.setPipe h p).level = s.level := rfl
@[simp] theorem State.setPipe_hk (h : Nat) (p : Pipe) : (s.setPipe h p).hk = s.hk := rfl
@[simp] theorem State.setPipe_stack (h : Nat) (p : Pipe) : (s.setPipe h p).stack = s.stack := rfl
@[simp] theorem State.setPipe_losses (h : Nat) (p : Pipe) : (s.setPipe h p).losses = s.losses := rfl
@[simp] theorem State.setPipe_sent (h : Nat) (p : Pipe) : (s.setPipe h p).sent = s.sent := rfl
@[simp] theorem State.setPipe_free (h : Nat) (p : Pipe) : (s.setPipe h p).free = s.free := rfl
@[simp] theorem State.setPipe_pending (h : Nat) (p : Pipe) : (s.setPipe h p).pending = s.pending := rfl

/-! ### setBoot -/
@[simp] theorem State.setBoot_cad (b : Boot) : (s.setBoot b).cad = s.cad := rfl
@[simp] theorem State.setBoot_clkOut (b : Boot) : (s.setBoot b).clkOut = s.clkOut := rfl
@[simp] theorem State.setBoot_boot (b : Boot) : (s.setBoot b).boot = b := rfl
@[simp] theorem State.setBoot_mbox (b : Boot) : (s.setBoot b).mbox = s.mbox := rfl
@[simp] theorem State.setBoot_cur (b : Boot) : (s.setBoot b).cur = s.cur := rfl
@[simp] theorem State.setBoot_exh (b : Boot) : (s.setBoot b).exh = s.exh := rfl
@[simp] theorem State.setBoot_streams (b : Boot) : (s.setBoot b).streams = s.streams := rfl
@[simp] theorem State.setBoot_produced (b : Boot) : (s.setBoot b).produced = s.produced := rfl
@[simp] theorem State.setBoot_chan (b : Boot) : (s.setBoot b).chan = s.chan := rfl
@[simp] theorem State.setBoot_wing (b : Boot) : (s.setBoot b).wing = s.wing := rfl
@[simp] theorem State.setBoot_mount (b : Boot) : (s.setBoot b).mount = s.mount := rfl
@[simp] theorem State.setBoot_pow (b : Boot) : (s.setBoot b).pow = s.pow := rfl
@[simp] theorem State.setBoot_health (b : Boot) : (s.setBoot b).health = s.health := rfl
@[simp] theorem State.setBoot_gal (b : Boot) : (s.setBoot b).gal = s.gal := rfl
@[simp] theorem State.setBoot_chain (b : Boot) : (s.setBoot b).chain = s.chain := rfl
@[simp] theorem State.setBoot_pipe (b : Boot) : (s.setBoot b).pipe = s.pipe := rfl
@[simp] theorem State.setBoot_sward (b : Boot) : (s.setBoot b).sward = s.sward := rfl
@[simp] theorem State.setBoot_wram (b : Boot) : (s.setBoot b).wram = s.wram := rfl
@[simp] theorem State.setBoot_mask (b : Boot) : (s.setBoot b).mask = s.mask := rfl
@[simp] theorem State.setBoot_conc (b : Boot) : (s.setBoot b).conc = s.conc := rfl
@[simp] theorem State.setBoot_trig (b : Boot) : (s.setBoot b).trig = s.trig := rfl
@[simp] theorem State.setBoot_accession (b : Boot) : (s.setBoot b).accession = s.accession := rfl
@[simp] theorem State.setBoot_lastEval (b : Boot) : (s.setBoot b).lastEval = s.lastEval := rfl
@[simp] theorem State.setBoot_caps (b : Boot) : (s.setBoot b).caps = s.caps := rfl
@[simp] theorem State.setBoot_lines (b : Boot) : (s.setBoot b).lines = s.lines := rfl
@[simp] theorem State.setBoot_prog (b : Boot) : (s.setBoot b).prog = s.prog := rfl
@[simp] theorem State.setBoot_store (b : Boot) : (s.setBoot b).store = s.store := rfl
@[simp] theorem State.setBoot_merge (b : Boot) : (s.setBoot b).merge = s.merge := rfl
@[simp] theorem State.setBoot_queue (b : Boot) : (s.setBoot b).queue = s.queue := rfl
@[simp] theorem State.setBoot_archive (b : Boot) : (s.setBoot b).archive = s.archive := rfl
@[simp] theorem State.setBoot_coll (b : Boot) : (s.setBoot b).coll = s.coll := rfl
@[simp] theorem State.setBoot_comp (b : Boot) : (s.setBoot b).comp = s.comp := rfl
@[simp] theorem State.setBoot_tdc (b : Boot) : (s.setBoot b).tdc = s.tdc := rfl
@[simp] theorem State.setBoot_stampStr (b : Boot) : (s.setBoot b).stampStr = s.stampStr := rfl
@[simp] theorem State.setBoot_pairer (b : Boot) : (s.setBoot b).pairer = s.pairer := rfl
@[simp] theorem State.setBoot_cross (b : Boot) : (s.setBoot b).cross = s.cross := rfl
@[simp] theorem State.setBoot_calSpans (b : Boot) : (s.setBoot b).calSpans = s.calSpans := rfl
@[simp] theorem State.setBoot_core (b : Boot) : (s.setBoot b).core = s.core := rfl
@[simp] theorem State.setBoot_dac (b : Boot) : (s.setBoot b).dac = s.dac := rfl
@[simp] theorem State.setBoot_level (b : Boot) : (s.setBoot b).level = s.level := rfl
@[simp] theorem State.setBoot_hk (b : Boot) : (s.setBoot b).hk = s.hk := rfl
@[simp] theorem State.setBoot_stack (b : Boot) : (s.setBoot b).stack = s.stack := rfl
@[simp] theorem State.setBoot_losses (b : Boot) : (s.setBoot b).losses = s.losses := rfl
@[simp] theorem State.setBoot_sent (b : Boot) : (s.setBoot b).sent = s.sent := rfl
@[simp] theorem State.setBoot_free (b : Boot) : (s.setBoot b).free = s.free := rfl
@[simp] theorem State.setBoot_pending (b : Boot) : (s.setBoot b).pending = s.pending := rfl

/-! ### setPu -/
@[simp] theorem State.setPu_cad (u : Nat) (x : Pairer) : (s.setPu u x).cad = s.cad := rfl
@[simp] theorem State.setPu_clkOut (u : Nat) (x : Pairer) : (s.setPu u x).clkOut = s.clkOut := rfl
@[simp] theorem State.setPu_boot (u : Nat) (x : Pairer) : (s.setPu u x).boot = s.boot := rfl
@[simp] theorem State.setPu_mbox (u : Nat) (x : Pairer) : (s.setPu u x).mbox = s.mbox := rfl
@[simp] theorem State.setPu_cur (u : Nat) (x : Pairer) : (s.setPu u x).cur = s.cur := rfl
@[simp] theorem State.setPu_exh (u : Nat) (x : Pairer) : (s.setPu u x).exh = s.exh := rfl
@[simp] theorem State.setPu_streams (u : Nat) (x : Pairer) : (s.setPu u x).streams = s.streams := rfl
@[simp] theorem State.setPu_produced (u : Nat) (x : Pairer) : (s.setPu u x).produced = s.produced := rfl
@[simp] theorem State.setPu_chan (u : Nat) (x : Pairer) : (s.setPu u x).chan = s.chan := rfl
@[simp] theorem State.setPu_wing (u : Nat) (x : Pairer) : (s.setPu u x).wing = s.wing := rfl
@[simp] theorem State.setPu_mount (u : Nat) (x : Pairer) : (s.setPu u x).mount = s.mount := rfl
@[simp] theorem State.setPu_pow (u : Nat) (x : Pairer) : (s.setPu u x).pow = s.pow := rfl
@[simp] theorem State.setPu_health (u : Nat) (x : Pairer) : (s.setPu u x).health = s.health := rfl
@[simp] theorem State.setPu_gal (u : Nat) (x : Pairer) : (s.setPu u x).gal = s.gal := rfl
@[simp] theorem State.setPu_chain (u : Nat) (x : Pairer) : (s.setPu u x).chain = s.chain := rfl
@[simp] theorem State.setPu_pipe (u : Nat) (x : Pairer) : (s.setPu u x).pipe = s.pipe := rfl
@[simp] theorem State.setPu_sward (u : Nat) (x : Pairer) : (s.setPu u x).sward = s.sward := rfl
@[simp] theorem State.setPu_wram (u : Nat) (x : Pairer) : (s.setPu u x).wram = s.wram := rfl
@[simp] theorem State.setPu_mask (u : Nat) (x : Pairer) : (s.setPu u x).mask = s.mask := rfl
@[simp] theorem State.setPu_conc (u : Nat) (x : Pairer) : (s.setPu u x).conc = s.conc := rfl
@[simp] theorem State.setPu_trig (u : Nat) (x : Pairer) : (s.setPu u x).trig = s.trig := rfl
@[simp] theorem State.setPu_accession (u : Nat) (x : Pairer) : (s.setPu u x).accession = s.accession := rfl
@[simp] theorem State.setPu_lastEval (u : Nat) (x : Pairer) : (s.setPu u x).lastEval = s.lastEval := rfl
@[simp] theorem State.setPu_caps (u : Nat) (x : Pairer) : (s.setPu u x).caps = s.caps := rfl
@[simp] theorem State.setPu_lines (u : Nat) (x : Pairer) : (s.setPu u x).lines = s.lines := rfl
@[simp] theorem State.setPu_prog (u : Nat) (x : Pairer) : (s.setPu u x).prog = s.prog := rfl
@[simp] theorem State.setPu_store (u : Nat) (x : Pairer) : (s.setPu u x).store = s.store := rfl
@[simp] theorem State.setPu_merge (u : Nat) (x : Pairer) : (s.setPu u x).merge = s.merge := rfl
@[simp] theorem State.setPu_queue (u : Nat) (x : Pairer) : (s.setPu u x).queue = s.queue := rfl
@[simp] theorem State.setPu_archive (u : Nat) (x : Pairer) : (s.setPu u x).archive = s.archive := rfl
@[simp] theorem State.setPu_coll (u : Nat) (x : Pairer) : (s.setPu u x).coll = s.coll := rfl
@[simp] theorem State.setPu_comp (u : Nat) (x : Pairer) : (s.setPu u x).comp = s.comp := rfl
@[simp] theorem State.setPu_tdc (u : Nat) (x : Pairer) : (s.setPu u x).tdc = s.tdc := rfl
@[simp] theorem State.setPu_stampStr (u : Nat) (x : Pairer) : (s.setPu u x).stampStr = s.stampStr := rfl
@[simp] theorem State.setPu_pairer (u : Nat) (x : Pairer) : (s.setPu u x).pairer = tset s.pairer u x := rfl
@[simp] theorem State.setPu_cross (u : Nat) (x : Pairer) : (s.setPu u x).cross = s.cross := rfl
@[simp] theorem State.setPu_calSpans (u : Nat) (x : Pairer) : (s.setPu u x).calSpans = s.calSpans := rfl
@[simp] theorem State.setPu_core (u : Nat) (x : Pairer) : (s.setPu u x).core = s.core := rfl
@[simp] theorem State.setPu_dac (u : Nat) (x : Pairer) : (s.setPu u x).dac = s.dac := rfl
@[simp] theorem State.setPu_level (u : Nat) (x : Pairer) : (s.setPu u x).level = s.level := rfl
@[simp] theorem State.setPu_hk (u : Nat) (x : Pairer) : (s.setPu u x).hk = s.hk := rfl
@[simp] theorem State.setPu_stack (u : Nat) (x : Pairer) : (s.setPu u x).stack = s.stack := rfl
@[simp] theorem State.setPu_losses (u : Nat) (x : Pairer) : (s.setPu u x).losses = s.losses := rfl
@[simp] theorem State.setPu_sent (u : Nat) (x : Pairer) : (s.setPu u x).sent = s.sent := rfl
@[simp] theorem State.setPu_free (u : Nat) (x : Pairer) : (s.setPu u x).free = s.free := rfl
@[simp] theorem State.setPu_pending (u : Nat) (x : Pairer) : (s.setPu u x).pending = s.pending := rfl

/-! ### setTr -/
@[simp] theorem State.setTr_cad (h : Nat) (x : Trig) : (s.setTr h x).cad = s.cad := rfl
@[simp] theorem State.setTr_clkOut (h : Nat) (x : Trig) : (s.setTr h x).clkOut = s.clkOut := rfl
@[simp] theorem State.setTr_boot (h : Nat) (x : Trig) : (s.setTr h x).boot = s.boot := rfl
@[simp] theorem State.setTr_mbox (h : Nat) (x : Trig) : (s.setTr h x).mbox = s.mbox := rfl
@[simp] theorem State.setTr_cur (h : Nat) (x : Trig) : (s.setTr h x).cur = s.cur := rfl
@[simp] theorem State.setTr_exh (h : Nat) (x : Trig) : (s.setTr h x).exh = s.exh := rfl
@[simp] theorem State.setTr_streams (h : Nat) (x : Trig) : (s.setTr h x).streams = s.streams := rfl
@[simp] theorem State.setTr_produced (h : Nat) (x : Trig) : (s.setTr h x).produced = s.produced := rfl
@[simp] theorem State.setTr_chan (h : Nat) (x : Trig) : (s.setTr h x).chan = s.chan := rfl
@[simp] theorem State.setTr_wing (h : Nat) (x : Trig) : (s.setTr h x).wing = s.wing := rfl
@[simp] theorem State.setTr_mount (h : Nat) (x : Trig) : (s.setTr h x).mount = s.mount := rfl
@[simp] theorem State.setTr_pow (h : Nat) (x : Trig) : (s.setTr h x).pow = s.pow := rfl
@[simp] theorem State.setTr_health (h : Nat) (x : Trig) : (s.setTr h x).health = s.health := rfl
@[simp] theorem State.setTr_gal (h : Nat) (x : Trig) : (s.setTr h x).gal = s.gal := rfl
@[simp] theorem State.setTr_chain (h : Nat) (x : Trig) : (s.setTr h x).chain = s.chain := rfl
@[simp] theorem State.setTr_pipe (h : Nat) (x : Trig) : (s.setTr h x).pipe = s.pipe := rfl
@[simp] theorem State.setTr_sward (h : Nat) (x : Trig) : (s.setTr h x).sward = s.sward := rfl
@[simp] theorem State.setTr_wram (h : Nat) (x : Trig) : (s.setTr h x).wram = s.wram := rfl
@[simp] theorem State.setTr_mask (h : Nat) (x : Trig) : (s.setTr h x).mask = s.mask := rfl
@[simp] theorem State.setTr_conc (h : Nat) (x : Trig) : (s.setTr h x).conc = s.conc := rfl
@[simp] theorem State.setTr_trig (h : Nat) (x : Trig) : (s.setTr h x).trig = tset s.trig h x := rfl
@[simp] theorem State.setTr_accession (h : Nat) (x : Trig) : (s.setTr h x).accession = s.accession := rfl
@[simp] theorem State.setTr_lastEval (h : Nat) (x : Trig) : (s.setTr h x).lastEval = s.lastEval := rfl
@[simp] theorem State.setTr_caps (h : Nat) (x : Trig) : (s.setTr h x).caps = s.caps := rfl
@[simp] theorem State.setTr_lines (h : Nat) (x : Trig) : (s.setTr h x).lines = s.lines := rfl
@[simp] theorem State.setTr_prog (h : Nat) (x : Trig) : (s.setTr h x).prog = s.prog := rfl
@[simp] theorem State.setTr_store (h : Nat) (x : Trig) : (s.setTr h x).store = s.store := rfl
@[simp] theorem State.setTr_merge (h : Nat) (x : Trig) : (s.setTr h x).merge = s.merge := rfl
@[simp] theorem State.setTr_queue (h : Nat) (x : Trig) : (s.setTr h x).queue = s.queue := rfl
@[simp] theorem State.setTr_archive (h : Nat) (x : Trig) : (s.setTr h x).archive = s.archive := rfl
@[simp] theorem State.setTr_coll (h : Nat) (x : Trig) : (s.setTr h x).coll = s.coll := rfl
@[simp] theorem State.setTr_comp (h : Nat) (x : Trig) : (s.setTr h x).comp = s.comp := rfl
@[simp] theorem State.setTr_tdc (h : Nat) (x : Trig) : (s.setTr h x).tdc = s.tdc := rfl
@[simp] theorem State.setTr_stampStr (h : Nat) (x : Trig) : (s.setTr h x).stampStr = s.stampStr := rfl
@[simp] theorem State.setTr_pairer (h : Nat) (x : Trig) : (s.setTr h x).pairer = s.pairer := rfl
@[simp] theorem State.setTr_cross (h : Nat) (x : Trig) : (s.setTr h x).cross = s.cross := rfl
@[simp] theorem State.setTr_calSpans (h : Nat) (x : Trig) : (s.setTr h x).calSpans = s.calSpans := rfl
@[simp] theorem State.setTr_core (h : Nat) (x : Trig) : (s.setTr h x).core = s.core := rfl
@[simp] theorem State.setTr_dac (h : Nat) (x : Trig) : (s.setTr h x).dac = s.dac := rfl
@[simp] theorem State.setTr_level (h : Nat) (x : Trig) : (s.setTr h x).level = s.level := rfl
@[simp] theorem State.setTr_hk (h : Nat) (x : Trig) : (s.setTr h x).hk = s.hk := rfl
@[simp] theorem State.setTr_stack (h : Nat) (x : Trig) : (s.setTr h x).stack = s.stack := rfl
@[simp] theorem State.setTr_losses (h : Nat) (x : Trig) : (s.setTr h x).losses = s.losses := rfl
@[simp] theorem State.setTr_sent (h : Nat) (x : Trig) : (s.setTr h x).sent = s.sent := rfl
@[simp] theorem State.setTr_free (h : Nat) (x : Trig) : (s.setTr h x).free = s.free := rfl
@[simp] theorem State.setTr_pending (h : Nat) (x : Trig) : (s.setTr h x).pending = s.pending := rfl

/-! ### setCh -/
@[simp] theorem State.setCh_cad (c : Nat) (x : Chan) : (s.setCh c x).cad = s.cad := rfl
@[simp] theorem State.setCh_clkOut (c : Nat) (x : Chan) : (s.setCh c x).clkOut = s.clkOut := rfl
@[simp] theorem State.setCh_boot (c : Nat) (x : Chan) : (s.setCh c x).boot = s.boot := rfl
@[simp] theorem State.setCh_mbox (c : Nat) (x : Chan) : (s.setCh c x).mbox = s.mbox := rfl
@[simp] theorem State.setCh_cur (c : Nat) (x : Chan) : (s.setCh c x).cur = s.cur := rfl
@[simp] theorem State.setCh_exh (c : Nat) (x : Chan) : (s.setCh c x).exh = s.exh := rfl
@[simp] theorem State.setCh_streams (c : Nat) (x : Chan) : (s.setCh c x).streams = s.streams := rfl
@[simp] theorem State.setCh_produced (c : Nat) (x : Chan) : (s.setCh c x).produced = s.produced := rfl
@[simp] theorem State.setCh_chan (c : Nat) (x : Chan) : (s.setCh c x).chan = tset s.chan c x := rfl
@[simp] theorem State.setCh_wing (c : Nat) (x : Chan) : (s.setCh c x).wing = s.wing := rfl
@[simp] theorem State.setCh_mount (c : Nat) (x : Chan) : (s.setCh c x).mount = s.mount := rfl
@[simp] theorem State.setCh_pow (c : Nat) (x : Chan) : (s.setCh c x).pow = s.pow := rfl
@[simp] theorem State.setCh_health (c : Nat) (x : Chan) : (s.setCh c x).health = s.health := rfl
@[simp] theorem State.setCh_gal (c : Nat) (x : Chan) : (s.setCh c x).gal = s.gal := rfl
@[simp] theorem State.setCh_chain (c : Nat) (x : Chan) : (s.setCh c x).chain = s.chain := rfl
@[simp] theorem State.setCh_pipe (c : Nat) (x : Chan) : (s.setCh c x).pipe = s.pipe := rfl
@[simp] theorem State.setCh_sward (c : Nat) (x : Chan) : (s.setCh c x).sward = s.sward := rfl
@[simp] theorem State.setCh_wram (c : Nat) (x : Chan) : (s.setCh c x).wram = s.wram := rfl
@[simp] theorem State.setCh_mask (c : Nat) (x : Chan) : (s.setCh c x).mask = s.mask := rfl
@[simp] theorem State.setCh_conc (c : Nat) (x : Chan) : (s.setCh c x).conc = s.conc := rfl
@[simp] theorem State.setCh_trig (c : Nat) (x : Chan) : (s.setCh c x).trig = s.trig := rfl
@[simp] theorem State.setCh_accession (c : Nat) (x : Chan) : (s.setCh c x).accession = s.accession := rfl
@[simp] theorem State.setCh_lastEval (c : Nat) (x : Chan) : (s.setCh c x).lastEval = s.lastEval := rfl
@[simp] theorem State.setCh_caps (c : Nat) (x : Chan) : (s.setCh c x).caps = s.caps := rfl
@[simp] theorem State.setCh_lines (c : Nat) (x : Chan) : (s.setCh c x).lines = s.lines := rfl
@[simp] theorem State.setCh_prog (c : Nat) (x : Chan) : (s.setCh c x).prog = s.prog := rfl
@[simp] theorem State.setCh_store (c : Nat) (x : Chan) : (s.setCh c x).store = s.store := rfl
@[simp] theorem State.setCh_merge (c : Nat) (x : Chan) : (s.setCh c x).merge = s.merge := rfl
@[simp] theorem State.setCh_queue (c : Nat) (x : Chan) : (s.setCh c x).queue = s.queue := rfl
@[simp] theorem State.setCh_archive (c : Nat) (x : Chan) : (s.setCh c x).archive = s.archive := rfl
@[simp] theorem State.setCh_coll (c : Nat) (x : Chan) : (s.setCh c x).coll = s.coll := rfl
@[simp] theorem State.setCh_comp (c : Nat) (x : Chan) : (s.setCh c x).comp = s.comp := rfl
@[simp] theorem State.setCh_tdc (c : Nat) (x : Chan) : (s.setCh c x).tdc = s.tdc := rfl
@[simp] theorem State.setCh_stampStr (c : Nat) (x : Chan) : (s.setCh c x).stampStr = s.stampStr := rfl
@[simp] theorem State.setCh_pairer (c : Nat) (x : Chan) : (s.setCh c x).pairer = s.pairer := rfl
@[simp] theorem State.setCh_cross (c : Nat) (x : Chan) : (s.setCh c x).cross = s.cross := rfl
@[simp] theorem State.setCh_calSpans (c : Nat) (x : Chan) : (s.setCh c x).calSpans = s.calSpans := rfl
@[simp] theorem State.setCh_core (c : Nat) (x : Chan) : (s.setCh c x).core = s.core := rfl
@[simp] theorem State.setCh_dac (c : Nat) (x : Chan) : (s.setCh c x).dac = s.dac := rfl
@[simp] theorem State.setCh_level (c : Nat) (x : Chan) : (s.setCh c x).level = s.level := rfl
@[simp] theorem State.setCh_hk (c : Nat) (x : Chan) : (s.setCh c x).hk = s.hk := rfl
@[simp] theorem State.setCh_stack (c : Nat) (x : Chan) : (s.setCh c x).stack = s.stack := rfl
@[simp] theorem State.setCh_losses (c : Nat) (x : Chan) : (s.setCh c x).losses = s.losses := rfl
@[simp] theorem State.setCh_sent (c : Nat) (x : Chan) : (s.setCh c x).sent = s.sent := rfl
@[simp] theorem State.setCh_free (c : Nat) (x : Chan) : (s.setCh c x).free = s.free := rfl
@[simp] theorem State.setCh_pending (c : Nat) (x : Chan) : (s.setCh c x).pending = s.pending := rfl

/-! ### setDrv -/
@[simp] theorem State.setDrv_cad (d : Nat) (x : Drive) : (s.setDrv d x).cad = s.cad := rfl
@[simp] theorem State.setDrv_clkOut (d : Nat) (x : Drive) : (s.setDrv d x).clkOut = s.clkOut := rfl
@[simp] theorem State.setDrv_boot (d : Nat) (x : Drive) : (s.setDrv d x).boot = s.boot := rfl
@[simp] theorem State.setDrv_mbox (d : Nat) (x : Drive) : (s.setDrv d x).mbox = s.mbox := rfl
@[simp] theorem State.setDrv_cur (d : Nat) (x : Drive) : (s.setDrv d x).cur = s.cur := rfl
@[simp] theorem State.setDrv_exh (d : Nat) (x : Drive) : (s.setDrv d x).exh = s.exh := rfl
@[simp] theorem State.setDrv_streams (d : Nat) (x : Drive) : (s.setDrv d x).streams = s.streams := rfl
@[simp] theorem State.setDrv_produced (d : Nat) (x : Drive) : (s.setDrv d x).produced = s.produced := rfl
@[simp] theorem State.setDrv_chan (d : Nat) (x : Drive) : (s.setDrv d x).chan = s.chan := rfl
@[simp] theorem State.setDrv_wing (d : Nat) (x : Drive) : (s.setDrv d x).wing = s.wing := rfl
@[simp] theorem State.setDrv_mount (d : Nat) (x : Drive) : (s.setDrv d x).mount = s.mount := rfl
@[simp] theorem State.setDrv_pow (d : Nat) (x : Drive) : (s.setDrv d x).pow = s.pow := rfl
@[simp] theorem State.setDrv_health (d : Nat) (x : Drive) : (s.setDrv d x).health = s.health := rfl
@[simp] theorem State.setDrv_gal (d : Nat) (x : Drive) : (s.setDrv d x).gal = s.gal := rfl
@[simp] theorem State.setDrv_chain (d : Nat) (x : Drive) : (s.setDrv d x).chain = s.chain := rfl
@[simp] theorem State.setDrv_pipe (d : Nat) (x : Drive) : (s.setDrv d x).pipe = s.pipe := rfl
@[simp] theorem State.setDrv_sward (d : Nat) (x : Drive) : (s.setDrv d x).sward = s.sward := rfl
@[simp] theorem State.setDrv_wram (d : Nat) (x : Drive) : (s.setDrv d x).wram = s.wram := rfl
@[simp] theorem State.setDrv_mask (d : Nat) (x : Drive) : (s.setDrv d x).mask = s.mask := rfl
@[simp] theorem State.setDrv_conc (d : Nat) (x : Drive) : (s.setDrv d x).conc = s.conc := rfl
@[simp] theorem State.setDrv_trig (d : Nat) (x : Drive) : (s.setDrv d x).trig = s.trig := rfl
@[simp] theorem State.setDrv_accession (d : Nat) (x : Drive) : (s.setDrv d x).accession = s.accession := rfl
@[simp] theorem State.setDrv_lastEval (d : Nat) (x : Drive) : (s.setDrv d x).lastEval = s.lastEval := rfl
@[simp] theorem State.setDrv_caps (d : Nat) (x : Drive) : (s.setDrv d x).caps = s.caps := rfl
@[simp] theorem State.setDrv_lines (d : Nat) (x : Drive) : (s.setDrv d x).lines = s.lines := rfl
@[simp] theorem State.setDrv_prog (d : Nat) (x : Drive) : (s.setDrv d x).prog = s.prog := rfl
@[simp] theorem State.setDrv_store (d : Nat) (x : Drive) : (s.setDrv d x).store = s.store := rfl
@[simp] theorem State.setDrv_merge (d : Nat) (x : Drive) : (s.setDrv d x).merge = s.merge := rfl
@[simp] theorem State.setDrv_queue (d : Nat) (x : Drive) : (s.setDrv d x).queue = s.queue := rfl
@[simp] theorem State.setDrv_archive (d : Nat) (x : Drive) : (s.setDrv d x).archive = { s.archive with drives := tset s.archive.drives d x } := rfl
@[simp] theorem State.setDrv_coll (d : Nat) (x : Drive) : (s.setDrv d x).coll = s.coll := rfl
@[simp] theorem State.setDrv_comp (d : Nat) (x : Drive) : (s.setDrv d x).comp = s.comp := rfl
@[simp] theorem State.setDrv_tdc (d : Nat) (x : Drive) : (s.setDrv d x).tdc = s.tdc := rfl
@[simp] theorem State.setDrv_stampStr (d : Nat) (x : Drive) : (s.setDrv d x).stampStr = s.stampStr := rfl
@[simp] theorem State.setDrv_pairer (d : Nat) (x : Drive) : (s.setDrv d x).pairer = s.pairer := rfl
@[simp] theorem State.setDrv_cross (d : Nat) (x : Drive) : (s.setDrv d x).cross = s.cross := rfl
@[simp] theorem State.setDrv_calSpans (d : Nat) (x : Drive) : (s.setDrv d x).calSpans = s.calSpans := rfl
@[simp] theorem State.setDrv_core (d : Nat) (x : Drive) : (s.setDrv d x).core = s.core := rfl
@[simp] theorem State.setDrv_dac (d : Nat) (x : Drive) : (s.setDrv d x).dac = s.dac := rfl
@[simp] theorem State.setDrv_level (d : Nat) (x : Drive) : (s.setDrv d x).level = s.level := rfl
@[simp] theorem State.setDrv_hk (d : Nat) (x : Drive) : (s.setDrv d x).hk = s.hk := rfl
@[simp] theorem State.setDrv_stack (d : Nat) (x : Drive) : (s.setDrv d x).stack = s.stack := rfl
@[simp] theorem State.setDrv_losses (d : Nat) (x : Drive) : (s.setDrv d x).losses = s.losses := rfl
@[simp] theorem State.setDrv_sent (d : Nat) (x : Drive) : (s.setDrv d x).sent = s.sent := rfl
@[simp] theorem State.setDrv_free (d : Nat) (x : Drive) : (s.setDrv d x).free = s.free := rfl
@[simp] theorem State.setDrv_pending (d : Nat) (x : Drive) : (s.setDrv d x).pending = s.pending := rfl

/-! ### setMigr -/
@[simp] theorem State.setMigr_cad (l : List Migration) : (s.setMigr l).cad = s.cad := rfl
@[simp] theorem State.setMigr_clkOut (l : List Migration) : (s.setMigr l).clkOut = s.clkOut := rfl
@[simp] theorem State.setMigr_boot (l : List Migration) : (s.setMigr l).boot = s.boot := rfl
@[simp] theorem State.setMigr_mbox (l : List Migration) : (s.setMigr l).mbox = s.mbox := rfl
@[simp] theorem State.setMigr_cur (l : List Migration) : (s.setMigr l).cur = s.cur := rfl
@[simp] theorem State.setMigr_exh (l : List Migration) : (s.setMigr l).exh = s.exh := rfl
@[simp] theorem State.setMigr_streams (l : List Migration) : (s.setMigr l).streams = s.streams := rfl
@[simp] theorem State.setMigr_produced (l : List Migration) : (s.setMigr l).produced = s.produced := rfl
@[simp] theorem State.setMigr_chan (l : List Migration) : (s.setMigr l).chan = s.chan := rfl
@[simp] theorem State.setMigr_wing (l : List Migration) : (s.setMigr l).wing = s.wing := rfl
@[simp] theorem State.setMigr_mount (l : List Migration) : (s.setMigr l).mount = s.mount := rfl
@[simp] theorem State.setMigr_pow (l : List Migration) : (s.setMigr l).pow = s.pow := rfl
@[simp] theorem State.setMigr_health (l : List Migration) : (s.setMigr l).health = s.health := rfl
@[simp] theorem State.setMigr_gal (l : List Migration) : (s.setMigr l).gal = { s.gal with migr := l } := rfl
@[simp] theorem State.setMigr_chain (l : List Migration) : (s.setMigr l).chain = s.chain := rfl
@[simp] theorem State.setMigr_pipe (l : List Migration) : (s.setMigr l).pipe = s.pipe := rfl
@[simp] theorem State.setMigr_sward (l : List Migration) : (s.setMigr l).sward = s.sward := rfl
@[simp] theorem State.setMigr_wram (l : List Migration) : (s.setMigr l).wram = s.wram := rfl
@[simp] theorem State.setMigr_mask (l : List Migration) : (s.setMigr l).mask = s.mask := rfl
@[simp] theorem State.setMigr_conc (l : List Migration) : (s.setMigr l).conc = s.conc := rfl
@[simp] theorem State.setMigr_trig (l : List Migration) : (s.setMigr l).trig = s.trig := rfl
@[simp] theorem State.setMigr_accession (l : List Migration) : (s.setMigr l).accession = s.accession := rfl
@[simp] theorem State.setMigr_lastEval (l : List Migration) : (s.setMigr l).lastEval = s.lastEval := rfl
@[simp] theorem State.setMigr_caps (l : List Migration) : (s.setMigr l).caps = s.caps := rfl
@[simp] theorem State.setMigr_lines (l : List Migration) : (s.setMigr l).lines = s.lines := rfl
@[simp] theorem State.setMigr_prog (l : List Migration) : (s.setMigr l).prog = s.prog := rfl
@[simp] theorem State.setMigr_store (l : List Migration) : (s.setMigr l).store = s.store := rfl
@[simp] theorem State.setMigr_merge (l : List Migration) : (s.setMigr l).merge = s.merge := rfl
@[simp] theorem State.setMigr_queue (l : List Migration) : (s.setMigr l).queue = s.queue := rfl
@[simp] theorem State.setMigr_archive (l : List Migration) : (s.setMigr l).archive = s.archive := rfl
@[simp] theorem State.setMigr_coll (l : List Migration) : (s.setMigr l).coll = s.coll := rfl
@[simp] theorem State.setMigr_comp (l : List Migration) : (s.setMigr l).comp = s.comp := rfl
@[simp] theorem State.setMigr_tdc (l : List Migration) : (s.setMigr l).tdc = s.tdc := rfl
@[simp] theorem State.setMigr_stampStr (l : List Migration) : (s.setMigr l).stampStr = s.stampStr := rfl
@[simp] theorem State.setMigr_pairer (l : List Migration) : (s.setMigr l).pairer = s.pairer := rfl
@[simp] theorem State.setMigr_cross (l : List Migration) : (s.setMigr l).cross = s.cross := rfl
@[simp] theorem State.setMigr_calSpans (l : List Migration) : (s.setMigr l).calSpans = s.calSpans := rfl
@[simp] theorem State.setMigr_core (l : List Migration) : (s.setMigr l).core = s.core := rfl
@[simp] theorem State.setMigr_dac (l : List Migration) : (s.setMigr l).dac = s.dac := rfl
@[simp] theorem State.setMigr_level (l : List Migration) : (s.setMigr l).level = s.level := rfl
@[simp] theorem State.setMigr_hk (l : List Migration) : (s.setMigr l).hk = s.hk := rfl
@[simp] theorem State.setMigr_stack (l : List Migration) : (s.setMigr l).stack = s.stack := rfl
@[simp] theorem State.setMigr_losses (l : List Migration) : (s.setMigr l).losses = s.losses := rfl
@[simp] theorem State.setMigr_sent (l : List Migration) : (s.setMigr l).sent = s.sent := rfl
@[simp] theorem State.setMigr_free (l : List Migration) : (s.setMigr l).free = s.free := rfl
@[simp] theorem State.setMigr_pending (l : List Migration) : (s.setMigr l).pending = s.pending := rfl

/-! ### tick -/
@[simp] theorem State.tick_cad (t : Nat) : (s.tick t).cad = s.cad.at t := rfl
@[simp] theorem State.tick_clkOut (t : Nat) : (s.tick t).clkOut = s.clkOut := rfl
@[simp] theorem State.tick_boot (t : Nat) : (s.tick t).boot = s.boot := rfl
@[simp] theorem State.tick_mbox (t : Nat) : (s.tick t).mbox = s.mbox := rfl
@[simp] theorem State.tick_cur (t : Nat) : (s.tick t).cur = s.cur := rfl
@[simp] theorem State.tick_exh (t : Nat) : (s.tick t).exh = s.exh := rfl
@[simp] theorem State.tick_streams (t : Nat) : (s.tick t).streams = s.streams := rfl
@[simp] theorem State.tick_produced (t : Nat) : (s.tick t).produced = s.produced := rfl
@[simp] theorem State.tick_chan (t : Nat) : (s.tick t).chan = s.chan := rfl
@[simp] theorem State.tick_wing (t : Nat) : (s.tick t).wing = s.wing := rfl
@[simp] theorem State.tick_mount (t : Nat) : (s.tick t).mount = s.mount := rfl
@[simp] theorem State.tick_pow (t : Nat) : (s.tick t).pow = s.pow := rfl
@[simp] theorem State.tick_health (t : Nat) : (s.tick t).health = s.health := rfl
@[simp] theorem State.tick_gal (t : Nat) : (s.tick t).gal = s.gal := rfl
@[simp] theorem State.tick_chain (t : Nat) : (s.tick t).chain = s.chain := rfl
@[simp] theorem State.tick_pipe (t : Nat) : (s.tick t).pipe = s.pipe := rfl
@[simp] theorem State.tick_sward (t : Nat) : (s.tick t).sward = s.sward := rfl
@[simp] theorem State.tick_wram (t : Nat) : (s.tick t).wram = s.wram := rfl
@[simp] theorem State.tick_mask (t : Nat) : (s.tick t).mask = s.mask := rfl
@[simp] theorem State.tick_conc (t : Nat) : (s.tick t).conc = s.conc := rfl
@[simp] theorem State.tick_trig (t : Nat) : (s.tick t).trig = s.trig := rfl
@[simp] theorem State.tick_accession (t : Nat) : (s.tick t).accession = s.accession := rfl
@[simp] theorem State.tick_lastEval (t : Nat) : (s.tick t).lastEval = s.lastEval := rfl
@[simp] theorem State.tick_caps (t : Nat) : (s.tick t).caps = s.caps := rfl
@[simp] theorem State.tick_lines (t : Nat) : (s.tick t).lines = s.lines := rfl
@[simp] theorem State.tick_prog (t : Nat) : (s.tick t).prog = s.prog := rfl
@[simp] theorem State.tick_store (t : Nat) : (s.tick t).store = s.store := rfl
@[simp] theorem State.tick_merge (t : Nat) : (s.tick t).merge = s.merge := rfl
@[simp] theorem State.tick_queue (t : Nat) : (s.tick t).queue = s.queue := rfl
@[simp] theorem State.tick_archive (t : Nat) : (s.tick t).archive = s.archive := rfl
@[simp] theorem State.tick_coll (t : Nat) : (s.tick t).coll = s.coll := rfl
@[simp] theorem State.tick_comp (t : Nat) : (s.tick t).comp = s.comp := rfl
@[simp] theorem State.tick_tdc (t : Nat) : (s.tick t).tdc = s.tdc := rfl
@[simp] theorem State.tick_stampStr (t : Nat) : (s.tick t).stampStr = s.stampStr := rfl
@[simp] theorem State.tick_pairer (t : Nat) : (s.tick t).pairer = s.pairer := rfl
@[simp] theorem State.tick_cross (t : Nat) : (s.tick t).cross = s.cross := rfl
@[simp] theorem State.tick_calSpans (t : Nat) : (s.tick t).calSpans = s.calSpans := rfl
@[simp] theorem State.tick_core (t : Nat) : (s.tick t).core = s.core := rfl
@[simp] theorem State.tick_dac (t : Nat) : (s.tick t).dac = s.dac := rfl
@[simp] theorem State.tick_level (t : Nat) : (s.tick t).level = s.level := rfl
@[simp] theorem State.tick_hk (t : Nat) : (s.tick t).hk = s.hk := rfl
@[simp] theorem State.tick_stack (t : Nat) : (s.tick t).stack = s.stack := rfl
@[simp] theorem State.tick_losses (t : Nat) : (s.tick t).losses = s.losses := rfl
@[simp] theorem State.tick_sent (t : Nat) : (s.tick t).sent = s.sent := rfl
@[simp] theorem State.tick_free (t : Nat) : (s.tick t).free = s.free := rfl
@[simp] theorem State.tick_pending (t : Nat) : (s.tick t).pending = s.pending := rfl

/-! ### alert -/
@[simp] theorem State.alert_cad (b : Nat) : (s.alert b).cad = s.cad := rfl
@[simp] theorem State.alert_clkOut (b : Nat) : (s.alert b).clkOut = s.clkOut := rfl
@[simp] theorem State.alert_boot (b : Nat) : (s.alert b).boot = s.boot := rfl
@[simp] theorem State.alert_mbox (b : Nat) : (s.alert b).mbox = s.mbox := rfl
@[simp] theorem State.alert_cur (b : Nat) : (s.alert b).cur = { s.cur with alert := s.cur.alert ||| b } := rfl
@[simp] theorem State.alert_exh (b : Nat) : (s.alert b).exh = s.exh := rfl
@[simp] theorem State.alert_streams (b : Nat) : (s.alert b).streams = s.streams := rfl
@[simp] theorem State.alert_produced (b : Nat) : (s.alert b).produced = s.produced := rfl
@[simp] theorem State.alert_chan (b : Nat) : (s.alert b).chan = s.chan := rfl
@[simp] theorem State.alert_wing (b : Nat) : (s.alert b).wing = s.wing := rfl
@[simp] theorem State.alert_mount (b : Nat) : (s.alert b).mount = s.mount := rfl
@[simp] theorem State.alert_pow (b : Nat) : (s.alert b).pow = s.pow := rfl
@[simp] theorem State.alert_health (b : Nat) : (s.alert b).health = s.health := rfl
@[simp] theorem State.alert_gal (b : Nat) : (s.alert b).gal = s.gal := rfl
@[simp] theorem State.alert_chain (b : Nat) : (s.alert b).chain = s.chain := rfl
@[simp] theorem State.alert_pipe (b : Nat) : (s.alert b).pipe = s.pipe := rfl
@[simp] theorem State.alert_sward (b : Nat) : (s.alert b).sward = s.sward := rfl
@[simp] theorem State.alert_wram (b : Nat) : (s.alert b).wram = s.wram := rfl
@[simp] theorem State.alert_mask (b : Nat) : (s.alert b).mask = s.mask := rfl
@[simp] theorem State.alert_conc (b : Nat) : (s.alert b).conc = s.conc := rfl
@[simp] theorem State.alert_trig (b : Nat) : (s.alert b).trig = s.trig := rfl
@[simp] theorem State.alert_accession (b : Nat) : (s.alert b).accession = s.accession := rfl
@[simp] theorem State.alert_lastEval (b : Nat) : (s.alert b).lastEval = s.lastEval := rfl
@[simp] theorem State.alert_caps (b : Nat) : (s.alert b).caps = s.caps := rfl
@[simp] theorem State.alert_lines (b : Nat) : (s.alert b).lines = s.lines := rfl
@[simp] theorem State.alert_prog (b : Nat) : (s.alert b).prog = s.prog := rfl
@[simp] theorem State.alert_store (b : Nat) : (s.alert b).store = s.store := rfl
@[simp] theorem State.alert_merge (b : Nat) : (s.alert b).merge = s.merge := rfl
@[simp] theorem State.alert_queue (b : Nat) : (s.alert b).queue = s.queue := rfl
@[simp] theorem State.alert_archive (b : Nat) : (s.alert b).archive = s.archive := rfl
@[simp] theorem State.alert_coll (b : Nat) : (s.alert b).coll = s.coll := rfl
@[simp] theorem State.alert_comp (b : Nat) : (s.alert b).comp = s.comp := rfl
@[simp] theorem State.alert_tdc (b : Nat) : (s.alert b).tdc = s.tdc := rfl
@[simp] theorem State.alert_stampStr (b : Nat) : (s.alert b).stampStr = s.stampStr := rfl
@[simp] theorem State.alert_pairer (b : Nat) : (s.alert b).pairer = s.pairer := rfl
@[simp] theorem State.alert_cross (b : Nat) : (s.alert b).cross = s.cross := rfl
@[simp] theorem State.alert_calSpans (b : Nat) : (s.alert b).calSpans = s.calSpans := rfl
@[simp] theorem State.alert_core (b : Nat) : (s.alert b).core = s.core := rfl
@[simp] theorem State.alert_dac (b : Nat) : (s.alert b).dac = s.dac := rfl
@[simp] theorem State.alert_level (b : Nat) : (s.alert b).level = s.level := rfl
@[simp] theorem State.alert_hk (b : Nat) : (s.alert b).hk = s.hk := rfl
@[simp] theorem State.alert_stack (b : Nat) : (s.alert b).stack = s.stack := rfl
@[simp] theorem State.alert_losses (b : Nat) : (s.alert b).losses = s.losses := rfl
@[simp] theorem State.alert_sent (b : Nat) : (s.alert b).sent = s.sent := rfl
@[simp] theorem State.alert_free (b : Nat) : (s.alert b).free = s.free := rfl
@[simp] theorem State.alert_pending (b : Nat) : (s.alert b).pending = s.pending := rfl

/-! ### setSto: a store that stays the same keeps its GENERATION (R259) -/
@[simp] theorem State.setSto_cad (n : Nat) (x : Store) : (s.setSto n x).cad = s.cad := by unfold State.setSto; split <;> rfl
@[simp] theorem State.setSto_clkOut (n : Nat) (x : Store) : (s.setSto n x).clkOut = s.clkOut := by unfold State.setSto; split <;> rfl
@[simp] theorem State.setSto_boot (n : Nat) (x : Store) : (s.setSto n x).boot = s.boot := by unfold State.setSto; split <;> rfl
@[simp] theorem State.setSto_mbox (n : Nat) (x : Store) : (s.setSto n x).mbox = s.mbox := by unfold State.setSto; split <;> rfl
@[simp] theorem State.setSto_cur (n : Nat) (x : Store) : (s.setSto n x).cur = s.cur := by unfold State.setSto; split <;> rfl
@[simp] theorem State.setSto_exh (n : Nat) (x : Store) : (s.setSto n x).exh = s.exh := by unfold State.setSto; split <;> rfl
@[simp] theorem State.setSto_streams (n : Nat) (x : Store) : (s.setSto n x).streams = s.streams := by unfold State.setSto; split <;> rfl
@[simp] theorem State.setSto_produced (n : Nat) (x : Store) : (s.setSto n x).produced = s.produced := by unfold State.setSto; split <;> rfl
@[simp] theorem State.setSto_chan (n : Nat) (x : Store) : (s.setSto n x).chan = s.chan := by unfold State.setSto; split <;> rfl
@[simp] theorem State.setSto_wing (n : Nat) (x : Store) : (s.setSto n x).wing = s.wing := by unfold State.setSto; split <;> rfl
@[simp] theorem State.setSto_mount (n : Nat) (x : Store) : (s.setSto n x).mount = s.mount := by unfold State.setSto; split <;> rfl
@[simp] theorem State.setSto_pow (n : Nat) (x : Store) : (s.setSto n x).pow = s.pow := by unfold State.setSto; split <;> rfl
@[simp] theorem State.setSto_health (n : Nat) (x : Store) : (s.setSto n x).health = s.health := by unfold State.setSto; split <;> rfl
@[simp] theorem State.setSto_gal (n : Nat) (x : Store) : (s.setSto n x).gal = s.gal := by unfold State.setSto; split <;> rfl
@[simp] theorem State.setSto_chain (n : Nat) (x : Store) : (s.setSto n x).chain = s.chain := by unfold State.setSto; split <;> rfl
@[simp] theorem State.setSto_pipe (n : Nat) (x : Store) : (s.setSto n x).pipe = s.pipe := by unfold State.setSto; split <;> rfl
@[simp] theorem State.setSto_sward (n : Nat) (x : Store) : (s.setSto n x).sward = s.sward := by unfold State.setSto; split <;> rfl
@[simp] theorem State.setSto_wram (n : Nat) (x : Store) : (s.setSto n x).wram = s.wram := by unfold State.setSto; split <;> rfl
@[simp] theorem State.setSto_mask (n : Nat) (x : Store) : (s.setSto n x).mask = s.mask := by unfold State.setSto; split <;> rfl
@[simp] theorem State.setSto_conc (n : Nat) (x : Store) : (s.setSto n x).conc = s.conc := by unfold State.setSto; split <;> rfl
@[simp] theorem State.setSto_trig (n : Nat) (x : Store) : (s.setSto n x).trig = s.trig := by unfold State.setSto; split <;> rfl
@[simp] theorem State.setSto_accession (n : Nat) (x : Store) : (s.setSto n x).accession = s.accession := by unfold State.setSto; split <;> rfl
@[simp] theorem State.setSto_lastEval (n : Nat) (x : Store) : (s.setSto n x).lastEval = s.lastEval := by unfold State.setSto; split <;> rfl
@[simp] theorem State.setSto_caps (n : Nat) (x : Store) : (s.setSto n x).caps = s.caps := by unfold State.setSto; split <;> rfl
@[simp] theorem State.setSto_lines (n : Nat) (x : Store) : (s.setSto n x).lines = s.lines := by unfold State.setSto; split <;> rfl
@[simp] theorem State.setSto_prog (n : Nat) (x : Store) : (s.setSto n x).prog = s.prog := by unfold State.setSto; split <;> rfl
@[simp] theorem State.setSto_merge (n : Nat) (x : Store) : (s.setSto n x).merge = s.merge := by unfold State.setSto; split <;> rfl
@[simp] theorem State.setSto_queue (n : Nat) (x : Store) : (s.setSto n x).queue = s.queue := by unfold State.setSto; split <;> rfl
@[simp] theorem State.setSto_archive (n : Nat) (x : Store) : (s.setSto n x).archive = s.archive := by unfold State.setSto; split <;> rfl
@[simp] theorem State.setSto_coll (n : Nat) (x : Store) : (s.setSto n x).coll = s.coll := by unfold State.setSto; split <;> rfl
@[simp] theorem State.setSto_comp (n : Nat) (x : Store) : (s.setSto n x).comp = s.comp := by unfold State.setSto; split <;> rfl
@[simp] theorem State.setSto_tdc (n : Nat) (x : Store) : (s.setSto n x).tdc = s.tdc := by unfold State.setSto; split <;> rfl
@[simp] theorem State.setSto_stampStr (n : Nat) (x : Store) : (s.setSto n x).stampStr = s.stampStr := by unfold State.setSto; split <;> rfl
@[simp] theorem State.setSto_pairer (n : Nat) (x : Store) : (s.setSto n x).pairer = s.pairer := by unfold State.setSto; split <;> rfl
@[simp] theorem State.setSto_cross (n : Nat) (x : Store) : (s.setSto n x).cross = s.cross := by unfold State.setSto; split <;> rfl
@[simp] theorem State.setSto_calSpans (n : Nat) (x : Store) : (s.setSto n x).calSpans = s.calSpans := by unfold State.setSto; split <;> rfl
@[simp] theorem State.setSto_core (n : Nat) (x : Store) : (s.setSto n x).core = s.core := by unfold State.setSto; split <;> rfl
@[simp] theorem State.setSto_dac (n : Nat) (x : Store) : (s.setSto n x).dac = s.dac := by unfold State.setSto; split <;> rfl
@[simp] theorem State.setSto_level (n : Nat) (x : Store) : (s.setSto n x).level = s.level := by unfold State.setSto; split <;> rfl
@[simp] theorem State.setSto_hk (n : Nat) (x : Store) : (s.setSto n x).hk = s.hk := by unfold State.setSto; split <;> rfl
@[simp] theorem State.setSto_stack (n : Nat) (x : Store) : (s.setSto n x).stack = s.stack := by unfold State.setSto; split <;> rfl
@[simp] theorem State.setSto_losses (n : Nat) (x : Store) : (s.setSto n x).losses = s.losses := by unfold State.setSto; split <;> rfl
@[simp] theorem State.setSto_sent (n : Nat) (x : Store) : (s.setSto n x).sent = s.sent := by unfold State.setSto; split <;> rfl
@[simp] theorem State.setSto_free (n : Nat) (x : Store) : (s.setSto n x).free = s.free := by unfold State.setSto; split <;> rfl
@[simp] theorem State.setSto_pending (n : Nat) (x : Store) : (s.setSto n x).pending = s.pending := by unfold State.setSto; split <;> rfl

end Sys2Proof.Machine
end

