-- ==== Sys2Proof/Laws/Table.lean ====
section
/-! SUPPORT. Reads after writes of keyed tables and of memories, and that every memory operation keeps the
canonical form. -/
namespace Sys2Proof.Machine

/-! ### Tables -/

theorem tfind_tset {α : Type} (t : Table α) (k j : Nat) (v : α) :
    tfind (tset t k v) j = if k = j then some v else tfind t j := by
  induction t with
  | nil => simp [tset, tfind]
  | cons e t ih =>
    obtain ⟨a, w⟩ := e
    by_cases h1 : k < a
    · simp [tset, h1, tfind]
    · by_cases h2 : a = k
      · subst h2; by_cases h3 : a = j <;> simp [tset, tfind, h3]
      · by_cases h3 : a = j
        · subst h3; simp [tset, h1, h2, tfind, show ¬ k = a by omega]
        · simp [tset, h1, h2, tfind, h3, ih]

@[simp] theorem tget_tset_self {α : Type} (d : α) (t : Table α) (k : Nat) (v : α) : tget d (tset t k v) k = v := by
  simp [tget, tfind_tset]

theorem tget_tset_other {α : Type} (d : α) (t : Table α) (k j : Nat) (v : α) (h : k ≠ j) :
    tget d (tset t k v) j = tget d t j := by
  simp [tget, tfind_tset, h]

/-! ### Memories -/

variable {w : Nat} (d : Nat → BitVec w)

theorem cellsFrom_mono {lo lo' : Nat} {m : Cells w} (h : lo' ≤ lo) (hm : cellsFrom d lo m = true) :
    cellsFrom d lo' m = true := by
  cases m with
  | nil => rfl
  | cons e m =>
    obtain ⟨a, v⟩ := e
    simp only [cellsFrom, Bool.and_eq_true, decide_eq_true_eq] at hm ⊢
    exact ⟨⟨by omega, hm.1.2⟩, hm.2⟩

theorem cellsFrom_cset {lo : Nat} {m : Cells w} (a : Nat) (v : BitVec w) (ha : lo ≤ a)
    (hm : cellsFrom d lo m = true) : cellsFrom d lo (cset d m a v) = true := by
  induction m generalizing lo with
  | nil => simp only [cset]; split_ifs with h <;> simp [cellsFrom, h, ha]
  | cons e m ih =>
    obtain ⟨b, x⟩ := e
    simp only [cellsFrom, Bool.and_eq_true, decide_eq_true_eq] at hm
    simp only [cset]
    split_ifs with h1 h2 h3 h4
    · simp [cellsFrom, hm]
    · simp only [cellsFrom, Bool.and_eq_true, decide_eq_true_eq]
      exact ⟨⟨ha, h2⟩, ⟨by omega, hm.1.2⟩, hm.2⟩
    · exact cellsFrom_mono d (by omega) hm.2
    · simp only [cellsFrom, Bool.and_eq_true, decide_eq_true_eq]
      exact ⟨⟨ha, h4⟩, h3 ▸ hm.2⟩
    · simp only [cellsFrom, Bool.and_eq_true, decide_eq_true_eq]
      exact ⟨hm.1, ih (by omega) hm.2⟩

/-- A write keeps the canonical form. -/
theorem cellsWf_cset (m : Cells w) (a : Nat) (v : BitVec w) (h : cellsWf d m = true) :
    cellsWf d (cset d m a v) = true := cellsFrom_cset d a v (Nat.zero_le a) h

theorem csetAll_cons (m : Cells w) (a : Nat) (v : BitVec w) (vs : List (BitVec w)) :
    csetAll d m a (v :: vs) = csetAll d (cset d m a v) (a + 1) vs := rfl

/-- Writes of consecutive cells keep the canonical form. -/
theorem cellsWf_csetAll (m : Cells w) (a : Nat) (vs : List (BitVec w)) (h : cellsWf d m = true) :
    cellsWf d (csetAll d m a vs) = true := by
  induction vs generalizing m a with
  | nil => exact h
  | cons v vs ih => rw [csetAll_cons]; exact ih _ _ (cellsWf_cset d m a v h)

theorem cellsFrom_ckeep {lo : Nat} (keep : Nat → Bool) {m : Cells w} (hm : cellsFrom d lo m = true) :
    cellsFrom d lo (ckeep keep m) = true := by
  induction m generalizing lo with
  | nil => rfl
  | cons e m ih =>
    obtain ⟨a, v⟩ := e
    simp only [cellsFrom, Bool.and_eq_true, decide_eq_true_eq] at hm
    have h2 := ih hm.2
    simp only [ckeep, List.filter_cons] at h2 ⊢
    split_ifs
    · simp only [cellsFrom, Bool.and_eq_true, decide_eq_true_eq]
      exact ⟨hm.1, h2⟩
    · exact cellsFrom_mono d (by omega) h2

/-- Dropping cells keeps the canonical form. -/
theorem cellsWf_ckeep (keep : Nat → Bool) (m : Cells w) (h : cellsWf d m = true) :
    cellsWf d (ckeep keep m) = true := cellsFrom_ckeep d keep h

theorem tfind_below {lo j : Nat} {m : Cells w} (hm : cellsFrom d lo m = true) (hj : j < lo) : tfind m j = none := by
  induction m generalizing lo with
  | nil => rfl
  | cons e m ih =>
    obtain ⟨a, v⟩ := e
    simp only [cellsFrom, Bool.and_eq_true, decide_eq_true_eq] at hm
    rw [tfind, if_neg (by omega), ih hm.2 (by omega)]

theorem tfind_cset_self {lo : Nat} {m : Cells w} (a : Nat) (v : BitVec w) (hm : cellsFrom d lo m = true) :
    (tfind (cset d m a v) a).getD (d a) = v := by
  induction m generalizing lo with
  | nil => by_cases h : v = d a <;> simp [cset, tfind, h]
  | cons e m ih =>
    obtain ⟨b, x⟩ := e
    simp only [cellsFrom, Bool.and_eq_true, decide_eq_true_eq] at hm
    by_cases h1 : a < b
    · by_cases h : v = d a
      · simp [cset, h1, h, tfind, show ¬ b = a by omega, tfind_below d hm.2 (show a < b + 1 by omega)]
      · simp [cset, h1, h, tfind]
    · by_cases h2 : b = a
      · subst h2
        by_cases h : v = d b
        · simp [cset, h, tfind_below d hm.2 (Nat.lt_succ_self b)]
        · simp [cset, h, tfind]
      · simp [cset, h1, h2, tfind, ih hm.2]

theorem tfind_cset_other (m : Cells w) (a j : Nat) (v : BitVec w) (hj : a ≠ j) :
    tfind (cset d m a v) j = tfind m j := by
  induction m with
  | nil => by_cases h : v = d a <;> simp [cset, tfind, h, hj]
  | cons e m ih =>
    obtain ⟨b, x⟩ := e
    by_cases h1 : a < b
    · by_cases h : v = d a <;> simp [cset, h1, h, tfind, hj]
    · by_cases h2 : b = a
      · subst h2
        by_cases h : v = d b <;> simp [cset, h, tfind, hj]
      · by_cases h3 : b = j
        · subst h3; simp [cset, h1, h2, tfind]
        · simp [cset, h1, h2, tfind, h3, ih]

/-- A read after a write of a memory in canonical form: the value written there, and every other cell as before. -/
theorem cget_cset (m : Cells w) (a j : Nat) (v : BitVec w) (h : cellsWf d m = true) :
    cget d (cset d m a v) j = if a = j then v else cget d m j := by
  by_cases hj : a = j
  · subst hj; simpa [cget, tget] using tfind_cset_self d a v h
  · simp [cget, tget, tfind_cset_other d m a j v hj, hj]

end Sys2Proof.Machine
end

