-- ==== Sys2Proof/Laws/Mailbox.lean ====
section
/-! SUPPORT. What one mailbox request does: taken as new and accepted, taken as new and refused, repeated. -/
namespace Sys2Proof.Machine

@[simp] theorem State.mb_setMb_self (s : State) (fn : Nat) (m : Mbox) : (s.setMb fn m).mb fn = m := by
  simp [State.mb]

theorem State.mb_setMb_other (s : State) (fn g : Nat) (m : Mbox) (h : fn ≠ g) : (s.setMb fn m).mb g = s.mb g := by
  simp [State.mb, tget_tset_other _ _ _ _ _ h]

@[simp] theorem State.mb_send (s : State) (x : Sent) (fn : Nat) : (s.send x).mb fn = s.mb fn := rfl

@[simp] theorem State.mb_tick (s : State) (t fn : Nat) : (s.tick t).mb fn = s.mb fn := rfl

/-- A vector message changes nothing but the pending bits of its function and what the device has sent. -/
theorem State.msix_frame (s : State) (fn v : Nat) :
    { s.msix fn v with mbox := s.mbox, sent := s.sent } = s ∧ s.sent <+: (s.msix fn v).sent ∧
      { (s.msix fn v).mb fn with pba := (s.mb fn).pba } = s.mb fn ∧ ∀ g, g ≠ fn → (s.msix fn v).mb g = s.mb g := by
  by_cases h : (s.mb fn).masked v = true
  · rw [State.msix]
    simp only [h, if_true]
    exact ⟨rfl, List.prefix_refl _, by rw [State.mb_setMb_self], fun g h => State.mb_setMb_other _ _ _ _ (Ne.symm h)⟩
  · rw [State.msix]
    simp only [h]
    exact ⟨rfl, List.prefix_append _ _, rfl, fun _ _ => rfl⟩

/-- The completion of R469 answers in the function's mailbox and changes nothing else but what has been sent. -/
theorem State.complete_frame (s : State) (fn : Nat) (p : Resp) (replay : Bool) (last : Nat) (st : Option Resp) :
    { s.complete fn p replay last st with mbox := s.mbox, sent := s.sent } = s ∧
      s.sent <+: (s.complete fn p replay last st).sent ∧
      ((s.complete fn p replay last st).mb fn).stored = st ∧ ((s.complete fn p replay last st).mb fn).lastSeq = last ∧
      ((s.complete fn p replay last st).mb fn).busy = false ∧
      ((s.complete fn p replay last st).mb fn).respValid = true ∧
      ∀ g, g ≠ fn → (s.complete fn p replay last st).mb g = s.mb g := by
  unfold State.complete
  dsimp only
  split_ifs
  all_goals
    obtain ⟨h1, h2, h3, h4⟩ := State.msix_frame (State.setMb _ fn _) fn 0
    have h5 := congrArg Mbox.stored h3
    have h6 := congrArg Mbox.lastSeq h3
    have h7 := congrArg Mbox.busy h3
    have h8 := congrArg Mbox.respValid h3
    simp only [State.mb_setMb_self] at h5 h6 h7 h8
    refine ⟨?_, List.IsPrefix.trans ?_ h2, h5, h6, h7, h8, fun g h => ?_⟩
  · have := congrArg (fun z : State => { z with mbox := s.mbox, sent := s.sent }) h1
    exact this
  · exact List.prefix_refl _
  · rw [h4 g h, State.mb_setMb_other _ _ _ _ (Ne.symm h)]
  · have := congrArg (fun z : State => { z with mbox := s.mbox, sent := s.sent }) h1
    exact this
  · exact List.prefix_append _ _
  · rw [h4 g h, State.mb_setMb_other _ _ _ _ (Ne.symm h)]; rfl

/-- The checks that every command shares pass on a fresh request. -/
theorem checked_fresh {op : Nat} {pf : Bool} {r : Req} {s : State} {body : State → Effect} (h : Fresh r s)
    (hpf : pf = true → r.fn = 0) {s' : State} {res : List Byte} (hb : body (s.tick r.t) = .ok (s', res))
    (hl : res.length ≤ 2016 ∨ r.respAddr ≠ 0) : checked op pf r (s.tick r.t) body = .ok (s', res) := by
  obtain ⟨h1, _, _, _, h5, h6, h7, h8⟩ := h
  have e2 : (!pf || r.fn == 0) = true := by cases pf <;> simp_all
  have e3 : (r.paramAddr == 0 || true) = true := by simp
  have e4 : res.length ≤ 2016 ∨ ¬r.respAddr = 0 := hl
  simp only [checked, State.tick_boot, h1, e2, hb, ensure, h5, h7, h8, e3]
  simp [bind, Except.bind, pure, Except.pure, e4, h6]

/-- The checks that every command shares leave a fresh request's refusal as its body gives it. -/
theorem checked_fresh_error {op : Nat} {pf : Bool} {r : Req} {s : State} {body : State → Effect} (h : Fresh r s)
    (hpf : pf = true → r.fn = 0) {e : Err} (hb : body (s.tick r.t) = .error e) :
    checked op pf r (s.tick r.t) body = .error e := by
  obtain ⟨h1, _, _, _, h5, h6, h7, h8⟩ := h
  have e2 : (!pf || r.fn == 0) = true := by cases pf <;> simp_all
  have e3 : (r.paramAddr == 0 || true) = true := by simp
  simp only [checked, State.tick_boot, h1, e2, hb, ensure, h5, h7, h8, e3]
  simp [bind, Except.bind, h6]

theorem accepting_fresh {r : Req} {s : State} (h : Fresh r s) : (s.tick r.t).accepting = true := by
  obtain ⟨h1, h2, h3, _⟩ := h
  simp [State.accepting, h1, h2, h3]

/-- A fresh request whose body accepts it: the body's state, and its answer. -/
theorem runWith_ok {onErr : Err → State → State} {op : Nat} {pf : Bool} {r : Req} {s : State} {body : State → Effect}
    (h : Fresh r s) (hpf : pf = true → r.fn = 0) {s' : State} {res : List Byte} (hb : body (s.tick r.t) = .ok (s', res))
    (hl : res.length ≤ 2016 ∨ r.respAddr ≠ 0) :
    runWith onErr op pf r s body =
      s'.complete r.fn (answer op r s eOk 0 res) false r.seq (some (answer op r s eOk 0 res)) := by
  simp only [runWith, accepting_fresh h, State.mb_tick, h.2.2.2.1, checked_fresh h hpf hb hl, Bool.not_true,
    Bool.false_eq_true, if_false, if_true, answer]

/-- A fresh request that its body refuses: what `onErr` leaves, and the answer. -/
theorem runWith_error {onErr : Err → State → State} {op : Nat} {pf : Bool} {r : Req} {s : State}
    {body : State → Effect} (h : Fresh r s) (hpf : pf = true → r.fn = 0) {e : Err}
    (hb : body (s.tick r.t) = .error e) :
    ∃ p : Resp, p = { answer op r s e.code e.detail e.result with addr := 0 } ∧
      runWith onErr op pf r s body = (onErr e (s.tick r.t)).complete r.fn p false r.seq (some p) := by
  refine ⟨_, rfl, ?_⟩
  simp only [runWith, accepting_fresh h, State.mb_tick, h.2.2.2.1, checked_fresh_error h hpf hb, Bool.not_true,
    Bool.false_eq_true, if_false, if_true, answer]

/-- A fresh request that its body accepts, said by what the next state holds. -/
theorem runCommand_ok {op : Nat} {pf : Bool} {r : Req} {s : State} {body : State → Effect} (h : Fresh r s)
    (hpf : pf = true → r.fn = 0) {s' : State} {res : List Byte} (hb : body (s.tick r.t) = .ok (s', res))
    (hl : res.length ≤ 2016 ∨ r.respAddr ≠ 0) :
    Answered op r s (runCommand op pf r s body) eOk 0 res ∧
      { runCommand op pf r s body with mbox := s'.mbox, sent := s'.sent } = s' ∧
      s'.sent <+: (runCommand op pf r s body).sent ∧
      ∀ g, g ≠ r.fn → (runCommand op pf r s body).mb g = s'.mb g := by
  have e : runCommand op pf r s body = _ := runWith_ok (onErr := fun _ s => s) h hpf hb hl
  rw [e]
  obtain ⟨h1, h2, h3, h4, h5, h6, h7⟩ := s'.complete_frame r.fn (answer op r s eOk 0 res) false r.seq
    (some (answer op r s eOk 0 res))
  exact ⟨⟨h3, h4, h5, h6⟩, h1, h2, h7⟩

end Sys2Proof.Machine
end

