-- ==== Sys2Proof/Laws/Events.lean ====
section
/-! SUPPORT. What posting an event can change, and the two ends of a chain of checks. -/
namespace Sys2Proof.Machine

theorem leaves_refl (a : State) : Leaves a a := rfl

theorem leaves_trans {a b c : State} (h : Leaves a b) (k : Leaves b c) : Leaves a c :=
  Eq.trans (congrArg (fun z : State => { z with mbox := a.mbox, sent := a.sent }) k) h

/-- The fields that the checks of a command read stand as before. -/
theorem leaves_at {a b : State} (h : Leaves a b) :
    b.boot = a.boot ∧ b.cur = a.cur ∧ b.exh = a.exh ∧ b.cad = a.cad ∧ b.gal = a.gal ∧ b.pow = a.pow := by
  have k (f : State → Prop) (hf : f a) : f { b with mbox := a.mbox, sent := a.sent } := Eq.symm h ▸ hf
  exact k (fun x => x.boot = a.boot ∧ x.cur = a.cur ∧ x.exh = a.exh ∧ x.cad = a.cad ∧ x.gal = a.gal ∧ x.pow = a.pow)
    ⟨rfl, rfl, rfl, rfl, rfl, rfl⟩

/-- Writing an event into its ring changes mailboxes and what has been sent, nothing else. -/
theorem State.writeEvent_frame (s : State) (e : Held) : Leaves s (s.writeEvent e) := by
  unfold State.writeEvent
  dsimp only
  exact congrArg (fun z : State => { z with mbox := s.mbox, sent := s.sent }) (State.msix_frame _ e.fn 1).1

/-- EV_EVENTS_LOST, where it is due, likewise. -/
theorem State.flushLost_frame (s : State) (f : Nat) : Leaves s (s.flushLost f) := by
  unfold State.flushLost
  dsimp only
  split_ifs
  · exact leaves_trans (b := s.setMb f _) rfl (State.writeEvent_frame _ _)
  · rfl

/-- Delivering an event, whether the ring takes it, counts it as lost or does not exist. -/
theorem State.deliverEvent_frame (s : State) (e : Held) : Leaves s (s.deliverEvent e) := by
  unfold State.deliverEvent
  dsimp only
  split_ifs
  · exact leaves_trans (State.flushLost_frame s _) (State.writeEvent_frame _ _)
  · exact leaves_trans (State.flushLost_frame s _) rfl

/-- Posting an event while the Curator runs. -/
theorem State.postTo_frame (s : State) (e : Held) (h : s.boot.st = 1) : Leaves s (s.postTo e) := by
  rw [State.postTo, if_neg (by rw [h]; decide)]
  exact State.deliverEvent_frame s e

/-- A chain of checks that ends well passed its first one. -/
theorem bind_ok {α β : Type} {x : Except Err α} {f : α → Except Err β} {b : β} (h : (x >>= f) = .ok b) :
    ∃ a, x = .ok a ∧ f a = .ok b := by
  cases x with
  | error e => cases h
  | ok a => exact ⟨a, rfl, h⟩

theorem ensure_ok {c : Bool} {k d : Nat} {a : Unit} (h : ensure c k d = .ok a) : c = true := by
  cases c with
  | false => cases h
  | true => rfl

end Sys2Proof.Machine
end

