-- ==== Sys2Proof/Laws/Programs.lean ====
section
/-! SUPPORT. What one instruction of an Attendant program does: everything its program's registers can show. -/
namespace Sys2Proof.Machine

theorem Prog.charge_runs {h : Nat} {i : Instr} {s : State} (hr : AttRuns h i s) :
    (s.tr h).prog.charge (s.view.gridK h) (s.tr h).prog.p =
      some { (s.tr h).prog with
        beat := beatOf (s.view.gridK h) (s.tr h).prog.p
        count := (s.tr h).prog.spent (s.view.gridK h) (s.tr h).prog.p + 1 } := by
  simp [Prog.charge, Nat.not_le.mpr hr.2]

/-- An instruction that runs changes its program's registers as its effect says, and nothing else. -/
theorem attExec_runs {h : Nat} {i : Instr} {s : State} (eff : Trig → Prog → Prog) (hr : AttRuns h i s) :
    attExec h i eff s = s.setProg h (eff (s.tr h) (attNext h s)) := by
  simp [attExec, hr.1, Prog.charge_runs hr, attNext]

/-- An instruction that is not the running program's next changes nothing. -/
theorem attExec_idle {h : Nat} {i : Instr} {s : State} (eff : Trig → Prog → Prog) (hr : attReady h i s = false) :
    attExec h i eff s = s := by
  simp [attExec, hr]

/-- A waiting instruction starts its wait and changes nothing else. -/
theorem attWait_runs {h : Nat} {i : Instr} {s : State} (hr : attReady h i s = true) :
    attWait h i s = s.setProg h { (s.tr h).prog with
      waiting := true
      pp := if (s.tr h).prog.first then (s.tr h).prog.p else (s.tr h).prog.p + 1 } := by
  simp [attWait, hr]

theorem attWait_idle {h : Nat} {i : Instr} {s : State} (hr : attReady h i s = false) : attWait h i s = s := by
  simp [attWait, hr]

end Sys2Proof.Machine
end

