-- ==== Sys2Proof/Laws/Status.lean ====
section
/-! SUPPORT. How many bytes each status block has: none but that of the archive grows with what the state holds, so each
fits the mailbox (R466). -/
namespace Sys2Proof.Machine

@[simp] theorem leBytes_length (k n : Nat) : (leBytes k n).length = k := by
  induction k generalizing n with
  | zero => rfl
  | succ k ih => simp [leBytes, ih]

@[simp] theorem fields_length (l : List (Nat × Nat)) : (fields l).length = (l.map (·.1)).sum := by
  simp [fields, List.length_flatMap]

@[simp] theorem zeros_length (n : Nat) : (zeros n).length = n := by simp [zeros]

@[simp] theorem padTo_length (n : Nat) (b : List Byte) : (padTo n b).length = n := by
  simp only [padTo, List.length_append, List.length_take, zeros_length]; omega

@[simp] theorem ctFields_size (t : CT) : ((ctFields t).map (·.1)).sum = 10 := by simp [ctFields]

@[simp] theorem lacBytes_length (l : List Rec) : (lacBytes l).length = 96 := by cases l <;> simp [lacBytes]

theorem deviceInfoBytes_length (s : State) (fn : Nat) : (deviceInfoBytes s fn).length = 64 := by simp [deviceInfoBytes]

theorem cadenceStatusBytes_length (s : State) : (cadenceStatusBytes s).length = 48 := by simp [cadenceStatusBytes]

theorem wingStatusBytes_length (s : State) (w : Nat) : (wingStatusBytes s w).length = 64 := by
  simp [wingStatusBytes, Function.comp_def]

theorem mountStatusBytes_length (s : State) (p : Nat) : (mountStatusBytes s p).length = 80 := by
  simp [mountStatusBytes, Function.comp_def]

theorem comparatorStatusBytes_length (s : State) : (comparatorStatusBytes s).length = 352 := by
  simp [comparatorStatusBytes, Function.comp_def]

theorem stimulusStatusBytes_length (s : State) (d : Nat) : (stimulusStatusBytes s d).length = 32 := by
  simp [stimulusStatusBytes]

theorem levelStatusBytes_length (s : State) (d : Nat) : (levelStatusBytes s d).length = 32 := by
  simp [levelStatusBytes]

theorem memoryStatusBytes_length (s : State) (k : Nat) : (memoryStatusBytes s k).length = 320 := by
  simp [memoryStatusBytes, List.length_flatMap]

theorem courierStatusBytes_length (s : State) (q : Nat) : (courierStatusBytes s q).length = 160 := by
  simp [courierStatusBytes, Function.comp_def]

theorem archiveStatusBytes_length (s : State) : (archiveStatusBytes s).length = 64 + 64 * s.arcD := by
  simp [archiveStatusBytes, List.length_flatMap]; omega

theorem collectionStatusBytes_length (s : State) : (collectionStatusBytes s).length = 64 := by
  simp [collectionStatusBytes]

theorem powerStatusBytes_length (s : State) : (powerStatusBytes s).length = 128 := by
  simp [powerStatusBytes, Function.comp_def]

theorem fwStatusBytes_length (b : Boot) : (fwStatusBytes b).length = 5 := by simp [fwStatusBytes]

theorem decimationStatusBytes_length (s : State) (h : Nat) : (decimationStatusBytes s h).length = 32 := by
  simp [decimationStatusBytes]

theorem spectrumStatusBytes_length (s : State) (h : Nat) : (spectrumStatusBytes s h).length = 32 := by
  simp [spectrumStatusBytes]

theorem triggerStatusBytes_length (s : State) (h : Nat) : (triggerStatusBytes s h).length = 32 := by
  simp [triggerStatusBytes]

theorem attendantStatusBytes_length (s : State) (h : Nat) : (attendantStatusBytes s h).length = 192 := by
  simp [attendantStatusBytes, Function.comp_def]

theorem conservatorStatusBytes_length (h c : Nat) (x : Core) : (conservatorStatusBytes h c x).length = 64 := by
  simp [conservatorStatusBytes]

theorem pageBytes_length (s : State) (n : Nat) : (pageBytes s n).length = 448 := by simp [pageBytes]

end Sys2Proof.Machine
end

