-- ==== Sys2Proof/Tests/Slice0.lean ====
section
/-! SUPPORT. The model's own tests: ill-formed terms that WellFormed refuses, program words written out from the manual, and
for each statement of Obligations.lean states and operands that meet the hypotheses of its clauses. -/
namespace Sys2Proof.Tests
open Sys2Proof Sys2Proof.Machine
set_option Elab.async false

/-! ### Small states and requests -/

/-- The device in STATE 1, nothing configured. -/
def up : State := { boot := { st := 1 } }

/-- A new request of PF0 with these parameter fields. -/
def rq (len : Nat) (p : List (Nat × Nat)) : Req :=
  { fn := 0, t := 0, seq := 1, len := len, rsv := 0, paramAddr := 0, respAddr := 0, params := fields p, memOk := true,
    payload := [], env := [] }

/-- The first commands of the mailbox, with this request. -/
def mails1 (r : Req) : List Instr :=
  [.deviceInfo r, .eventRingSet r, .blockStage r, .blockRead r, .stageDiscard r, .commit r, .commitCancel r, .exhibitDefine r,
   .exhibitDelete r, .exhibitQuery r, .exhibitAssign r, .cadenceStatus r, .clockSyncArm r, .wingStatus r, .mountStatus r,
   .mountRead r, .mountRelease r, .decimationStatus r]

/-- The next commands of the mailbox. -/
def mails2 (r : Req) : List Instr :=
  [.windowLoad r, .spectrumStatus r, .swardSnapshot r, .maskLoad r, .triggerArm r, .triggerForce r, .triggerStatus r,
   .attendantLoad r, .attendantStatus r, .storeStatus r, .storeRelease r, .storeLoad r, .conservatorLoad r,
   .conservatorParam r, .conservatorRead r, .conservatorStatus r, .comparatorClear r, .comparatorStatus r]

/-- The last commands of the mailbox. -/
def mails3 (r : Req) : List Instr :=
  [.stimulusStatus r, .levelStatus r, .hkInject r, .calStart r, .calStatus r, .memoryStatus r, .courierAssign r,
   .courierResume r, .courierStatus r, .archiveStatus r, .collectionForm r, .collectionDissolve r, .collectionStatus r,
   .powerStatus r, .fallowEnter r, .healthLogRead r, .fwStage r, .fwVerify r, .fwActivate r, .fwStatus r]

/-- Every command of the mailbox with this request. -/
def mails (r : Req) : List Instr := mails1 r ++ (mails2 r ++ mails3 r)

/-- Length of the result bytes of a refusal; none where the command is not refused. -/
def errLen (e : Effect) : Option Nat := match e with | .error x => some x.result.length | .ok _ => none

/-- The device with an anchored cadence. -/
def upA : State := { up with cad := { anchored := true, awaitAnchor := false } }

/-- Store 1023 of exhibit 47, a window Store of 16 MiB. -/
def stoBlk (mode : Nat) : List Byte := fields [(2, 1023), (1, 1), (1, mode), (2, 47), (1, 2), (1, 0), (4, 16), (4, 2), (4, 0), (4, 3), (8, 0)]

/-- A block of SOURCE `src` with INTERP 2^2 and a delay of 40 clocks. -/
def dacBlk (src : Nat) : List Byte := fields [(1, 7), (1, 1), (1, 0), (1, src), (1, 0), (1, 2), (2, 0), (2, 40), (2, 0), (4, 1), (8, 0), (8, 16)]

/-- A COLLECTION block of devices 0 and 1, in that order; this one is `i`. -/
def collBlk (i : Nat) : Block := ⟨btCollection, putU (putU (putU (defaultBlock btCollection []).data 0 1 i) 1 1 2) 9 1 1⟩

/-- Device `i` of a collection of two in STATE `st`, its own lanes locked. -/
def collS (i st : Nat) : State := { upA with
  cad := { anchored := true, awaitAnchor := false, synced := true },
  cur := { committed := [collBlk i] }, coll := { st := st, lanes := if i = 0 then [2, 3] else [0, 1] } }
/-! ### Ill-formed terms -/

/-- Each bound of a request. -/
theorem test_wf_refuses_requests : ∀ r ∈ [{ rq 0 [] with fn := 16 }, { rq 0 [] with seq := 2 ^ 32 }, { rq 0 [] with len := 2 ^ 32 },
    { rq 0 [] with paramAddr := 2 ^ 64 }, { rq 0 [] with respAddr := 2 ^ 64 }, rq 4 []], ∀ i ∈ mails r, wellFormed i = false := by
  decide +kernel

/-- Direct accesses and events of the host link. -/
def bad_accesses : List Instr :=
  [.registerWrite 16 0 4 0 0, .registerWrite 0 0 3 0 0, .registerWrite 0 (2 ^ 20) 4 0 0, .registerWrite 1 65536 4 0 0,
   .doorbellLostClear 16 0 false, .alertStatusClear 16 0 0, .eventConsumedWrite 16 0 0, .refusalsRead 16 0,
   .doorbellTail 16 0 0, .doorbellTail 0 64 0, .doorbellAck 16 0 0, .doorbellAck 0 64 0, .bar4Read 16 0 0 [] [] 0,
   .bar4Read 0 0 0 [] [(2, 0)] 0, .bar4Read 0 0 0 [⟨0, 0, 2, 0, 0, true⟩] [] 0, .throttleEnd 2 0, .throttleEnd 0 256,
   .refreshWindow 2, .descriptorFetch 64 (.data []), .bufferHandBack 64 [] [], .bufferHandBack 0 [(2, 0)] [],
   .bufferHandBack 0 [] [⟨0, 0, 0, 32, 0, true⟩], .flushTimeout 64, .irqHoldoffExpiry 64,
   .loadReadCompletion 64 (.data []), .drainTimeout 31, .chunkWrite [(2, 0)] [],
   .chunkWrite [] [⟨0, 0, 2, 0, 0, true⟩], .writeCompletion 32 0 0, .writeTimeout 32 0, .smartRead 32 0 0 0 0 0 0,
   .smartRead 0 256 0 0 0 0 0, .smartRead 0 0 256 0 0 0 0, .smartRead 0 0 0 256 0 0 0, .functionLevelReset 16 0,
   .linkRetrained 64 3]

theorem test_wf_refuses_accesses : ∀ i ∈ bad_accesses, wellFormed i = false := by decide +kernel

/-- Events of the cadence, the analysis and the units. -/
def bad_unit_events : List Instr :=
  [.cadMark ⟨2 ^ 48, 0, 0⟩, .cadMark ⟨0, 65536, 0⟩, .cadMark ⟨0, 0, 65536⟩, .markMissing (2 ^ 48),
   .refReturned 0 32768, .refReturned 0 (-32769), .lockWindowEnd 5 0 0, .pllUnlock 5 0,
   .scheduleConditionTime 65536 0 ⟨0, 0, 0⟩, .scheduleConditionTime 0 32 ⟨0, 0, 0⟩,
   .scheduleConditionTime 0 0 ⟨0, 65536, 0⟩, .pendingFadeStart 65536 0, .fftFrame 65536 0 0 [],
   .fftFrame 0 0 0 [⟨2048, false, false⟩], .triggerEvaluate 65536 0 [] 0, .triggerEvaluate 0 0 [⟨32, 0, 0⟩] 0, .holdoffEnd 65536 0,
   .stimulusTake 8 0, .playbackDone 8 0, .levelTick 16 0, .gleanStep 48 0 ⟨0, 0, 0, 0, 0, 0, 0, 0, 0⟩ 0,
   .livenessFail 48 0 0, .livenessFail 0 17 0, .rotationBoundary 48 0, .driftCheck 48 0 0, .mountPresence 12 true 0,
   .mountReadDone 12 [] 0, .mountReadDone 0 [⟨true, 0, 0, false, zeros 513⟩] 0, .mountCorrectionApply 12 0,
   .overdrive 48 ⟨0, 0⟩ 0, .elementArrival 32 0 0 0 [], .elementArrival 0 8 0 0 [], .elementArrival 0 0 0 0 [⟨-2049, false, false⟩],
   .writeBack 12 [] 0, .crossing 64 false 0 none, .armingEnd 64 0, .latchClearBoundary 64 ⟨0, 0, 0⟩,
   .latchClearBoundary 0 ⟨0, 65536, 0⟩, .crossingsPeriodEnd 65536 0 ⟨0, 0, 0⟩, .crossingsPeriodEnd 0 255 ⟨0, 0, 0⟩,
   .crossingsPeriodEnd 0 0 ⟨0, 65536, 0⟩, .tdcEdge 93 false 0 0, .pair 16 0 false 0, .pair 0 93 false 0,
   .orderWindowExpiry 16, .stampFlush 65536 0 none ⟨0, 0, 0⟩, .stampFlush 0 255 none ⟨0, 0, 0⟩,
   .stampFlush 0 0 (some 16) ⟨0, 0, 0⟩, .stampFlush 0 0 none ⟨0, 65536, 0⟩, .conversionEnd 2 0 0,
   .calWindowEnd 0 ⟨[], List.replicate 18 0, List.replicate 16 0, 0⟩, .calWindowEnd 0 ⟨[0, 0], [], [], 0⟩,
   .scrubRead 2 0 ⟨List.replicate 8 0, []⟩ none, .scrubRead 0 32 ⟨List.replicate 8 0, []⟩ none, .scrubRead 0 0 ⟨[], []⟩ none,
   .scrubRead 0 0 ⟨List.replicate 8 0, [(2, 0)]⟩ none]

theorem test_wf_refuses_unit_events : ∀ i ∈ bad_unit_events, wellFormed i = false := by decide +kernel

/-- Events of the stacks, Stores, collections, power and start-up. -/
def bad_device_events : List Instr :=
  [.retrainStart 2 0 0, .retrainStart 0 32 0, .retrainDone 2 0 [], .retrainDone 0 32 [],
   .retrainDone 0 0 [⟨5, false, []⟩], .retrainDone 0 0 [⟨0, false, List.replicate 4 0⟩], .rebuildDone 2 0,
   .rebuildDone 0 32, .relocationDone 2, .recordWrite ⟨.raw 65536 0 [], []⟩,
   .recordWrite ⟨.raw 0 0 [⟨2048, false, false⟩], []⟩, .recordWrite ⟨.queued, [(2, 0)]⟩,
   .recordWrite ⟨.iq 65536 0 0 0 0 [], []⟩, .recordWrite ⟨.iq 0 3 0 0 0 [], []⟩, .recordWrite ⟨.ofStream 65536 0, []⟩,
   .recordWrite ⟨.ofStream 0 255, []⟩, .captureArrival 1024 0 0, .messageSend 2 0, .echo 0 0 4 0 0, .laneLock 4 0,
   .laneLoss 4 [] 0, .laneLoss 0 [16] 0, .leaveStart 16 0 ⟨0, []⟩, .domainPowerDown 31 0, .domainFault 31 0,
   .domainResume 31 ⟨0, []⟩, .galleryFailure 9 0, .warmupStart 8 0, .migrationSwitch 8 0, .fallowWake false [(2, 0, ⟨0, false, List.replicate 8 0⟩)],
   .fallowWake false [(0, 32, ⟨0, false, List.replicate 8 0⟩)], .fallowWake false [(0, 0, ⟨0, false, []⟩)],
   .suppliesGood ⟨[], [(2, 0, ⟨0, false, List.replicate 8 0⟩)], [], []⟩, .suppliesGood ⟨[3], [], [], []⟩, .coldReset 4 false, .uncorrectableWord 5 0 0 0]

theorem test_wf_refuses_device_events : (∀ i ∈ bad_device_events, wellFormed i = false) ∧
    wellFormed (.trigOutPulseEnd 8 0) = false := by decide +kernel
/-! ### Program words and running programs (09, 11) -/

/-- Words of R249 and of the worked example of chapter 09, written out from the opcode table. -/
theorem test_decode_attendant_words : attDecode 5 0x40000000 = some (.waitc 5 0 0 0 false) ∧
    attDecode 5 0x60000002 = some (.tset 5 0 2) ∧ attDecode 5 0x70000002 = some (.ldk 5 0 2) ∧
    attDecode 5 0x40080000 = some (.waitc 5 0 0 0 true) ∧ attDecode 5 0x00000000 = some (.attendantNop 5) ∧
    attDecode 5 0x04000000 = some (.attendantHalt 5) ∧ attDecode 5 0xFC000000 = none := by decide +kernel

/-- Words of R319, written out from the opcode table: NOP, HALT, JMP 0, and a reserved opcode. -/
theorem test_decode_conservator_words : consDecode 3 0x00000000 = some (.nop 3) ∧ consDecode 3 0x04000000 = some (.halt 3) ∧
    consDecode 3 0x08000005 = some (.jmp 3 0 5) ∧ consDecode 3 0x20000000 = some (.ei 3) ∧
    consDecode 3 0xFC000000 = none := by decide +kernel

/-- The trigger of exhibit 0 with `i` as word 0 of its program, running. -/
def attS (i : Instr) (f : Trig → Trig) : State :=
  { up with trig := [(0, f { cfg := { words := [(0, BitVec.ofNat 32 ((attEncode i).getD 0))] }, prog := { st := 1 } })] }

/-- Instructions of the Attendant that do not wait. -/
def attIs : List Instr :=
  [.attendantNop 0, .attendantHalt 0, .attendantJmp 0 255, .jct 0 31 0, .jcf 0 0 1, .jany 0 3 2, .jall 0 0 3, .jz 0 15 4,
   .jnz 0 0 5, .jlt 0 0 15 6, .jto 0 7, .jst 0 0 8, .jst 0 1 9, .jst 0 2 10, .tset 0 7 65535, .tsetk 0 0 15, .tclr 0 7,
   .ldk 0 15 65535, .addk 0 0 0x8000, .ldml 0 3 0xFFFF, .ldmh 0 0 1, .act 0 3, .fire 0 0]

theorem hyp_attendant_runs : ∀ i ∈ attIs, AttRuns 0 i (attS i id) := by decide +kernel

/-- JANY and JALL: no condition true, or one of the mask; ADDK at both ends. -/
theorem hyp_attendant_tests :
    ((attS (.jany 0 3 2) id).tr 0).bits = 0 ∧ (((attS (.jall 0 0 3) id).tr 0).prog.mv 0) = 0 ∧
    (((attS (.addk 0 0 0x8000) id).tr 0).prog.kv 0 : Int) + (0x8000#16).toInt < 0 ∧
    (attS (.addk 0 0 1) fun x => { x with prog := { x.prog with k := [0xFFFFFFFF] } } : State).trig.length = 1 := by
  decide +kernel

/-- A waiting instruction begins: each of the four, and reserved modes aside. -/
theorem hyp_attendant_waits : ∀ i ∈ ([.waitc 0 31 2 7 true, .waitm 0 3 1 0 false, .waitt 0 7, .waitn 0 65535] : List Instr),
    attReady 0 i (attS i id) = true := by decide +kernel

/-- A wait that ends at sample 9: its own end, and the timer's. -/
def waitS (i : Instr) : State :=
  attS i fun x => { x with next := 10, prog := { x.prog with waiting := true, p := 4, t := [some 9] } }

theorem hyp_wait_ends : (∀ i ∈ ([.waitn 0 5, .waitt 0 0, .waitc 0 0 0 0 true] : List Instr),
      ((waitS i).tr 0).prog.st = 1 ∧ ((waitS i).tr 0).prog.waiting = true ∧ ((waitS i).tr 0).next = 9 + 1 ∧
      ((waitS i).tr 0).prog.pp ≤ 9 ∧ ((waitS i).tr 0).prog.spent ((waitS i).view.gridK 0) 9 < 16 ∧
      attEncode i = some ((waitS i).tr 0).word) ∧
    ((waitS (.waitn 0 5)).tr 0).prog.p + 5 ≤ 9 ∧ ((waitS (.waitt 0 0)).tr 0).prog.t.getD 0 none = some 9 ∧
    ((waitS (.waitc 0 0 0 0 true)).tr 0).waitTest = false ∧ ((waitS (.waitc 0 0 2 0 true)).tr 0).waitTest = true := by
  decide +kernel

/-- FIRE: a first one while armed, in hold-off, a second one; and the 17th instruction of a beat. -/
theorem hyp_fire : ((attS (.fire 0 0) fun x => { x with arm := 1 }).tr 0).arm ≠ 0 ∧
    ((attS (.fire 0 0) fun x => { x with arm := 1 }).tr 0).held 0 = false ∧
    ((attS (.fire 0 0) fun x => { x with arm := 1 }).tr 0).busy 0 = false ∧
    ((attS (.fire 0 0) fun x => { x with arm := 1 }).tr 0).prog.fired ≠ some 0 ∧
    AttRuns 0 (.fire 0 0) (attS (.fire 0 0) fun x => { x with arm := 1, holdEnd := some 1 }) ∧
    ((attS (.fire 0 0) fun x => { x with arm := 1, holdEnd := some 1 }).tr 0).held 0 = true ∧
    attReady 0 (.fire 0 0) (attS (.fire 0 0) fun x => { x with prog := { x.prog with count := 16 } }) = true ∧
    16 ≤ ((attS (.fire 0 0) fun x => { x with prog := { x.prog with count := 16 } }).tr 0).prog.spent 1 0 := by decide +kernel

/-- Core 0 running, with `i` as word 0 of its program. -/
def consS (i : Instr) (f : Core → Core) : State :=
  { up with core := [(0, f { st := 1, prog := [(0, BitVec.ofNat 32 ((consEncode i).getD 0))] })] }

/-- Operand fields at the ends of their ranges. -/
def fm : FmtM := ⟨2, 3, true, 3, true, true, true, false, 0, false, 0, true⟩

/-- The first instructions of a core. -/
def consIs1 : List Instr :=
  [.ld 0 7 true 7 3, .st 0 0 false 0 0, .ldi 0 7 true 0x3FFFF, .ldpg 0 7 255, .mov 0 7 0, .mov 0 50 0, .setr 0 16 0xFFFF,
   .setr 0 53 0, .modp 0 7 0x8000, .addi 0 7 0x20000, .logd 0 7 7 3, .nop 0, .ei 0, .di 0, .halt 0, .jmp 0 7 16383,
   .call 0 0 0, .ret 0 0, .reti 0, .loop 0 15 0, .loopd 0 0 7]

/-- The other instructions of a core. -/
def consIs2 : List Instr :=
  [.mpy 0 fm, .mac 0 fm, .msu 0 fm, .cmpy 0 fm, .cmac 0 fm, .cmsu 0 fm, .qmpy 0 { fm with a := 0, conj := false },
   .qmac 0 { fm with a := 0, conj := false }, .sta 0 ⟨3, false, true, 7, 3, true, false, 31⟩, .sta 0 ⟨3, true, false, 7, 0, false, true, 0⟩,
   .csta 0 ⟨2, true, false, 7, 0, false, false, 0⟩, .csta 0 ⟨0, false, true, 0, 0, false, false, 31⟩, .adda 0 3 3 true,
   .addd 0 0 7 2 false, .addd 0 0 7 3 true, .sha 0 3 0x20, .clra 0 0xF, .cmpa 0 3 0 true, .maxa 0 0 3 true, .inp 0 7 7,
   .idx 0 0 0, .clrf 0 3, .recOpen 0 7, .recData 0 7, .recTime 0 7, .outStim 0 7 1, .sig 0 7]
theorem hyp_cores_ready : (∀ i ∈ consIs1, consReady 0 i (consS i id) = true) ∧ (∀ i ∈ consIs2, consReady 0 i (consS i id) = true) ∧
    consReady 0 (.close 0 7) (consS (.close 0 7) id) = true ∧ (seen 0 (consS (.nop 0) id)).cur.acc.length = 4 ∧
    (seen 0 (consS (.nop 0) id)).cur.d.length = 8 := by decide +kernel

/-- Pointer modes; a ring of 8; accumulators at and past the ends of their range. -/
theorem hyp_pointers_and_accumulators : bitsOf (({ am := 0xE4 } : Bank)).am.toNat (2 * 0) 2 = 0 ∧
    bitsOf (({ am := 0xE4 } : Bank)).am.toNat (2 * 3) 2 = 3 ∧ bitsOf (({ am := 0xE4 } : Bank)).am.toNat (2 * 1) 2 = 1 ∧
    bitsOf (({ am := 0xE4 } : Bank)).am.toNat (2 * 2) 2 = 2 ∧
    (({ am := 0xE4, ln := [0, 1, 8] } : Bank).ln.getD 1 0).toNat ≠ 0 ∧ ({ ln := [0, 0, 8] } : Bank).ln.getD 2 0 = 8 ∧
    ({} : Bank).bs.getD 2 0 = 0 ∧ ({ pt := [0, 0, 7] } : Bank).pt.getD 2 0 = 7 ∧
    -(2 ^ 43 - 1 : Int) ≤ 2 ^ 43 - 1 ∧ (2 ^ 43 - 1 : Int) < 2 ^ 43 ∧ -(2 ^ 43 : Int) < -(2 ^ 43 - 1) := by decide +kernel

/-- A store and a load of the same word, one after the other. -/
def stLd : State := consS (.st 0 0 false 0 0) fun x => { x with prog := x.prog ++ [(1, BitVec.ofNat 32 ((consEncode (.ld 0 1 false 0 0)).getD 0))] }
/-- The state between the two. -/
def stLd' : State := match exec (.st 0 0 false 0 0) stLd with | .next t => t | _ => up

theorem hyp_load_after_store : cellsWf word36 (seen 0 stLd).x = true ∧ consReady 0 (.st 0 0 false 0 0) stLd = true ∧
    (seen 0 stLd').bank = (seen 0 stLd).bank ∧
    consReady 0 (.ld 0 1 false 0 0) stLd' = true ∧ (seen 0 stLd').cur.addr 0 = (seen 0 stLd).cur.addr 0 := by decide +kernel

theorem hyp_load_after_store_runs : exec (.st 0 0 false 0 0) stLd = .next stLd' := rfl

/-- Shifts of both signs; parts of ADDD; stores to a register and to memory, of a word and of a half. -/
theorem hyp_core_operands : (0 : Int) ≤ (0x1F#6).toInt ∧ (0x20#6).toInt < 0 ∧
    (∀ f ∈ ([⟨3, false, true, 7, 3, true, false, 31⟩, ⟨3, false, false, 0, 0, false, true, 0⟩, ⟨0, true, false, 7, 0, true, false, 0⟩,
      ⟨0, true, false, 0, 0, false, true, 31⟩] : List StaF), consReady 0 (.sta 0 f) (consS (.sta 0 f) id) = true) ∧
    (∀ p ∈ [0, 1, 2, 3], consReady 0 (.addd 0 3 7 p true) (consS (.addd 0 3 7 p true) id) = true) := by decide +kernel

/-- Calls, loops and their limits; a handler's return; a counted loop and one that is skipped. -/
theorem hyp_core_control : (seen 0 (consS (.call 0 0 0) id)).cur.cond 0 = true ∧
    (seen 0 (consS (.call 0 0 0) fun x => { x with fg := { x.fg with calls := [1, 2, 3] } })).cur.calls.length < 4 ∧
    4 ≤ (seen 0 (consS (.call 0 0 0) fun x => { x with fg := { x.fg with calls := [1, 2, 3, 4] } })).cur.calls.length ∧
    (seen 0 (consS (.call 0 1 0) id)).cur.cond 1 = false ∧ consReady 0 (.call 0 1 0) (consS (.call 0 1 0) id) = true ∧
    (seen 0 (consS (.ret 0 1) id)).cur.cond 1 = false ∧ consReady 0 (.ret 0 1) (consS (.ret 0 1) id) = true ∧
    (seen 0 (consS (.ret 0 0) id)).cur.calls = [] ∧
    (seen 0 (consS (.ret 0 0) fun x => { x with fg := { x.fg with calls := [9] } })).cur.calls = [9] ∧
    consReady 0 (.reti 0) (consS (.reti 0) fun x => { x with bank := true }) = true ∧
    (seen 0 (consS (.reti 0) fun x => { x with bank := true })).bank = true ∧
    (seen 0 (consS (.reti 0) id)).bank = false ∧
    (seen 0 (consS (.loop 0 15 0) fun x => { x with fg := { x.fg with loops := List.replicate 3 ⟨0, 9, 2⟩ } })).cur.loops.length < 4 ∧
    4 ≤ (seen 0 (consS (.loop 0 15 0) fun x => { x with fg := { x.fg with loops := List.replicate 4 ⟨0, 9, 2⟩ } })).cur.loops.length ∧
    ((seen 0 (consS (.loopd 0 0 7) id)).cur.dv 7).toNat % 2 ^ 20 = 0 ∧
    ((seen 0 (consS (.loopd 0 0 7) fun x => { x with fg := { x.fg with d := List.replicate 8 0xFFFFF } })).cur.dv 7).toNat % 2 ^ 20 ≠ 0 ∧
    (seen 0 (consS (.recData 0 7) id)).cur.opened = none ∧ ({} : Bank).branch = [] ∧ ({} : Bank).loops = [] := by decide +kernel

/-- A core with an element in port 7, a stalled IN, and ports of kind 1 that are empty and full. -/
def portS (n : Nat) (k : Nat) : State :=
  consS (.inp 0 7 7) fun x => { x with
    blk := zeros (32 + 16 * 7) ++ [1#8], fg := { x.fg with stall := k }, ports := List.replicate 7 {} ++ [{ elems := List.replicate n ⟨5, 6, 0⟩ }] }

theorem hyp_input_ports : 7 < ((portS 1 0).cc 0).ports.length ∧ consReady 0 (.inp 0 7 7) (portS 1 0) = true ∧
    (((portS 1 0).cc 0).port 7).elems = [⟨5, 6, 0⟩] ∧ (((portS 0 0).cc 0).port 7).elems = [] ∧
    ((portS 1 1).cc 0).st = 1 ∧ ((portS 1 1).cc 0).cur.stall = 1 ∧ swapDue (portS 1 1) 0 ((portS 1 1).cc 0) = false ∧
    bitsOf ((portS 1 1).cc 0).word 23 3 = 7 ∧ bitsOf ((portS 1 1).cc 0).word 20 3 = 7 ∧
    (((portS 1 1).cc 0).port 7).elems = [⟨5, 6, 0⟩] ∧ (∀ n ∈ [255, 256], ((portS n 0).cc 0).kind 7 ≠ 0 ∧
      (nextElement (portS n 0) 0 ((portS n 0).cc 0) 7 0 0 []).isSome) ∧
    (((portS 255 0).cc 0).port 7).elems.length < 256 ∧ 256 ≤ (((portS 256 0).cc 0).port 7).elems.length := by decide +kernel

/-- An open record with words and credit, or without credit; its word opens or closes. -/
def recS (i : Instr) (w : DWord) (o : Option OpenRec) (credit stall : Nat) : State :=
  consS i fun x => { x with
    blk := zeros 8 ++ [0#8], credit := credit, fg := { x.fg with d := List.replicate 8 w, opened := o, stall := stall } }

theorem hyp_records : bitsOf (0x420000000#36).toNat 34 2 = 1 ∧ getU ((recS (.recOpen 0 7) 0x420000000 none 0 0).cc 0).blk (8 + 0) 1 ≠ 0xFF ∧
    [2, 4, 5, 7, 8].contains (bitsOf (0x420000000#36).toNat 28 4) = true ∧
    consReady 0 (.recOpen 0 7) (recS (.recOpen 0 7) 0x420000000 none 0 0) = true ∧
    (seen 0 (recS (.recOpen 0 7) 0x420000000 none 0 0)).cur.opened = none ∧
    (seen 0 (recS (.recData 0 7) 0 (some ⟨0, 2, 0, [0, 0], none, none⟩) 0 0)).cur.opened = some ⟨0, 2, 0, [0, 0], none, none⟩ ∧
    4 * ([0#32, 0].length + 1) ≤ 16288 ∧ 4 * (4071 + 1) ≤ 16288 ∧
    consReady 0 (.close 0 7) (recS (.close 0 7) 0x800000000 (some ⟨0, 2, 0, [0], none, none⟩) 16384 0) = true ∧
    bitsOf (0x800000000#36).toNat 34 2 = 2 ∧ consElem 2 = some 4 ∧ 4 * [0#32].length % 4 = 0 ∧
    consLength [0#32].length * 256 ≤ (seen 0 (recS (.close 0 7) 0x800000000 (some ⟨0, 2, 0, [0], none, none⟩) 32768 0)).credit ∧
    (seen 0 (recS (.close 0 7) 0x800000000 (some ⟨0, 2, 0, [0], none, none⟩) 1 0)).credit < consLength [0#32].length * 256 ∧
    ((recS (.close 0 7) 0 (some ⟨0, 2, 0, [0], none, none⟩) 65536 3).cc 0).cur.stall = 3 ∧
    consLength [0#32].length * 256 ≤ 65536 + 0 * 0 := by decide +kernel

/-- Stimulus ports that have room, are full, or feed no DAC; a full port whose OUT is stalled; SIG of an event and of none. -/
def stimS (i : Instr) (n : Nat) (w : DWord) (dac : Byte) (stall : Nat) : State :=
  consS i fun x => { x with
    blk := zeros 14 ++ [dac, dac], stim := [[], List.replicate n ⟨0, 0⟩], fg := { x.fg with d := List.replicate 8 w, stall := stall } }

theorem hyp_core_outputs : 1 < (seen 0 (stimS (.outStim 0 7 1) 255 0 0 0)).stim.length ∧
    getU (seen 0 (stimS (.outStim 0 7 1) 255 0 0 0)).blk (14 + 1) 1 ≠ 0xFF ∧
    ((seen 0 (stimS (.outStim 0 7 1) 255 0 0 0)).stimPort 1).length < 256 ∧
    consReady 0 (.outStim 0 7 1) (stimS (.outStim 0 7 1) 255 0 0 0) = true ∧
    getU (seen 0 (stimS (.outStim 0 7 1) 0 0 0xFF 0)).blk (14 + 1) 1 = 0xFF ∧
    256 ≤ (((stimS (.outStim 0 7 1) 256 0 0 0).cc 0).stimPort 1).length ∧
    ((stimS (.outStim 0 7 1) 255 0 0 2).cc 0).cur.stall = 2 ∧
    bitsOf ((stimS (.outStim 0 7 1) 255 0 0 2).cc 0).word 20 3 = 1 + 3 ∧
    ((seen 0 (stimS (.sig 0 7) 0 0x100 0 0)).cur.dv 7).toNat % 256 = 0 ∧
    ((seen 0 (stimS (.sig 0 7) 0 0x0FF 0 0)).cur.dv 7).toNat % 256 ≠ 0 ∧ up.coll.trgQ.length < 64 := by decide +kernel

/-- A core that owes an interrupt, and cores whose page is due at once: with and without a halt. -/
theorem hyp_core_events : ((consS (.nop 0) fun x => { x with irq := true }).cc 0).irq = true ∧
    swapDue (consS (.nop 0) fun x => { x with irq := true }) 0 ((consS (.nop 0) fun x => { x with irq := true }).cc 0) = false ∧
    (∀ h ∈ [true, false], swapDue (consS (.nop 0) fun x => { x with swaps := [⟨0, [], h⟩] }) 0
      ((consS (.nop 0) fun x => { x with swaps := [⟨0, [], h⟩] }).cc 0) = true) := by decide +kernel


/-- Program instructions with a field that its encoding does not hold, an exhibit or a core that does not exist. -/
def bad_program_words : List Instr :=
  [.attendantNop 65536, .attendantHalt 65536, .attendantJmp 0 256, .jct 0 32 0, .jcf 0 0 256, .jany 0 4 0, .jall 0 4 0, .jz 0 16 0,
   .jnz 0 16 0, .jlt 0 0 16 0, .jto 0 256, .jst 0 4 0, .waitc 0 32 0 0 false, .waitm 0 4 0 0 false, .waitt 0 8, .waitn 0 65536,
   .tset 0 8 0, .tsetk 0 0 16, .tclr 0 8, .ldk 0 16 0, .addk 0 16 0, .ldml 0 4 0, .ldmh 0 4 0, .act 0 4, .fire 65536 0, .waitEnd 65536 0]

/-- The first instructions of a core. -/
def bad_core_words1 : List Instr :=
  [.nop 32, .halt 32, .jmp 0 8 0, .call 0 0 16384, .ret 0 8, .reti 32, .loop 0 0 65536, .loopd 0 0 8, .ei 32, .di 32,
   .ld 0 8 false 0 0, .st 0 0 false 8 0, .ldi 0 8 false 0, .mov 0 64 0, .ldpg 0 0 256, .setr 0 64 0, .modp 0 8 0, .addi 0 8 0,
   .logd 0 0 0 4, .inp 0 8 0, .idx 0 0 8, .recOpen 0 8, .recData 0 8, .recTime 0 8, .close 0 8, .outStim 0 0 2, .sig 0 8,
   .inStallEnd 32 0, .creditStallEnd 32 0, .stimStallEnd 32 0, .interruptEntry 32 0, .pageSwap 32, .elementArrival 0 8 0 0 []]

/-- The other instructions of a core. -/
def bad_core_words2 : List Instr :=
  [.mpy 0 { fm with a := 4 }, .mac 0 { fm with xp := 4 }, .msu 0 { fm with yp := 4 }, .cmpy 0 { fm with xd := 8 },
   .cmac 0 { fm with yd := 8 }, .cmsu 32 fm, .qmpy 0 { fm with yd := 8 }, .qmac 32 fm, .sta 0 ⟨4, false, true, 7, 3, true, false, 31⟩,
   .csta 0 ⟨3, true, false, 8, 0, false, true, 0⟩, .adda 0 4 0 false, .addd 0 0 0 4 false, .sha 0 4 0, .clra 32 0, .cmpa 0 4 0 true,
   .maxa 0 0 4 true, .clrf 32 0]

theorem test_wf_refuses_program_words : (∀ i ∈ bad_program_words, wellFormed i = false) ∧ (∀ i ∈ bad_core_words1, wellFormed i = false) ∧
    (∀ i ∈ bad_core_words2, wellFormed i = false) := by decide +kernel

/-! ### The mailbox (17) -/

theorem hyp_refused : (∃ op r body, mailRow (.storeStatus (rq 8 [(2, 1024)])) = some (op, false, r, body) ∧ Fresh r up ∧
      errLen (body (up.tick r.t)) = some 0) ∧
    ∃ op r body, mailRow (.clockSyncArm { rq 0 [] with fn := 15 }) = some (op, true, r, body) ∧ Fresh r up ∧ r.fn ≠ 0 :=
  ⟨⟨_, _, _, rfl, by decide +kernel⟩, _, _, _, rfl, by decide +kernel, by decide⟩

/-- PF0 has run command 2^32 - 1 and holds its response. -/
def seqS : State := { up with mbox := [(0, { lastSeq := 2 ^ 32 - 1, stored := some {} })] }

theorem hyp_sequence_numbers : (∃ op pf r body, mailRow (.deviceInfo { rq 0 [] with seq := 2 ^ 32 - 1 }) = some (op, pf, r, body) ∧
      (seqS.tick r.t).accepting = true ∧ r.seq = (seqS.mb r.fn).lastSeq ∧ r.seq < 2 ^ 32 ∧ (seqS.mb r.fn).stored = some {}) ∧
    (∃ op pf r body, mailRow (.deviceInfo { rq 0 [] with seq := 1 }) = some (op, pf, r, body) ∧
      (seqS.tick r.t).accepting = true ∧ r.seq ≠ (seqS.mb r.fn).lastSeq ∧ r.seq ≠ ((seqS.mb r.fn).lastSeq + 1) % 2 ^ 32) ∧
    (∃ op pf r body, mailRow (.deviceInfo { rq 0 [] with seq := 0 }) = some (op, pf, r, body) ∧
      (seqS.tick r.t).accepting = true ∧ r.seq = ((seqS.mb r.fn).lastSeq + 1) % 2 ^ 32) ∧ seqS.boot.strapPerst = false :=
  ⟨⟨_, _, _, _, rfl, by decide +kernel⟩, ⟨_, _, _, _, rfl, by decide +kernel⟩, ⟨_, _, _, _, rfl, by decide +kernel⟩, rfl⟩

theorem hyp_device_status : Fresh (rq 0 []) up ∧ (rq 0 []).fn = 0 ∧ Fits (rq 0 []) (64 + 64 * up.arcD) ∧
    Fresh { rq 0 [] with respAddr := 64 } up ∧ Fits { rq 0 [] with respAddr := 64 } (64 + 64 * 32) := by decide +kernel

theorem hyp_unit_status : (∀ n ∈ [3, 11, 7, 15, 1, 63, 1023], Fresh (rq 8 [(2, n)]) up ∧ (rq 8 [(2, n)]).u 2 6 = 0 ∧
      (rq 8 [(2, n)]).u 0 2 = n) ∧ Fresh { rq 8 [(2, 3)] with env := List.replicate 12 5 } up ∧
    (List.replicate 12 5).length ≤ 12 ∧ (State.dc { up with dac := [(7, { blk := dacBlk 2 })] } 7).source = 2 ∧
    (State.dc { up with dac := [(7, { blk := dacBlk 2 })] } 7).held = none ∧ (up.dc 7).source = 0 ∧ (up.qu 63).fn = 0 ∧ (State.sto { up with store := [(1023, { blk := stoBlk 0 })] } 1023).on = true ∧
    ({ up with store := [(1023, { blk := stoBlk 0 })] } : State).storeOwner 1023 = 0 := by decide +kernel

theorem hyp_exhibit_status : Fresh (rq 8 [(2, 47)]) up ∧ (rq 8 [(2, 47)]).u 2 6 = 0 ∧ (rq 8 [(2, 47)]).u 0 2 = 47 ∧
    up.view.find 47 = some ⟨0, 0, 1, 2, []⟩ ∧
    (({ up with cur := { committed := [⟨btTrigger, [47#8, 0#8, 0#8, 2#8]⟩] } } : State).block btTrigger [47]).u 3 1 = 2 ∧
    (rq 8 [(2, 47), (1, 3)]).u 3 5 = 0 ∧ (slotOf up (rq 8 [(2, 47), (1, 3)])).toOption = some 31 ∧
    up.view.isOwn 4095 = true ∧ (rq 8 [(2, 4095)]).u 0 2 = 4095 ∧ Fits (rq 8 [(2, 4095)]) (16 + 2 * (up.view.ex 4095).members.length) := by decide +kernel

/-- BLOCK_READ of CLK_OUT5: type, source, and the key alone. -/
def readR (src : Nat) : Req := rq 24 [(2, btClockOutput), (1, src), (5, 0), (1, 5)]

theorem hyp_reads : (∀ n ∈ [0, 1, 2], Fresh (readR n) up ∧ (readR n).len = 8 + blockSize btClockOutput ∧ (readR n).u 0 2 = btClockOutput ∧
      (readR n).u 3 5 = 0 ∧ (readR n).u 2 1 = n ∧ allZero ((blockKey btClockOutput).foldl (fun d k => putU d k.1 k.2 0)
        (slice (readR n).bytes 8 16)) = true ∧ (keyOwned up 0 ⟨btClockOutput, slice (readR n).bytes 8 16⟩).toBool = true ∧
      Fits (readR n) (up.view.instanceIn up.cur.committed ⟨btClockOutput, slice (readR n).bytes 8 16⟩).data.length ∧
      Fits (readR n) (up.lastView.instanceIn up.lastView.blocks ⟨btClockOutput, slice (readR n).bytes 8 16⟩).data.length) ∧
    up.cur.staged = [] := by decide +kernel

theorem hyp_reads_of_memories :
    (∀ m ∈ [0, 1, 2], let r := rq 24 [(2, 47), (1, 3), (1, m), (4, 16383), (4, 1)]
      Fresh r up ∧ r.u 3 1 = m ∧ r.u 12 4 = 0 ∧ r.u 16 8 = 0 ∧ 1 ≤ r.u 8 4 ∧ r.u 4 4 + r.u 8 4 ≤ 16384 ∧
        (slotOf up r).toOption = some 31 ∧ Fits r (8 * r.u 8 4)) ∧
    (let r := { rq 16 [(4, 0), (4, 64)] with respAddr := 64 }
     Fits r (16 + 32 * r.u 4 4) ∧ Fresh r up ∧ r.u 8 8 = 0 ∧ 1 ≤ r.u 4 4 ∧ r.u 4 4 ≤ 64 ∧ up.health.total - up.health.entries.length ≤ r.u 0 4) ∧
    (let r := rq 8 [(2, 5), (2, 0xFF)]
     Fresh r up ∧ r.u 4 4 = 0 ∧ r.u 0 2 = 5 ∧ r.u 2 2 = 0xFF ∧ calUnitOk 5 0xFF = true ∧
       tfind up.hk.reports (calTag 5 0xFF) = none ∧ Fits r (zeros 64).length ∧
       tfind ({ up with hk := { reports := [(calTag 5 0xFF, zeros 63)] } } : State).hk.reports (calTag 5 0xFF) = some (zeros 63)) := by
  decide +kernel

/-- The defaults of CLK_OUT5 in a BLOCK_STAGE request. -/
def stageR : Req := rq 24 ((2, btClockOutput) :: (6, 0) :: (defaultBlock btClockOutput [5]).data.map fun b => (1, b.toNat))

theorem hyp_ring_and_staged : (∀ k ∈ [6, 16], let r := rq 16 [(8, 0x1000), (4, 2 ^ k)]
      Fresh r up ∧ r.u 12 4 = 0 ∧ r.u 0 8 % 4096 = 0 ∧ r.u 8 4 = 2 ^ k) ∧ up.boot.rollback = none ∧ (up.mb 0).lostCount = 0 ∧
    ({ up with boot := { st := 1, rollback := some 1 } } : State).boot.rollback.isSome ∧
    (let b : Block := ⟨btClockOutput, slice stageR.bytes 8 16⟩
     Fresh stageR up ∧ stageR.len = 8 + blockSize b.typ ∧ stageR.u 0 2 = b.typ ∧ stageR.u 2 6 = 0 ∧
       (blockOwned up 0 b).toBool = true ∧ stageCheck b = none) ∧
    (let s : State := { up with exh := [(100, { kind := 2, st := 1, members := [1] })],
                                cur := { staged := [⟨0, .define 100 2 [1]⟩] } }
     (⟨0, .define 100 2 [1]⟩ : Staged) ∈ s.cur.staged ∧ (s.view.ex 100).st = 1) := by decide +kernel

/-! ### What commands do (16 to 21) -/

/-- CLK_OUT5 staged by PF0. -/
def stagedS : State := { upA with cur := { staged := [⟨0, .block (defaultBlock btClockOutput [5])⟩] } }

/-- A COMMONS block with BUDGET 1 W staged by PF0, below a grant of 5 W in the ledger. -/
def budgetS : State := { upA with pow := { ledger := [⟨0, 0, 5000, 0, none, 0⟩] }, cur := {
  staged := [⟨0, .block ⟨btCommons, putU (defaultBlock btCommons []).data 0 2 100⟩⟩] } }

/-- Code and result length of a refused plan. -/
def planErr (e : Except Err Accepted) : Option (Nat × Nat) := match e with | .error x => some (x.code, x.result.length) | .ok _ => none

theorem hyp_commit : (∀ x ∈ [3, 2, 1], let r := rq 16 [(2, 47), (1, x)]
      Fresh r stagedS ∧ r.len = 16 ∧ r.u 3 1 = 0 ∧ r.u 14 2 = 0 ∧ r.u 2 1 = x ∧ collectionRequest r stagedS = false) ∧
    stagedS.view.find 47 = some ⟨0, 0, 1, 2, []⟩ ∧ (asapTime stagedS.cad).slot < stagedS.cad.spt ∧
    (planCommit stagedS 0 true 47 (asapTime stagedS.cad) [] leadSamples none).toBool = true ∧
    planErr (planCommit stagedS 0 true 47 ⟨0, 0, 0⟩ [] leadSamples none) = some (18, 0) ∧ 18 ≠ eLeaveRefused ∧
    planErr (planCommit budgetS 0 true 47 (asapTime budgetS.cad) [] leadSamples none) = some (eLeaveRefused, 0) := by decide +kernel

/-- A pending commit of PF0 and a later one of function 1. -/
def pendS : State := { upA with cur := { pending := [⟨1, 0, ⟨0, 1001, 0⟩, 102503, [], true, [], [], none, [], [], []⟩] } }

theorem hyp_commit_cancel : Fresh (rq 8 [(4, 1)]) pendS ∧ (rq 8 [(4, 1)]).u 4 4 = 0 ∧
    pendS.cur.pending.find? (fun p => p.id == (rq 8 [(4, 1)]).u 0 4 && p.fn == 0) = pendS.cur.pending.head? ∧
    tooSoon pendS.cad ⟨0, 1001, 0⟩ = false ∧ (∀ q ∈ pendS.cur.pending, q.id = 1) ∧ galleryMoves pendS.view [] = [] := by
  decide +kernel

/-- An array of exhibit 47 as local number 4095, chosen by the host (0) or by the device (1). -/
def defineR (any : Nat) : Req := rq 10 [(2, 4095), (1, 2), (1, any), (2, 1), (2, 0), (2, 47)]

/-- Array 4095, defined but not committed, or committed. -/
def arrayS (st : Nat) : State :=
  { up with exh := [(4095, ⟨2, 0, 1, st, [47]⟩)], cur := { staged := [⟨0, .define 4095 2 [47]⟩] } }

theorem hyp_exhibit_commands : Fresh (defineR 0) up ∧ Passes (exhibitDefineBody (defineR 0) up) ∧
    (defineR 1).len = 8 + 2 * (defineR 1).u 4 2 ∧ (defineR 1).u 2 1 = 2 ∧ (defineR 1).u 3 1 = 1 ∧ (defineR 1).u 6 2 = 0 ∧
    (defineR 1).u 4 2 = 1 ∧ (up.view.ex 4095).st = 0 ∧
    (∀ i < (defineR 1).u 4 2, up.view.find ((defineR 1).u (8 + 2 * i) 2) = some ⟨0, 0, 1, 2, []⟩) ∧
    (∀ k ∈ [1, 2], Fresh (rq 8 [(2, 4095)]) (arrayS k) ∧ (rq 8 [(2, 4095)]).u 2 6 = 0 ∧ (rq 8 [(2, 4095)]).u 0 2 = 4095 ∧
      (arrayS k).view.find 4095 = some ⟨2, 0, 1, k, [47]⟩ ∧ ⟨0, .define 4095 2 [47]⟩ ∈ (arrayS k).cur.staged) ∧
    Fresh (rq 8 [(2, 4095), (2, 15)]) (arrayS 2) ∧ (rq 8 [(2, 4095), (2, 15)]).u 4 4 = 0 ∧
    (rq 8 [(2, 4095), (2, 15)]).u 2 2 ≤ (arrayS 2).boot.numVfs ∧ (arrayS 2).view.committed 4095 = some ⟨2, 0, 1, 2, [47]⟩ ∧
    (arrayS 2).view.exActive 4095 = false := by decide +kernel

/-- A load of one word: number or handle, first word, word. -/
def loadR (len x f : Nat) (w : List (Nat × Nat)) : Req := rq len ([(2, x), (2, 0), (4, f), (4, 1), (4, 0)] ++ w)

theorem hyp_shadow_loads : Memory.wf up = true ∧
    (∀ r ∈ [loadR 20 7 65535 [(4, 131071)], loadR 20 0 0 [(4, 2 ^ 32 - 131072)], loadR 24 47 1023 [(4, 5), (4, 5)], loadR 20 47 0 [(4, 0)]],
      Fresh r up ∧ r.u 2 2 = 0 ∧ r.u 12 4 = 0 ∧ r.u 8 4 = 1) ∧
    getI (loadR 20 7 65535 [(4, 131071)]).params 16 4 = 131071 ∧ getI (loadR 20 0 0 [(4, 2 ^ 32 - 131072)]).params 16 4 = -131072 ∧
    up.view.find 47 = some ⟨0, 0, 1, 2, []⟩ ∧ up.view.gangMember 47 = false ∧ 1023 + 1 ≤ 2 ^ (up.stagedBlock 0 btMask [47]).u 2 1 ∧
    Passes (maskLoadBody (loadR 24 47 1023 [(4, 5), (4, 5)]) up) ∧ 0 + 1 ≤ (up.stagedBlock 0 btProgram [47]).u 2 2 := by
  decide +kernel

/-- A load or parameter write of slot 3 of exhibit 47: memory, first word. -/
def coreR (len mem f : Nat) (w : List (Nat × Nat)) (pay : List Byte) : Req :=
  { rq len ([(2, 47), (1, 3), (1, mem), (4, f), (4, 1), (12, 0)] ++ w) with payload := pay }

/-- STORE_LOAD of the last 16 samples of Store 1023. -/
def storeR : Req := rq 32 [(2, 1023), (6, 0), (8, 8386544), (8, 16)]

theorem hyp_core_and_store_loads : (∀ m ∈ [0, 1, 2], let r := coreR 24 m 16383 [] (leBytes 8 (2 ^ 36 - 1))
      Fresh r up ∧ r.u 12 4 = 0 ∧ (slotOf up r).toOption = some 31 ∧ r.u 4 4 = 16383 ∧ r.u 8 4 = 1 ∧ r.u 3 1 = m ∧
        ∀ w ∈ wide r.payload 0 1, w < 2 ^ 36) ∧ (up.cc 31).st ≠ 1 ∧
    (let r := coreR 32 0 255 [(8, 2 ^ 36 - 1)] []
     Fresh r up ∧ r.u 3 1 = 0 ∧ r.u 12 12 = 0 ∧ (slotOf up r).toOption = some 31 ∧ r.u 4 4 = 255 ∧ r.u 8 4 = 1 ∧
       ∀ w ∈ wide r.params 24 1, w < 2 ^ 36) ∧
    (let s : State := { up with store := [(1023, { blk := stoBlk 2 })] }
     Fresh storeR s ∧ storeR.u 2 6 = 0 ∧ storeR.u 0 2 = 1023 ∧ (s.sto 1023).on = true ∧ (s.sto 1023).mode = 2 ∧ s.plays 1023 = false ∧
       storeR.u 8 8 % 16 = 0 ∧ storeR.u 16 8 % 16 = 0 ∧ 2 * (storeR.u 8 8 + storeR.u 16 8) ≤ (s.sto 1023).size - 4096) := by
  decide +kernel

theorem hyp_store_release : ∀ m ∈ [0, 1], let r := rq 16 [(2, 1023), (6, 0), (8, 640)]
    let s : State := { up with store := [(1023, { blk := stoBlk m, write := 640, segNext := 640 })] }
    Fresh r s ∧ r.u 2 6 = 0 ∧ r.u 0 2 = 1023 ∧ r.u 8 8 = 640 ∧ (s.sto 1023).on = true ∧ s.storeOwner 1023 = 0 ∧
      s.view.consumed 1023 = false ∧ (s.sto 1023).mode = m ∧ (s.sto 1023).release ≤ 640 ∧ 640 = (s.sto 1023).write ∧
      640 ≤ (s.sto 1023).segNext := by decide +kernel

/-- Exhibit 47 with its Sward enabled. -/
def swardS : State := { upA with cur := { committed := [⟨btSward, putU (defaultBlock btSward [47]).data 2 1 1⟩] } }

theorem hyp_sward_action : Fresh (rq 16 [(2, 47), (2, 1001), (6, 0), (2, 0), (1, 3)]) swardS ∧
    Passes (swardSnapshotBody (rq 16 [(2, 47), (2, 1001), (6, 0), (2, 0), (1, 3)]) swardS) := by decide +kernel

theorem hyp_trigger_actions : (∀ a ∈ [0, 1, 2], let r := rq 16 [(2, 47), (1, a), (1, 0), (6, 0), (2, 1001), (2, 0)]
      Fresh r upA ∧ r.u 3 1 = 0 ∧ r.u 14 2 = 0 ∧ r.u 0 2 = 47 ∧ r.u 2 1 = a ∧ collectionRequest r upA = false ∧
        Schedulable upA (ctOfBytes r.params 4) 6 (upA.view.triggerReach 47)) ∧ upA.view.triggerReach 47 = [47] ∧ upA.view.find 47 = some ⟨0, 0, 1, 2, []⟩ ∧
    upA.view.gangMember 47 = false ∧ Schedulable upA (asapTime upA.cad) 6 (upA.view.triggerReach 47) := by decide +kernel

theorem hyp_clear_action : let r := rq 24 [(6, 0), (2, 1001), (2, 0), (6, 0), (8, 2 ^ 64 - 1)]
    Fresh r upA ∧ r.u 10 6 = 0 ∧ Schedulable upA (ctOfBytes r.params 0) 1 [] := by decide +kernel

theorem hyp_inject_action : let r := rq 16 [(6, 0), (2, 1001), (2, 0), (1, 1), (1, 31), (1, 8)]
    Fresh r upA ∧ r.u 13 3 = 0 ∧ r.u 10 1 ≤ 1 ∧ r.u 11 1 ≤ 31 ∧ r.u 12 1 ≤ 8 ∧ upA.cur.actions.length < 16 ∧
      Schedulable upA (ctOfBytes r.params 0) 4 [] := by decide +kernel

theorem hyp_cal_action : let r := rq 16 [(6, 0), (2, 1001), (2, 0), (1, 5), (1, 0xFF)]
    Fresh r upA ∧ r.u 12 4 = 0 ∧ r.u 10 1 = 5 ∧ r.u 11 1 = 0xFF ∧ calUnitOk 5 0xFF = true ∧
      Schedulable upA (ctOfBytes r.params 0) 4 [] ∧ upA.cur.actions = [] := by decide +kernel

/-- The leave of that calibration at sample 102,501. -/
def calG : Grant := ⟨11, calTag 5 0xFF, 500, 102503, some (102503 + calSpan), 0⟩

theorem hyp_cal_leave : grantFits upA calG = true ∧
    grantFits { upA with pow := { ledger := [⟨0, 0, 10 ^ 6, 0, none, 0⟩] } } calG = false := by decide +kernel

/-- Mount 11 with a record that governs, or without. -/
def mountS (valid : Bool) : State := { up with mount := [(11, { present := true, valid := valid, record := zeros 512 })] }

theorem hyp_unit_commands : Fresh (rq 0 []) up ∧ up.view.anyActive = false ∧ Fresh (rq 8 [(2, 11)]) up ∧
    (rq 8 [(2, 11)]).u 2 6 = 0 ∧ (rq 8 [(2, 11)]).u 0 2 = 11 ∧ ((mountS true).mt 11).governs = true ∧
    ((mountS false).mt 11).governs = false ∧ (mountXfer (envTries (rq 8 [(2, 11)]).env)).done.isSome ∧
    (mountXfer (envTries ({ rq 8 [(2, 11)] with env := [1, 1, 1] } : Req).env)).done = none ∧ (rq 8 [(2, 63), (2, 15)]).u 4 4 = 0 ∧
    (rq 8 [(2, 63), (2, 15)]).u 0 2 = 63 ∧ (rq 8 [(2, 63), (2, 15)]).u 2 2 ≤ up.boot.numVfs ∧ (up.quBlock 63).u 1 1 = 0 ∧
    Passes (courierResumeBody (rq 168 [(1, 63), (1, 0)]) { up with queue := [(63, { st := 3 })] }) := by decide +kernel

theorem hyp_firmware : (let r := rq 9 [(4, 12 * 2 ^ 20 - 1), (4, 0), (1, 7)]
      Fresh r up ∧ r.u 4 4 = 0 ∧ r.u 0 4 + (r.bytes.drop 8).length ≤ 12 * 2 ^ 20) ∧
    (let s : State := { up with boot := { st := 1, imgB := { st := 2, major := 3 } } }
     Fresh (rq 0 []) s ∧ (s.boot.img s.boot.slot).st ≠ 0 ∧ Fresh (rq 8 [(1, 1)]) s ∧ (rq 8 [(1, 1)]).u 1 7 = 0 ∧
       (rq 8 [(1, 1)]).u 0 1 = 1 ∧ (rq 8 [(1, 0)]).u 0 1 = 0 ∧ (s.boot.img s.boot.slot).st = 2 ∧
       (s.boot.img s.boot.slot).major = (s.boot.img s.boot.image).major ∧ s.coll.formed = []) ∧
    imageOk 0 [] = false := by decide +kernel

/-! ### Direct accesses of the host -/

/-- Function 15 is busy, or an opcode that is listed stands in its request area. -/
def regS (busy : Bool) : State := { up with mbox := [(15, { busy := busy, req := [(0, 1)], lostCount := 1, ringSize := 64 })] }

theorem hyp_registers : 15 ≤ (regS true).boot.numVfs ∧ (regS true).pow.fallow = 0 ∧ ((regS true).mb 15).busy = true ∧
    ((regS false).mb 15).busy = false ∧ opcodes.contains (getU (cgetAll (fun _ => (0 : Byte)) ((regS false).mb 15).req 0 8) 0 2) = true ∧
    1023 / 4 ∉ ((regS false).mb 15).pba ∧ Memory.wf (regS false) = true ∧ 0x17F8 + 8 ≤ 0x1800 ∧ 0x17F8 % 8 = 0 ∧
    (regS true).busyOf 15 = true ∧ (regS false).busyOf 15 = false ∧ ((regS false).mb 15).lostCount ≠ 0 ∧
    ({ (regS false).mb 15 with consumed := (0#32).toNat } : Mbox).room = true ∧
    (1#64).getLsbD 0 = true ∧ (2#64).getLsbD 0 = false := by decide +kernel

/-- Queue 63 belongs to function 15 and is in STATE `st`. -/
def doorS (st : Nat) : State := { up with queue := [(63, { fn := 15, st := st })], pow := { domains := 2 ^ 31 - 1 } }

theorem hyp_doorbells : ((doorS 2).qu 63).fn = 15 ∧ (doorS 2).pow.fallow = 0 ∧ ((doorS 2).qu 63).st = 2 ∧ ((doorS 0).qu 63).st ≠ 1 ∧
    ((doorS 1).qu 63).desc = none ∧ ((doorS 1).qu 63).drain = false ∧ 7 % 65536 % ((doorS 1).quBlock 63).u 4 4 ≠ ((doorS 1).qu 63).head ∧
    (doorS 1).isUp 24 = true ∧ (doorS 1).isUp 25 = true ∧ ((doorS 1).quBlock 63).u 2 1 ≠ 1 ∧ 0 ≠ ((doorS 1).qu 63).fn := by
  decide +kernel

theorem hyp_bar4 : 2 ^ 36 < (2 ^ 36 - 1) + 2 ∧ (2 ^ 36 - 1) + 1 ≤ 2 ^ 36 ∧ up.pow.fallow = 0 ∧
    ({ up with pow := { fallow := 2 } } : State).pow.fallow ≠ 0 := by decide +kernel

theorem hyp_collection_commands : Fresh (rq 0 []) (collS 0 1) ∧
    (let s := collS 0 1
     Passes (collectionFormBody { rq 0 [] with env := [0, 0] }
       { s with coll := { s.coll with aligns := [(1, (s.major, cadenceCrc s, 0))] } })) ∧
    (collS 0 1).isLead = true ∧ (collS 0 1).view.anyActive = false ∧ (rq 0 []).env = [] ∧ (collS 0 1).exh = [] := by decide +kernel

/-! ### Cadence, commits, analysis (02, 05 to 09, 17) -/

/-- The anchored device with this cadence. -/
def cadS (f : Cad → Cad) : State := { up with cad := f { anchored := true, awaitAnchor := false, source := 1 } }

theorem hyp_reference : ((cadS fun c => { c with coasting := true }).tick 5).cad.coasting = true ∧
    ((cadS id).tick 5).cad.coasting = false ∧ ((cadS id).tick 5).cad.holdFrom = none ∧
    ((cadS fun c => { c with holdFrom := some 3 }).tick 5).cad.holdFrom = some 3 ∧
    (-1024 : Int).natAbs ≤ (cadS id).cadBlock.u 30 2 ∧ (cadS id).cadBlock.u 30 2 < (1025 : Int).natAbs ∧
    ((cadS fun c => { c with slewing := true, holdFrom := some 3 }).tick 5).cad.slewing = true ∧
    (cadS id).cad.anchored = true ∧ (cadS id).cad.source = 1 ∧ up.cad.anchored = false ∧
    ((cadS fun c => { c with syncArmed := true, syncDue := true }).tick 5).cad.syncArmed = true ∧
    ((cadS fun c => { c with syncArmed := true, syncDue := true }).tick 5).cad.syncDue = true := by decide +kernel

theorem hyp_marks : up.cad.anchored = false ∧ (cadS fun c => { c with coasting := true }).cad.coasting = true ∧
    (cadS id).cad.returned = none ∧ (cadS id).cad.slewing = false ∧ NothingWaits (cadS id) ∧
    (let c := (cadS fun c => { c with markRun := 2, markLast := ⟨6, 9, 3⟩ }).cad
     c.markRun ≠ 0 ∧ c.markLast.slot = 9 ∧ c.markLast.phase = 3 ∧ turnDiff 7 c.markLast.turn = 1) ∧
    2 < (cadS id).cadBlock.u 38 1 ∧ (cadS id).cadBlock.u 38 1 ≤ 3 ∧
    markWithin (cadS id).cad 1024 ⟨1, 0, 1024⟩ = true ∧ edgeTime (cadS id).cad ⟨7, 9, 3⟩ = ⟨7, 9, 3⟩ ∧
    (∀ src ∈ [0, 1], let s := cadS fun c => { c with source := src, returned := some (-1024) }
      (s.cad.source = 1 ∨ s.cad.returned.isSome) ∧ s.cad.anchored = true ∧ s.cad.coasting = false ∧ s.cad.returned = some (-1024) ∧
      s.cadBlock.u 30 2 = 1024 ∧ NothingWaits s ∧ edgeTime s.cad ⟨6, 49999, 64512⟩ = ⟨6, 49999, 64512⟩ ∧
      (∀ p ∈ [(49999, 64512, true), (0, 1025, false)],
        markAtPhase (s.tick (sampleOf s.cad ⟨6, p.1, p.2.1⟩)) (-1024) ⟨6, p.1, p.2.1⟩ = p.2.2)) ∧
    (cadS fun c => { c with source := 0 }).cad.source ≠ 1 ∧ (-1024 : Int).natAbs ≤ 1024 ∧
    1024 < (1025 : Int).natAbs := by decide +kernel

/-- Synthesiser 4 in this state, the others locked. -/
def pllS (p : Pll) (f : Cad → Cad) : State :=
  cadS fun c => f { c with plls := [(0, { locked := true }), (1, { locked := true }), (2, { locked := true }), (3, { locked := true }), (4, p)] }

theorem hyp_lock : (pllOf (pllS { locked := true } id).cad 4).locked = true ∧ (pllOf (pllS {} id).cad 4).locked = false ∧
    (pllS {} id).cad.coasting = false ∧ (pllS {} fun c => { c with coasting := true }).cad.coasting = true ∧
    (pllOf (pllS { good := 2 } id).cad 4).good + 1 < 4 ∧ 4 ≤ (pllOf (pllS { good := 3 } id).cad 4).good + 1 ∧
    resumable (pllS {} id).cad 0 = [] ∧ (pllS {} id).losses = [] ∧ NothingWaits (pllS {} id) ∧
    resumable (pllS { locked := true, lossFrom := some 0 } id).cad 10000000 = [4] ∧
    (cadS fun c => { c with awaitAnchor := true }).cad.awaitAnchor = true ∧ allLocked (pllS {} id).cad = false ∧
    allLocked (pllS { locked := true } id).cad = true := by decide +kernel

/-- The anchored device at sample 200,000 with one action that waits for turn 0, slot 1,001. -/
def actS (a : Act) (h : Option Nat) : State :=
  { upA with cad := { upA.cad with now := 200000 }, cur := { actions := [⟨1, 0, ⟨0, 1001, 0⟩, h, a, none, false⟩] },
             trig := [(47, { next := 9 })] }

theorem hyp_due : pendS.cur.pending.find? (·.id == 1) = pendS.cur.pending.head? ∧ pendS.cad.anchored = true ∧
    (∀ p ∈ pendS.cur.pending, commitDeferred pendS p = false ∧ laterThan pendS (commitKey pendS p) = false) ∧
    (∀ q ∈ [(Act.clear 1, none), (.arm 2, some 47), (.force, some 47), (.snapshot 3, some 47)], let s := actS q.1 q.2
      s.cur.actions.find? (·.id == 1) = s.cur.actions.head? ∧ s.cad.anchored = true ∧ lostFor s q.2 = false ∧
        ∀ a ∈ s.cur.actions, a.act = q.1 ∧ a.handle = q.2 ∧ laterThan s (actionKey s a) = false ∧ (a.handles s.view).Nodup) := by decide +kernel

/-- A snapshot of exhibit 47 that waits for a frame to come, or whose boundary is the frame just computed. -/
theorem hyp_snapshot_action : ∀ k ∈ [0, 10 ^ 6],
    let s : State := { actS (.snapshot 3) (some 47) with pipe := [(47, { cfg := { sward := [47, 0, 1] }, next := k })] }
    s.cur.actions.find? (·.id == 1) = s.cur.actions.head? ∧ lostFor s (some 47) = false ∧
      (∀ a ∈ s.cur.actions, laterThan s (actionKey s a) = false) ∧ getU (s.pp 47).cfg.sward 2 1 = 1 ∧
      (frameStart (s.pp 47).cfg (s.pp 47).next < rateCeil (srcExp s.view 47 (s.pp 47).cfg) 102503 ↔ k = 0) := by decide +kernel

/-- A SCHEDULE condition of exhibit 47: turn 7, slot 5, period 0 or 3. -/
def schedS (n : Nat) : State := { upA with cur := { committed :=
  [⟨btCondition, putU (putU (putU (putU (defaultBlock btCondition [47, 31]).data 3 1 11) 12 8 7) 28 2 5) 32 4 n⟩] } }

theorem hyp_schedule_condition : (∀ n ∈ [0, 3], let b := (schedS n).block btCondition [47, 31]
      b.u 3 1 = 11 ∧ b.u 30 2 = 0 ∧ b.u 12 8 = 7 ∧ b.u 28 2 = 5 ∧ b.u 32 4 = n) ∧
    ((schedS 0).cad.now : Int) * 2 ^ 48 ≤ ctPos (schedS 0).cad ⟨7, 5, 0⟩ ∧
    clockLoss (schedS 0).cad ((schedS 0).view.deps 47) = none ∧ turnDiff 7 7 = 0 ∧ 5 + 16664 * 3 < (schedS 3).cad.spt ∧
    (∀ n ∈ [0, 3], timeFresh (schedS n) 47 31 ⟨7, 5, 0⟩ = true) ∧ timeFresh (schedS 3) 47 31 ⟨7, 49997, 0⟩ = true := by decide +kernel

theorem hyp_blocks : (let d := defaultBlock btCadence []
      cadenceChanges d ⟨btCadence, putU d.data 38 1 255⟩ = false ∧ cadenceChanges d ⟨btCadence, putU d.data 2 2 1⟩ = true) ∧
    (up.mt 11).mode = (defaultBlock btMount [11]).u 1 1 ∧ (up.mt 11).relay[3]? = some 0 ∧
    (⟨btChannelInput, putU (defaultBlock btChannelInput [47]).data 3 1 0⟩ : Block).u 3 1 = 0 ∧
    (defaultBlock btCourierQueue [63]).u 1 1 = 0 ∧
    (⟨btCourierQueue, putU (defaultBlock btCourierQueue [63]).data 1 1 1⟩ : Block).u 1 1 = 1 := by decide +kernel

/-- A fade of exhibit 47 from preset 0 to 1 at output 100, and another one that waits. -/
def fadeS (p : Nat) : State := { up with chain := [(47, { evs := [⟨2, 100, 0, 1⟩], wait := some p })] }

/-- A pipeline of exhibit 47 with 256-point frames, enabled. -/
def fftS : State := { upA with pipe := [(47, { cfg := { spec := [47, 0, 8, 0, 0, 0, 0, 1] } })] }

theorem hyp_chain_and_frames : (∀ p ∈ [1, 3], let x : Chain := tget {} (fadeS p).chain 47
      x.wait = some p ∧ x.evs.getLast? = some ⟨2, 100, 0, 1⟩ ∧ 164 = 100 + 64) ∧
    getU (fftS.pp 47).cfg.spec 7 1 = 1 ∧ 0 = (fftS.pp 47).next ∧
    clockLoss fftS.cad (fftS.view.deps 47) = none ∧ (fftS.pp 47).waiting = [] ∧ fftS.view.gangMember 47 = false ∧ fftS.cur.actions = [] := by decide +kernel

/-- The trigger of exhibit 47 in this state. -/
def trigS (f : Trig → Trig) : State := { upA with trig := [(47, f { arm := 1 })] }

theorem hyp_triggers : ((trigS fun x => { x with arm := 0 }).tr 47).arm = 0 ∧ ((trigS id).tr 47).arm ≠ 0 ∧
    ((trigS fun x => { x with holdEnd := some 10 }).tr 47).held 9 = true ∧ ((trigS id).tr 47).held 9 = false ∧
    ((trigS fun x => { x with runs := [⟨0, 0, 10, 0, 10, 0⟩] }).tr 47).busy 9 = true ∧ ((trigS id).tr 47).busy 9 = false ∧
    getU ((trigS fun x => { x with runs := [⟨0, 0, 10, 0, 10, 0⟩] }).tr 47).cfg.trig 9 1 ≠ 1 ∧ (upA.tr 47).spent = false ∧
    evalDue (trigS id) 47 0 = true ∧ evalDue (trigS fun x => { x with next := 1 }) 47 0 = false ∧
    (∀ x ∈ [(trigS fun x => { x with holdEnd := some 10 }).tr 47], x.holdEnd = some 10 ∧ x.holdLeft = 0 ∧ x.next ≤ 10) ∧
    (let x : Line := { active := true, stop := some 8 }
     x.active = true ∧ x.stop = some 8) := by decide +kernel

/-! ### Wings, mounts, TDC, outputs, housekeeping (03, 04, 12 to 14) -/

/-- DAC 7, fed by port 1 of core 31, holding one word; PD29 is powered. -/
def dacS (x : Dac) : State := { upA with
  pow := { domains := 2 ^ 31 - 1 }, dac := [(7, x)], core := [(31, { blk := zeros 15 ++ [7#8], stim := [[], [⟨0, 5⟩]] })] }

theorem hyp_outputs : stimSource upA 7 = none ∧
    (let s := dacS { blk := dacBlk 3 }
     stimSource s 7 = some (31, 1) ∧ getU (s.dc 7).blk 3 1 = 3 ∧ (s.dc 7).source = 3 ∧ 0 = (s.dc 7).take ∧ (s.dc 7).held = none ∧
       s.outPower = true ∧ ((s.cc 31).stimPort 1).head? = some ⟨0, 5⟩ ∧ 0 ≤ takeClock (s.dc 7) 0 ∧ (s.cc 31).stimPort 0 = []) ∧
    (let s := dacS { blk := dacBlk 2 }
     (s.dc 7).total = some 16 ∧ (s.dc 7).source = 2 ∧ (s.dc 7).done = false ∧ (s.dc 7).play + 16 ≤ 16) ∧
    (upA.dc 7).total = none ∧ (dacS {}).outPower = true ∧ 0 = ((dacS {}).lv 15).next ∧ ((dacS {}).lv 15).held = false ∧
    (((dacS {}).lv 15).upTo 0).isOn = false ∧ ((dacS {}).lv 15).takes 0 = true ∧ (State.lv { dacS {} with level := [(15, { isOn := true, blk := zeros 32 })] } 15).takes 1 = false ∧
    (State.lv { dacS {} with level := [(15, { isOn := true, blk := zeros 32 })] } 15).takes 0 = true ∧ (State.lv { dacS {} with level := [(15, { held := true })] } 15).held = true ∧
    ((({ dacS {} with level := [(15, { isOn := true, blk := zeros 32 })] } : State).lv 15).upTo 0).isOn = true := by decide +kernel

/-- Channel 47 in a powered wing. -/
def wingS (f : Chan → Chan) (cfg : List (Nat × Nat)) : State := { upA with
  pow := { domains := 2 ^ 31 - 1 }, chan := [(47, f { rotating := true })],
  cur := { committed := [⟨btChannelInput, cfg.foldl (fun d p => putU d p.1 1 p.2) (defaultBlock btChannelInput [47]).data⟩] } }

/-- A measurement that passes (0), or that is off by more than its limit. -/
def measM (e : Int) : Meas := { off := e, gain := 0, skew := 0, offSe := 0, gainSe := 0, skewSe := 0, newOff := 1, newGc := 2, newTrim := 3 }

theorem hyp_gleaning : upA.pow.domains.testBit (5 + 47 / 12) = false ∧
    (let s := wingS id []
     s.pow.domains.testBit (5 + 47 / 12) = true ∧ chanClockLost s 47 = false ∧ (s.inputBlock 47).u 3 1 ≠ 0 ∧
       (s.ch 47).retired = none ∧ (s.ch 47).at 16 = some 16 ∧ (s.ch 47).at (31 % 16) = some 15 ∧ (s.ch 47).rotating = true ∧
       measFails ((s.ch 47).slice 16) (measM 0) = 0 ∧ measFails ((s.ch 47).slice 16) (measM 2000000) = 0 ∧
       measFails ((s.ch 47).slice 16) (measM 2000001) ≠ 0 ∧ ((s.ch 47).slice 16).fails + 1 < (s.inputBlock 47).u 5 1 ∧
       ((s.ch 47).slice 16).pos ≤ 16) ∧
    ((wingS id [(3, 0)]).inputBlock 47).u 3 1 = 0 ∧ ((wingS (fun x => { x with rotating := false }) []).ch 47).rotating = false ∧
    ((wingS (fun x => { x with slices := [(16, { pos := 16, fails := 2 })] }) []).inputBlock 47).u 5 1 ≤
      (((wingS (fun x => { x with slices := [(16, { pos := 16, fails := 2 })] }) []).ch 47).slice 16).fails + 1 := by decide +kernel

theorem hyp_slices_and_drift :
    (let s := wingS (fun x => { x with retired := some 3, slices := [(3, { pos := 17 })] }) [(6, 40), (7, 0xFF)]
     17 ≤ ((s.ch 47).slice 3).pos ∧ ((s.ch 47).slice 4).pos ≤ 16 ∧ ((s.ch 47).slice 4).dead = false ∧ (s.ch 47).retired.isSome ∧ (s.inputBlock 47).u 7 1 = 0xFF ∧
       (s.tick (17 * stepLen ((s.inputBlock 47).u 4 1))).cad.now % (17 * stepLen ((s.inputBlock 47).u 4 1)) = 0 ∧
       (s.tick (17 * stepLen ((s.inputBlock 47).u 4 1))).cad.now ≠ 0 ∧ (s.tick 1).cad.now % (17 * stepLen ((s.inputBlock 47).u 4 1)) ≠ 0 ∧
       50 * (s.inputBlock 47).u 6 1 < ((2001 : Int) - driftRef (s.ch 47)).natAbs ∧
       ((1900 : Int) - driftRef (s.ch 47)).natAbs + 100 ≤ 50 * (s.inputBlock 47).u 6 1 ∧
       ((2000 : Int) - driftRef (s.ch 47)).natAbs ≤ 50 * (s.inputBlock 47).u 6 1 ∧
       50 * (s.inputBlock 47).u 6 1 < ((2000 : Int) - driftRef (s.ch 47)).natAbs + 100) ∧
    ((wingS (fun x => { x with rotating := false }) []).ch 47).rotating = false ∧
    ((wingS (fun x => { x with rotating := false }) []).ch 47).at 16 = some 16 ∧ ((wingS (fun x => { x with rotating := false }) []).ch 47).at 15 = some 15 ∧
    ((wingS (fun x => { x with slices := [(3, { pos := 3, dead := true })] }) []).ch 47 |>.slice 3).dead = true := by decide +kernel

/-- Mount 11 in this state. -/
def mntS (m : Mount) : State := { upA with mount := [(11, m)] }

theorem hyp_mounts : ((mntS {}).mt 11).present = false ∧ ((mntS { present := true }).mt 11).present = true ∧
    ((mntS { mode := 1 }).mt 11).mode = 1 ∧ ((mntS { present := true }).mt 11).mode = 0 ∧ ((mntS { present := true }).mt 11).released = false ∧
    ((mntS { due := true }).mt 11).due = true ∧ turnAtOrAfter (mntS {}).cad (mntS {}).cad.now = (mntS {}).cad.now ∧
    turnAtOrAfter ((mntS {}).tick 1).cad ((mntS {}).tick 1).cad.now ≠ ((mntS {}).tick 1).cad.now ∧
    (let m : Mount := { present := true, valid := true, record := zeros 512 }
     m.governs = true ∧ getU m.record 16 2 = 0 ∧ m.wroteAt = none ∧ m.relay = m.wRelay ∧ m.events = m.wEvents ∧ m.timeUs = m.wTime) ∧
    (let m : Mount := { present := true, valid := true, record := zeros 512, relay := [1, 0, 0, 0], wroteAt := some 0 }
     m.relay ≠ m.wRelay ∧ 0 + tenMinutes ≤ tenMinutes ∧ tenMinutes - 1 < 0 + tenMinutes) ∧
    ({ present := true } : Mount).governs = false ∧ 47 / 4 = 11 ∧ ((mntS { mode := 1 }).mt 11).present = false ∧
    ((mntS { present := true, xfer := some false }).mt 11).xfer.isSome ∧ ((mntS {}).mt 11).xfer = none ∧ ((mntS { released := true }).mt 11).released = true ∧
    (mountXfer [⟨true, 0, 0, false, zeros 512⟩]).done.isSome ∧ (mountXfer (List.replicate 3 ⟨false, 0, 0, false, []⟩)).done = none ∧
    ({ mode := 1 } : Mount).overLevel = none ∧ ({} : Mount).overLevel = some 1000 ∧ 1000 < 1001 ∧ ({} : Mount).below.getD 3 none = none ∧
    ({ below := [none, none, none, some 7] } : Mount).below.getD 3 none = some 7 ∧ 0 < 7 + microsecond := by decide +kernel

/-- Comparator 63 in this state, enabled with these fields; PD00 to PD30 are powered. -/
def cmpS (x : Comp) (cfg : List (Nat × Nat)) : State := { upA with
  pow := { domains := 2 ^ 31 - 1 }, comp := [(63, x)],
  cur := { committed := [⟨btComparator, cfg.foldl (fun d p => putU d p.1 1 p.2) (putU (defaultBlock btComparator [63]).data 1 1 1)⟩] } }

theorem hyp_comparators : upA.view.cmpOn 63 = false ∧
    (let s := cmpS { arming := 2 } [(3, 3)]
     s.view.cmpOn 63 = true ∧ s.cmpPowered 63 = true ∧ (s.cmp 63).arming = 2 ∧ latchTakes ((s.view.cmpBlock 63).u 3 1) true = true ∧
       (s.cmp 63).latch = none ∧ (s.cmp 63).cleared ≤ clockStamp 0) ∧
    latchTakes ((cmpS {} []).view.cmpBlock 63 |>.u 3 1) true = false ∧ ((cmpS { latch := some 5 } []).cmp 63).latch = some 5 ∧
    ((cmpS { arming := 1 } []).cmp 63).arming = 1 ∧ { upA with cad := {} }.cad.anchored = false ∧
    levelHolds ((cmpS {} [(3, 5)]).view.cmpBlock 63 |>.u 3 1) true = false ∧
    (let s := cmpS { arming := 2, latch := some (-1) } [(3, 3), (6, 1)]
     (s.view.cmpBlock 63).u 6 1 = 1 ∧ s.view.cmpOn 63 = true ∧ (s.cmp 63).arming = 2 ∧ (-1 : Int) < ctStamp s.cad ⟨0, 0, 0⟩ ∧ 0 < s.cad.spt ∧
       levelHolds ((s.view.cmpBlock 63).u 3 1) (s.cmp 63).out = false) := by decide +kernel

/-- Stream 254 of exhibit 47 reports crossings in intervals of one slot, stamps with a flush of one slot. -/
def crossS : State := { upA with cur := { committed :=
  [⟨btCrossings, putU (putU (putU (defaultBlock btCrossings [47, 254]).data 2 1 254) 3 1 2) 4 2 1⟩,
   ⟨btStampStream, putU (putU (putU (defaultBlock btStampStream [47, 254]).data 0 2 47) 2 1 254) 6 2 50000⟩] } }

theorem hyp_crossings_and_edges : crossS.crossBlock 47 254 = crossS.cur.committed.head? ∧ crossS.crossBlock 47 0 = none ∧
    (∀ b ∈ crossS.cur.committed.take 1, slotCount crossS.cad 0 1 = (crossEnd crossS.cad b (tget {} crossS.cross (skey 47 254)) : Int)) ∧
    upA.srcLive 92 = false ∧ ({ upA with pow := { domains := 2 ^ 28 } } : State).srcLive 92 = true ∧
    (let y : TdcSrc := { prev := some 1000, conv := [300000, 300000, 300000, 1999] }
     freeConverter y 2000 = some 3 ∧ freeConverter y 1998 = none ∧ 1999 < 1000 + 1000 ∧ 1000 + 1000 ≤ 2000) := by decide +kernel

/-- Pairing unit 15 is enabled: starts are rising edges of source 91, stops of source 92; these stamps wait. -/
def pairS (q : List Stamp) (w : List Int) : State := { upA with
  cur := { committed := [⟨btPairing, [(1, 1), (2, 47), (4, 91), (6, 92), (12, 254)].foldl (fun d p => putU d p.1 1 p.2)
    (defaultBlock btPairing [15]).data⟩] }, pairer := [(15, { queue := q, waits := w })] }

theorem hyp_pairing : (∀ q ∈ [(⟨9, 91, false, 9, 0⟩ : Stamp), ⟨9, 92, false, 9, 0⟩], let s := pairS [q] []
      let b := s.block btPairing [15]
      (s.pu 15).queue.find? (fun p => p.src == q.src && p.falling == !true && p.t == 9) = some q ∧ b.u 1 1 = 1 ∧
        (s.pu 15).queue.any (fun p => takesBefore b p q) = false ∧ isStart b q = (q.src == 91) ∧ isStop b q = (q.src == 92) ∧
        (s.pu 15).waits = [] ∧ (s.pu 15).stack.length = 0) ∧
    ((pairS [] [7]).pu 15).waits = [7] ∧ 7 + 16 * ((pairS [] [7]).block btPairing [15]).u 8 4 < (7 + 16 * 4096 + 1 : Int) ∧
    crossS.stampBlock 47 254 = crossS.cur.committed.getLast? ∧ crossS.stampBlock 47 0 = none ∧
    (∀ b ∈ crossS.cur.committed.drop 1, 0 % b.u 6 2 = 0) ∧ 0 < crossS.cad.spt ∧
    ((pairS [] []).block btPairing [15]).u 2 2 = 47 ∧ ((pairS [] []).block btPairing [15]).u 12 1 = 254 ∧
    49999 % ((pairS [] []).block btPairing [15]).u 20 2 = 0 ∧
    ∃ p ∈ ({ upA with calSpans := [⟨calTag 6 0xFF, 0, 0, none⟩] } : State).calSpans, p.tag = calTag 6 0xFF ∧ p.hi = none := by decide +kernel

/-- Housekeeping of this device. -/
def hkS (x : Hk) : State := { upA with hk := x }

/-- Codes of a target at its ideal value of 20,971,520 / 3. -/
def calR : CalReading :=
  { refA := [0, 0], refB := List.replicate 18 0, target := 6990502 :: List.replicate 15 6990507, temp := 2500 }

theorem hyp_housekeeping : (hkS {}).hk.isOn = false ∧ ((hkS {}).conv 1).job = none ∧
    (let s := hkS { isOn := true, convs := [(1, { job := some ⟨5, 2, 0, 0, 900, false, false⟩ })] }
     s.hk.isOn = true ∧ (s.conv 1).job = some ⟨5, 2, 0, 0, 900, false, false⟩ ∧ clockLoss s.cad [4] = none ∧ s.cur.actions = [] ∧ s.hk.due = [] ∧
       ((s.conv 1).pos + 1) % (scanList s.hkBlock 1).length ≠ 0) ∧
    (let w : CalWin := ⟨0, 0, 0xFF, false, false, false, false⟩
     let s := hkS { isOn := true, due := [w] }
     s.hk.win = none ∧ s.hk.due = [w] ∧ w.at0 ≤ 0 ∧ s.cur.actions = [] ∧ (s.conv 0).job = none ∧ (s.conv 1).job = none ∧
       max (s.conv 0).ready (s.conv 1).ready = 0) ∧
    (let w : CalWin := ⟨0, 0, 0xFF, false, false, false, false⟩
     let s := hkS { isOn := true, win := some w }
     s.hk.win = some w ∧ calSpan = w.at0 + calSpan ∧ clockLoss s.cad [4] = none ∧ s.hk.convs = [] ∧ w.kind ≠ 5) ∧
    (let s := hkS { errs := [(calTag 0 0xFF, 0)], offErrs := [(calTag 0 0xFF, 0)], win := some ⟨0, 0, 0xFF, false, false, false, false⟩ }
     let v := takeRefs calR ((s.tick calSpan).setHk { s.hk with win := none, convs := tmap s.hk.convs fun _ x => { x with job := none } })
     calFails v 0 0xFF (calMeasure v 0 0xFF calR) = [] ∧ (calMeasure v 0 0xFF calR).error % 100 = 0) ∧
    clockLoss (pllS { lossFrom := some 3 } id).cad [4] ≠ none := by decide +kernel

/-! ### Memory stacks, Stores, Couriers, archive, link (10, 15, 16) -/

/-- A codeword of 32 bytes 7. -/
def okWord : List Byte := zxEncode (List.replicate 32 7)

theorem hyp_one_symbol : (List.replicate 32 (7 : Byte)).length = 32 ∧ (1 : Byte) ≠ 0 ∧ zxDecode okWord = .ok ∧
    zxDecode (okWord.set 35 ((okWord.getD 35 0) ^^^ 1)) = .fixed 35 1 ∧ zxDecode ((okWord.set 0 1).set 1 9) = .bad := by decide +kernel

/-- Stack 1 in this state. -/
def stkS (x : Stack) : State := { upA with stack := [(1, { x with st := 0 })] }

theorem hyp_stacks :
    (let s := stkS {}
     (s.stk 1).st = 0 ∧ okWord.length = 36 ∧ (s.service 1)[(s.stk 1).word / 8 % (s.service 1).length]? = some 0 ∧
       (s.stk 1).word + 1 < passWords s 1 ∧ ((s.stk 1).pc 0).uncorr < 16 ∧ 31 ∈ s.service 1 ∧ ((s.stk 1).pc 31).train = none ∧
       50 * s.memBlock.u 2 1 < ((1001 : Int) - ((s.stk 1).pc 31).temp).natAbs ∧
       ((1000 : Int) - ((s.stk 1).pc 31).temp).natAbs ≤ 50 * s.memBlock.u 2 1 ∧ (s.stk 1).moving = []) ∧
    passWords (stkS { word := 805306367 }) 1 ≤ ((stkS { word := 805306367 }).stk 1).word + 1 ∧
    ((stkS { word := 805306367 }).service 1)[805306367 / 8 % ((stkS {}).service 1).length]? = some 31 ∧
    (let s := stkS { pcs := [(31, { train := some 900, rebuild := none }), (30, { rebuild := some 35 })], moving := [4] }
     ((s.stk 1).pc 31).train = some 900 ∧ s.health.lanes = [] ∧ s.spares 1 31 = [] ∧ ((s.stk 1).pc 31).rebuild = none ∧
       ((s.stk 1).pc 30).rebuild = some 35 ∧ ((s.stk 1).pc 30).train = none ∧ (s.stk 1).moving = [4]) ∧ (up.stk 1).st ≠ 0 := by decide +kernel

/-- The bursts of a good word, of one with a wrong symbol and of one that cannot be corrected, read by the scrubber. -/
theorem hyp_scrub_reads : (∀ w ∈ [(okWord, Zx.ok), (okWord.set 35 ((okWord.getD 35 0) ^^^ 1), .fixed 35 1), ((okWord.set 0 1).set 1 9, .bad)],
      (wordBurst w.1).length = 8 ∧ zxDecode (readCodeword 1 0 (wordBurst w.1) (activateAll reqOwn [] (stkS {}))).1 = w.2 ∧
      (((readCodeword 1 0 (wordBurst w.1) (activateAll reqOwn [] (stkS {}))).2.stk 1).pc 0).uncorr < 16) ∧
    (let s := stkS { pcs := [(31, { train := some 900 })] }
     let r : LaneRun := ⟨4, true, [0, BitVec.allOnes 128, BitVec.allOnes 128, BitVec.allOnes 128]⟩
     judgeLane r (s.deadLanes 1 31) = ([32], some 63) ∧ 32 ∉ s.deadLanes 1 31 ∧ s.spares 1 31 = [] ∧
       ((s.stk 1).pc 31).rebuild = none ∧ ((s.stk 1).pc 31).train = some 900) ∧
    (∀ j < 8, ∀ i < 36, i ≠ 5 → (((wordBurst okWord).set 0 ((wordBurst okWord).getD 0 0 ^^^ 0x20)).getD j 0).getLsbD i =
      ((wordBurst okWord).getD j 0).getLsbD i) := by decide +kernel

/-- A record of exhibit 47's stream 2 of this epoch that waits, and a migration that changes the epoch from 1 to 2 at sample 9. -/
def recR (epoch lo : Nat) : Rec := { handle := 47, stream := 2, epoch := epoch, lo := lo }
/-- The state with it. -/
def prodS (r : Rec) (merge : Table (Nat × Nat × Nat)) : State := { upA with produced := [r], merge := merge }

theorem hyp_record_write : upA.produced = [] ∧ (prodS (recR 1 0) []).produced = [recR 1 0] ∧ tfind (prodS (recR 1 0) []).merge 47 = none ∧
    (recR 1 0).epoch = (prodS (recR 1 0) []).view.epoch 47 ∧ (recR 2 0).epoch ≠ (prodS (recR 2 0) []).view.epoch 47 ∧
    tfind (prodS (recR 1 8) [(47, 1, 2, 9)]).merge 47 = some (1, 2, 9) ∧ (recR 1 8).lo < 9 ∧ 9 ≤ (recR 2 9).lo ∧ (recR 2 8).lo < 9 ∧
    9 ≤ (recR 1 9).lo := by decide +kernel

/-- Exhibit 47 with a RAW stream 2 and an IQ stream 3 on path 0, which a Store of each takes. -/
def rawS : State := { upA with
  store := [(1022, { blk := putU (putU (stoBlk 0) 0 2 1022) 6 1 3 }), (1023, { blk := stoBlk 0 })]
  chain := [(47, { cfgs := [{ start := 0, raw := fields [(1, 1), (1, 0), (1, 2), (1, 0), (4, 16)],
                              ddc := fields [(14, 1), (1, 3), (1, 0), (4, 16)], dec := [] }] })] }

theorem hyp_sample_records : rawS.produced = [] ∧ upA.nextSource 47 3 = none ∧
    (∀ p ∈ [(3, 2), (0, 3)], (rawS.nextSource 47 p.1).any (fun x => x.1 == p.2 && !x.2.1 && x.2.2.next == 0 && x.2.2.stop 0 == 16) = true ∧
      rawS.fed 47 p.2 ≠ []) := by decide +kernel

/-- A capture for Store 1023, which is a segment Store with two segments. -/
def capS (f : Store → Store) : State :=
  { upA with caps := [⟨1023, 50, 3, (47, 1), none⟩], store := [(1023, f { blk := putU (putU (stoBlk 1) 12 4 2) 20 4 4 })] }

theorem hyp_captures : (capS id).caps.find? (fun q => q.store == 1023 && q.tr == 50 && q.acc == 3) = (capS id).caps.head? ∧ upA.caps = [] ∧
    (∀ q ∈ (capS id).caps, q.pair = (((capS id).sto 1023).handle, (capS id).view.epoch ((capS id).sto 1023).handle) ∧
      q.pair ≠ (47, ({ capS id with exh := [(47, ⟨0, 0, 2, 2, []⟩)] } : State).view.epoch 47)) ∧
    (upA.sto 1023).on = false ∧ ((capS id).sto 1023).on = true ∧ ((capS id).sto 1023).mode = 1 ∧ ((capS id).sto 1023).stopped = false ∧
    ((capS id).sto 1023).segNext < ((capS id).sto 1023).u 20 4 ∧
    ((capS fun x => { x with segNext := 4 }).sto 1023).u 20 4 ≤ ((capS fun x => { x with segNext := 4 }).sto 1023).segNext ∧
    ((capS id).sto 1023).segs.find? (fun g => g.n % ((capS id).sto 1023).segments == 0 && g.unreleased) = none ∧
    (let x := (capS fun x => { x with segs := [{ n := 1, st := 2 }], segNext := 3, nextPol := some 1 }).sto 1023
     x.segs.find? (fun g => g.n % x.segments == x.segNext % x.segments && g.unreleased) = x.segs.head? ∧ x.nextPol.getD x.policy = 1) := by
  decide +kernel

/-- Queue 63, KIND `kind`, in this state; PD24 and PD25 are up. -/
def quS (kind : Nat) (x : Queue) : State := { upA with
  pow := { domains := 2 ^ 31 - 1 }, queue := [(63, x)],
  cur := { committed := [⟨btCourierQueue, [(1, 1, 1), (2, 1, kind), (20, 4, 5), (28, 1, 1), (32, 2, 1023)].foldl (fun d p => putU d p.1 p.2.1 p.2.2)
    (defaultBlock btCourierQueue [63]).data⟩] } }

/-- A descriptor for a buffer of `n` bytes at 0x1000. -/
def descB (n : Nat) : List Byte := fields [(8, 0x1000), (4, n), (1, 0), (1, 0), (2, 0), (8, 0), (8, 2 ^ 56)]

theorem hyp_descriptors : ((quS 0 {}).qu 63).asked = false ∧ ((quS 0 { asked := true }).qu 63).asked = true ∧
    badDesc (padTo 32 (descB 4096)) false = false ∧ badDesc (padTo 32 (descB 0)) false = true ∧ ((quS 0 {}).quBlock 63).u 2 1 = 0 ∧
    ((quS 0 { waiting := 2 }).qu 63).waiting ≠ 0 ∧ ((quS 0 {}).quBlock 63).u 20 4 ≠ 0 ∧
    ((quS 1 { st := 1, desc := some ⟨0, 0, 32, 0, 0⟩ }).quBlock 63).u 2 1 = 1 ∧
    (let x := (quS 1 { st := 1, desc := some ⟨0, 0, 64, 0, 0⟩, reads := [(0, 32), (32, 32)], next := 64 }).qu 63
     x.st = 1 ∧ x.desc = some ⟨0, 0, 64, 0, 0⟩ ∧ x.reads = (0, (zeros 32).length) :: [(32, 32)] ∧ x.reads ≠ []) ∧
    (let x := (quS 1 { st := 1, desc := some ⟨0, 0, 32, 0, 0⟩, reads := [(0, 32)], next := 32 }).qu 63
     x.reads = (0, (zeros 32).length) :: [] ∧ 32 ≤ x.next) ∧
    ({ quS 0 {} with pow := { entering := some 1 } } : State).pow.entering = some 1 ∧ (quS 0 {}).pow.entering = none ∧
    (quS 0 {}).isUp 24 = true ∧ (quS 0 { st := 1, drain := true, desc := some ⟨0, 0, 32, 0, 0⟩ } |>.qu 63).drain = true ∧
    ((quS 0 { st := 1, drain := true, desc := some ⟨0, 0, 32, 0, 0⟩ }).qu 63).desc.isSome ∧ upA.isUp 24 = false := by decide +kernel

/-- The bytes that a buffer of `n` bytes takes of the Stores of a state, and whether it is full. -/
def filled (n : Nat) (s : State) : Nat × Bool := let f := (fillBuffer [1023] 0 n (n + 1) [] (fillFuel n) s {}).2; (f.bytes.length, f.full)

/-- Store 1023 with a lacuna and a record to deliver. -/
def lacS : State := { quS 0 { st := 1 } with store := [(1023, { blk := stoBlk 0, first := [{ recR 1 0 with typ := 1 }], redo := [recR 1 0] })] }

theorem hyp_buffers : (∀ n ∈ [64, 4096], let s : State := { quS 0 { st := 1, desc := some ⟨0, 0, n, 0, 0⟩ } with store := lacS.store }
      (s.qu 63).desc = some ⟨0, 0, n, 0, 0⟩ ∧ (s.quBlock 63).u 2 1 ≠ 1 ∧ (s.qu 63).st = 1 ∧ quStores (s.quBlock 63) = [1023]) ∧
    filled 64 lacS = (64, true) ∧ filled 128 lacS = (128, false) ∧ (filled 64 (quS 0 { st := 1 })).1 = 0 := by decide +kernel

/-- The archive in this state; its one Store is 1023. -/
def arcS (f : Archive → Archive) : State := { lacS with
  archive := f { st := 1 }, cur := { committed := [⟨btArchive, [(0, 1, 1), (1, 1, 2), (3, 1, 1), (16, 2, 1023)].foldl
    (fun d p => putU d p.1 p.2.1 p.2.2) (defaultBlock btArchive []).data⟩] } }

theorem hyp_archive : upA.archive.st ≠ 1 ∧ (arcS id).archive.st = 1 ∧ (arcS id).archive.rest = [] ∧ (arcS id).archive.lost = [] ∧
    nextChunk (arcS id) ((arcS id).arcD + 1) 0 = 0 ∧ ((arcS id).drv 0).failed = false ∧ arcStores (arcS id).arcBlock = [1023] ∧
    (Store.offer (arcS id) [] 1023).isSome ∧ (arcS id).arcD = 2 ∧
    ((arcS fun a => { a with drives := [(0, { failed := true }), (1, { failed := true })] }).drv
      (nextChunk (arcS fun a => { a with drives := [(0, { failed := true }), (1, { failed := true })] }) 3 0 % 2)).failed = true ∧
    (∀ y ∈ [(⟨1, 3, [7], [], false⟩ : Chunk)], let s := arcS fun a => { a with flying := [y] }
      s.archive.flying.find? (fun y => y.drive == 1 && y.num == 3) = some y ∧ y.again = false) ∧
    ((arcS fun a => { a with drives := [(1, { warned := true })] }).drv 1).warned = true := by decide +kernel

theorem hyp_archive_room : (arcS id).archive.flying.length ≤ Config.archiveStaging := Nat.zero_le _

theorem hyp_links : up.boot.numVfs < 16 ∧ 15 ≤ up.boot.numVfs ∧ ((quS 0 { st := 1, fn := 15 }).qu 63).st ≠ 0 ∧ 2 ∈ [64, 32, 16, 8, 5, 2] ∧
    1 ∈ [16, 8, 4, 1] ∧ up.boot.strapPerst = false ∧ up.boot.perst = true ∧
    (let s : State := { up with boot := { st := 1, strapPerst := true, perst := false } }
     s.boot.strapPerst = true ∧ s.boot.perst = false) := by decide +kernel

/-! ### Collections (18) -/

/-- A message of device 1 of kind `k`, phase `p` and code `c`, in its bus words. -/
def wordsOf (k code arg handle tag : Nat) : BitVec 64 × BitVec 64 :=
  let m : BusMsg := { kind := k, sender := 1, code := code, arg := arg, handle := handle, tag := tag, q := 1280 * 7 + 5 }
  (m.word0, m.word1 7)

/-- The message as device 0 receives it in slot 7. -/
def msgOf (k code arg handle tag : Nat) : BusMsg :=
  busMsgOf (wordsOf k code arg handle tag).1 (wordsOf k code arg handle tag).2 7

theorem hyp_bus_messages : upA.busD = 1 ∧ (collS 0 2).busD ≠ 1 ∧ (collS 0 2).inColl = true ∧ upA.inColl = false ∧
    (∀ k ∈ [1, 4, 5], busFrom (collS 0 2) (msgOf k 9 0 47 0) [k] none = true) ∧ (collS 0 2).coll.held = [] ∧
    (let x := { msgOf 1 9 0 100 5 with tag := 5 }
     let s : State := { collS 0 2 with exh := [(100, ⟨3, 0, 1, 2, [47]⟩)], coll := { (collS 0 2).coll with held := [x] } }
     s.coll.held[0]? = some x ∧ s.view.isCollection x.handle = true ∧ x.tag ≠ s.tagOf x.handle ∧ s.coll.ctlQ.length < 64 ∧
       s.view.isCollection 47 = false ∧ s.tagOf 100 = 1) ∧
    (let x := { msgOf 1 9 0 47 7 with sender := 0 }
     let s : State := { collS 0 2 with coll := { (collS 0 2).coll with held := [x, { x with tag := 1 }] } }
     s.coll.held[0]? = some x ∧ s.view.isCollection x.handle = false ∧ x.sender = s.view.index ∧ (s.view.find x.handle).isSome ∧
       x.tag ≠ s.view.epoch x.handle % 2 ^ 16 ∧ s.coll.held[1]? = some { x with tag := 1 } ∧ 1 = s.view.epoch x.handle % 2 ^ 16) ∧
    (let x := { msgOf 1 9 0 47 0 with q := 1280 * 50 }
     (collS 0 2).coll.trgQ = [] ∧ firstSlot (collS 0 2) 0 0 x = 32 ∧ tooLate (collS 0 2) 32 x = false ∧ tooLate (collS 0 2) 49 x = true) := by
  decide +kernel

/-- A collection-wide action of exhibit 47 that this device holds. -/
def txnT (lead : Bool) (plan : Option Pending) (votes : List Nat) : Txn :=
  { id := 5, lead := lead, kind := 3, action := 1, handle := 47, time := ⟨0, 1001, 0⟩, op := 0x51, fn := 0, seq := 1, plan := plan, votes := votes }

/-- Device `i` of the formed collection with it. -/
def txnS (i : Nat) (x : Txn) : State := { collS i 2 with coll := { (collS i 2).coll with txns := [x] } }

theorem hyp_collection_actions :
    (∀ p ∈ [0, 1, 2, 3, 4], busFrom (collS 0 2) (msgOf 3 (p * 16 + 1) 5 47 0) [2, 3] (some p) = true) ∧
    (collS 0 2).isLead = true ∧ (collS 1 2).isLead = false ∧ (collS 0 2).coll.ctlQ.length < 64 ∧
    (let m := { msgOf 3 0x31 5 47 0 with sender := 0 }
     m.sender = (collS 1 2).view.lead ∧ busFrom (collS 1 2) m [2, 3] (some 3) = true ∧ tentative m (collS 1 2) = none ∧
       tentative m (txnS 1 (txnT false none [])) = some (txnT false none [])) ∧
    (txnS 0 (txnT true none [])).coll.txns = [txnT true none []] ∧ (msgOf 3 0x11 5 47 0).sender ∉ (txnT true none []).votes ∧
    (txnT true none []).id % 2 ^ 16 = (msgOf 3 0x11 5 47 0).arg % 2 ^ 16 ∧ (txnT true none []).kind = (msgOf 3 0x11 5 47 0).kind ∧
    (txnT true none []).handle = (msgOf 3 0x11 5 47 0).handle ∧ (collS 0 2).chainOrder = [0, 1] := by decide +kernel

theorem hyp_votes : (∃ d ∈ (txnS 0 (txnT true none [])).chainOrder, d ≠ 0 ∧ d ∉ (txnT true none []).votes ∧
      ∀ e ∈ (txnT true none []).refused, e.1 ≠ d) ∧
    (txnS 0 (txnT true none [])).coll.txns.find? (fun x => x.lead && x.id == 5) = some (txnT true none []) ∧
    (txnS 1 (txnT false none [])).coll.txns.find? (fun x => !x.lead && x.id == 5) = some (txnT false none []) ∧
    sampleOf upA.cad ⟨0, 1001, 0⟩ ≤ 0 + 51200000 ∧ 0 + 51200000 < sampleOf upA.cad ⟨20, 0, 0⟩ ∧
    (∃ d ∈ [0, 1, 2], d ≠ 0 ∧ d ≠ 1 ∧ d ∉ (txnT true none []).votes) := by decide +kernel

theorem hyp_lanes : upA.collD ≤ 1 ∧ (collS 0 0).collD = 2 ∧ (collS 0 0).ownLanes = [2, 3] ∧ 2 ∈ (collS 0 0).coll.lanes ∧
    (let s : State := { collS 0 0 with coll := { lanes := [2] } }
     3 ∉ s.coll.lanes ∧ (∀ l ∈ s.ownLanes, l ≠ 3 → l ∈ s.coll.lanes) ∧ s.coll.ctlQ.length < 64 ∧ s.coll.st ≠ 3 ∧ s.lanesUp = false) ∧
    (let s : State := { collS 0 0 with coll := {} }
     ∃ l ∈ s.ownLanes, l ≠ 3 ∧ l ∉ s.coll.lanes) ∧ (collS 0 2).lanesUp = true ∧ (collS 0 0).inColl = false ∧ (collS 0 3).inColl = true ∧
    (msgOf 7 0 0 0xFFFF 0).kind = 7 ∧ 0 = (collS 0 1).posOf (collS 0 1).view.index ∧ 0 + 1 < (collS 0 1).collD ∧
    (collS 0 1).coll.offsets.length < 1024 ∧ busFrom (collS 0 1) (msgOf 8 3 0 0xFFFF 0) [8] none = true ∧
    busFrom upA (msgOf 8 3 0 0xFFFF 0) [8] none = false ∧
    (let s := collS 1 1
     let m := busMsgOf ({ msgOf 8 s.major (cadenceCrc s * 2 ^ 16) 0xFFFF 0 with sender := 0 } : BusMsg).word0 0 7
     busFrom s m [8] none = true ∧ s.coll.st = 1 ∧ s.isLead = false ∧ s.lanesUp = true ∧ s.cad.synced = true ∧
       (∀ d ∈ s.chainOrder, d ≠ s.view.index → d = m.sender) ∧ m.code = s.major ∧ bitsOf m.arg 16 32 = cadenceCrc s) := by decide +kernel

/-! ### Power, galleries, faults, Curator, start-up (17, 19 to 21) -/

/-- Every domain is powered. -/
def pwrS (p : Pow → Pow) : State := { upA with pow := p { domains := 2 ^ 31 - 1 } }

theorem hyp_domains : (∀ g ∈ (pwrS fun p => { p with ledger := [⟨8, 0, 5, 0, none, 0⟩] }).ledger, g.op = 8 ∧ g.unit = 0 ∧ g.holds 0 = true) ∧
    (pwrS fun p => { p with ledger := [⟨8, 0, 5, 0, none, 0⟩] }).ledger.length = 1 ∧ 8 ≠ 11 ∧ 8 ≠ 12 ∧ (pwrS id).ledger = [] ∧
    29 ∈ opDomains upA.view 8 0 ∧ (pwrS id).isUp 30 = true ∧ 30 ∉ (pwrS id).neededDomains 0 ∧
    (∀ e < 31, (pwrS id).isUp e = true → 30 ∉ requires e) ∧ (∃ e, e < 31 ∧ (pwrS id).isUp e = true ∧ 27 ∈ requires e) ∧
    upA.isUp 30 = false ∧ (∀ e < 31, (pwrS fun p => { p with domains := 2 ^ 24 + 2 ^ 25 }).isUp e = true → 25 ∉ requires e) ∧
    ((quS 0 { st := 1, desc := some ⟨0, 0, 32, 0, 0⟩ }).qu 63).desc.isSome ∧ (quS 0 {}).pow.faults = [] ∧
    tget (0, []) (pwrS fun p => { p with faults := [(30, (2, [0, 0]))] }).pow.faults 30 = (2, [0, 0]) ∧
    ([0, 0].filter fun x => decide (0 ≤ x + sixtySeconds)).length = 2 ∧ 30 ∈ (pwrS fun p => { p with down := [30] }).pow.down ∧
    (∀ x ∈ [(⟨30, caDomain, none, 0, some 5⟩ : Loss)], x.unit = 30 ∧ x.cause = caDomain ∧ x.due 5 = true ∧ x.due 4 = false) ∧
    (pwrS id).pow.tripped = false := by decide +kernel

theorem hyp_galleries : 8 ∉ up.health.galleries ∧ up.view.gallery 7 = 7 ∧ 7 ∉ up.gal.out ∧ up.gal.migr = [] ∧
    (∀ q < 8, q ≠ 7 → up.view.gallery q ≠ 7) ∧ up.freeGalleries = [8] ∧
    ({ up with health := { galleries := [8] } } : State).freeGalleries = [] ∧
    (let m : Migration := ⟨7, 8, 5, 9, false, false, 0, 7⟩
     let s : State := { upA with gal := { migr := [m] } }
     s.gal.migr.find? (fun m => m.pos == 7 && !m.warming && decide (m.warm ≤ 5)) = some m ∧
       s.gal.migr.find? (fun m => m.pos == 7 && decide (m.tm ≤ 9)) = some m ∧ m.target < 9 ∧ s.cur.pending = [] ∧
       ∀ x ∈ s.gal.migr, ¬(x.pos = 7 ∧ x.tm ≤ 8)) := by decide +kernel

/-- The Curator in this state of start-up. -/
def curS (b : Boot) : State := { upA with boot := b }

theorem hyp_curator : (curS { st := 1 }).boot.st = 1 ∧ (curS { st := 1 }).pow.fallow = 0 ∧ (curS { st := 3 }).boot.st = 3 ∧
    (({} : Health).mismatches.filter fun x => decide (0 ≤ x + 720 * 3600000)).length < 3 ∧
    3 ≤ (({ mismatches := [0, 0, 0] } : Health).mismatches.filter fun x => decide (720 * 3600000 ≤ x + 720 * 3600000)).length ∧
    ({ upA with cur := { restart := some (2, 0) } } : State).cur.restart = some (2, 0) ∧ upA.cur.restart = none ∧ up.boot.numVfs < 16 ∧
    ({ upA with mbox := [(15, { busy := true })] }.mb 15).busy = true := by decide +kernel

/-- Every image answers `k`: 0 it starts, 1 it hangs. -/
def repR (k : Nat) : BootReport := { attempts := [k, k], training := [], failedGals := [], cals := [] }

theorem hyp_start_up : State.reset.boot.st = 0 ∧ up.boot.st ≠ 0 ∧ State.reset.boot.strapPerst = false ∧ State.reset.boot.report = none ∧
    State.reset.boot.tries = 0 ∧ State.reset.pow.ledger = [] ∧ State.reset.boot.order[0]? = some 0 ∧ State.reset.boot.usable 0 = true ∧
    (repR 0).attempts.getD 0 2 = 0 ∧ (repR 1).attempts.getD 0 2 = 1 ∧ State.reset.boot.select = 0 ∧
    (curS { straps := 3 }).boot.order[0]? = none ∧ (curS { st := 0, strapPerst := true }).boot.perst = true ∧
    (let b : Boot := { report := some (repR 0), supplies := true, imgB := { valid := true } }
     b.order[b.tries + 1]? = some 1 ∧ b.usable 1 = true ∧ (repR 0).attempts.getD (b.tries + 1) 2 = 0) ∧
    ({ report := some (repR 0), supplies := true, tries := 1 } : Boot).order[2]? = none ∧
    (pwrS fun p => { p with ledger := baseGrants 0 }).pow.ledger ≠ [] := by decide +kernel

theorem hyp_fallow : (∀ m ∈ [0, 1], Fresh (rq 8 [(1, m)]) up ∧ Passes (fallowEnterBody (rq 8 [(1, m)]) up) ∧ (rq 8 [(1, m)]).u 0 1 = m) ∧
    up.queue = [] ∧ ((quS 0 { st := 1, desc := some ⟨0, 0, 32, 0, 0⟩ }).qu 63).st ≠ 0 ∧
    (let s := pwrS fun p => { p with fallow := 2, wake := some 63 }
     s.pow.fallow ≠ 0 ∧ s.pow.wake.isSome ∧ s.pow.link = false ∧ 24 ∉ s.pow.down) ∧
    (pwrS fun p => { p with fallow := 1, rung := true, link := true }).pow.link = true ∧ up.pow.fallow = 0 := by decide +kernel

/-- The next state of a step, if it has one. -/
def nextOf (o : Host.Outcome State Fault Refusal) : Option State := match o with | .next t => some t | _ => none

theorem hyp_deaccession : ((nextOf (step { up with health := { causes := 5 }, pending := [.powerStatus (rq 0 [])] })).map
      fun t => (t.health.causes, t.deaccLow)) = some (5, true) ∧ (5 : Nat).testBit 2 = true ∧
    ({ up with health := { causes := 5 } } : State).deaccLow = true ∧ up.health.causes % 2 = 0 ∧
    up.health.causes.testBit 1 = false := by decide +kernel

/-! ### Worked examples of the manual -/

/-- 00: C(4096, 120, 0x8000) at 256 samples a slot lies 30,848 samples into turn 4096. -/
theorem test_worked_sample_position :
    ctPos { ({} : Cad) with anchored := true, rnum := 256 * 2 ^ 32, spt := 3120, turnInit := 4096 } ⟨4096, 120, 0x8000⟩ =
      30848 * 2 ^ 48 := by decide +kernel

/-- 10: samples -3 and +1,000 open a group with the bytes 0xFD, 0x8F, 0x3E. -/
theorem test_worked_r12_group : (packR12 [-3, 1000]).take 3 = [0xFD, 0x8F, 0x3E] := by decide +kernel

/-- 13: T[1,200] is 126,323, and the 1.0 GHz tone of amplitude 4,096 gives 3,948 at S = 3. -/
theorem test_worked_tone : sineTable 1200 = 126323 ∧
    tonesAt { blk := zeros 32 ++ fields [(6, 0x190000000000), (6, 0), (2, 4096), (50, 0)] } 3 = 3948 := by decide +kernel

/-- 03: one slice of sixteen with a skew residual of +100 fs: SPUR -7,608 and a deviation of 24 fs. -/
theorem test_worked_spur : spur ((List.range 16).map fun k => if k = 3 then { rSkew := 100000 } else {}) 0 = -7608 ∧
    rmsOver (10 ^ 3) ((List.range 16).map fun k => if k = 3 then 100000 else 0) = 24 := by decide +kernel

/-- 15: the codeword of c_31 = 0x02, what the check lane carries, and the failed pin DQ5. -/
theorem test_worked_codeword : let w := zxEncode (List.replicate 31 0 ++ [2])
    w.drop 32 = [0x1E, 0x6C, 0xF0, 0x80] ∧ (wordBurst w).map (fun (b : BitVec 36) => (b >>> 32).toNat) = [0, 1, 3, 3, 5, 6, 6, 0xC] ∧
      (wordBurst w).map (·.getLsbD 31) = [false, true, false, false, false, false, false, false] ∧
      zxDecode (burstWord ((wordBurst w).set 0 ((wordBurst w).getD 0 0 ||| 0x20))) = .fixed 5 1 := by decide +kernel

/-- 14: sixteen codes of mean 6,992,603.8 read I_REF 300.0 ppm high. -/
theorem test_worked_iref : (calMeasure upA 0 0xFF { calR with target := 6992601 :: List.replicate 15 6992604 }).error = 30000 := by
  decide +kernel

/-- 16: a record of 4,224 bytes at 0x10_2000_0F3A with MPS 512 goes out in nine writes. -/
theorem test_worked_host_writes : (splitWrites 512 4225 0x1020000F3A (zeros 4224)).map (fun w => w.2.length) =
    198 :: (List.replicate 7 512 ++ [442]) := by decide +kernel

/-- 03: gang sample 1,001 of the pair gang of CH06 and CH07 is CH07's fs-sample 500, converted at slice position 4. -/
theorem test_worked_gang_sample :
    let s : State := { up with exh := [(200, ⟨1, 0, 1, 2, [6, 7]⟩)], chan := [(7, { hist := [⟨0, 4, 16, 160, 0, false⟩] })] }
    (s.samples 200 false 1000 (List.replicate 4 { code := 100 })).map (·.y) = [100, 90, 100, 100] := by decide +kernel

end Sys2Proof.Tests
end

section
/-! SUPPORT. How a Conservator core issues an instruction that acts on its bank alone (R292, R300), and what a write
of an accumulator leaves in the bank (R297, R300). -/
namespace Sys2Proof.Machine

/-! ### Core slots and the bank that issues -/

@[simp] theorem State.cc_setCore_self (s : State) (c : Nat) (x : Core) : (s.setCore c x).cc c = x := by
  simp [State.cc]

@[simp] theorem Core.onBank_cur (x : Core) (f : Bank → Bank) : (x.onBank f).cur = f x.cur := by
  by_cases h : x.bank <;> simp [Core.onBank, Core.cur, h]

/-- Issue of an instruction that acts as `f` on the issuing bank alone. -/
theorem Core.issue_of_onBank {x : Core} {eff : Core → Core} {f : Bank → Bank} (he : eff x.land = x.land.onBank f) :
    x.issue eff = { (x.land.onBank fun b => (f b).next).clocks 1 with
      irq := x.land.wants, resumed := x.land.bank && x.land.resumed } := by
  simp only [Core.issue, he]
  by_cases h : x.land.bank <;> simp [Core.onBank, Core.clocks, h]

theorem consExec_of_ready {c : Nat} {i : Instr} {s : State} (eff : Core → Core) (hr : consReady c i s = true) :
    consExec c i eff s = s.setCore c ((s.cc c).issue eff) := by
  simp [consExec, hr]

theorem issues_consExec {c : Nat} {i : Instr} {s : State} {eff : Core → Core} {f : Bank → Bank}
    (hr : consReady c i s = true) (he : eff (seen c s) = (seen c s).onBank f) :
    Issues c s (consExec c i eff s) f := by
  have hcc : (consExec c i eff s).cc c = (s.cc c).issue eff := by
    rw [consExec_of_ready eff hr, State.cc_setCore_self]
  unfold Issues
  rw [hcc, Core.issue_of_onBank he]
  refine ⟨?_, ?_, Core.onBank_cur _ _, ?_, rfl, ?_⟩
  · rw [consExec_of_ready eff hr, Core.issue_of_onBank he]
  all_goals unfold Core.onBank; split_ifs <;> rfl

/-- A row that runs `eff` at once issues its instruction, where `eff` acts as `f` on the issuing bank alone. -/
theorem completes_of_onBank {c : Nat} {i : Instr} {s : State} {eff : Core → Core} {f : Bank → Bank}
    (hx : exec i s = .next (consExec c i eff s)) (hr : consReady c i s = true)
    (he : eff (seen c s) = (seen c s).onBank f) {P : State → Prop} (hP : ∀ t, Issues c s t f → P t) :
    Completes i s P := ⟨_, hx, hP _ (issues_consExec hr he)⟩

section Issued
variable {c : Nat} {s t : State} {f : Bank → Bank}

theorem Issues.eq_setCore (h : Issues c s t f) : t = s.setCore c (t.cc c) := h.1

theorem Issues.cur_eq (h : Issues c s t f) : (t.cc c).cur = (f (seen c s).cur).next := by
  obtain ⟨-, -, hcur, -⟩ := h
  exact hcur

theorem Issues.memories_eq (h : Issues c s t f) : (t.cc c).x = (seen c s).x ∧ (t.cc c).y = (seen c s).y := by
  obtain ⟨-, -, -, hrest, -⟩ := h
  rw [id_eq] at hrest
  rw [← hrest]
  exact ⟨rfl, rfl⟩

end Issued

/-! ### Saturation (R297) -/

theorem satAcc_le (z : Int) : satAcc z ≤ 2 ^ 43 - 1 := by unfold satAcc; omega

theorem le_satAcc (z : Int) : -(2 ^ 43 - 1) ≤ satAcc z := by unfold satAcc; omega

theorem satAcc_of_mem {z : Int} (hl : -(2 ^ 43 - 1) ≤ z) (hu : z ≤ 2 ^ 43 - 1) : satAcc z = z := by
  unfold satAcc; omega

theorem satAcc_of_gt {z : Int} (h : 2 ^ 43 - 1 < z) : satAcc z = 2 ^ 43 - 1 := by unfold satAcc; omega

theorem satAcc_of_lt {z : Int} (h : z < -(2 ^ 43 - 1)) : satAcc z = -(2 ^ 43 - 1) := by unfold satAcc; omega

/-! ### Writes of accumulators (R297, R300) -/

section Bank
variable (b : Bank) (i k : Nat) (z : Int)

theorem Bank.accWrite_eq : b.accWrite i z = { b with
    acc := b.acc.set i (satAcc z)
    late := b.late ++ ⟨b.issued + 3, .src i (satAcc z)⟩ :: if satAcc z = z then [] else [⟨b.issued + 3, .aov⟩] } := by
  by_cases h : satAcc z = z <;> simp [Bank.accWrite, Bank.delay, h]

@[simp] theorem Bank.accWrite_acc : (b.accWrite i z).acc = b.acc.set i (satAcc z) := by rw [Bank.accWrite_eq]

@[simp] theorem Bank.accWrite_src : (b.accWrite i z).src = b.src := by rw [Bank.accWrite_eq]

@[simp] theorem Bank.accWrite_d : (b.accWrite i z).d = b.d := by rw [Bank.accWrite_eq]

theorem Bank.accWrite_late_of_exact {z : Int} (h : satAcc z = z) :
    (b.accWrite i z).late = b.late ++ [⟨b.issued + 3, .src i z⟩] := by
  simp [Bank.accWrite_eq, h]

theorem Bank.aov_mem_accWrite_late {z : Int} (h : satAcc z ≠ z) :
    (⟨b.issued + 3, .aov⟩ : Late) ∈ (b.accWrite i z).late := by
  simp [Bank.accWrite_eq, h]

theorem Bank.accWrite_accv_self {i : Nat} (h : i < b.acc.length) : (b.accWrite i z).accv i = satAcc z := by
  simp [Bank.accv, h]

theorem Bank.accWrite_accv_other {i k : Nat} (h : k ≠ i) : (b.accWrite i z).accv k = b.accv k := by
  simp [Bank.accv, List.getElem?_set_ne h.symm]

@[simp] theorem Bank.next_accv : b.next.accv k = b.accv k := rfl

@[simp] theorem Bank.bump_accv (p : Nat) (step : Option Int) : (b.bump p step).accv k = b.accv k := by
  cases step <;> rfl

@[simp] theorem mulBump_accv (m : FmtM) : (mulBump m b).accv k = b.accv k := by
  by_cases hx : m.xsrc <;> by_cases hy : m.ysrc <;> simp [mulBump, hx, hy]

end Bank

end Sys2Proof.Machine
end

section
/-! PROOF. Multiply instructions (R296, R297). -/
namespace Sys2Proof.Machine

/-! ### What a multiply makes of its bank (R296) -/

/-- The bank after a complex multiply whose exact products are `re` and `im`. -/
def complexBank (op : Nat) (m : FmtM) (re im : Int) (b : Bank) : Bank :=
  mulBump m ((b.accWrite m.a (combine op (b.accv m.a) re)).accWrite (m.a + 1) (combine op (b.accv (m.a + 1)) im))

theorem complexBank_accv_re (op : Nat) (m : FmtM) (re im : Int) (b : Bank) (h : m.a < b.acc.length) :
    (complexBank op m re im b).accv m.a = satAcc (combine op (b.accv m.a) re) := by
  rw [complexBank, mulBump_accv, Bank.accWrite_accv_other _ _ (by omega), Bank.accWrite_accv_self _ _ h]

theorem complexBank_accv_im (op : Nat) (m : FmtM) (re im : Int) (b : Bank) (h : m.a + 1 < b.acc.length) :
    (complexBank op m re im b).accv (m.a + 1) = satAcc (combine op (b.accv (m.a + 1)) im) := by
  rw [complexBank, mulBump_accv, Bank.accWrite_accv_self _ _ (by simpa using h)]

theorem complexBank_accv_other (op : Nat) (m : FmtM) (re im : Int) (b : Bank) {k : Nat} (h : k ≠ m.a)
    (h' : k ≠ m.a + 1) : (complexBank op m re im b).accv k = b.accv k := by
  rw [complexBank, mulBump_accv, Bank.accWrite_accv_other _ _ h', Bank.accWrite_accv_other _ _ h]

/-- The bank after accumulators `i`, `i + 1`, … take the exact products `ps`, one write after the other. -/
def accumulate (op : Nat) : List Int → Nat → Bank → Bank
  | [], _, b => b
  | p :: ps, i, b => accumulate op ps (i + 1) (b.accWrite i (combine op (b.accv i) p))

theorem accumulate_accv_below (op : Nat) (ps : List Int) {i k : Nat} (b : Bank) (h : k < i) :
    (accumulate op ps i b).accv k = b.accv k := by
  induction ps generalizing i b with
  | nil => rfl
  | cons p ps ih => rw [accumulate, ih _ (by omega), Bank.accWrite_accv_other _ _ (by omega)]

/-- Each accumulator continues from its own old value: no write of the run touches another's. -/
theorem accumulate_accv (op : Nat) (ps : List Int) (i j : Nat) (b : Bank) (h : i + ps.length ≤ b.acc.length)
    (hj : j < ps.length) :
    (accumulate op ps i b).accv (i + j) = satAcc (combine op (b.accv (i + j)) ps[j]) := by
  induction ps generalizing i j b with
  | nil => simp at hj
  | cons p ps ih =>
    rw [List.length_cons] at h hj
    cases j with
    | zero => exact (accumulate_accv_below op ps _ (Nat.lt_succ_self i)).trans (b.accWrite_accv_self _ (by omega))
    | succ j =>
      have hk : i + (j + 1) = i + 1 + j := by omega
      rw [hk, accumulate, ih _ _ _ (by simp; omega) (by omega), Bank.accWrite_accv_other _ _ (by omega),
        List.getElem_cons_succ]

theorem accumulate_four (op : Nat) (p0 p1 p2 p3 : Int) (b : Bank) (h : b.acc.length = 4) (m : FmtM) :
    let b' := mulBump m (accumulate op [p0, p1, p2, p3] 0 b)
    b'.accv 0 = satAcc (combine op (b.accv 0) p0) ∧ b'.accv 1 = satAcc (combine op (b.accv 1) p1) ∧
      b'.accv 2 = satAcc (combine op (b.accv 2) p2) ∧ b'.accv 3 = satAcc (combine op (b.accv 3) p3) := by
  have hacc (j : Nat) (hj : j < 4) := accumulate_accv op [p0, p1, p2, p3] 0 j b (by simp [h]) hj
  simp only [mulBump_accv]
  exact ⟨hacc 0 (by decide), hacc 1 (by decide), hacc 2 (by decide), hacc 3 (by decide)⟩

/-! ### The rows -/

theorem exec_real {op c : Nat} {m : FmtM} {i : Instr}
    (hi : op = 0 ∧ i = .mpy c m ∨ op = 1 ∧ i = .mac c m ∨ op = 2 ∧ i = .msu c m) (s : State) :
    exec i s = .next (consExec c i (mulReal op m) s) := by
  obtain ⟨rfl, rfl⟩ | ⟨rfl, rfl⟩ | ⟨rfl, rfl⟩ := hi <;> rfl

theorem exec_complex {op c : Nat} {m : FmtM} {i : Instr}
    (hi : op = 0 ∧ i = .cmpy c m ∨ op = 1 ∧ i = .cmac c m ∨ op = 2 ∧ i = .cmsu c m) (s : State) :
    exec i s = .next (consExec c i (mulComplex op m) s) := by
  obtain ⟨rfl, rfl⟩ | ⟨rfl, rfl⟩ | ⟨rfl, rfl⟩ := hi <;> rfl

theorem exec_quad {op c : Nat} {m : FmtM} {i : Instr}
    (hi : op = 0 ∧ i = .qmpy c m ∨ op = 1 ∧ i = .qmac c m) (s : State) :
    exec i s = .next (consExec c i (mulQuad op m) s) := by
  obtain ⟨rfl, rfl⟩ | ⟨rfl, rfl⟩ := hi <;> rfl

theorem mulComplex_eq_onBank (op : Nat) (m : FmtM) (x : Core) :
    mulComplex op m x =
      let xw := if m.xsrc then x.cur.dv m.xd else x.mem false (x.cur.addr m.xp)
      let yw := if m.ysrc then x.cur.dv m.yd else x.mem true (x.cur.addr (4 + m.yp))
      let yi := if m.conj then -halfOf yw true else halfOf yw true
      x.onBank (complexBank op m (halfOf xw false * halfOf yw false - halfOf xw true * yi)
        (halfOf xw false * yi + halfOf xw true * halfOf yw false)) := rfl

theorem mulQuad_eq_onBank (op : Nat) (m : FmtM) (x : Core) :
    mulQuad op m x =
      let xw := if m.xsrc then x.cur.dv m.xd else x.mem false (x.cur.addr m.xp)
      let e := x.cur.addr (4 + m.yp) / 2 * 2
      let y0 := if m.ysrc then x.cur.dv (m.yd / 2 * 2) else x.mem true e
      let y1 := if m.ysrc then x.cur.dv (m.yd / 2 * 2 + 1) else x.mem true (e + 1)
      let v := halfOf xw m.xh
      x.onBank fun b => mulBump m (accumulate op
        [v * halfOf y0 false, v * halfOf y0 true, v * halfOf y1 false, v * halfOf y1 true] 0 b) := by
  by_cases hy : m.ysrc <;> simp only [mulQuad, mulOperands, hy] <;> rfl

/-! ### One write of an accumulator -/

theorem accWrite_saturates_once (b : Bank) (i : Nat) (z : Int) (hi : i < b.acc.length) :
    -(2 ^ 43 - 1) ≤ (b.accWrite i z).accv i ∧ (b.accWrite i z).accv i ≤ 2 ^ 43 - 1 ∧
      (-(2 ^ 43 - 1) ≤ z → z ≤ 2 ^ 43 - 1 →
        (b.accWrite i z).accv i = z ∧ (b.accWrite i z).late = b.late ++ [⟨b.issued + 3, .src i z⟩]) ∧
      (2 ^ 43 - 1 < z → (b.accWrite i z).accv i = 2 ^ 43 - 1 ∧ ⟨b.issued + 3, .aov⟩ ∈ (b.accWrite i z).late) ∧
      (z < -(2 ^ 43 - 1) → (b.accWrite i z).accv i = -(2 ^ 43 - 1) ∧ ⟨b.issued + 3, .aov⟩ ∈ (b.accWrite i z).late) := by
  rw [Bank.accWrite_accv_self b z hi]
  refine ⟨le_satAcc z, satAcc_le z, fun hl hu => ?_, fun hgt => ?_, fun hlt => ?_⟩
  · exact ⟨satAcc_of_mem hl hu, Bank.accWrite_late_of_exact b i (satAcc_of_mem hl hu)⟩
  · have hs := satAcc_of_gt hgt
    exact ⟨hs, Bank.aov_mem_accWrite_late b i (by omega)⟩
  · have hs := satAcc_of_lt hlt
    exact ⟨hs, Bank.aov_mem_accWrite_late b i (by omega)⟩

/-- Settles O10: each multiply issues at once with an effect on its bank alone, which writes its accumulators one after
the other, each from its own old value. -/
theorem conservatorMultiplies : Obligations.ConservatorMultiplies := by
  refine ⟨fun c m s i hlen ha hr => ⟨fun op hi => ?_, fun op ha2 hi => ?_, fun op hi => ?_⟩, fun b i z hlen hi => ?_⟩
  · exact completes_of_onBank (exec_real hi s) hr rfl fun t ht => ht
  · refine completes_of_onBank (exec_complex hi s) hr (mulComplex_eq_onBank op m (seen c s)) fun t ht => ?_
    rw [ht.cur_eq]
    exact ⟨ht.eq_setCore, complexBank_accv_re op m _ _ _ (by omega), complexBank_accv_im op m _ _ _ (by omega),
      fun k hk hk' => complexBank_accv_other op m _ _ _ hk hk', ht.memories_eq⟩
  · refine completes_of_onBank (exec_quad hi s) hr (mulQuad_eq_onBank op m (seen c s)) fun t ht => ?_
    rw [ht.cur_eq]
    obtain ⟨h0, h1, h2, h3⟩ := accumulate_four op _ _ _ _ (seen c s).cur hlen m
    exact ⟨ht.eq_setCore, h0, h1, h2, h3, ht.memories_eq⟩
  · obtain ⟨hl, hu, hexact, hgt, hlt⟩ := accWrite_saturates_once b i z (by omega)
    exact ⟨hl, hu, hexact, hgt, hlt, fun k hk => b.accWrite_accv_other z hk, b.accWrite_src i z, b.accWrite_d i z⟩

end Sys2Proof.Machine
end

section
/-! SUPPORT. What a response says at its offsets (R470), and what one mailbox request does by its SEQ (R467). -/
namespace Sys2Proof.Machine

/-! ### Fields of a block of bytes -/

theorem leNat_leBytes (k n : Nat) : leNat (leBytes k n) = n % 256 ^ k := by
  induction k generalizing n with
  | zero => simp [leBytes, leNat, Nat.mod_one]
  | succ k ih =>
    rw [leBytes, leNat, ih, BitVec.toNat_ofNat, pow_succ' 256, Nat.mod_mul (a := 256)]

theorem getU_fields (before after : List (Nat × Nat)) (size v : Nat) :
    getU (fields (before ++ (size, v) :: after)) (before.map (·.1)).sum size = v % 256 ^ size := by
  have hsplit : fields (before ++ (size, v) :: after) = fields before ++ (leBytes size v ++ fields after) := by
    simp [fields]
  rw [getU, slice, hsplit, ← fields_length before, List.drop_left, List.take_left' (leBytes_length size v),
    leNat_leBytes]

theorem getU_take {bs : List Byte} {n off size : Nat} (h : off + size ≤ n) :
    getU (bs.take n) off size = getU bs off size := by
  rw [getU, getU, slice, slice, List.drop_take, List.take_take, min_eq_left (by omega)]

/-! ### The response header (R470) -/

@[simp] theorem Resp.header_length (p : Resp) (replay : Bool) : (p.header replay).length = 32 := by
  simp [Resp.header, ctFields]

theorem Resp.getU_header_error (p : Resp) (replay : Bool) : getU (p.header replay) 12 2 = p.error % 65536 := by
  simpa [Resp.header] using
    getU_fields [(2, p.opcode), (2, b2n replay + 2 * b2n (p.addr != 0)), (4, p.seq), (4, p.result.length)]
      ((2, p.detail) :: (ctFields p.time ++ [(6, 0)])) 2 p.error

theorem Resp.getU_header_detail (p : Resp) (replay : Bool) : getU (p.header replay) 14 2 = p.detail % 65536 := by
  simpa [Resp.header] using
    getU_fields [(2, p.opcode), (2, b2n replay + 2 * b2n (p.addr != 0)), (4, p.seq), (4, p.result.length), (2, p.error)]
      (ctFields p.time ++ [(6, 0)]) 2 p.detail

/-- The vector that ends a completion changes at most pending bits, so the response stands as it was written (R469). -/
theorem State.complete_response (s : State) (fn : Nat) (p : Resp) (replay : Bool) (last : Nat) (st : Option Resp) :
    ((s.complete fn p replay last st).mb fn).replay = replay ∧
      ((s.complete fn p replay last st).mb fn).area.take 32 = p.header replay := by
  unfold State.complete
  dsimp only
  generalize (if p.addr = 0 then s else s.send _) = u
  obtain ⟨-, -, hmb, -⟩ := State.msix_frame (State.setMb u fn _) fn 0
  have hreplay := congrArg Mbox.replay hmb
  have harea := congrArg Mbox.area hmb
  rw [State.mb_setMb_self] at hreplay harea
  refine ⟨hreplay, ?_⟩
  rw [harea, putBytes, List.take_zero, List.nil_append, List.append_assoc]
  exact List.take_left' (Resp.header_length p replay)

theorem State.complete_mailOnly (r : Req) (s : State) (p : Resp) (replay : Bool) (last : Nat) (st : Option Resp) :
    MailOnly r s ((s.tick r.t).complete r.fn p replay last st) := by
  obtain ⟨hrest, hsent, -, -, -, -, hmb⟩ := (s.tick r.t).complete_frame r.fn p replay last st
  exact ⟨hrest, hsent, hmb⟩

/-! ### One request by its SEQ (R467) -/

/-- Every command of `mailRow` is one request to the mailbox protocol. -/
theorem exec_of_mailRow {i : Instr} {op : Nat} {pf : Bool} {r : Req} {body : State → Effect}
    (h : mailRow i = some (op, pf, r, body)) (s : State) : exec i s = .next (runCommand op pf r s body) := by
  unfold mailRow at h
  split at h <;> cases h
  all_goals rfl

section Request
variable {op : Nat} {pf : Bool} {r : Req} {body : State → Effect} {s : State}

theorem runCommand_repeated (ha : (s.tick r.t).accepting = true) (hseq : r.seq = (s.mb r.fn).lastSeq)
    {p : Resp} (hp : (s.mb r.fn).stored = some p) :
    runCommand op pf r s body =
      (s.tick r.t).complete r.fn p true (s.mb r.fn).lastSeq (s.mb r.fn).stored := by
  have hnew : r.seq ≠ ((s.mb r.fn).lastSeq + 1) % 2 ^ 32 := by omega
  simp only [runCommand, runWith, State.mb_tick, ha, Bool.not_true, Bool.false_eq_true, if_false, if_neg hnew,
    if_pos hseq, hp, Option.getD_some]

theorem runCommand_outOfOrder (ha : (s.tick r.t).accepting = true) (hold : r.seq ≠ (s.mb r.fn).lastSeq)
    (hnew : r.seq ≠ ((s.mb r.fn).lastSeq + 1) % 2 ^ 32) :
    ∃ p : Resp, p.error = eSeq ∧ p.detail = ((s.mb r.fn).lastSeq + 1) % 2 ^ 16 ∧
      runCommand op pf r s body =
        (s.tick r.t).complete r.fn p false (s.mb r.fn).lastSeq (s.mb r.fn).stored := by
  refine ⟨{ opcode := op, seq := r.seq, error := eSeq, detail := ((s.mb r.fn).lastSeq + 1) % 2 ^ 16,
            time := (s.tick r.t).time, result := [], addr := 0 }, rfl, rfl, ?_⟩
  simp only [runCommand, runWith, State.mb_tick, ha, Bool.not_true, Bool.false_eq_true, if_false, hnew, hold]

/-- A new request completes with its own SEQ, whether its checks and body accept it or refuse it. -/
theorem runCommand_new (ha : (s.tick r.t).accepting = true) (hnew : r.seq = ((s.mb r.fn).lastSeq + 1) % 2 ^ 32) :
    ∃ (u : State) (p : Resp), runCommand op pf r s body = u.complete r.fn p false r.seq (some p) := by
  simp only [runCommand, runWith, State.mb_tick, ha, Bool.not_true, Bool.false_eq_true, if_false, hnew,
    if_true]
  cases checked op pf r (s.tick r.t) body with
  | ok a => exact ⟨_, _, rfl⟩
  | error e => exact ⟨_, _, rfl⟩

end Request

end Sys2Proof.Machine
end

section
/-! SUPPORT. LAST_SEQ and the stored response of every mailbox through events, the health log, Courier stops and
restarts. -/
namespace Sys2Proof.Machine

/-- What R467 compares and repeats: LAST_SEQ and the stored response, by function. -/
def lastRun (boxes : Table Mbox) (g : Nat) : Nat × Option Resp := ((tget {} boxes g).lastSeq, (tget {} boxes g).stored)

theorem lastRun_tset {boxes : Table Mbox} {fn : Nat} {m : Mbox} (hseq : m.lastSeq = (tget {} boxes fn).lastSeq)
    (hst : m.stored = (tget {} boxes fn).stored) : lastRun (tset boxes fn m) = lastRun boxes := by
  funext g
  by_cases h : fn = g
  · subst h
    simp [lastRun, hseq, hst]
  · simp [lastRun, tget_tset_other _ _ _ _ _ h]

theorem lastRun_foldl {α : Type} {f : State → α → State} (hf : ∀ s a, lastRun (f s a).mbox = lastRun s.mbox)
    (l : List α) (s : State) : lastRun (l.foldl f s).mbox = lastRun s.mbox := by
  induction l generalizing s with
  | nil => rfl
  | cons a l ih => rw [List.foldl_cons, ih, hf]

/-! ### Events -/

@[simp] theorem lastRun_msix (s : State) (fn v : Nat) : lastRun (s.msix fn v).mbox = lastRun s.mbox := by
  unfold State.msix
  dsimp only
  by_cases h : (s.mb fn).masked v = true
  · rw [if_pos h]
    exact lastRun_tset rfl rfl
  · rw [if_neg h, State.send_mbox]

@[simp] theorem lastRun_writeEvent (s : State) (e : Held) : lastRun (s.writeEvent e).mbox = lastRun s.mbox := by
  unfold State.writeEvent
  rw [lastRun_msix]
  exact lastRun_tset rfl rfl

@[simp] theorem lastRun_flushLost (s : State) (fn : Nat) : lastRun (s.flushLost fn).mbox = lastRun s.mbox := by
  unfold State.flushLost
  dsimp only
  split_ifs
  · rw [lastRun_writeEvent]
    exact lastRun_tset rfl rfl
  · rfl

@[simp] theorem lastRun_loseEvent (s : State) (fn code : Nat) : lastRun (s.loseEvent fn code).mbox = lastRun s.mbox :=
  lastRun_tset rfl rfl

@[simp] theorem lastRun_deliverEvent (s : State) (e : Held) : lastRun (s.deliverEvent e).mbox = lastRun s.mbox := by
  unfold State.deliverEvent
  dsimp only
  split_ifs <;> simp

@[simp] theorem lastRun_post (s : State) (code : Nat) (payload : List (Nat × Nat)) (fn : Nat) :
    lastRun (s.post code payload fn).mbox = lastRun s.mbox := by
  unfold State.post State.postTo
  split_ifs <;> simp

@[simp] theorem lastRun_postAll (s : State) (code : Nat) (payload : List (Nat × Nat)) :
    lastRun (s.postAll code payload).mbox = lastRun s.mbox :=
  lastRun_foldl (fun s f => lastRun_post s code payload f) _ s

/-! ### Health log, Couriers and staged sets -/

@[simp] theorem logEntry_mbox (kind unit sub detail : Nat) (s : State) :
    (logEntry kind unit sub detail s).mbox = s.mbox := State.setHealth_mbox s _

@[simp] theorem markActive_mbox (i : Nat) (s : State) : (markActive i s).mbox = s.mbox := rfl

@[simp] theorem lastRun_deaccession (cause : Nat) (s : State) :
    lastRun (deaccession cause s).mbox = lastRun s.mbox := by
  unfold deaccession
  split_ifs <;> simp

@[simp] theorem quStop_mbox (q : Nat) (left : Bool) (s : State) : (quStop q left s).mbox = s.mbox := by
  unfold quStop
  dsimp only
  split_ifs <;> rfl

theorem lastRun_stopQueues (l : List Nat) (left : Bool) (s : State) :
    lastRun (l.foldl (fun s q => quStop q left s) s).mbox = lastRun s.mbox :=
  lastRun_foldl (fun s q => by rw [quStop_mbox]) l s

@[simp] theorem lastRun_couriersStop (left : Bool) (s : State) :
    lastRun (couriersStop left s).mbox = lastRun s.mbox := lastRun_stopQueues s.queuesOn left s

@[simp] theorem lastRun_discardStaged (fn : Nat) (s : State) :
    lastRun (discardStaged fn s).mbox = lastRun s.mbox := by
  refine lastRun_foldl (fun s i => ?_) _ s
  cases i with
  | define h kind members => dsimp only; split_ifs <;> rfl
  | block b => rfl
  | delete h => rfl
  | assign h f => rfl

/-! ### Restarts of the Curator (R497, R498) -/

theorem lastRun_complete (s : State) (fn : Nat) (p : Resp) (replay : Bool) :
    lastRun (s.complete fn p replay (s.mb fn).lastSeq (s.mb fn).stored).mbox = lastRun s.mbox := by
  unfold State.complete
  dsimp only
  rw [lastRun_msix, State.setMb_mbox]
  split_ifs <;> exact lastRun_tset rfl rfl

@[simp] theorem lastRun_answerCaught (fn : Nat) (s : State) : lastRun (answerCaught fn s).mbox = lastRun s.mbox := by
  unfold answerCaught
  dsimp only
  split_ifs
  · rfl
  · exact lastRun_complete s fn _ false

@[simp] theorem lastRun_activated (s : State) : lastRun (activated s).mbox = lastRun s.mbox := by
  simp [activated]

@[simp] theorem restartBegins_mbox (cause : Nat) (s : State) : (restartBegins cause s).mbox = s.mbox := rfl

@[simp] theorem lastRun_rollBack (reason : Nat) (s : State) : lastRun (rollBack reason s).mbox = lastRun s.mbox := by
  simp [rollBack]

@[simp] theorem lastRun_countMismatch (s : State) : lastRun (countMismatch s).mbox = lastRun s.mbox := by
  unfold countMismatch
  dsimp only
  split_ifs <;> simp

theorem lastRun_restartDone (us : Nat) (damaged : Bool) (t : Nat) (s : State) :
    lastRun (restartDone us damaged t s).mbox = lastRun s.mbox := by
  have hheld (l : List Held) (s : State) := lastRun_foldl lastRun_deliverEvent l s
  have hdiscard (l : List Nat) (s : State) := lastRun_foldl (fun s fn => lastRun_discardStaged fn s) l s
  have hcaught (l : List Nat) (s : State) := lastRun_foldl (fun s fn => lastRun_answerCaught fn s) l s
  unfold restartDone
  dsimp only
  split
  · rfl
  · split_ifs <;> simp [hheld, hdiscard, hcaught]

/-! ### Resets of the link and of a function (R422, R573) -/

theorem lastRun_functionLevelReset (fn t : Nat) (s : State) :
    lastRun (functionLevelReset fn t s).mbox = lastRun s.mbox := by
  unfold functionLevelReset
  dsimp only
  split_ifs
  · rfl
  · rw [lastRun_stopQueues, State.tick_mbox]
  · rw [lastRun_postAll, lastRun_discardStaged, lastRun_stopQueues, State.tick_mbox]

theorem lastRun_hotReset (t : Nat) (s : State) : lastRun (hotReset t s).mbox = lastRun s.mbox :=
  lastRun_couriersStop false (s.tick t)

theorem lastRun_perst (asserted : Bool) (t : Nat) {s : State} (hstrap : s.boot.strapPerst = false) :
    lastRun (perst asserted t s).mbox = lastRun s.mbox := by
  unfold perst
  simp only [State.tick_boot, hstrap, Bool.false_eq_true, if_false]
  split_ifs <;> simp

theorem lastRun_watchdogExpiry (t : Nat) (s : State) : lastRun (watchdogExpiry t s).mbox = lastRun s.mbox := by
  unfold watchdogExpiry
  dsimp only
  split_ifs <;> simp

theorem lastRun_lockstepMismatch (t : Nat) (s : State) : lastRun (lockstepMismatch t s).mbox = lastRun s.mbox := by
  unfold lockstepMismatch
  dsimp only
  split_ifs <;> simp

theorem lastRun_activationTimeout (reason t : Nat) (s : State) :
    lastRun (activationTimeout reason t s).mbox = lastRun s.mbox := by
  unfold activationTimeout
  dsimp only
  split_ifs <;> simp

end Sys2Proof.Machine
end

section
/-! PROOF. SEQ and LAST_SEQ (R467). -/
namespace Sys2Proof.Machine

/-- A row that keeps what R467 compares and repeats, said of one mailbox. -/
theorem completes_of_lastRun {i : Instr} {s t : State} (hx : exec i s = .next t)
    (hk : lastRun t.mbox = lastRun s.mbox) (g : Nat) :
    Completes i s fun t => (t.mb g).lastSeq = (s.mb g).lastSeq ∧ (t.mb g).stored = (s.mb g).stored :=
  ⟨t, hx, Prod.ext_iff.mp (congrFun hk g)⟩

/-- Settles O18: by SEQ a request is new, repeated or out of order, each with its one completion; every reset but a cold
one keeps `lastRun`, and a cold one leaves every mailbox at its reset value. -/
theorem sequenceNumbers : Obligations.SequenceNumbers := by
  refine ⟨fun i op pf r body s p hi ha hseq _ hp => ?_, fun i op pf r body s hi ha hold hnew => ?_,
    fun s g => ⟨fun i op pf r body hi ha hnew => ?_, fun i hi => ?_, fun straps sp => ⟨_, rfl, rfl, rfl⟩⟩⟩
  · refine ⟨_, exec_of_mailRow hi s, ?_⟩
    rw [runCommand_repeated ha hseq hp]
    obtain ⟨-, -, hst, hlast, hbusy, hvalid, -⟩ :=
      (s.tick r.t).complete_frame r.fn p true (s.mb r.fn).lastSeq (s.mb r.fn).stored
    obtain ⟨hreplay, harea⟩ :=
      (s.tick r.t).complete_response r.fn p true (s.mb r.fn).lastSeq (s.mb r.fn).stored
    exact ⟨hst.trans hp, hlast, hreplay, hvalid, hbusy, harea, s.complete_mailOnly r p true _ _⟩
  · obtain ⟨p, herr, hdet, hrun⟩ := runCommand_outOfOrder (op := op) (pf := pf) (body := body) ha hold hnew
    refine ⟨_, exec_of_mailRow hi s, ?_⟩
    rw [hrun]
    obtain ⟨-, -, hst, hlast, -, hvalid, -⟩ :=
      (s.tick r.t).complete_frame r.fn p false (s.mb r.fn).lastSeq (s.mb r.fn).stored
    obtain ⟨-, harea⟩ :=
      (s.tick r.t).complete_response r.fn p false (s.mb r.fn).lastSeq (s.mb r.fn).stored
    refine ⟨hst, hlast, hvalid, ?_, ?_, s.complete_mailOnly r p false _ _⟩
    · rw [← getU_take (n := 32) (by omega), harea, p.getU_header_error, herr]
      rfl
    · rw [← getU_take (n := 32) (by omega), harea, p.getU_header_detail, hdet]
      exact Nat.mod_mod _ _
  · obtain ⟨u, p, hrun⟩ := runCommand_new (op := op) (pf := pf) (body := body) ha hnew
    obtain ⟨-, -, -, hlast, -⟩ := u.complete_frame r.fn p false r.seq (some p)
    exact ⟨_, exec_of_mailRow hi s, by rw [hrun]; exact hlast⟩
  · obtain ⟨fn, t, rfl⟩ | ⟨t, rfl⟩ | ⟨p, t, rfl, hstrap⟩ | ⟨us, d, t, rfl⟩ | ⟨t, rfl⟩ | ⟨t, rfl⟩ |
      ⟨x, t, rfl⟩ := hi
    · exact completes_of_lastRun rfl (lastRun_functionLevelReset fn t s) g
    · exact completes_of_lastRun rfl (lastRun_hotReset t s) g
    · exact completes_of_lastRun rfl (lastRun_perst p t hstrap) g
    · exact completes_of_lastRun rfl (lastRun_restartDone us d t s) g
    · exact completes_of_lastRun rfl (lastRun_watchdogExpiry t s) g
    · exact completes_of_lastRun rfl (lastRun_lockstepMismatch t s) g
    · exact completes_of_lastRun rfl (lastRun_activationTimeout x t s) g

end Sys2Proof.Machine
end

section
/-! SUPPORT. How the health state passes through branches, folds and chains of checks, and when the cause bits of one
state are all set in another (R565). -/
namespace Sys2Proof.Machine

/-! ### Branches and folds -/

section
variable {α β γ : Type} (p : Prop) [Decidable p]

@[simp] theorem health_ite (a b : State) : (if p then a else b).health = if p then a.health else b.health :=
  apply_ite State.health p a b

@[simp] theorem health_fst_ite (a b : State × α) :
    (if p then a else b).1.health = if p then a.1.health else b.1.health := apply_ite (fun x => x.1.health) p a b

@[simp] theorem health_snd_ite (a b : α × State) :
    (if p then a else b).2.health = if p then a.2.health else b.2.health := apply_ite (fun x => x.2.health) p a b

@[simp] theorem causes_ite (a b : Health) : (if p then a else b).causes = if p then a.causes else b.causes :=
  apply_ite Health.causes p a b

theorem foldl_unchanged (g : β → γ) {f : β → α → β} (hf : ∀ b a, g (f b a) = g b) (l : List α) (b : β) :
    g (l.foldl f b) = g b := by
  induction l generalizing b with
  | nil => rfl
  | cons a l ih => rw [List.foldl_cons, ih, hf]

/-- A fold over a value that holds a state. The side goal needs a proof that does not rest on the setters' unfolding:
where `simp` finds it, it runs with `-implicitDefEqProofs`. -/
theorem foldl_health_of (g : β → State) {f : β → α → β} (hf : ∀ b a, (g (f b a)).health = (g b).health) (l : List α)
    (b : β) : (g (l.foldl f b)).health = (g b).health :=
  foldl_unchanged (fun b => (g b).health) hf l b

@[simp] theorem foldl_health {f : State → α → State} (hf : ∀ s a, (f s a).health = s.health) (l : List α) (s : State) :
    (l.foldl f s).health = s.health := foldl_unchanged State.health hf l s

theorem foldl_causes {f : State → α → State} (hf : ∀ s a, (f s a).health.causes = s.health.causes) (l : List α)
    (s : State) : (l.foldl f s).health.causes = s.health.causes :=
  foldl_unchanged (fun s => s.health.causes) hf l s

end

/-! ### Chains of checks (R471) -/

/-- Where `e` accepts, the state that `g` reads off its value has the health of `s`. -/
def KeepsHealth {α : Type} (g : α → State) (s : State) (e : Except Err α) : Prop :=
  ∀ a, e = .ok a → (g a).health = s.health

section
variable {α β : Type} {g : α → State} {s : State}

@[simp] theorem keepsHealth_ok (a : α) : KeepsHealth g s (.ok a) ↔ (g a).health = s.health := by
  simp [KeepsHealth]

@[simp] theorem keepsHealth_pure (a : α) : KeepsHealth g s (pure a) ↔ (g a).health = s.health := keepsHealth_ok a

@[simp] theorem keepsHealth_error (x : Err) : KeepsHealth g s (.error x) := by simp [KeepsHealth]

@[simp] theorem keepsHealth_refuse (code detail : Nat) : KeepsHealth g s (refuse code detail) := keepsHealth_error _

@[simp] theorem keepsHealth_bind (e : Except Err β) (f : β → Except Err α) :
    KeepsHealth g s (e >>= f) ↔ ∀ b, e = .ok b → KeepsHealth g s (f b) := by
  constructor
  · intro h b hb a ha
    exact h a (by rw [hb]; exact ha)
  · intro h a ha
    obtain ⟨b, hb, hf⟩ := bind_ok ha
    exact h b hb a hf

@[simp] theorem keepsHealth_map (e : Except Err β) (f : β → α) :
    KeepsHealth g s (f <$> e) ↔ ∀ b, e = .ok b → (g (f b)).health = s.health := by
  cases e <;> simp [KeepsHealth, Functor.map, Except.map]

@[simp] theorem keepsHealth_ite (p : Prop) [Decidable p] (e e' : Except Err α) :
    KeepsHealth g s (if p then e else e') ↔ (p → KeepsHealth g s e) ∧ (¬p → KeepsHealth g s e') := by
  split_ifs <;> simp [*]

end

/-! ### Cause bits -/

/-- Every bit of `a` is set in `b`. -/
def Within (a b : Nat) : Prop := ∀ i, a.testBit i = true → b.testBit i = true

@[simp] theorem within_refl (a : Nat) : Within a a := fun _ h => h

@[simp] theorem within_or {a b : Nat} (h : Within a b) (c : Nat) : Within a (b ||| c) := by
  intro i hi
  rw [Nat.testBit_or, h i hi, Bool.true_or]

@[simp] theorem within_ite (p : Prop) [Decidable p] (a b c : Nat) :
    Within a (if p then b else c) ↔ (p → Within a b) ∧ (¬p → Within a c) := by
  split_ifs <;> simp [*]

theorem Within.ne_zero {a b : Nat} (h : Within a b) (ha : a ≠ 0) : b ≠ 0 := by
  obtain ⟨i, hi⟩ := Nat.exists_testBit_of_ne_zero ha
  rintro rfl
  simpa using h i hi

/-- A bit that is set stays as it is when it is set once more. -/
theorem or_two_pow_of_testBit {a k : Nat} (h : a.testBit k = true) : a ||| 2 ^ k = a := by
  refine Nat.eq_of_testBit_eq fun i => ?_
  rw [Nat.testBit_or, Nat.testBit_two_pow]
  by_cases hk : k = i
  · rw [← hk, h, Bool.true_or]
  · simp [hk]

end Sys2Proof.Machine
end

section
/-! SUPPORT. The health state past the named operations, the mailbox protocol and the cadence:
unchanged, or changed in no cause bit (R565). -/
namespace Sys2Proof.Machine

/-! ### The named operations (R420, R486 to R491) -/

@[simp] theorem State.msix_health (s : State) (fn v : Nat) : (s.msix fn v).health = s.health := by simp [State.msix]
@[simp] theorem State.writeEvent_health (s : State) (e : Held) : (s.writeEvent e).health = s.health := by
  simp [State.writeEvent]
@[simp] theorem State.flushLost_health (s : State) (fn : Nat) : (s.flushLost fn).health = s.health := by
  simp [State.flushLost]
@[simp] theorem State.loseEvent_health (s : State) (fn code : Nat) : (s.loseEvent fn code).health = s.health := by
  simp [State.loseEvent]
@[simp] theorem State.deliverEvent_health (s : State) (e : Held) : (s.deliverEvent e).health = s.health := by
  simp [State.deliverEvent]
@[simp] theorem State.postTo_health (s : State) (e : Held) : (s.postTo e).health = s.health := by simp [State.postTo]
@[simp] theorem State.post_health (s : State) (code : Nat) (payload : List (Nat × Nat)) (fn : Nat) :
    (s.post code payload fn).health = s.health := by simp [State.post]
@[simp] theorem State.postAll_health (s : State) (code : Nat) (payload : List (Nat × Nat)) :
    (s.postAll code payload).health = s.health := by simp [State.postAll]
@[simp] theorem State.postEx_health (s : State) (h code : Nat) (payload : List (Nat × Nat)) :
    (s.postEx h code payload).health = s.health := by simp [State.postEx]
@[simp] theorem State.bumpSeq_health (s : State) (k : Nat) : (s.bumpSeq k).health = s.health := by
  simp [State.bumpSeq]
@[simp] theorem State.produce_health (s : State) (r : Rec) : (s.produce r).health = s.health := by
  simp [State.produce]

@[simp] theorem State.closeGap_health (s : State) (h st hi : Nat) : (s.closeGap h st hi).health = s.health := by
  unfold State.closeGap
  dsimp only
  split <;> simp

@[simp] theorem State.freeNat_health (s : State) : s.freeNat.2.health = s.health := by simp [State.freeNat]
@[simp] theorem State.freeInt_health (s : State) : s.freeInt.2.health = s.health := by simp [State.freeInt]
@[simp] theorem State.freeBytes_health (s : State) (n : Nat) : (s.freeBytes n).2.health = s.health := by
  simp [State.freeBytes]

/-! ### The mailbox protocol (R465 to R473) -/

@[simp] theorem State.complete_health (s : State) (fn : Nat) (p : Resp) (replay : Bool) (lastSeq : Nat)
    (stored : Option Resp) : (s.complete fn p replay lastSeq stored).health = s.health := by simp [State.complete]

@[simp] theorem checked_health {op : Nat} {pf : Bool} {r : Req} {s : State} {body : State → Effect}
    (hb : KeepsHealth Prod.fst s (body s)) : KeepsHealth Prod.fst s (checked op pf r s body) := by
  simp only [checked, keepsHealth_bind]
  intro _ _ _ _ _ _ _ _ _ _ a ha
  simpa using fun _ _ _ _ => hb a ha

@[simp] theorem runWith_health {onErr : Err → State → State} {op : Nat} {pf : Bool} {r : Req} {s : State}
    {body : State → Effect} (he : ∀ e s, (onErr e s).health = s.health)
    (hb : ∀ s, KeepsHealth Prod.fst s (body s)) : (runWith onErr op pf r s body).health = s.health := by
  have hc := checked_health (op := op) (pf := pf) (r := r) (hb (s.tick r.t))
  unfold runWith
  dsimp only
  split_ifs
  · rfl
  · split
    · next s' res heq => simpa using hc _ heq
    · simp [he]
  · simp
  · simp

@[simp] theorem runCommand_health {op : Nat} {pf : Bool} {r : Req} {s : State} {body : State → Effect}
    (hb : ∀ s, KeepsHealth Prod.fst s (body s)) : (runCommand op pf r s body).health = s.health :=
  runWith_health (fun _ _ => rfl) hb

theorem runThen_causes {op : Nat} {pf : Bool} {r : Req} {s : State} {body : State → Effect} {after : State → State}
    (hb : ∀ s, KeepsHealth Prod.fst s (body s)) (ha : ∀ s, (after s).health.causes = s.health.causes) :
    (runThen op pf r s body after).health.causes = s.health.causes := by
  unfold runThen
  dsimp only
  split_ifs <;> simp [ha, hb]

/-! ### Cadence (02) -/

@[simp] theorem alignClocks_health (s : State) : (alignClocks s).health = s.health := by simp [alignClocks]
@[simp] theorem refLost_health (t : Nat) (s : State) : (refLost t s).health = s.health := by
  simp -implicitDefEqProofs [refLost]
@[simp] theorem refReturned_health (t : Nat) (phase : Int) (s : State) :
    (refReturned t phase s).health = s.health := by simp [refReturned]
@[simp] theorem slewEnd_health (t : Nat) (s : State) : (slewEnd t s).health = s.health := by simp [slewEnd]
@[simp] theorem markMissing_health (s : State) : (markMissing s).health = s.health := by simp [markMissing]
@[simp] theorem beginSlew_health (phase : Int) (s : State) : (beginSlew phase s).health = s.health := by
  simp [beginSlew]
@[simp] theorem misplaced_health (pos : CT) (s : State) : (misplaced pos s).1.health = s.health := by simp [misplaced]

@[simp] theorem moveAnchor_health (pos : CT) (s : State) : (moveAnchor pos s).1.health = s.health := by
  unfold moveAnchor
  dsimp only
  rw [health_ite, State.post_health, State.post_health, State.setCad_health, ite_self]

@[simp] theorem anchor_health (s : State) : (anchor s).health = s.health := by simp [anchor]
@[simp] theorem declareLock_health (k : Nat) (s : State) : (declareLock k s).health = s.health := by
  simp [declareLock]
@[simp] theorem declareLoss_health (k : Nat) (s : State) : (declareLoss k s).health = s.health := by
  simp [declareLoss]

@[simp] theorem windowEnd_health (k diff t : Nat) (s : State) : (windowEnd k diff t s).1.health = s.health := by
  unfold windowEnd
  dsimp only
  split_ifs <;> simp

@[simp] theorem syncIn_health (t : Nat) (s : State) : (syncIn t s).health = s.health := by
  simp -implicitDefEqProofs [syncIn]
@[simp] theorem syncAlign_health (t : Nat) (s : State) : (syncAlign t s).health = s.health := by
  simp -implicitDefEqProofs [syncAlign]
@[simp] theorem cadenceStatusBody_health (r : Req) (s : State) : KeepsHealth Prod.fst s (cadenceStatusBody r s) := by
  simp [cadenceStatusBody]
@[simp] theorem clockSyncArmBody_health (r : Req) (s : State) : KeepsHealth Prod.fst s (clockSyncArmBody r s) := by
  simp [clockSyncArmBody]
@[simp] theorem applyCadence_health (old new : Block) (s : State) : (applyCadence old new s).health = s.health := by
  simp [applyCadence]
@[simp] theorem applyClockOutput_health (b : Block) (s : State) : (applyClockOutput b s).health = s.health := by
  simp [applyClockOutput]

end Sys2Proof.Machine
end

section
/-! SUPPORT. The health state past the health log, the wings and the mounts:
unchanged, or changed in no cause bit (R565). -/
namespace Sys2Proof.Machine

/-! ### The health log and deaccession notices (R564 to R567) -/

@[simp] theorem logEntry_causes (kind unit sub detail : Nat) (s : State) :
    (logEntry kind unit sub detail s).health.causes = s.health.causes := by simp [logEntry]

@[simp] theorem deaccession_causes (cause : Nat) (s : State) :
    (deaccession cause s).health.causes = s.health.causes ||| 2 ^ cause := by
  unfold deaccession
  split
  · next h => exact (or_two_pow_of_testBit h).symm
  · simp

@[simp] theorem healthLogReadBody_health (r : Req) (s : State) : KeepsHealth Prod.fst s (healthLogReadBody r s) := by
  simp [healthLogReadBody]

/-! ### Converter wings (03) -/

@[simp] theorem State.staleFrom_health (s : State) (tag t : Nat) : (s.staleFrom tag t).health = s.health := by
  simp [State.staleFrom]
@[simp] theorem State.staleEnd_health (s : State) (tag t : Nat) : (s.staleEnd tag t).health = s.health := by
  simp [State.staleEnd]
@[simp] theorem applyChannelInput_health (old new : Block) (s : State) :
    (applyChannelInput old new s).health = s.health := by simp [applyChannelInput]
@[simp] theorem retireSlice_causes (ch k : Nat) (s : State) :
    (retireSlice ch k s).health.causes = s.health.causes := by simp [retireSlice]
@[simp] theorem State.noteTemp_health (s : State) (temp : Int) : (s.noteTemp temp).health = s.health := by
  simp [State.noteTemp]
@[simp] theorem State.setWingTemp_health (s : State) (w : Nat) (temp : Int) :
    (s.setWingTemp w temp).health = s.health := by simp [State.setWingTemp]

@[simp] theorem gleanStep_causes (ch n : Nat) (m : Meas) (temp : Int) (s : State) :
    (gleanStep ch n m temp s).health.causes = s.health.causes := by
  unfold gleanStep
  dsimp only
  split
  · simp
  · split
    · simp
    · split
      · simp
      · split_ifs <;> simp

@[simp] theorem rotationBoundary_health (ch t : Nat) (s : State) : (rotationBoundary ch t s).health = s.health := by
  simp -implicitDefEqProofs [rotationBoundary]
@[simp] theorem driftCheck_health (ch t : Nat) (temp : Int) (s : State) :
    (driftCheck ch t temp s).health = s.health := by simp [driftCheck]
@[simp] theorem haltGleaning_health (chs : List Nat) (s : State) : (haltGleaning chs s).health = s.health := by
  simp -implicitDefEqProofs [haltGleaning]
@[simp] theorem foreground_health (c : Nat) (ms : List Meas) (s : State) : (foreground c ms s).health = s.health := by
  simp [foreground]
@[simp] theorem channelsUp_health (w : Nat) (ms : List Meas) (s : State) : (channelsUp w ms s).health = s.health := by
  simp [channelsUp]
@[simp] theorem countClips_health (ch n : Nat) (s : State) : (countClips ch n s).health = s.health := by
  simp [countClips]
@[simp] theorem wingStatusBody_health (r : Req) (s : State) : KeepsHealth Prod.fst s (wingStatusBody r s) := by
  simp [wingStatusBody]

/-! ### Mounts (04) -/

@[simp] theorem lifeCheck_health (p : Nat) (s : State) : (lifeCheck p s).health = s.health := by
  unfold lifeCheck
  dsimp only
  split
  · simp
  · split <;> simp

@[simp] theorem State.fetchMount_health (s : State) (p : Nat) : (s.fetchMount p).health = s.health := by
  simp [State.fetchMount]
@[simp] theorem mountInsert_health (p : Nat) (s : State) : (mountInsert p s).health = s.health := by
  simp [mountInsert]
@[simp] theorem mountPresence_health (p : Nat) (present : Bool) (t : Nat) (s : State) :
    (mountPresence p present t s).health = s.health := by simp [mountPresence]
@[simp] theorem mountReadDone_health (p : Nat) (tries : List MountTry) (t : Nat) (s : State) :
    (mountReadDone p tries t s).health = s.health := by simp [mountReadDone]
@[simp] theorem mountSettle_health (p t : Nat) (unsettled : Bool) (s : State) :
    (mountSettle p t unsettled s).health = s.health := by simp -implicitDefEqProofs [mountSettle]
@[simp] theorem mountCorrectionApply_health (p t : Nat) (s : State) :
    (mountCorrectionApply p t s).health = s.health := by simp [mountCorrectionApply]

@[simp] theorem overdrive_health (c mv clocks t : Nat) (s : State) :
    (overdrive c mv clocks t s).health = s.health := by
  unfold overdrive
  dsimp only
  split <;> simp

@[simp] theorem State.sendCopy_health (s : State) (p off : Nat) (b : List Byte) :
    (s.sendCopy p off b).health = s.health := by simp -implicitDefEqProofs [State.sendCopy]
@[simp] theorem writeCounts_health (p : Nat) (tries : List MountTry) (s : State) :
    (writeCounts p tries s).health = s.health := by simp [writeCounts]
@[simp] theorem writeBack_health (p : Nat) (tries : List MountTry) (t : Nat) (s : State) :
    (writeBack p tries t s).health = s.health := by simp [writeBack]
@[simp] theorem applyMount_health (new : Block) (s : State) : (applyMount new s).health = s.health := by
  simp [applyMount]
@[simp] theorem mountStatusBody_health (r : Req) (s : State) : KeepsHealth Prod.fst s (mountStatusBody r s) := by
  simp [mountStatusBody]
@[simp] theorem mountReadBody_health (r : Req) (s : State) : KeepsHealth Prod.fst s (mountReadBody r s) := by
  simp [mountReadBody]
@[simp] theorem mountReleaseBody_health (r : Req) (s : State) : KeepsHealth Prod.fst s (mountReleaseBody r s) := by
  simp [mountReleaseBody]

end Sys2Proof.Machine
end

section
/-! SUPPORT. The health state past the analysis, the Stores and the triggers:
unchanged, or changed in no cause bit (R565). -/
namespace Sys2Proof.Machine

/-! ### Decimation (05) -/

@[simp] theorem cutPath_health (path limit n0 : Nat) (h : Nat) (o c : ChainCfg) (was : Chain) (s : State) :
    (cutPath path limit n0 h o c was s).health = s.health := by simp [cutPath]
@[simp] theorem applyChain_health (v v' : View) (h : Nat) (formed : Bool) (s : State) :
    (applyChain v v' h formed s).health = s.health := by simp [applyChain]

@[simp] theorem pendingFadeStart_health (h n : Nat) (s : State) : (pendingFadeStart h n s).health = s.health := by
  unfold pendingFadeStart
  dsimp only
  split <;> simp

@[simp] theorem resumeChain_health (S : Nat) (h : Nat) (s : State) : (resumeChain S h s).health = s.health := by
  unfold resumeChain
  dsimp only
  split <;> simp

@[simp] theorem decimationStatusBody_health (r : Req) (s : State) :
    KeepsHealth Prod.fst s (decimationStatusBody r s) := by simp [decimationStatusBody]

/-! ### Spectral engine (06) -/

@[simp] theorem emptyTraces_health (h : Nat) (st : List Byte) (next stop : Nat) (k : Nat) (s : State) :
    (emptyTraces h st next stop k s).health = s.health := by
  induction k generalizing s with
  | zero => rfl
  | succ k ih =>
    rw [emptyTraces]
    dsimp only
    split <;> simp [ih]

@[simp] theorem traceFrame_health (h j : Nat) (st : List Byte) (powers : List Nat) (clamped : Bool)
    (q : Nat) (s : State) : (traceFrame h j st powers clamped q s).health = s.health := by simp [traceFrame]
@[simp] theorem streamFrame_health (h j : Nat) (bins : List Smp) (e : Int) (powers : List Nat) (q : Nat)
    (st : List Byte) (s : State) : (streamFrame h j bins e powers q st s).health = s.health := by simp [streamFrame]

@[simp] theorem closeTraces_health (h : Nat) (strs : List (List Byte)) (s : State) :
    (closeTraces h strs s).health = s.health := by
  refine foldl_health (fun s st => ?_) strs s
  dsimp only
  split <;> simp

@[simp] theorem spectrumStatusBody_health (r : Req) (s : State) :
    KeepsHealth Prod.fst s (spectrumStatusBody r s) := by simp [spectrumStatusBody]
@[simp] theorem windowLoadBody_health (r : Req) (s : State) : KeepsHealth Prod.fst s (windowLoadBody r s) := by
  simp [windowLoadBody]

/-! ### Stores (10) -/

@[simp] theorem State.enter_health (s : State) (r : Rec) : (s.enter r).health = s.health := by
  refine foldl_health (fun s n => ?_) _ s
  split <;> simp

@[simp] theorem State.publishAll_health (s : State) : s.publishAll.health = s.health := by simp [State.publishAll]
@[simp] theorem State.openGap_health (s : State) (h st cause unit lo : Nat) :
    (s.openGap h st cause unit lo).health = s.health := by simp [State.openGap]
@[simp] theorem State.enterAfter_health (s : State) (l : List Rec) : (s.enterAfter l).health = s.health := by
  simp [State.enterAfter]

@[simp] theorem State.takePath_health (s : State) (h path start count : Nat)
    (make : Tail → Rec × (Chain → Chain)) : (s.takePath h path start count make).health = s.health := by
  unfold State.takePath
  split <;> simp

@[simp] theorem State.countMerge_health (s : State) (h st : Nat) (stale : Bool) :
    (s.countMerge h st stale).health = s.health := by simp [State.countMerge]

@[simp] theorem State.merges_health (s : State) (r : Rec) : (s.merges r).health = s.health := by
  unfold State.merges
  split <;> simp

@[simp] theorem recordWrite_health (src : RecSrc) (s : State) : (recordWrite src s).health = s.health := by
  unfold recordWrite
  split
  · split <;> simp
  · split <;> simp
  · split
    · rfl
    · split
      · rfl
      · split <;> simp
  · simp
  · simp

@[simp] theorem captureArrival_health (n tr acc : Nat) (s : State) :
    (captureArrival n tr acc s).health = s.health := by
  unfold captureArrival
  dsimp only
  split
  · simp
  · split
    · simp
    · split
      · simp
      · split <;> simp

@[simp] theorem extendCapture_health (n tr acc e : Nat) (s : State) :
    (extendCapture n tr acc e s).health = s.health := by simp [extendCapture]

@[simp] theorem bar4Bytes_health (s : State) (fn off k : Nat) : (bar4Bytes s fn off k).1.health = s.health := by
  induction k with
  | zero => rfl
  | succ k ih =>
    rw [bar4Bytes]
    dsimp only
    split <;> simpa using ih

@[simp] theorem storeStatusBody_health (r : Req) (s : State) : KeepsHealth Prod.fst s (storeStatusBody r s) := by
  simp [storeStatusBody]
@[simp] theorem storeReleaseBody_health (r : Req) (s : State) : KeepsHealth Prod.fst s (storeReleaseBody r s) := by
  simp [storeReleaseBody]
@[simp] theorem storeLoadBody_health (r : Req) (s : State) : KeepsHealth Prod.fst s (storeLoadBody r s) := by
  simp [storeLoadBody]

/-! ### Triggers (08) -/

@[simp] theorem State.pushAll_health (num den : Nat) (f : Nat → List Byte → Option Push) (s : State) :
    (State.pushAll num den f s).health = s.health := by simp [State.pushAll]
@[simp] theorem nextAccession_health (s : State) : (nextAccession s).1.health = s.health := by simp [nextAccession]
@[simp] theorem driveLine_health (l : Nat) (active : Bool) (fc : Nat) (s : State) :
    (driveLine l active fc s).health = s.health := by simp [driveLine]

@[simp] theorem startLine_health (l fc : Nat) (s : State) : (startLine l fc s).health = s.health := by
  unfold startLine
  dsimp only
  split <;> simp

@[simp] theorem modeLines_health (h i : Nat) (s : State) : (modeLines h i s).health = s.health := by simp [modeLines]
@[simp] theorem queueMsg_health (trigger : Bool) (m : BusMsg) (s : State) :
    (queueMsg trigger m s).health = s.health := by simp [queueMsg]
@[simp] theorem startCapture_health (h i acc n : Nat) (s : State) : (startCapture h i acc n s).health = s.health := by
  simp [startCapture]
@[simp] theorem beginHold_health (h i : Nat) (s : State) : (beginHold h i s).health = s.health := by simp [beginHold]
@[simp] theorem triggerEvent_health (h i lead mask : Nat) (s : State) :
    (triggerEvent h i lead mask s).health = s.health := by simp [triggerEvent]
@[simp] theorem extendEvent_health (h i lead mask : Nat) (s : State) :
    (extendEvent h i lead mask s).health = s.health := by simp [extendEvent]
@[simp] theorem act216_health (h i lead mask : Nat) (occ : Bool) (s : State) :
    (act216 h i lead mask occ s).health = s.health := by simp [act216]
@[simp] theorem triggerEvaluate_health (h i : Nat) (vs : List CondIn) (quality : Nat) (s : State) :
    (triggerEvaluate h i vs quality s).health = s.health := by simp [triggerEvaluate]

@[simp] theorem holdoffEnd_health (h i : Nat) (s : State) : (holdoffEnd h i s).health = s.health := by
  unfold holdoffEnd
  dsimp only
  split <;> simp

@[simp] theorem trigOutPulseEnd_health (l fc : Nat) (s : State) : (trigOutPulseEnd l fc s).health = s.health := by
  simp [trigOutPulseEnd]
@[simp] theorem applyTrigOut_health (old b : Block) (s : State) : (applyTrigOut old b s).health = s.health := by
  simp [applyTrigOut]
@[simp] theorem resumeTrigger_health (S h : Nat) (s : State) : (resumeTrigger S h s).health = s.health := by
  simp [resumeTrigger]
@[simp] theorem triggerStatusBody_health (r : Req) (s : State) : KeepsHealth Prod.fst s (triggerStatusBody r s) := by
  simp [triggerStatusBody]

/-! ### Attendant programs (09) -/

@[simp] theorem State.setProg_health (s : State) (h : Nat) (p : Prog) : (s.setProg h p).health = s.health := by
  simp [State.setProg]
@[simp] theorem attFault_health (h q : Nat) (s : State) : (attFault h q s).health = s.health := by simp [attFault]

@[simp] theorem attExec_health (h : Nat) (i : Instr) (eff : Trig → Prog → Prog) (s : State) :
    (attExec h i eff s).health = s.health := by
  unfold attExec
  dsimp only
  split
  · simp
  · split <;> simp

@[simp] theorem attWait_health (h : Nat) (i : Instr) (s : State) : (attWait h i s).health = s.health := by
  simp [attWait]

@[simp] theorem waitEnd_health (h q : Nat) (s : State) : (waitEnd h q s).health = s.health := by
  unfold waitEnd
  dsimp only
  split
  · simp
  · split
    · simp
    · split <;> simp

@[simp] theorem attFire_health (h c : Nat) (i : Instr) (s : State) : (attFire h c i s).health = s.health := by
  unfold attFire
  dsimp only
  split
  · simp
  · split <;> simp

@[simp] theorem attendantLoadBody_health (r : Req) (s : State) : KeepsHealth Prod.fst s (attendantLoadBody r s) := by
  simp [attendantLoadBody]
@[simp] theorem attendantStatusBody_health (r : Req) (s : State) :
    KeepsHealth Prod.fst s (attendantStatusBody r s) := by simp [attendantStatusBody]
@[simp] theorem maskLoadBody_health (r : Req) (s : State) : KeepsHealth Prod.fst s (maskLoadBody r s) := by
  simp [maskLoadBody]

/-! ### Frames and their consumers (06, 07) -/

@[simp] theorem swardSnap_health (h j why : Nat) (clear late : Bool) (s : State) :
    (swardSnap h j why clear late s).health = s.health := by simp [swardSnap]
@[simp] theorem swardFrame_health (h j : Nat) (powers : List Nat) (q : Nat) (s : State) :
    (swardFrame h j powers q s).health = s.health := by simp [swardFrame]
@[simp] theorem maskFrame_health (h j : Nat) (powers : List Nat) (q : Nat) (s : State) :
    (maskFrame h j powers q s).health = s.health := by simp [maskFrame]
@[simp] theorem produceInterval_health (h : Nat) (x : Interval) (unsettled : Bool) (empty : Option Nat)
    (s : State) : (produceInterval h x unsettled empty s).health = s.health := by simp [produceInterval]

@[simp] theorem emptyIntervals_health (h next stop : Nat) (k : Nat) (s : State) :
    (emptyIntervals h next stop k s).health = s.health := by
  induction k generalizing s with
  | zero => rfl
  | succ k ih => simp [emptyIntervals, ih]

@[simp] theorem closeInterval_health (h : Nat) (s : State) : (closeInterval h s).health = s.health := by
  simp [closeInterval]
@[simp] theorem adoptInterval_health (h : Nat) (c : ConcCfg) (s : State) :
    (adoptInterval h c s).health = s.health := by simp [adoptInterval]
@[simp] theorem concAccumulate_health (h : Nat) (mine : List Part) (j : Nat) (s : State) :
    (concAccumulate h mine j s).health = s.health := by simp [concAccumulate]

@[simp] theorem concRun_health (h : Nat) (k : Nat) (s : State) : (concRun h k s).health = s.health := by
  induction k generalizing s with
  | zero => rfl
  | succ k ih =>
    rw [concRun]
    dsimp only
    split <;> simp [ih]

@[simp] theorem concFrame_health (h member j lo : Nat) (bins : List (Int × Int)) (ex : Int) (q : Nat) (s : State) :
    (concFrame h member j lo bins ex q s).health = s.health := by
  unfold concFrame
  dsimp only
  split <;> simp

@[simp] theorem concAll_health (member : Nat) (s : State) : (concAll member s).health = s.health := by simp [concAll]
@[simp] theorem adoptOne_health (h : Nat) (c : PipeCfg) (s : State) : (adoptOne h c s).health = s.health := by
  simp [adoptOne]

@[simp] theorem adoptPipe_health (h k : Nat) (s : State) : (adoptPipe h k s).health = s.health := by
  induction k generalizing s with
  | zero => rfl
  | succ k ih =>
    rw [adoptPipe]
    split
    · rfl
    · split_ifs <;> simp [ih]

@[simp] theorem feedPorts_health (h j f0 : Nat) (cfg : PipeCfg) (bins : List Smp) (powers : List Nat)
    (q : Nat) (s : State) : (feedPorts h j f0 cfg bins powers q s).health = s.health := by simp [feedPorts]
@[simp] theorem fftFrame_health (h j first : Nat) (codes : List Conv) (s : State) :
    (fftFrame h j first codes s).health = s.health := by simp [fftFrame]
@[simp] theorem resumePipe_health (S h : Nat) (s : State) : (resumePipe S h s).health = s.health := by
  simp [resumePipe]
@[simp] theorem resumeConc_health (S h : Nat) (s : State) : (resumeConc S h s).health = s.health := by
  simp [resumeConc]

/-! ### Scheduled actions (R49 to R53) -/

@[simp] theorem State.schedule_health (s : State) (fn : Nat) (t : CT) (h : Option Nat) (a : Act)
    (txn : Option Nat) : (s.schedule fn t h a txn).health = s.health := by simp [State.schedule]
@[simp] theorem swardSnapshotBody_health (r : Req) (s : State) : KeepsHealth Prod.fst s (swardSnapshotBody r s) := by
  simp [swardSnapshotBody]

@[simp] theorem doSnapshot_health (a : Action) (bits : Nat) (late : Bool) (s : State) :
    (doSnapshot a bits late s).health = s.health := by
  unfold doSnapshot
  split <;> simp

@[simp] theorem occurAt_health (h : Nat) (t : CT) (late : Bool) (sel : List Byte → Bool) (s : State) :
    (occurAt h t late sel s).health = s.health := by simp [occurAt]
@[simp] theorem takeArm_health (h : Nat) (t : CT) (v : Nat) (late : Bool) (s : State) :
    (takeArm h t v late s).health = s.health := by simp [takeArm]
@[simp] theorem doArm_health (a : Action) (v : Nat) (late : Bool) (s : State) :
    (doArm a v late s).health = s.health := by simp [doArm]
@[simp] theorem doForce_health (a : Action) (late : Bool) (s : State) : (doForce a late s).health = s.health := by
  simp [doForce]
@[simp] theorem noteTime_health (h cond : Nat) (t : CT) (s : State) : (noteTime h cond t s).health = s.health := by
  simp [noteTime]
@[simp] theorem scheduleConditionTime_health (h cond : Nat) (pos : CT) (s : State) :
    (scheduleConditionTime h cond pos s).health = s.health := by simp [scheduleConditionTime]
@[simp] theorem armBody_health (r : Req) (s : State) : KeepsHealth Prod.fst s (armBody r s) := by simp [armBody]
@[simp] theorem forceBody_health (r : Req) (s : State) : KeepsHealth Prod.fst s (forceBody r s) := by simp [forceBody]

end Sys2Proof.Machine
end

section
/-! SUPPORT. The health state past comparators, TDC, Conservator cores and outputs:
unchanged, or changed in no cause bit (R565). -/
namespace Sys2Proof.Machine

/-! ### Comparators (12) -/

@[simp] theorem pushLatch_health (n : Nat) (inst : Int) (on : Bool) (s : State) :
    (pushLatch n inst on s).health = s.health := by simp [pushLatch]
@[simp] theorem setLatch_health (n : Nat) (inst : Int) (s : State) : (setLatch n inst s).health = s.health := by
  simp [setLatch]
@[simp] theorem markCrossings_health (n t : Nat) (s : State) : (markCrossings n t s).health = s.health := by
  simp [markCrossings]
@[simp] theorem crossing_health (n : Nat) (high : Bool) (t : Nat) (stamped : Option Int) (s : State) :
    (crossing n high t stamped s).health = s.health := by simp [crossing]
@[simp] theorem beginArming_health (n : Nat) (s : State) : (beginArming n s).health = s.health := by
  simp [beginArming]
@[simp] theorem disarm_health (n : Nat) (s : State) : (disarm n s).health = s.health := by simp [disarm]
@[simp] theorem armingEnd_health (n t : Nat) (s : State) : (armingEnd n t s).health = s.health := by simp [armingEnd]

@[simp] theorem clearLatch_health (n : Nat) (inst : Int) (s : State) : (clearLatch n inst s).health = s.health := by
  unfold clearLatch
  dsimp only
  split
  · simp
  · split <;> simp

@[simp] theorem latchClearBoundary_health (n : Nat) (pos : CT) (s : State) :
    (latchClearBoundary n pos s).health = s.health := by simp [latchClearBoundary]
@[simp] theorem doClear_health (mask : Nat) (s : State) : (doClear mask s).health = s.health := by simp [doClear]
@[simp] theorem endCrossPeriod_health (b : Block) (num next : Nat) (unsettled : Bool) (s : State) :
    (endCrossPeriod b num next unsettled s).health = s.health := by simp [endCrossPeriod]

@[simp] theorem crossingsPeriodEnd_health (h st : Nat) (pos : CT) (s : State) :
    (crossingsPeriodEnd h st pos s).health = s.health := by
  unfold crossingsPeriodEnd
  split <;> simp

@[simp] theorem applyCrossings_health (old new : Block) (s : State) :
    (applyCrossings old new s).health = s.health := by
  unfold applyCrossings
  dsimp only
  split
  · rfl
  · rw [health_ite, ite_self]
    split
    · split <;> simp
    · rfl

@[simp] theorem applyComparators_health (v v' : View) (s : State) : (applyComparators v v' s).health = s.health := by
  simp [applyComparators]
@[simp] theorem armComparators_health (ns : List Nat) (s : State) : (armComparators ns s).health = s.health := by
  simp [armComparators]
@[simp] theorem comparatorClearBody_health (r : Req) (s : State) :
    KeepsHealth Prod.fst s (comparatorClearBody r s) := by simp [comparatorClearBody]
@[simp] theorem comparatorStatusBody_health (r : Req) (s : State) :
    KeepsHealth Prod.fst s (comparatorStatusBody r s) := by simp [comparatorStatusBody]

/-! ### TDC (12) -/

@[simp] theorem stampRecord_health (h st : Nat) (b : Block) (l : List Entry) (s : State) :
    (stampRecord h st b l s).health = s.health := by simp [stampRecord]

@[simp] theorem closeStamps_health (h st : Nat) (b : Block) (full : Int) (k : Nat) (s : State) :
    (closeStamps h st b full k s).health = s.health := by
  induction k generalizing s with
  | zero => rfl
  | succ k ih => simp [closeStamps, ih]

@[simp] theorem drainStamps_health (h st : Nat) (b : Block) (k : Nat) (s : State) :
    (drainStamps h st b k s).health = s.health := by
  induction k generalizing s with
  | zero => rfl
  | succ k ih => simp [drainStamps, ih]

@[simp] theorem intervalRecord_health (u : Nat) (b : Block) (l : List Entry) (s : State) :
    (intervalRecord u b l s).health = s.health := by simp [intervalRecord]

@[simp] theorem closeIntervals_health (u : Nat) (b : Block) (k : Nat) (s : State) :
    (closeIntervals u b k s).health = s.health := by
  induction k generalizing s with
  | zero => rfl
  | succ k ih => simp [closeIntervals, ih]

@[simp] theorem drainIntervals_health (u : Nat) (b : Block) (k : Nat) (s : State) :
    (drainIntervals u b k s).health = s.health := by
  induction k generalizing s with
  | zero => rfl
  | succ k ih => simp [drainIntervals, ih]

@[simp] theorem takePair_health (u : Nat) (b : Block) (e : Entry) (s : State) :
    (takePair u b e s).health = s.health := by simp [takePair]
@[simp] theorem addEntry_health (u : Nat) (b : Block) (e : Entry) (s : State) :
    (addEntry u b e s).health = s.health := by simp [addEntry]
@[simp] theorem completePair_health (u : Nat) (b : Block) (start stop : Int) (s : State) :
    (completePair u b start stop s).health = s.health := by simp [completePair]

@[simp] theorem orphan_health (u : Nat) (b : Block) (s : State) : (orphan u b s).health = s.health := by
  unfold orphan
  dsimp only
  split <;> simp

@[simp] theorem expireWaits_health (u : Nat) (b : Block) (t : Int) (k : Nat) (s : State) :
    (expireWaits u b t k s).health = s.health := by
  induction k generalizing s with
  | zero => rfl
  | succ k ih =>
    rw [expireWaits]
    split
    · split_ifs <;> simp [ih]
    · rfl

@[simp] theorem takeStop_health (u : Nat) (b : Block) (t : Int) (s : State) :
    (takeStop u b t s).health = s.health := by
  unfold takeStop
  dsimp only
  split <;> simp

@[simp] theorem takeStart_health (u : Nat) (b : Block) (t : Int) (own : Bool) (s : State) :
    (takeStart u b t own s).health = s.health := by
  unfold takeStart
  dsimp only
  split <;> simp

@[simp] theorem pairStamp_health (u src : Nat) (rising : Bool) (t : Int) (s : State) :
    (pairStamp u src rising t s).health = s.health := by
  unfold pairStamp
  dsimp only
  split <;> simp

@[simp] theorem orderWindowExpiry_health (u : Nat) (s : State) : (orderWindowExpiry u s).health = s.health := by
  unfold orderWindowExpiry
  dsimp only
  split <;> simp

@[simp] theorem pushStamp_health (q : Stamp) (s : State) : (pushStamp q s).health = s.health := by simp [pushStamp]
@[simp] theorem useStamp_health (q : Stamp) (s : State) : (useStamp q s).health = s.health := by simp [useStamp]
@[simp] theorem withdraw_health (q : Stamp) (s : State) : (withdraw q s).health = s.health := by simp [withdraw]

@[simp] theorem tdcEdge_health (src : Nat) (rising : Bool) (ps : Nat) (e : Int) (s : State) :
    (tdcEdge src rising ps e s).health = s.health := by
  unfold tdcEdge
  dsimp only
  split
  · rfl
  · rw [foldl_health fun s b => closeStamps_health _ _ _ _ _ s]
    split
    · rw [health_ite, useStamp_health, ite_self]
      split <;> simp
    · split <;> simp

@[simp] theorem stampFlush_health (h st : Nat) (unit : Option Nat) (pos : CT) (s : State) :
    (stampFlush h st unit pos s).health = s.health := by
  unfold stampFlush
  split
  · split <;> simp
  · simp

@[simp] theorem applyStampStream_health (old new : Block) (s : State) :
    (applyStampStream old new s).health = s.health := by simp [applyStampStream]
@[simp] theorem applyPairing_health (old new : Block) (s : State) : (applyPairing old new s).health = s.health := by
  simp [applyPairing]

@[simp] theorem openTdcGap_health (h st cause unit lo : Nat) (s : State) :
    (openTdcGap h st cause unit lo s).health = s.health := by
  unfold openTdcGap
  dsimp only
  split
  · rfl
  · rw [State.setStream_health, State.openGap_health, foldl_health_of Prod.fst (fun a b => ?_),
      foldl_health_of Prod.fst (fun a b => ?_), foldl_health (fun s b => ?_)]
    · split_ifs <;> simp
    · split_ifs <;> simp
    · split_ifs <;> simp

@[simp] theorem resumeTdcStream_health (S h st : Nat) (s : State) : (resumeTdcStream S h st s).health = s.health := by
  simp [resumeTdcStream]
@[simp] theorem resumeUnits_health (S : Nat) (hs : List Nat) (s : State) :
    (resumeUnits S hs s).health = s.health := by simp [resumeUnits]

/-! ### Conservator cores (11) -/

@[simp] theorem closeBank_health (c : Nat) (shadow trunc : Bool) (s : State) :
    (closeBank c shadow trunc s).health = s.health := by
  unfold closeBank
  dsimp only
  split
  · simp
  · split <;> simp

@[simp] theorem stopCore_health (c st : Nat) (s : State) : (stopCore c st s).health = s.health := by simp [stopCore]
@[simp] theorem coreFault_health (c code port : Nat) (s : State) : (coreFault c code port s).health = s.health := by
  simp [coreFault]

@[simp] theorem pageSwap_health (c : Nat) (s : State) : (pageSwap c s).health = s.health := by
  unfold pageSwap
  dsimp only
  split <;> simp

@[simp] theorem consExec_health (c : Nat) (i : Instr) (eff : Core → Core) (s : State) :
    (consExec c i eff s).health = s.health := by simp [consExec]
@[simp] theorem consBank_health (c : Nat) (i : Instr) (eff : Bank → Bank) (s : State) :
    (consBank c i eff s).health = s.health := by simp [consBank]

@[simp] theorem consFaulting_health (c : Nat) (i : Instr) (bad : Core → Option Nat) (eff : Core → Core)
    (s : State) : (consFaulting c i bad eff s).health = s.health := by
  unfold consFaulting
  split_ifs
  · rfl
  · split <;> simp

@[simp] theorem movRow_health (c dst src : Nat) (s : State) : (movRow c dst src s).health = s.health := by
  simp [movRow]
@[simp] theorem callRow_health (c cd a : Nat) (s : State) : (callRow c cd a s).health = s.health := by simp [callRow]
@[simp] theorem retRow_health (c cd : Nat) (s : State) : (retRow c cd s).health = s.health := by simp [retRow]
@[simp] theorem loopRow_health (c len count : Nat) (s : State) : (loopRow c len count s).health = s.health := by
  simp [loopRow]
@[simp] theorem loopdRow_health (c len d : Nat) (s : State) : (loopdRow c len d s).health = s.health := by
  simp [loopdRow]
@[simp] theorem retiRow_health (c : Nat) (s : State) : (retiRow c s).health = s.health := by simp [retiRow]
@[simp] theorem haltRow_health (c : Nat) (s : State) : (haltRow c s).health = s.health := by simp [haltRow]
@[simp] theorem interruptEntry_health (c clocks : Nat) (s : State) :
    (interruptEntry c clocks s).health = s.health := by simp [interruptEntry]

@[simp] theorem elementArrival_health (c p n first : Nat) (codes : List Conv) (s : State) :
    (elementArrival c p n first codes s).health = s.health := by
  unfold elementArrival
  dsimp only
  split
  · simp
  · split <;> simp

@[simp] theorem inRow_health (c d p : Nat) (s : State) : (inRow c d p s).health = s.health := by simp [inRow]
@[simp] theorem inStallEnd_health (c clocks : Nat) (s : State) : (inStallEnd c clocks s).health = s.health := by
  simp [inStallEnd]
@[simp] theorem idxRow_health (c d p : Nat) (s : State) : (idxRow c d p s).health = s.health := by simp [idxRow]
@[simp] theorem recOpenRow_health (c d : Nat) (s : State) : (recOpenRow c d s).health = s.health := by
  simp [recOpenRow]
@[simp] theorem recDataRow_health (c d : Nat) (s : State) : (recDataRow c d s).health = s.health := by
  simp [recDataRow]
@[simp] theorem recTimeRow_health (c d : Nat) (s : State) : (recTimeRow c d s).health = s.health := by
  simp [recTimeRow]
@[simp] theorem finishClose_health (c : Nat) (s : State) : (finishClose c s).health = s.health := by
  simp [finishClose]

@[simp] theorem closeRow_health (c d : Nat) (s : State) : (closeRow c d s).health = s.health := by
  unfold closeRow
  dsimp only
  split
  · simp
  · split
    · simp
    · split
      · simp
      · split <;> simp

@[simp] theorem creditStallEnd_health (c clocks : Nat) (s : State) :
    (creditStallEnd c clocks s).health = s.health := by
  unfold creditStallEnd
  dsimp only
  split <;> simp

@[simp] theorem outStimRow_health (c d k : Nat) (s : State) : (outStimRow c d k s).health = s.health := by
  simp [outStimRow]
@[simp] theorem stimStallEnd_health (c clocks : Nat) (s : State) : (stimStallEnd c clocks s).health = s.health := by
  simp [stimStallEnd]

@[simp] theorem sigRow_health (c d : Nat) (s : State) : (sigRow c d s).health = s.health := by
  unfold sigRow
  dsimp only
  split
  · simp
  · split
    · simp
    · split <;> simp

@[simp] theorem restartCore_health (S c : Nat) (s : State) : (restartCore S c s).health = s.health := by
  simp [restartCore]
@[simp] theorem commitCore_health (v' : View) (covered : Bool) (c : Nat) (s : State) :
    (commitCore v' covered c s).health = s.health := by simp [commitCore]
@[simp] theorem conservatorLoadBody_health (r : Req) (s : State) :
    KeepsHealth Prod.fst s (conservatorLoadBody r s) := by simp [conservatorLoadBody]
@[simp] theorem conservatorParamBody_health (r : Req) (s : State) :
    KeepsHealth Prod.fst s (conservatorParamBody r s) := by simp [conservatorParamBody]

@[simp] theorem conservatorReadBody_health (r : Req) (s : State) :
    KeepsHealth Prod.fst s (conservatorReadBody r s) := by
  simp only [conservatorReadBody, keepsHealth_bind]
  intros
  split <;> simp

@[simp] theorem conservatorStatusBody_health (r : Req) (s : State) :
    KeepsHealth Prod.fst s (conservatorStatusBody r s) := by simp [conservatorStatusBody]

/-! ### The Conservator rows that branch (R301, R306) -/

@[simp] theorem adddRow_health (c a d part : Nat) (sub : Bool) (s : State) :
    (adddRow c a d part sub s).health = s.health := by simp [adddRow]

/-! ### Stimulus and level DACs (13) -/

@[simp] theorem settleDac_health (d : Nat) (s : State) : (settleDac d s).health = s.health := by simp [settleDac]

@[simp] theorem stimulusTake_health (d i : Nat) (s : State) : (stimulusTake d i s).health = s.health := by
  unfold stimulusTake
  split <;> simp

@[simp] theorem playbackDone_health (d t : Nat) (s : State) : (playbackDone d t s).health = s.health := by
  unfold playbackDone
  dsimp only
  split <;> simp

@[simp] theorem playbackError_health (store key : Nat) (s : State) :
    (playbackError store key s).health = s.health := by simp [playbackError]
@[simp] theorem applyStimulus_health (new : Block) (s : State) : (applyStimulus new s).1.health = s.health := by
  simp [applyStimulus]
@[simp] theorem holdOutputs_health (w : Nat) (s : State) : (holdOutputs w s).health = s.health := by
  simp [holdOutputs]
@[simp] theorem resumeOutputs_health (S w : Nat) (s : State) : (resumeOutputs S w s).health = s.health := by
  simp [resumeOutputs]
@[simp] theorem outputsOff_health (s : State) : (outputsOff s).health = s.health := by
  simp -implicitDefEqProofs [outputsOff]
@[simp] theorem stimulusStatusBody_health (r : Req) (s : State) :
    KeepsHealth Prod.fst s (stimulusStatusBody r s) := by simp [stimulusStatusBody]
@[simp] theorem levelTick_health (d n : Nat) (s : State) : (levelTick d n s).health = s.health := by simp [levelTick]
@[simp] theorem applyLevel_health (b : Block) (s : State) : (applyLevel b s).health = s.health := by simp [applyLevel]
@[simp] theorem levelStatusBody_health (r : Req) (s : State) : KeepsHealth Prod.fst s (levelStatusBody r s) := by
  simp [levelStatusBody]

end Sys2Proof.Machine
end

section
/-! SUPPORT. The health state past the Commons, housekeeping, memory, Couriers and archive:
unchanged, or changed in no cause bit (R565). -/
namespace Sys2Proof.Machine

/-! ### The Commons (19) -/

@[simp] theorem leaveRefused_health (op peak id : Nat) (s : State) :
    (leaveRefused op peak id s).health = s.health := by simp [leaveRefused]
@[simp] theorem State.powerUp_health (s : State) (d : Nat) : (s.powerUp d).health = s.health := by
  simp [State.powerUp]
@[simp] theorem State.powerOff_health (s : State) (d : Nat) : (s.powerOff d).health = s.health := by
  simp [State.powerOff]
@[simp] theorem powerStatusBody_health (r : Req) (s : State) : KeepsHealth Prod.fst s (powerStatusBody r s) := by
  simp [powerStatusBody]

/-! ### Housekeeping and calibration (14) -/

@[simp] theorem State.setConv_health (s : State) (c : Nat) (x : HkConv) : (s.setConv c x).health = s.health := by
  simp [State.setConv]
@[simp] theorem State.dropAction_health (s : State) (id : Nat) : (s.dropAction id).health = s.health := by
  simp [State.dropAction]
@[simp] theorem startJob_health (c input rate kind t : Nat) (late : Bool) (s : State) :
    (startJob c input rate kind t late s).health = s.health := by simp [startJob]

@[simp] theorem hkNext_health (c t : Nat) (s : State) : (hkNext c t s).health = s.health := by
  unfold hkNext
  split
  · simp
  · split
    · split <;> simp
    · simp

@[simp] theorem hkAdvance_health (c t : Nat) (s : State) : (hkAdvance c t s).health = s.health := by
  unfold hkAdvance
  split
  · split <;> simp
  · simp

@[simp] theorem hkStart_health (t : Nat) (s : State) : (hkStart t s).health = s.health := by simp [hkStart]

@[simp] theorem refMismatch_health (s : State) : (refMismatch s).2.health = s.health := by
  unfold refMismatch
  split <;> simp

@[simp] theorem crossCheck_health (s : State) : (crossCheck s).health = s.health := by
  unfold crossCheck
  split <;> simp

@[simp] theorem takeRef_health (c : Nat) (code : Int) (s : State) : (takeRef c code s).health = s.health := by
  simp [takeRef]

@[simp] theorem hkEntries_health (c first : Nat) (l : List HkEntry) (s : State) :
    (hkEntries c first l s).2.health = s.health := by
  induction l generalizing s with
  | nil => rfl
  | cons a l ih =>
    rw [hkEntries]
    dsimp only
    split <;> simp [ih]

@[simp] theorem hkClose_health (h st lo : Nat) (s : State) : (hkClose h st lo s).health = s.health := by
  simp [hkClose]
@[simp] theorem hkRecord_health (c kind : Nat) (l : List HkEntry) (late : Bool) (s : State) :
    (hkRecord c kind l late s).health = s.health := by simp [hkRecord]
@[simp] theorem hkAlert_health (c input : Nat) (s : State) : (hkAlert c input s).health = s.health := by
  simp [hkAlert]

@[simp] theorem conversionEnd_health (c t : Nat) (code : Int) (s : State) :
    (conversionEnd c t code s).health = s.health := by
  unfold conversionEnd
  dsimp only
  split <;> simp

@[simp] theorem scheduleCal_health (k u e : Nat) (s : State) : (scheduleCal k u e s).health = s.health := by
  simp -implicitDefEqProofs [scheduleCal]
@[simp] theorem skipRefused_health (s : State) : (skipRefused s).health = s.health := by simp [skipRefused]
@[simp] theorem applyCalSchedule_health (b : Block) (s : State) : (applyCalSchedule b s).health = s.health := by
  simp [applyCalSchedule]
@[simp] theorem applyHousekeeping_health (old new : Block) (s : State) :
    (applyHousekeeping old new s).health = s.health := by simp [applyHousekeeping]

@[simp] theorem calWindowStart_health (t : Nat) (s : State) : (calWindowStart t s).health = s.health := by
  unfold calWindowStart
  dsimp only
  split
  · simp
  · split
    · simp
    · simp only [health_ite, scheduleCal_health, ite_self, List.foldl_cons, List.foldl_nil, State.setConv_health,
        State.setHk_health]
      split
      · simp
      · split <;> simp

@[simp] theorem takeRefs_health (r : CalReading) (s : State) : (takeRefs r s).health = s.health := by simp [takeRefs]

@[simp] theorem calReport_health (k u res : Nat) (sched late : Bool) (r : CalResult) (old new : Int)
    (lo hi : Nat) (s : State) : (calReport k u res sched late r old new lo hi s).health = s.health := by
  simp [calReport]

@[simp] theorem abandonWindow_health (w : CalWin) (t : Nat) (s : State) :
    (abandonWindow w t s).health = s.health := by simp [abandonWindow]

@[simp] theorem judgeWindow_health (w : CalWin) (x : CalReading) (t : Nat) (s : State) :
    (judgeWindow w x t s).health = s.health := by
  unfold judgeWindow
  dsimp only
  split <;> simp -implicitDefEqProofs

@[simp] theorem calWindowEnd_health (t : Nat) (r : CalReading) (s : State) :
    (calWindowEnd t r s).health = s.health := by
  unfold calWindowEnd
  dsimp only
  split
  · simp
  · split
    · simp
    · split <;> simp

@[simp] theorem hkStop_health (s : State) : (hkStop s).health = s.health := by
  unfold hkStop
  split <;> simp

@[simp] theorem hkTouch_health (s : State) : (hkTouch s).health = s.health := by simp [hkTouch]
@[simp] theorem firstWindows_health (l : List (Nat × Nat)) (t : Nat) (s : State) :
    (firstWindows l t s).health = s.health := by simp [firstWindows]
@[simp] theorem tdcCalibration_health (pass : Bool) (r : CalResult) (t : Nat) (s : State) :
    (tdcCalibration pass r t s).health = s.health := by simp [tdcCalibration]
@[simp] theorem hkInjectBody_health (r : Req) (s : State) : KeepsHealth Prod.fst s (hkInjectBody r s) := by
  simp [hkInjectBody]
@[simp] theorem calStartBody_health (r : Req) (s : State) : KeepsHealth Prod.fst s (calStartBody r s) := by
  simp [calStartBody]
@[simp] theorem calStartRefused_health (e : Err) (s : State) : (calStartRefused e s).health = s.health := by
  simp [calStartRefused]

@[simp] theorem calStatusBody_health (r : Req) (s : State) : KeepsHealth Prod.fst s (calStatusBody r s) := by
  simp only [calStatusBody, keepsHealth_bind]
  intros
  split <;> simp

/-! ### Memory stacks (15) -/

@[simp] theorem freeStore_health (n k : Nat) (s : State) : (freeStore n k s).health = s.health := by simp [freeStore]

@[simp] theorem shedStores_health (k cap : Nat) (l : List Nat) (s : State) :
    (shedStores k cap l s).health = s.health := by
  induction l generalizing s with
  | nil => rfl
  | cons a l ih => simp [shedStores, ih]

@[simp] theorem rebuildDone_causes (k p : Nat) (s : State) :
    (rebuildDone k p s).health.causes = s.health.causes := by
  unfold rebuildDone
  dsimp only
  split
  · rfl
  · split_ifs <;> simp

@[simp] theorem relocationDone_health (k : Nat) (s : State) : (relocationDone k s).health = s.health := by
  unfold relocationDone
  dsimp only
  split <;> simp

@[simp] theorem retrainStart_health (k p : Nat) (temp : Int) (s : State) :
    (retrainStart k p temp s).health = s.health := by simp [retrainStart]
@[simp] theorem activate_health (req : Nat) (a : Nat × Nat) (s : State) : (activate req a s).health = s.health := by
  simp [activate]
@[simp] theorem activateAll_health (req : Nat) (rows : List (Nat × Nat)) (s : State) :
    (activateAll req rows s).health = s.health := by simp [activateAll]
@[simp] theorem throttleEnd_health (k req : Nat) (s : State) : (throttleEnd k req s).health = s.health := by
  simp [throttleEnd]
@[simp] theorem refreshWindow_health (k : Nat) (s : State) : (refreshWindow k s).health = s.health := by
  simp [refreshWindow]
@[simp] theorem spoilRecord_health (n pos k : Nat) (s : State) : (spoilRecord n pos k s).health = s.health := by
  simp [spoilRecord]

@[simp] theorem readCodeword_health (k p : Nat) (beats : List (BitVec 36)) (s : State) :
    (readCodeword k p beats s).2.health = s.health := by
  unfold readCodeword
  split <;> simp

@[simp] theorem memoryStatusBody_health (r : Req) (s : State) : KeepsHealth Prod.fst s (memoryStatusBody r s) := by
  simp [memoryStatusBody]

/-! ### Couriers (16) -/

@[simp] theorem fillBuffer_health (ns : List Nat) (swap size cap : Nat) (fixed : List (Nat × Nat)) (k : Nat)
    (s : State) (f : Fill) : (fillBuffer ns swap size cap fixed k s f).1.health = s.health := by
  induction k generalizing s f with
  | zero => rfl
  | succ k ih =>
    rw [fillBuffer]
    dsimp only
    split
    · simp
    · split
      · simp
      · split_ifs <;> simp [ih]

@[simp] theorem State.sendBuffer_health (s : State) (fn addr : Nat) (bytes : List Byte) :
    (s.sendBuffer fn addr bytes).health = s.health := by simp -implicitDefEqProofs [State.sendBuffer]
@[simp] theorem quInterrupt_health (q : Nat) (s : State) : (quInterrupt q s).health = s.health := by
  simp [quInterrupt]

@[simp] theorem quComplete_health (q code kind : Nat) (lastBeat : Bool) (f : Fill) (transferred : Nat)
    (s : State) : (quComplete q code kind lastBeat f transferred s).health = s.health := by
  unfold quComplete
  dsimp only
  split <;> simp

@[simp] theorem quHalt_health (q code kind : Nat) (s : State) : (quHalt q code kind s).health = s.health := by
  simp [quHalt]
@[simp] theorem quFetch_health (q : Nat) (s : State) : (quFetch q s).health = s.health := by simp [quFetch]

@[simp] theorem issueReads_health (q : Nat) (k : Nat) (s : State) : (issueReads q k s).health = s.health := by
  induction k generalizing s with
  | zero => rfl
  | succ k ih =>
    rw [issueReads]
    dsimp only
    split <;> simp [ih]

@[simp] theorem issueAll_health (fn q : Nat) (s : State) : (issueAll fn q s).health = s.health := by simp [issueAll]
@[simp] theorem doorbell_health (fn q : Nat) (v : Word) (ack : Bool) (s : State) :
    (doorbell fn q v ack s).health = s.health := by simp [doorbell]
@[simp] theorem quBad_health (q : Nat) (s : State) : (quBad q s).health = s.health := by simp [quBad]

@[simp] theorem descriptorFetch_health (q : Nat) (d : HostRead) (s : State) :
    (descriptorFetch q d s).health = s.health := by
  unfold descriptorFetch
  split <;> simp

@[simp] theorem irqHoldoff_health (q : Nat) (s : State) : (irqHoldoff q s).health = s.health := by simp [irqHoldoff]

@[simp] theorem loadReadCompletion_health (q : Nat) (d : HostRead) (s : State) :
    (loadReadCompletion q d s).health = s.health := by
  unfold loadReadCompletion
  dsimp only
  split
  · rfl
  · split
    · rfl
    · split
      · split <;> simp
      · split
        · rfl
        · split <;> simp

@[simp] theorem quRestart_health (q : Nat) (s : State) : (quRestart q s).health = s.health := by simp [quRestart]

@[simp] theorem quAbort_health (q code : Nat) (s : State) : (quAbort q code s).health = s.health := by
  unfold quAbort
  dsimp only
  split
  · simp
  · split
    · simp
    · split <;> simp

@[simp] theorem quStop_health (q : Nat) (left : Bool) (s : State) : (quStop q left s).health = s.health := by
  simp [quStop]
@[simp] theorem beginDrain_health (d : Nat) (s : State) : (beginDrain d s).health = s.health := by
  simp -implicitDefEqProofs [beginDrain]
@[simp] theorem abortDrain_health (d : Nat) (s : State) : (abortDrain d s).health = s.health := by simp [abortDrain]
@[simp] theorem endDrain_health (d : Nat) (s : State) : (endDrain d s).health = s.health := by simp [endDrain]
@[simp] theorem applyCourierQueue_health (old new : Block) (s : State) :
    (applyCourierQueue old new s).health = s.health := by simp [applyCourierQueue]
@[simp] theorem courierAssignBody_health (r : Req) (s : State) : KeepsHealth Prod.fst s (courierAssignBody r s) := by
  simp [courierAssignBody]
@[simp] theorem courierResumeBody_health (r : Req) (s : State) : KeepsHealth Prod.fst s (courierResumeBody r s) := by
  simp [courierResumeBody]
@[simp] theorem courierStatusBody_health (r : Req) (s : State) : KeepsHealth Prod.fst s (courierStatusBody r s) := by
  simp [courierStatusBody]

/-! ### The archive writer (16) -/

@[simp] theorem fillChunk_health (ns : List Nat) (fixed : List (Nat × Nat)) (k : Nat) (s : State) (f : Filling) :
    (fillChunk ns fixed k s f).1.health = s.health := by
  induction k generalizing s f with
  | zero => rfl
  | succ k ih =>
    rw [fillChunk]
    dsimp only
    split
    · rfl
    · split
      · simp
      · split <;> simp [ih]

@[simp] theorem arcFull_health (s : State) : (arcFull s).health = s.health := by simp [arcFull]
@[simp] theorem dropRecords_health (fixed : List (Nat × Nat)) (s : State) :
    (dropRecords fixed s).health = s.health := by simp [dropRecords]
@[simp] theorem driveFails_health (d c status : Nat) (s : State) : (driveFails d c status s).health = s.health := by
  simp [driveFails]

@[simp] theorem writeFails_health (d c status : Nat) (s : State) : (writeFails d c status s).health = s.health := by
  unfold writeFails
  split <;> simp

@[simp] theorem writeCompletion_health (d c status : Nat) (s : State) :
    (writeCompletion d c status s).health = s.health := by simp [writeCompletion]
@[simp] theorem writeTimeout_health (d c : Nat) (s : State) : (writeTimeout d c s).health = s.health := by
  simp [writeTimeout]
@[simp] theorem smartRead_health (d warn pct spare temp units media : Nat) (s : State) :
    (smartRead d warn pct spare temp units media s).health = s.health := by simp [smartRead]
@[simp] theorem applyArchive_health (old new : Block) (big : List Nat) (s : State) :
    (applyArchive old new big s).health = s.health := by simp [applyArchive]
@[simp] theorem arcStop_health (s : State) : (arcStop s).health = s.health := by simp [arcStop]
@[simp] theorem archiveStatusBody_health (r : Req) (s : State) : KeepsHealth Prod.fst s (archiveStatusBody r s) := by
  simp [archiveStatusBody]

/-! ### Stores taking effect (R280 to R282) -/

@[simp] theorem defineStore_health (b : Block) (base : Nat) (S : Nat) (s : State) :
    (defineStore b base S s).health = s.health := by simp [defineStore]
@[simp] theorem removeStore_health (n : Nat) (s : State) : (removeStore n s).health = s.health := by
  simp [removeStore]
@[simp] theorem retuneStore_health (b : Block) (s : State) : (retuneStore b s).health = s.health := by
  simp [retuneStore]

@[simp] theorem applyStores_health (v v' : View) (changed : List Nat) (S : Nat) (s : State) :
    (applyStores v v' changed S s).health = s.health := by
  unfold applyStores
  simp only [foldl_health fun s n => retuneStore_health _ s]
  refine foldl_health (fun s n => ?_) _ s
  split_ifs
  · simp
  · split <;> simp

end Sys2Proof.Machine
end

section
/-! SUPPORT. The health state past commits and collections:
unchanged, or changed in no cause bit (R565). -/
namespace Sys2Proof.Machine

/-! ### Commits (17) -/

@[simp] theorem withShadows_health (p : Pending) (s : State) : (withShadows p s).health = s.health := by
  simp [withShadows]

@[simp] theorem accept_health (a : Accepted) (s : State) : (accept a s).health = s.health := by
  unfold accept
  split <;> simp

@[simp] theorem localCommitBody_health (r : Req) (s : State) : KeepsHealth Prod.fst s (localCommitBody r s) := by
  simp [localCommitBody]
@[simp] theorem commitRefused_health (r : Req) (e : Err) (s : State) : (commitRefused r e s).health = s.health := by
  simp [commitRefused]

@[simp] theorem freeNumbers_health (items : List Item) (s : State) : (freeNumbers items s).health = s.health := by
  refine foldl_health (fun s i => ?_) items s
  cases i <;> simp

@[simp] theorem commitCancelBody_health (r : Req) (s : State) : KeepsHealth Prod.fst s (commitCancelBody r s) := by
  simp only [commitCancelBody, keepsHealth_bind]
  intros
  split <;> simp

@[simp] theorem State.reindex_health (old new : Nat) (s : State) : (State.reindex old new s).health = s.health := by
  simp [State.reindex]
@[simp] theorem applyCollection_health (old new : Block) (s : State) :
    (applyCollection old new s).health = s.health := by simp [applyCollection]

@[simp] theorem applyTrigger_health (v v' : View) (h S : Nat) (words : Option (Cells 32)) (brought : Bool)
    (s : State) : (applyTrigger v v' h S words brought s).health = s.health := by
  unfold applyTrigger
  split <;> simp

@[simp] theorem applyPipe_health (v v' : View) (h S : Nat) (words : Bool) (s : State) :
    (applyPipe v v' h S words s).health = s.health := by simp [applyPipe]
@[simp] theorem applyConcordance_health (v v' : View) (h S : Nat) (s : State) :
    (applyConcordance v v' h S s).health = s.health := by simp [applyConcordance]
@[simp] theorem dropExhibit_health (h : Nat) (s : State) : (dropExhibit h s).health = s.health := by
  simp [dropExhibit]
@[simp] theorem closeOff_health (v v' : View) (S : Nat) (s : State) : (closeOff v v' S s).health = s.health := by
  simp [closeOff]

@[simp] theorem attachStreams_health (v v' : View) (S : Nat) (s : State) :
    (attachStreams v v' S s).health = s.health := by
  refine foldl_health (fun s d => ?_) _ s
  dsimp only
  split_ifs
  · simp
  · rfl
  · rfl
  all_goals
    split
    · rfl
    · split <;> simp

@[simp] theorem eachBlock_health {v v' : View} {items : List Item} {t : Nat} {f : Block → Block → State → State}
    (hf : ∀ b b' s, (f b b' s).health = s.health) (s : State) : (eachBlock v v' items t f s).health = s.health :=
  foldl_health (fun _ _ => hf _ _ _) _ s

@[simp] theorem eachGone_health {v v' : View} {t : Nat} {f : Block → Block → State → State}
    (hf : ∀ b b' s, (f b b' s).health = s.health) (s : State) : (eachGone v v' t f s).health = s.health :=
  foldl_health (fun s b => by split_ifs <;> simp [hf]) _ s

@[simp] theorem applyCommit_health (p : Pending) (s : State) : (applyCommit p s).health = s.health := by
  simp [applyCommit]

/-! ### Collections (18) -/

@[simp] theorem busArrive_health (w0 w1 : BitVec 64) (v : Nat) (down : Bool) (s : State) :
    (busArrive w0 w1 v down s).health = s.health := by simp [busArrive]
@[simp] theorem triggerMessage_health (w0 w1 : BitVec 64) (v : Nat) (down ok : Bool) (s : State) :
    (triggerMessage w0 w1 v down ok s).health = s.health := by simp [triggerMessage]
@[simp] theorem stopMessage_health (w0 w1 : BitVec 64) (v : Nat) (s : State) :
    (stopMessage w0 w1 v s).health = s.health := by simp [stopMessage]

@[simp] theorem messageSend_health (cls v : Nat) (s : State) : (messageSend cls v s).health = s.health := by
  unfold messageSend
  dsimp only
  split
  · simp
  · split_ifs <;> simp

@[simp] theorem queueControl_health (m : BusMsg) (s : State) : (queueControl m s).health = s.health := by
  simp [queueControl]
@[simp] theorem returnStale_health (m : BusMsg) (s : State) : (returnStale m s).health = s.health := by
  simp [returnStale]
@[simp] theorem busOccur_health (m : BusMsg) (s : State) : (busOccur m s).health = s.health := by simp [busOccur]
@[simp] theorem collCaptures_health (m : BusMsg) (s : State) : (collCaptures m s).health = s.health := by
  simp [collCaptures]
@[simp] theorem armAt_health (q v h : Nat) (s : State) : (armAt q v h s).health = s.health := by simp [armAt]
@[simp] theorem busAct_health (m : BusMsg) (s : State) : (busAct m s).health = s.health := by simp [busAct]

@[simp] theorem messageTarget_health (i : Nat) (s : State) : (messageTarget i s).health = s.health := by
  unfold messageTarget
  split <;> simp

@[simp] theorem returnMsg_health (w0 w1 : BitVec 64) (v : Nat) (s : State) :
    (returnMsg w0 w1 v s).health = s.health := by simp [returnMsg]
@[simp] theorem actionMsg_health (x : Txn) (phase : Nat) (arg : Nat) (s : State) :
    (actionMsg x phase arg s).health = s.health := by simp [actionMsg]
@[simp] theorem beginAction_health (x : Txn) (crc : Nat) (s : State) : (beginAction x crc s).health = s.health := by
  simp [beginAction]

@[simp] theorem runWithheld_health {op : Nat} {r : Req} {s : State} {body : State → Effect}
    (hb : ∀ s, KeepsHealth Prod.fst s (body s)) : (runWithheld op r s body).health = s.health := by
  have hc := checked_health (op := op) (pf := false) (r := r) (hb (s.tick r.t))
  unfold runWithheld
  dsimp only
  split_ifs
  · split
    · next s' res heq => exact hc _ heq
    · exact runCommand_health hb
  · exact runCommand_health hb

@[simp] theorem collCommitBody_health (r : Req) (s : State) : KeepsHealth Prod.fst s (collCommitBody r s) := by
  simp [collCommitBody]
@[simp] theorem collScheduleBody_health (op action : Nat) (asap : Bool) (r : Req) (s : State) :
    KeepsHealth Prod.fst s (collScheduleBody op action asap r s) := by simp [collScheduleBody]
@[simp] theorem collStopBody_health (r : Req) (s : State) : KeepsHealth Prod.fst s (collStopBody r s) := by
  simp [collStopBody]

@[simp] theorem makePending_health (x : Txn) (s : State) : (makePending x s).health = s.health := by
  unfold makePending
  split <;> simp

@[simp] theorem answerAction_health (x : Txn) (e : Err) (res : List Byte) (s : State) :
    (answerAction x e res s).health = s.health := by simp [answerAction]

@[simp] theorem settleAction_health (x : Txn) (s : State) : (settleAction x s).health = s.health := by
  unfold settleAction
  dsimp only
  split
  · simp
  · split
    · simp
    · split <;> simp

@[simp] theorem takeVote_health (m : BusMsg) (vote : Txn → Txn) (s : State) :
    (takeVote m vote s).health = s.health := by
  unfold takeVote
  split <;> simp

@[simp] theorem acceptVote_health (w0 w1 : BitVec 64) (v : Nat) (s : State) :
    (acceptVote w0 w1 v s).health = s.health := by simp [acceptVote]
@[simp] theorem refuseVote_health (w0 w1 : BitVec 64) (v : Nat) (s : State) :
    (refuseVote w0 w1 v s).health = s.health := by simp [refuseVote]

@[simp] theorem voteTimeout_health (id : Nat) (s : State) : (voteTimeout id s).health = s.health := by
  unfold voteTimeout
  split <;> simp

@[simp] theorem checkAction_health (m : BusMsg) (t : CT) (s : State) :
    KeepsHealth Prod.snd s (checkAction m t s) := by
  unfold checkAction
  dsimp only
  split <;> simp

@[simp] theorem prepareMsg_health (w0 w1 : BitVec 64) (v t : Nat) (s : State) :
    (prepareMsg w0 w1 v t s).health = s.health := by
  unfold prepareMsg
  dsimp only
  split
  · rfl
  · split
    · next x s' heq =>
      have hs := (keepsHealth_ite _ _ _).mpr ⟨fun _ => checkAction_health _ _ _, fun _ => keepsHealth_refuse _ _⟩ _ heq
      simpa using hs
    · simp

@[simp] theorem dropTxn_health (x : Txn) (s : State) : (dropTxn x s).health = s.health := by simp [dropTxn]
@[simp] theorem discardAction_health (x : Txn) (s : State) : (discardAction x s).health = s.health := by
  simp [discardAction]

@[simp] theorem goMsg_health (w0 w1 : BitVec 64) (v : Nat) (s : State) : (goMsg w0 w1 v s).health = s.health := by
  unfold goMsg
  dsimp only
  split
  · simp
  · split <;> simp

@[simp] theorem abortMsg_health (w0 w1 : BitVec 64) (v : Nat) (s : State) :
    (abortMsg w0 w1 v s).health = s.health := by
  unfold abortMsg
  dsimp only
  split
  · simp
  · split <;> simp

@[simp] theorem tentativeTimeout_health (id t : Nat) (s : State) : (tentativeTimeout id t s).health = s.health := by
  unfold tentativeTimeout
  split <;> simp

@[simp] theorem sendAlign_health (s : State) : (sendAlign s).health = s.health := by simp [sendAlign]
@[simp] theorem formed_health (corr : Int) (turn : Nat) (s : State) : (formed corr turn s).health = s.health := by
  simp [formed]
@[simp] theorem reform_health (s : State) : (reform s).health = s.health := by simp [reform]
@[simp] theorem alignMsg_health (w0 w1 : BitVec 64) (v : Nat) (s : State) :
    (alignMsg w0 w1 v s).health = s.health := by simp [alignMsg]
@[simp] theorem laneLock_health (lane t : Nat) (s : State) : (laneLock lane t s).health = s.health := by
  simp -implicitDefEqProofs [laneLock]
@[simp] theorem laneLoss_health (lane : Nat) (lost : List Nat) (t : Nat) (s : State) :
    (laneLoss lane lost t s).health = s.health := by simp [laneLoss]
@[simp] theorem probeMsg_health (slot : Nat) (a1 : Int) (s : State) : (probeMsg slot a1 s).health = s.health := by
  simp [probeMsg]
@[simp] theorem echoMsg_health (w0 w1 : BitVec 64) (hop slot : Nat) (a3 : Int) (s : State) :
    (echoMsg w0 w1 hop slot a3 s).health = s.health := by simp [echoMsg]
@[simp] theorem collectionFormBody_health (r : Req) (s : State) :
    KeepsHealth Prod.fst s (collectionFormBody r s) := by simp [collectionFormBody]
@[simp] theorem collectionDissolveBody_health (r : Req) (s : State) :
    KeepsHealth Prod.fst s (collectionDissolveBody r s) := by simp [collectionDissolveBody]
@[simp] theorem collectionStatusBody_health (r : Req) (s : State) :
    KeepsHealth Prod.fst s (collectionStatusBody r s) := by simp [collectionStatusBody]
@[simp] theorem stepTags_health (v v' : View) (s : State) : (stepTags v v' s).health = s.health := by simp [stepTags]

end Sys2Proof.Machine
end

section
/-! SUPPORT. The health state past faults, fallow mode, start-up, the Curator and the sequence of the cadence:
unchanged, or changed in no cause bit (R565). -/
namespace Sys2Proof.Machine

/-! ### Losses (02, 19, 20) -/

@[simp] theorem takeStream_health (d : StreamDef) (cause unit lo : Nat) (s : State) :
    (takeStream d cause unit lo s).health = s.health := by simp [takeStream]

@[simp] theorem openRunning_health (s : State) : (openRunning s).health = s.health := by
  refine foldl_health (fun s d => ?_) _ s
  split
  · simp
  · split <;> simp

@[simp] theorem openLoss_health (l : Loss) (s : State) : (openLoss l s).health = s.health := by simp [openLoss]
@[simp] theorem resumeExhibit_health (S : Nat) (failed : Bool) (h : Nat) (s : State) :
    (resumeExhibit S failed h s).health = s.health := by simp [resumeExhibit]
@[simp] theorem resumeStreams_health (S : Nat) (ds : List StreamDef) (was : List Nat) (failed : Bool) (s : State) :
    (resumeStreams S ds was failed s).health = s.health := by simp [resumeStreams]
@[simp] theorem endLosses_health (sel : Loss → Bool) (S : Nat) (failed : Bool) (s : State) :
    (endLosses sel S failed s).health = s.health := by simp [endLosses]
@[simp] theorem pllLoss_health (k : Nat) (s : State) : (pllLoss k s).health = s.health := by simp [pllLoss]
@[simp] theorem pllUnlock_health (k t : Nat) (s : State) : (pllUnlock k t s).health = s.health := by simp [pllUnlock]
@[simp] theorem lockWindowEnd_health (k diff t : Nat) (s : State) : (lockWindowEnd k diff t s).health = s.health := by
  simp [lockWindowEnd]
@[simp] theorem resumePlls_health (ks : List Nat) (S : Nat) (s : State) : (resumePlls ks S s).health = s.health := by
  simp -implicitDefEqProofs [resumePlls]

/-! ### Domains, galleries and migration (19, 20) -/

@[simp] theorem powerUpAll_health (ds : List Nat) (s : State) : (powerUpAll ds s).health = s.health := by
  simp [powerUpAll]
@[simp] theorem domainOff_health (d : Nat) (s : State) : (domainOff d s).health = s.health := by simp [domainOff]
@[simp] theorem wingUp_health (w : Nat) (ms : List Meas) (s : State) : (wingUp w ms s).health = s.health := by
  simp [wingUp]
@[simp] theorem leaveStart_health (op unit t : Nat) (ms : List Meas) (s : State) :
    (leaveStart op unit t ms s).health = s.health := by simp [leaveStart]
@[simp] theorem domainPowerDown_health (d t : Nat) (s : State) : (domainPowerDown d t s).health = s.health := by
  simp [domainPowerDown]

@[simp] theorem outOfService_health (p g lo : Nat) (s : State) : (outOfService p g lo s).health = s.health := by
  unfold outOfService
  dsimp only
  rw [openLoss_health, foldl_health (fun s d => ?_)]
  split
  · split_ifs <;> simp
  · rfl

@[simp] theorem migrateAuto_health (p g : Nat) (s : State) : (migrateAuto p g s).health = s.health := by
  unfold migrateAuto
  split <;> simp

@[simp] theorem remapPending_health (p : Nat) (dst : Option Nat) (s : State) :
    (remapPending p dst s).health = s.health := by simp [remapPending]

@[simp] theorem targetFails_health (m : Migration) (s : State) : (targetFails m s).health = s.health := by
  unfold targetFails
  dsimp only
  split
  · simp
  · split
    · simp
    · split <;> simp

@[simp] theorem sourceFails_health (p g : Nat) (s : State) : (sourceFails p g s).health = s.health := by
  unfold sourceFails
  split <;> simp

@[simp] theorem warmupStart_health (p t : Nat) (s : State) : (warmupStart p t s).health = s.health := by
  unfold warmupStart
  split <;> simp

@[simp] theorem epochsMoved_health (v v' : View) (tm : Nat) (by0 : Nat → Bool) (s : State) :
    (epochsMoved v v' tm by0 s).health = s.health := by simp [epochsMoved]
@[simp] theorem newPlacement_health (p S : Nat) (s : State) : (newPlacement p S s).health = s.health := by
  simp [newPlacement]

@[simp] theorem migrationSwitch_health (p t : Nat) (s : State) : (migrationSwitch p t s).health = s.health := by
  unfold migrationSwitch
  split <;> simp

@[simp] theorem couriersStop_health (left : Bool) (s : State) : (couriersStop left s).health = s.health := by
  simp [couriersStop]

@[simp] theorem faultEffect_health (d : Nat) (back : Option Nat) (s : State) :
    (faultEffect d back s).health = s.health := by
  unfold faultEffect
  split
  · simp
  · split
    · split <;> simp
    · simp

@[simp] theorem domainResume_health (d t : Nat) (ms : List Meas) (s : State) :
    (domainResume d t ms s).health = s.health := by simp [domainResume]
@[simp] theorem analysisBack_health (t : Nat) (s : State) : (analysisBack t s).health = s.health := by
  simp [analysisBack]
@[simp] theorem thermalTrip_health (sensor : Nat) (temp : Int) (t : Nat) (s : State) :
    (thermalTrip sensor temp t s).health = s.health := by simp [thermalTrip]

@[simp] theorem spoilOldest_health (key : Nat) (s : State) : (spoilOldest key s).health = s.health := by
  unfold spoilOldest
  dsimp only
  split
  · simp
  · split <;> simp

/-! ### Fallow mode (19) -/

@[simp] theorem settleStack_causes (k : Nat) (s : State) : (settleStack k s).health.causes = s.health.causes := by
  unfold settleStack
  dsimp only
  rw [foldl_health (fun s _ => relocationDone_health k s), foldl_causes (fun s p => rebuildDone_causes k p s),
    State.setStk_health]

@[simp] theorem restStack_causes (cold : Bool) (k : Nat) (s : State) :
    (restStack cold k s).health.causes = s.health.causes := by simp [restStack]
@[simp] theorem restartStore_health (n : Nat) (s : State) : (restartStore n s).health = s.health := by
  simp [restartStore]

@[simp] theorem fallowRest_causes (mode : Nat) (s : State) :
    (fallowRest mode s).health.causes = s.health.causes := by
  simp [fallowRest]

@[simp] theorem fallowNow_causes (mode : Nat) (s : State) : (fallowNow mode s).health.causes = s.health.causes := by
  simp [fallowNow]
@[simp] theorem fallowBegin_causes (r : Req) (s : State) : (fallowBegin r s).health.causes = s.health.causes := by
  simp [fallowBegin]
@[simp] theorem fallowEnterBody_health (r : Req) (s : State) : KeepsHealth Prod.fst s (fallowEnterBody r s) := by
  simp [fallowEnterBody]

@[simp] theorem drainTimeout_causes (d : Nat) (s : State) : (drainTimeout d s).health.causes = s.health.causes := by
  unfold drainTimeout
  split
  · simp
  · simp

@[simp] theorem linkL1Exit_health (s : State) : (linkL1Exit s).health = s.health := by simp [linkL1Exit]
@[simp] theorem linkL1Entry_health (s : State) : (linkL1Entry s).health = s.health := by simp [linkL1Entry]
@[simp] theorem wakeStack_health (train : Bool) (k : Nat) (s : State) : (wakeStack train k s).health = s.health := by
  simp [wakeStack]

/-! ### Start-up and resets (21) -/

@[simp] theorem markActive_causes (i : Nat) (s : State) : (markActive i s).health.causes = s.health.causes := by
  simp [markActive]
@[simp] theorem afterCold_health (s : State) : (afterCold s).health = s.health := by simp [afterCold]
@[simp] theorem coldReset_causes (straps : Nat) (strapPerst : Bool) (s : State) :
    (coldReset straps strapPerst s).health.causes = s.health.causes := by simp [coldReset]
@[simp] theorem setBootMap_health (s : State) : (setBootMap s).health = s.health := by simp [setBootMap]
@[simp] theorem bootDomains_health (s : State) : (bootDomains s).health = s.health := by simp [bootDomains]
@[simp] theorem supplyOutOfRange_health (sup : Nat) (s : State) : (supplyOutOfRange sup s).health = s.health := by
  simp [supplyOutOfRange]
@[simp] theorem boundaryScan_health (drives : Bool) (s : State) : (boundaryScan drives s).health = s.health := by
  simp [boundaryScan]
@[simp] theorem discardStaged_health (fn : Nat) (s : State) : (discardStaged fn s).health = s.health := by
  simp [discardStaged]
@[simp] theorem functionLevelReset_health (fn t : Nat) (s : State) :
    (functionLevelReset fn t s).health = s.health := by simp -implicitDefEqProofs [functionLevelReset]
@[simp] theorem hotReset_health (t : Nat) (s : State) : (hotReset t s).health = s.health := by simp [hotReset]
@[simp] theorem linkRetrained_health (rate width : Nat) (s : State) :
    (linkRetrained rate width s).health = s.health := by simp [linkRetrained]

/-! ### The Curator (17) -/

@[simp] theorem unknownOpcode_health (fn : Nat) (area : List Byte) (s : State) :
    (unknownOpcode fn area s).health = s.health := by simp [unknownOpcode]
@[simp] theorem ring_health (fn : Nat) (s : State) : (ring fn s).health = s.health := by simp [ring]
@[simp] theorem writeRequest_health (fn off size : Nat) (v : BitVec 64) (s : State) :
    (writeRequest fn off size v s).health = s.health := by simp [writeRequest]
@[simp] theorem doorbellLostClear_health (fn : Nat) (v : Word) (again : Bool) (s : State) :
    (doorbellLostClear fn v again s).health = s.health := by simp [doorbellLostClear]
@[simp] theorem alertStatusClear_health (fn : Nat) (v set : Word) (s : State) :
    (alertStatusClear fn v set s).health = s.health := by simp [alertStatusClear]
@[simp] theorem eventConsumed_health (fn : Nat) (v : Word) (t : Nat) (s : State) :
    (eventConsumed fn v t s).health = s.health := by simp -implicitDefEqProofs [eventConsumed]
@[simp] theorem refusalsRead_health (fn same : Nat) (s : State) : (refusalsRead fn same s).health = s.health := by
  simp [refusalsRead]
@[simp] theorem writeMsix_health (fn a : Nat) (v : BitVec 32) (s : State) :
    (writeMsix fn a v s).health = s.health := by simp [writeMsix]
@[simp] theorem registerWrite_health (fn off size : Nat) (v : BitVec 64) (t : Nat) (s : State) :
    (registerWrite fn off size v t s).health = s.health := by simp [registerWrite]
@[simp] theorem deviceInfoBody_health (r : Req) (s : State) : KeepsHealth Prod.fst s (deviceInfoBody r s) := by
  simp [deviceInfoBody]

@[simp] theorem tellRollback_health (s : State) : (tellRollback s).health = s.health := by
  unfold tellRollback
  split <;> simp

@[simp] theorem eventRingSetBody_health (r : Req) (s : State) : KeepsHealth Prod.fst s (eventRingSetBody r s) := by
  simp [eventRingSetBody]

@[simp] theorem blockStageBody_health (r : Req) (s : State) : KeepsHealth Prod.fst s (blockStageBody r s) := by
  simp only [blockStageBody, keepsHealth_bind]
  intros
  split <;> simp

@[simp] theorem blockReadBody_health (r : Req) (s : State) : KeepsHealth Prod.fst s (blockReadBody r s) := by
  simp [blockReadBody]
@[simp] theorem stageDiscardBody_health (r : Req) (s : State) : KeepsHealth Prod.fst s (stageDiscardBody r s) := by
  simp [stageDiscardBody]

@[simp] theorem exhibitDefineBody_health (r : Req) (s : State) :
    KeepsHealth Prod.fst s (exhibitDefineBody r s) := by
  simp only [exhibitDefineBody, keepsHealth_bind, keepsHealth_ite]
  intros
  constructor
  · intros
    split <;> simp
  · intros
    split <;> simp

@[simp] theorem exhibitDeleteBody_health (r : Req) (s : State) : KeepsHealth Prod.fst s (exhibitDeleteBody r s) := by
  simp [exhibitDeleteBody]
@[simp] theorem exhibitQueryBody_health (r : Req) (s : State) : KeepsHealth Prod.fst s (exhibitQueryBody r s) := by
  simp [exhibitQueryBody]
@[simp] theorem exhibitAssignBody_health (r : Req) (s : State) : KeepsHealth Prod.fst s (exhibitAssignBody r s) := by
  simp [exhibitAssignBody]
@[simp] theorem restartBegins_health (cause : Nat) (s : State) : (restartBegins cause s).health = s.health := by
  simp [restartBegins]
@[simp] theorem rollBack_health (reason : Nat) (s : State) : (rollBack reason s).health = s.health := by
  simp [rollBack]
@[simp] theorem watchdogExpiry_health (t : Nat) (s : State) : (watchdogExpiry t s).health = s.health := by
  simp [watchdogExpiry]
@[simp] theorem controlWord_health (unit t : Nat) (s : State) : (controlWord unit t s).health = s.health := by
  simp [controlWord]
@[simp] theorem answerCaught_health (fn : Nat) (s : State) : (answerCaught fn s).health = s.health := by
  simp [answerCaught]
@[simp] theorem activated_causes (s : State) : (activated s).health.causes = s.health.causes := by simp [activated]

@[simp] theorem restartDone_causes (us : Nat) (damaged : Bool) (t : Nat) (s : State) :
    (restartDone us damaged t s).health.causes = s.health.causes := by
  unfold restartDone
  dsimp only
  split
  · simp
  · simp -implicitDefEqProofs

@[simp] theorem activationTimeout_health (reason t : Nat) (s : State) :
    (activationTimeout reason t s).health = s.health := by simp -implicitDefEqProofs [activationTimeout]
@[simp] theorem heartbeat_causes (t : Nat) (s : State) : (heartbeat t s).health.causes = s.health.causes := by
  simp [heartbeat]
@[simp] theorem fwStageBody_health (r : Req) (s : State) : KeepsHealth Prod.fst s (fwStageBody r s) := by
  simp [fwStageBody]
@[simp] theorem fwVerifyBody_health (r : Req) (s : State) : KeepsHealth Prod.fst s (fwVerifyBody r s) := by
  simp [fwVerifyBody]
@[simp] theorem fwVerifyFailed_health (e : Err) (s : State) : (fwVerifyFailed e s).health = s.health := by
  simp [fwVerifyFailed]
@[simp] theorem fwActivateBody_health (r : Req) (s : State) : KeepsHealth Prod.fst s (fwActivateBody r s) := by
  simp [fwActivateBody]
@[simp] theorem activationBegins_health (r : Req) (s : State) : (activationBegins r s).health = s.health := by
  simp [activationBegins]
@[simp] theorem fwStatusBody_health (r : Req) (s : State) : KeepsHealth Prod.fst s (fwStatusBody r s) := by
  simp [fwStatusBody]

/-! ### The cadence as it reaches every unit (02) -/

@[simp] theorem moveWings_health (old S : Nat) (s : State) : (moveWings old S s).health = s.health := by
  simp [moveWings]
@[simp] theorem moveAnalysis_health (old S : Nat) (s : State) : (moveAnalysis old S s).health = s.health := by
  simp [moveAnalysis]
@[simp] theorem moveOutputs_health (old S : Nat) (s : State) : (moveOutputs old S s).health = s.health := by
  simp [moveOutputs]
@[simp] theorem moveAxis_health (old S : Nat) (s : State) : (moveAxis old S s).health = s.health := by simp [moveAxis]
@[simp] theorem settleAll_health (s : State) : (settleAll s).health = s.health := by simp [settleAll]
@[simp] theorem anchorNow_health (s : State) : (anchorNow s).health = s.health := by simp [anchorNow]
@[simp] theorem commitNow_health (p : Pending) (s : State) : (commitNow p s).health = s.health := by simp [commitNow]

@[simp] theorem actNow_health (late : Bool) (a : Action) (s : State) : (actNow late a s).health = s.health := by
  unfold actNow
  split <;> simp

@[simp] theorem commitEffect_health (id : Nat) (s : State) : (commitEffect id s).health = s.health := by
  unfold commitEffect
  split <;> simp

@[simp] theorem actionEffect_health (ok : Act → Bool) (id : Nat) (s : State) :
    (actionEffect ok id s).health = s.health := by
  unfold actionEffect
  split <;> simp

@[simp] theorem runLate_health (due : Nat → Bool) (k : Nat) (times : List (DueKey × Due)) (s : State) :
    (runLate due k times s).health = s.health := by
  induction k generalizing times s with
  | zero => rfl
  | succ k ih =>
    rw [runLate]
    split <;> simp [ih]

@[simp] theorem lateSchedules_health (who : Nat → Bool) (a b : CT) (s : State) :
    (lateSchedules who a b s).2.health = s.health := by
  refine foldl_health_of Prod.snd (fun acc x => ?_) _ _
  dsimp only
  split <;> simp

@[simp] theorem markLate_health (due : Nat → Bool) (s : State) : (markLate due s).health = s.health := by
  simp [markLate]

@[simp] theorem anchorStream_health (s0 : State) (gap : Option Gap) (old S : Nat) (oldT : CT) (back : Bool)
    (d : StreamDef) (s : State) : (anchorStream s0 gap old S oldT back d s).health = s.health := by
  unfold anchorStream
  split
  · rfl
  · cases gap <;> simp

@[simp] theorem reanchor_health (pos : CT) (s : State) : (reanchor pos s).health = s.health := by simp [reanchor]

@[simp] theorem cadMark_health (pos : CT) (s : State) : (cadMark pos s).health = s.health := by
  unfold cadMark
  dsimp only
  split
  · simp
  · split
    · simp
    · split <;> simp

@[simp] theorem analysisResume_health (t : Nat) (s : State) : (analysisResume t s).health = s.health := by
  simp [analysisResume]

/-! ### Mailbox rows that choose their body (R493) -/

@[simp] theorem commitRow_health (r : Req) (s : State) : (commitRow r s).health = s.health := by simp [commitRow]
@[simp] theorem triggerArmRow_health (r : Req) (s : State) : (triggerArmRow r s).health = s.health := by
  simp [triggerArmRow]
@[simp] theorem triggerForceRow_health (r : Req) (s : State) : (triggerForceRow r s).health = s.health := by
  simp [triggerForceRow]

/-! ### Rows of the analysis (07) -/

@[simp] theorem markMissingAt_health (turn : Nat) (s : State) : (markMissingAt turn s).health = s.health := by
  simp [markMissingAt]

end Sys2Proof.Machine
end

section
/-! SUPPORT. The rows that can reach a deaccession notice keep every cause bit (R565): `c` are the bits that the state
before holds. -/
namespace Sys2Proof.Machine

section
variable {c : Nat}

theorem foldl_within {α : Type} {f : State → α → State}
    (hf : ∀ s a, Within c s.health.causes → Within c (f s a).health.causes) (l : List α) {s : State}
    (h : Within c s.health.causes) : Within c (l.foldl f s).health.causes := by
  induction l generalizing s with
  | nil => exact h
  | cons a l ih => exact ih (hf s a h)

variable {s : State} (h : Within c s.health.causes)
include h

@[simp] theorem retirePc_within (k p : Nat) (boot : Bool) : Within c (retirePc k p boot s).health.causes := by
  simp -implicitDefEqProofs [retirePc, h]

@[simp] theorem badWord_within (k p granule : Nat) : Within c (badWord k p granule s).health.causes := by
  simp -implicitDefEqProofs [badWord, h]

@[simp] theorem readWord_within (w : BadWord) : Within c (readWord w s).health.causes := by
  simp -implicitDefEqProofs [readWord, h]

@[simp] theorem bar4Read_within (fn off len : Nat) (bad : List BadWord) (rows : List (Nat × Nat)) (t : Nat) :
    Within c (bar4Read fn off len bad rows t s).health.causes := by
  unfold bar4Read
  dsimp only
  split
  · simpa using h
  · rw [State.send_health, bar4Bytes_health]
    exact foldl_within (fun s w hs => readWord_within hs w) bad (by simpa using h)

@[simp] theorem livenessFail_within (ch k t : Nat) : Within c (livenessFail ch k t s).health.causes := by
  unfold livenessFail
  dsimp only
  split
  · simpa using h
  · split
    · simp [h]
    · split <;> simp [h]

@[simp] theorem scrubRead_within (k p : Nat) (beats : List (BitVec 36)) (holds : Option (Nat × Nat))
    (rows : List (Nat × Nat)) : Within c (scrubRead k p beats holds rows s).health.causes := by
  unfold scrubRead
  dsimp only
  split
  · exact h
  · rw [State.setStk_health]
    generalize zxDecode _ = res
    cases res with
    | ok => simp [h]
    | fixed sym err => simp [h]
    | bad => cases holds <;> simp -implicitDefEqProofs [h]

@[simp] theorem laneFailed_within (k p lane : Nat) (boot : Bool) :
    Within c (laneFailed k p lane boot s).health.causes := by
  unfold laneFailed
  dsimp only
  split
  · exact h
  · split
    · exact retirePc_within (by simpa using h) k p boot
    · simp [h]

@[simp] theorem trainLane_within (k p : Nat) (boot : Bool) (r : LaneRun) :
    Within c (trainLane k p boot r s).health.causes := by
  unfold trainLane
  dsimp only
  refine foldl_within (fun s lane hs => laneFailed_within hs k p lane boot) _ ?_
  split <;> simpa using h

@[simp] theorem retrainDone_within (k p : Nat) (runs : List LaneRun) :
    Within c (retrainDone k p runs s).health.causes := by
  unfold retrainDone
  dsimp only
  split
  · exact h
  · exact foldl_within (fun s r hs => trainLane_within hs k p false r) runs (by simpa using h)

@[simp] theorem quWords_within (bad : List BadWord) : Within c (quWords bad s).1.health.causes := by
  refine foldl_within (fun s w hs => ?_) bad h
  simp -implicitDefEqProofs [hs]

@[simp] theorem handBack_within (q : Nat) (rows : List (Nat × Nat)) (bad : List BadWord) (flush : Bool) :
    Within c (handBack q rows bad flush s).health.causes := by
  unfold handBack
  dsimp only
  split
  · exact h
  · split_ifs
    · exact h
    · exact h
    · simp -implicitDefEqProofs [h]

@[simp] theorem writeChunk_within (rows : List (Nat × Nat)) (bad : List BadWord) (flush : Bool) :
    Within c (writeChunk rows bad flush s).health.causes := by
  simp -implicitDefEqProofs [writeChunk, h]

@[simp] theorem bootGalleryFails_within (g : Nat) : Within c (bootGalleryFails g s).health.causes := by
  simp -implicitDefEqProofs [bootGalleryFails, h]

@[simp] theorem bootRest_within (rep : BootReport) (i n : Nat) : Within c (bootRest rep i n s).health.causes := by
  unfold bootRest
  dsimp only
  simp only [health_ite, causes_ite, markActive_causes, State.setBoot_health, setBootMap_health, ite_self]
  refine foldl_within (fun s g hs => bootGalleryFails_within hs g) _ ?_
  rw [foldl_health fun s e => judgeWindow_health _ _ _ s]
  refine foldl_within (fun s l hs => ?_) _ ?_
  · simp [hs]
  · simpa using h

@[simp] theorem bootTry_within (k : Nat) : Within c (bootTry k s).health.causes := by
  induction k generalizing s with
  | zero => exact h
  | succ k ih =>
    rw [bootTry]
    split
    · exact h
    · dsimp only
      split
      · simpa using h
      · rw [health_ite, causes_ite, within_ite, health_ite, causes_ite, within_ite]
        exact ⟨fun _ => bootRest_within h _ _ _, fun _ => ⟨fun _ => h, fun _ => ih (by simpa using h)⟩⟩

@[simp] theorem bootRun_within : Within c (bootRun s).health.causes := by
  simp -implicitDefEqProofs [bootRun, h]

@[simp] theorem perst_within (asserted : Bool) (t : Nat) : Within c (perst asserted t s).health.causes := by
  simp -implicitDefEqProofs [perst, h]

@[simp] theorem galleryFails_within (g t : Nat) : Within c (galleryFails g t s).health.causes := by
  simp -implicitDefEqProofs [galleryFails, h]

@[simp] theorem domainFault_within (d t : Nat) : Within c (domainFault d t s).health.causes := by
  simp -implicitDefEqProofs [domainFault, h]

@[simp] theorem countMismatch_within : Within c (countMismatch s).health.causes := by
  simp -implicitDefEqProofs [countMismatch, h]

@[simp] theorem lockstepMismatch_within (t : Nat) : Within c (lockstepMismatch t s).health.causes := by
  simp -implicitDefEqProofs [lockstepMismatch, h]

@[simp] theorem fallowWake_within (retrain : Bool) (runs : List (Nat × Nat × LaneRun)) :
    Within c (fallowWake retrain runs s).health.causes := by
  unfold fallowWake
  dsimp only
  split
  · exact h
  · rw [State.post_health, endDrain_health, armComparators_health, health_ite, causes_ite, within_ite]
    refine ⟨fun _ => foldl_within (fun s l hs => by simp [hs]) runs ?_, fun _ => ?_⟩
    all_goals
      simp only [foldl_health fun s k => wakeStack_health _ k s, powerUpAll_health, State.setCad_health,
        State.freeNat_health]
      split <;> simpa using h

@[simp] theorem suppliesGood_within (rep : BootReport) : Within c (suppliesGood rep s).health.causes := by
  simp -implicitDefEqProofs [suppliesGood, h]

@[simp] theorem bootAttemptTimeout_within : Within c (bootAttemptTimeout s).health.causes := by
  simp -implicitDefEqProofs [bootAttemptTimeout, h]

@[simp] theorem galleryWord_within (g : Nat) : Within c (galleryWord g s).health.causes := by
  simp -implicitDefEqProofs [galleryWord, h]

@[simp] theorem wordLost_within (place unit key t : Nat) : Within c (wordLost place unit key t s).health.causes := by
  unfold wordLost
  dsimp only
  split
  · simp -implicitDefEqProofs [h]
  · split
    · simp -implicitDefEqProofs [h]
    · split <;> simp -implicitDefEqProofs [h]
  · simp -implicitDefEqProofs [h]
  · simp -implicitDefEqProofs [h]
  · simpa using h

@[simp] theorem uncorrectable_within (place unit key t : Nat) :
    Within c (uncorrectable place unit key t s).health.causes := by
  simp -implicitDefEqProofs [uncorrectable, h]
end

end Sys2Proof.Machine
end

section
/-! SUPPORT. What a deaccession notice does (R565); posting an event neither reads nor writes the health state. -/
namespace Sys2Proof.Machine

/-! ### Events pass by the health state (R486 to R491) -/

section
variable (s : State) (h : Health)

theorem State.mb_setHealth (fn : Nat) : (s.setHealth h).mb fn = s.mb fn := rfl

theorem State.send_setHealth (x : Sent) : (s.setHealth h).send x = (s.send x).setHealth h := rfl

theorem State.setMb_setHealth (fn : Nat) (m : Mbox) : (s.setHealth h).setMb fn m = (s.setMb fn m).setHealth h := rfl

theorem State.time_setHealth : (s.setHealth h).time = s.time := rfl

theorem State.alert_setHealth (bits : Nat) : (s.setHealth h).alert bits = (s.alert bits).setHealth h := rfl

theorem State.setHealth_setHealth (g : Health) : (s.setHealth h).setHealth g = s.setHealth g := rfl

theorem State.with_health_setHealth (g : Health) : { s.setHealth h with health := g } = s.setHealth g := rfl

theorem State.setHealth_of_eq {s : State} {h : Health} (hs : s.health = h) : s.setHealth h = s := by
  subst hs
  rfl

theorem State.setHealth_ite (p : Prop) [Decidable p] (a b : State) :
    (if p then a else b).setHealth h = if p then a.setHealth h else b.setHealth h :=
  apply_ite (fun s => State.setHealth s h) p a b

theorem State.msix_setHealth (fn v : Nat) : (s.setHealth h).msix fn v = (s.msix fn v).setHealth h := by
  simp only [State.msix, State.mb_setHealth, State.setMb_setHealth, State.send_setHealth, State.setHealth_ite]
  rfl

theorem State.writeEvent_setHealth (e : Held) : (s.setHealth h).writeEvent e = (s.writeEvent e).setHealth h := by
  simp only [State.writeEvent, State.mb_setHealth, State.setMb_setHealth, State.send_setHealth, State.msix_setHealth]

theorem State.flushLost_setHealth (fn : Nat) : (s.setHealth h).flushLost fn = (s.flushLost fn).setHealth h := by
  simp only [State.flushLost, State.mb_setHealth, State.setMb_setHealth, State.writeEvent_setHealth,
    State.time_setHealth, State.setHealth_ite]

theorem State.loseEvent_setHealth (fn code : Nat) :
    (s.setHealth h).loseEvent fn code = (s.loseEvent fn code).setHealth h := rfl

theorem State.deliverEvent_setHealth (e : Held) : (s.setHealth h).deliverEvent e = (s.deliverEvent e).setHealth h := by
  simp only [State.deliverEvent, State.flushLost_setHealth, State.mb_setHealth, State.writeEvent_setHealth,
    State.loseEvent_setHealth, State.setHealth_ite]

theorem State.post_setHealth (code : Nat) (payload : List (Nat × Nat)) (fn : Nat) :
    (s.setHealth h).post code payload fn = (s.post code payload fn).setHealth h := by
  simp only [State.post, State.postTo, State.setHealth_boot, State.setHealth_cur, State.deliverEvent_setHealth,
    State.loseEvent_setHealth, State.time_setHealth, State.setHealth_ite]
  rfl

theorem State.postAll_setHealth (code : Nat) (payload : List (Nat × Nat)) :
    (s.setHealth h).postAll code payload = (s.postAll code payload).setHealth h :=
  List.foldl_hom (fun s => State.setHealth s h) fun s fn => s.post_setHealth h code payload fn

end

@[simp] theorem State.post_alertBits (s : State) (code : Nat) (payload : List (Nat × Nat)) (fn : Nat) :
    (s.post code payload fn).cur.alert = s.cur.alert := by
  unfold State.post State.postTo
  split_ifs
  · rfl
  · rfl
  · obtain ⟨-, hcur, -⟩ := leaves_at (s.deliverEvent_frame _)
    rw [hcur]

@[simp] theorem State.postAll_alertBits (s : State) (code : Nat) (payload : List (Nat × Nat)) :
    (s.postAll code payload).cur.alert = s.cur.alert :=
  foldl_unchanged (fun s => s.cur.alert) (fun s fn => s.post_alertBits code payload fn) _ s

/-! ### The log (R566) -/

/-- The ring of 4,096 holds the new entry last. -/
theorem logEntry_entries (kind unit sub detail : Nat) (s : State) :
    ∃ l e, (logEntry kind unit sub detail s).health.entries = l ++ [e] ∧ e.kind = kind ∧ e.detail = detail := by
  unfold logEntry
  dsimp only
  rw [State.setHealth_health, List.drop_append_of_le_length (by rw [List.length_append, List.length_singleton]; omega)]
  exact ⟨_, _, rfl, rfl, rfl⟩

theorem logEntry_rest (kind unit sub detail : Nat) (s : State) (h : Health) :
    { logEntry kind unit sub detail s with health := h } = s.setHealth h := by
  unfold logEntry
  exact State.with_health_setHealth s _ h

/-! ### The notice (R461, R565) -/

theorem or_two_pow_even {a k : Nat} (hk : 1 ≤ k) (ha : a % 2 = 0) : (a ||| 2 ^ k) % 2 = 0 := by
  have hpow : 2 ^ k % 2 = 0 := Nat.mod_eq_zero_of_dvd (dvd_pow_self 2 (by omega))
  have hor := Nat.or_mod_two_eq_one (a := a) (b := 2 ^ k)
  omega

theorem or_two_pow_ne_zero (a k : Nat) : a ||| 2 ^ k ≠ 0 := by simp

/-- DEACC is the register's bit 0, which no cause bit occupies. -/
theorem healthReg_odd {h : Health} (hne : h.causes ≠ 0) (heven : h.causes % 2 = 0) : healthReg h % 2 = 1 := by
  have hdeacc : b2n (h.causes != 0) = 1 := by simp [b2n, hne]
  rw [healthReg, hdeacc]
  omega

section
variable {cause : Nat} {s : State} (h : s.health.causes.testBit cause = false)
include h

theorem deaccession_eq : deaccession cause s = logEntry 8 0xFF 0 (s.health.causes ||| 2 ^ cause)
    (((s.setHealth { s.health with causes := s.health.causes ||| 2 ^ cause }).alert alHealth).postAll evDeaccession
      [(4, s.health.causes ||| 2 ^ cause)]) := by
  rw [deaccession, if_neg (by simp [h])]

theorem deaccession_entries : ∃ l e, (deaccession cause s).health.entries = l ++ [e] ∧ e.kind = 8 ∧
    e.detail = s.health.causes ||| 2 ^ cause := by
  rw [deaccession_eq h]
  exact logEntry_entries 8 0xFF 0 _ _

theorem deaccession_rest : { deaccession cause s with health := s.health } =
    (s.alert alHealth).postAll evDeaccession [(4, s.health.causes ||| 2 ^ cause)] := by
  rw [deaccession_eq h, logEntry_rest, State.alert_setHealth, State.postAll_setHealth, State.setHealth_setHealth]
  exact State.setHealth_of_eq (by simp)

theorem deaccession_alertBits : (deaccession cause s).cur.alert = s.cur.alert ||| alHealth := by
  have hrest := congrArg (fun t => t.cur.alert) (deaccession_rest h)
  simpa using hrest

end

end Sys2Proof.Machine
end

section
/-! PROOF. A deaccession cause stays for good (R565). -/
namespace Sys2Proof.Machine

/-- Every row keeps every cause bit: those of `within` may add one, every other leaves the register alone. -/
theorem exec_within {i : Instr} {s t : State} (hx : exec i s = .next t) : Within s.health.causes t.health.causes := by
  cases i
  case bar4Read fn off len bad rows now =>
    simp only [exec, execBar4Read] at hx
    split at hx
    · cases hx
    · cases hx
      simp
  case fallowEnter r =>
    cases hx
    rw [runThen_causes (fallowEnterBody_health r) (fallowBegin_causes r)]
    exact within_refl _
  case fwActivate r =>
    cases hx
    rw [runThen_causes (fwActivateBody_health r) (fun s => by simp)]
    exact within_refl _
  all_goals
    cases hx
    simp

theorem step_within {s t : State} (hx : step s = .next t) : Within s.health.causes t.health.causes := by
  unfold step at hx
  split at hx
  · cases hx
    exact within_refl _
  · next c rest _ => exact exec_within (s := { s with pending := rest }) hx

/-- Settles O60: no row clears a cause bit (`exec_within`), and a notice that is new sets its own, with everything that
R565 has go with it (`deaccession_eq`). -/
theorem deaccessionCausesStay : Obligations.DeaccessionCausesStay := by
  refine ⟨fun s t hx => ⟨step_within hx, fun hlow => ?_⟩, fun cause s hcause heven hnew => ?_⟩
  · have hs : s.health.causes ≠ 0 := by simpa [State.deaccLow] using hlow
    simpa [State.deaccLow] using (step_within hx).ne_zero hs
  · have hc := deaccession_causes cause s
    have hne : (deaccession cause s).health.causes ≠ 0 := by
      rw [hc]
      exact or_two_pow_ne_zero s.health.causes cause
    refine ⟨hc, ?_, ?_, deaccession_alertBits hnew, deaccession_entries hnew, deaccession_rest hnew⟩
    · simp [State.deaccLow]
    · exact healthReg_odd hne (by rw [hc]; exact or_two_pow_even hcause heven)

end Sys2Proof.Machine
end

section
/-! PROOF. Instruction words: the fields of a packed word, and decode of encode (R249, R319). -/
namespace Sys2Proof.Machine

/-! ### Fields of a packed word -/

theorem b2n_lt_two (b : Bool) : b2n b < 2 := by cases b <;> decide

/-- A flag of a word, as the field of one bit that it is. -/
theorem testBit_eq_iff (w k : Nat) (b : Bool) : w.testBit k = b ↔ w / 2 ^ k % 2 = b2n b := by
  rw [Nat.testBit_eq_decide_div_mod_eq]
  have := Nat.mod_two_eq_zero_or_one (w / 2 ^ k)
  cases b <;> simp [b2n]

/-- An immediate of a word, as the field of its own width that it is. -/
theorem ofNat_eq_iff {n : Nat} (w : Nat) (v : BitVec n) : BitVec.ofNat n w = v ↔ w % 2 ^ n = v.toNat := by
  rw [← BitVec.toNat_inj, BitVec.toNat_ofNat]

/-- What the fields of a word add below its opcode. -/
def fieldSum : List (Nat × Nat) → Nat
  | [] => 0
  | f :: fs => f.2 * 2 ^ f.1 + fieldSum fs

theorem fieldSum_nil : fieldSum [] = 0 := by rw [fieldSum]

theorem fieldSum_cons (lo v : Nat) (fs : List (Nat × Nat)) : fieldSum ((lo, v) :: fs) = v * 2 ^ lo + fieldSum fs := by
  rw [fieldSum]

theorem fieldSum_cons_bf (lo : Nat) (b : Bool) (fs : List (Nat × Nat)) :
    fieldSum (bf lo b :: fs) = b2n b * 2 ^ lo + fieldSum fs := by
  rw [fieldSum, bf]

theorem attWord_eq (op : Nat) (fs : List (Nat × Nat)) : attWord op fs = op * 2 ^ 26 + fieldSum fs := by
  have hfold (a : Nat) : fs.foldl (fun w f => w + fieldAt f.1 f.2) a = a + fieldSum fs := by
    induction fs generalizing a with
    | nil => rfl
    | cons f fs ih => rw [List.foldl_cons, ih, fieldAt, fieldSum, Nat.add_assoc]
  exact hfold _

/-- Where its fields stay below the opcode, a word fits 32 bits and its opcode is read back. -/
theorem attWord_reads {op : Nat} {fs : List (Nat × Nat)} {P : Prop} (hop : op < 2 ^ 6) (hfs : fieldSum fs < 2 ^ 26)
    (h : bitsOf (attWord op fs) 26 6 = op → P) : attWord op fs < 2 ^ 32 ∧ P := by
  have hw := attWord_eq op fs
  exact ⟨by omega, h (by rw [bitsOf]; omega)⟩

/-! ### Attendant programs (R249) -/

theorem attDecode_of_fields {h w : Nat} {i : Instr} (hf : attFields h w = some i) (he : attEncode i = some w) :
    attDecode h w = some i := by
  simp [attDecode, hf, he]

theorem attFields_of_attEncode {i : Instr} {w : Nat} (he : attEncode i = some w) :
    w < 2 ^ 32 ∧ ∃ h, attFields h w = some i := by
  unfold attEncode at he
  split at he
  case h_26 => cases he
  all_goals
    simp only [Option.ite_none_right_eq_some, Option.some.injEq, fits, List.all_cons, List.all_nil, Bool.and_eq_true,
      Bool.and_true, Bool.or_eq_true, decide_eq_true_eq, beq_iff_eq, bne_iff_ne] at he
  case h_1 => subst he; exact ⟨by decide, _, rfl⟩
  case h_2 => subst he; exact ⟨by decide, _, rfl⟩
  all_goals obtain ⟨hfit, rfl⟩ := he
  case' h_13 | h_14 => have hflag := b2n_lt_two ‹_›
  case' h_21 | h_22 | h_23 => have himm := BitVec.isLt ‹_›
  all_goals
    refine attWord_reads (by decide) ?_ fun hop => ?_
    · simp only [fieldSum_cons, fieldSum_nil]
      omega
    unfold attFields
    rw [hop]
    simp [testBit_eq_iff, ofNat_eq_iff]
    simp only [bitsOf, attWord_eq, fieldSum_cons, fieldSum_nil]
    omega

/-- Settles O3: each word is its opcode above the fields of its row, and each field is read back where it was put. -/
theorem attendantRoundTrip : Obligations.AttendantRoundTrip := by
  intro i w he
  obtain ⟨hlt, h, hf⟩ := attFields_of_attEncode he
  exact ⟨hlt, h, attDecode_of_fields hf he⟩

/-! ### Conservator programs (R319) -/

theorem wordM_fmtM (op : Nat) {m : FmtM} (hfit : fits (fmtMFits m) = true) :
    fieldSum (fmtM m) < 2 ^ 26 ∧ wordM (attWord op (fmtM m)) = m := by
  obtain ⟨a, xp, xs, yp, ys, xh, yh, xsrc, xd, ysrc, yd, conj⟩ := m
  simp only [fits, fmtMFits, List.all_cons, List.all_nil, Bool.and_eq_true, Bool.and_true, decide_eq_true_eq] at hfit
  obtain ⟨ha, hxp, hyp, hxd, hyd⟩ := hfit
  have hxs := b2n_lt_two xs
  have hys := b2n_lt_two ys
  have hxh := b2n_lt_two xh
  have hyh := b2n_lt_two yh
  have hxsrc := b2n_lt_two xsrc
  have hysrc := b2n_lt_two ysrc
  have hconj := b2n_lt_two conj
  simp only [wordM, FmtM.mk.injEq, testBit_eq_iff]
  simp only [bitsOf, attWord_eq, fmtM, fieldSum_cons, fieldSum_cons_bf, fieldSum_nil]
  refine ⟨?_, ?_, ?_, ?_, ?_, ?_, ?_, ?_, ?_, ?_, ?_, ?_, ?_⟩ <;> omega

theorem wordSta_staFields (op : Nat) {f : StaF} (hfit : fits (staFits f) = true) :
    fieldSum (staFields f) < 2 ^ 26 ∧ wordSta (attWord op (staFields f)) = f := by
  obtain ⟨a, dst, mem, p, step, width, half, st⟩ := f
  simp only [fits, staFits, List.all_cons, List.all_nil, Bool.and_eq_true, Bool.and_true, decide_eq_true_eq] at hfit
  obtain ⟨ha, hp, hstep, hs⟩ := hfit
  have hdst := b2n_lt_two dst
  have hmem := b2n_lt_two mem
  have hwidth := b2n_lt_two width
  have hhalf := b2n_lt_two half
  simp only [wordSta, StaF.mk.injEq, testBit_eq_iff]
  simp only [bitsOf, attWord_eq, fieldSum_cons, fieldSum_nil, staFields, bf]
  refine ⟨?_, ?_, ?_, ?_, ?_, ?_, ?_, ?_, ?_⟩ <;> omega

/-- What the word of an instruction reads as: an OUT to REC_CTL reads as its opening form (R310). -/
def consRead : Instr → Instr
  | .close c d => .recOpen c d
  | i => i

theorem consParts_consRead (i : Instr) : consParts (consRead i) = consParts i := by
  cases i <;> rfl

theorem consEncode_consRead (i : Instr) : consEncode (consRead i) = consEncode i := by
  rw [consEncode, consEncode, consParts_consRead]

theorem consParts_lt {i : Instr} {op : Nat} {fs ws : List (Nat × Nat)} (hparts : consParts i = some (op, fs, ws))
    (hfit : fits ws = true) : op < 2 ^ 6 ∧ fieldSum fs < 2 ^ 26 := by
  unfold consParts at hparts
  split at hparts
  case h_45 => cases hparts
  all_goals
    simp only [Option.some.injEq, Prod.mk.injEq] at hparts
    obtain ⟨rfl, rfl, rfl⟩ := hparts
    refine ⟨by decide, ?_⟩
  case h_20 | h_21 | h_22 | h_23 | h_24 | h_25 | h_26 | h_27 => exact (wordM_fmtM 0 hfit).1
  case h_28 | h_29 => exact (wordSta_staFields 0 hfit).1
  all_goals simp only [fits, List.all_cons, List.all_nil, Bool.and_eq_true, Bool.and_true, decide_eq_true_eq] at hfit
  case' h_11 | h_12 | h_13 | h_30 | h_31 | h_34 | h_35 => have hflag := b2n_lt_two ‹_›
  case' h_13 | h_16 | h_17 | h_18 | h_32 | h_33 | h_44 => have himm := BitVec.isLt ‹_›
  all_goals
    simp only [fieldSum_cons, fieldSum_cons_bf, fieldSum_nil]
    omega

/-- An OUT names its port in bits 22 to 20 (R310). -/
theorem port_attWord {op d p : Nat} (hp : p < 2 ^ 3) : bitsOf (attWord op [(23, d), (20, p)]) 20 3 = p := by
  simp only [bitsOf, attWord_eq, fieldSum_cons, fieldSum_nil]
  omega

theorem consFields_attWord {i : Instr} {op : Nat} {fs ws : List (Nat × Nat)} (hparts : consParts i = some (op, fs, ws))
    (hfit : fits ws = true) (hop : bitsOf (attWord op fs) 26 6 = op) :
    ∃ c, consFields c (attWord op fs) = some (consRead i) := by
  unfold consFields
  rw [hop]
  unfold consParts at hparts
  split at hparts
  case h_45 => cases hparts
  all_goals
    simp only [Option.some.injEq, Prod.mk.injEq] at hparts
    obtain ⟨rfl, rfl, rfl⟩ := hparts
  case h_1 | h_2 | h_6 | h_9 | h_10 => exact ⟨_, rfl⟩
  case h_20 | h_21 | h_22 | h_23 | h_24 | h_25 | h_26 | h_27 =>
    exact ⟨_, congrArg _ (congrArg _ (wordM_fmtM _ hfit).2)⟩
  case h_28 | h_29 => exact ⟨_, congrArg _ (congrArg _ (wordSta_staFields _ hfit).2)⟩
  all_goals simp only [fits, List.all_cons, List.all_nil, Bool.and_eq_true, Bool.and_true, decide_eq_true_eq] at hfit
  case' h_41 => obtain rfl | rfl : _ = 0 ∨ _ = 1 := Nat.le_one_iff_eq_zero_or_eq_one.mp (Nat.le_of_lt_succ hfit.2)
  case' h_37 | h_38 | h_39 | h_40 | h_41.inl | h_41.inr | h_42 => rw [port_attWord (by decide)]
  case' h_11 | h_12 | h_13 | h_30 | h_31 | h_34 | h_35 => have hflag := b2n_lt_two ‹_›
  case' h_13 | h_16 | h_17 | h_18 | h_32 | h_33 | h_44 => have himm := BitVec.isLt ‹_›
  all_goals
    simp [consRead, testBit_eq_iff, ofNat_eq_iff]
    simp only [bitsOf, attWord_eq, fieldSum_cons, fieldSum_cons_bf, fieldSum_nil]
    omega

theorem consDecode_of_consEncode {i : Instr} {w : Nat} (he : consEncode i = some w) :
    w < 2 ^ 32 ∧ ∃ c, consDecode c w = some (consRead i) := by
  have hread := (consEncode_consRead i).trans he
  unfold consEncode at he
  split at he
  case h_2 => cases he
  case h_1 op fs ws hparts =>
    simp only [Option.ite_none_right_eq_some, Option.some.injEq] at he
    obtain ⟨hfit, rfl⟩ := he
    obtain ⟨hop, hfs⟩ := consParts_lt hparts hfit
    refine attWord_reads hop hfs fun hop' => ?_
    obtain ⟨c, hc⟩ := consFields_attWord hparts hfit hop'
    exact ⟨c, by simp [consDecode, hc, hread]⟩

/-- The decoder names the slot that it is asked for. -/
theorem slot_of_consDecode {c c' d w : Nat} (h : consDecode c w = some (.recOpen c' d)) : c' = c := by
  unfold consDecode at h
  split at h
  case h_2 => cases h
  case h_1 j hj =>
    obtain rfl : j = .recOpen c' d := by simpa using (Option.ite_none_right_eq_some.mp h).2
    unfold consFields at hj
    split at hj
    case h_37 => split at hj <;> simp_all
    all_goals cases hj

/-- Settles O7: as for the Attendant, and an OUT to REC_CTL reads as its opening form. -/
theorem conservatorRoundTrip : Obligations.ConservatorRoundTrip := by
  intro i w he
  obtain ⟨hlt, c, hc⟩ := consDecode_of_consEncode he
  refine ⟨hlt, fun hclose => ⟨c, ?_⟩, ?_⟩
  · rw [hc, consRead]
    exact hclose
  · rintro c' d rfl
    obtain rfl := slot_of_consDecode hc
    exact ⟨c', hc⟩

end Sys2Proof.Machine
end

section
/-! PROOF. The code of the stacks (R398 to R400): multiplication by powers of alpha, syndromes, one symbol in error. -/
namespace Sys2Proof.Machine

/-! ### Multiplication by powers of alpha (R398) -/

theorem gfDouble_zero : gfDouble 0 = 0 := by decide

theorem gfDouble_xor (a b : Byte) : gfDouble (a ^^^ b) = gfDouble a ^^^ gfDouble b := by
  unfold gfDouble
  rw [BitVec.getLsbD_xor, BitVec.shiftLeft_xor_distrib]
  cases a.getLsbD 7 <;> cases b.getLsbD 7
  · rfl
  · simp [BitVec.xor_assoc]
  · simp [BitVec.xor_assoc, BitVec.xor_comm 29#8]
  · simp [BitVec.xor_assoc]

/-- Multiplication by alpha^n. -/
def gfShift (n : Nat) (a : Byte) : Byte := gfDouble^[n] a

theorem gfShift_zero_left (a : Byte) : gfShift 0 a = a := rfl

theorem gfShift_add (m n : Nat) (a : Byte) : gfShift (m + n) a = gfShift m (gfShift n a) :=
  Function.iterate_add_apply _ _ _ _

theorem gfShift_zero (n : Nat) : gfShift n 0#8 = 0#8 := Function.iterate_fixed gfDouble_zero n

theorem gfShift_xor (n : Nat) (a b : Byte) : gfShift n (a ^^^ b) = gfShift n a ^^^ gfShift n b := by
  induction n generalizing a b with
  | zero => rfl
  | succ n ih => rw [gfShift_add n 1, gfShift_add n 1, gfShift_add n 1, ← ih]; exact congrArg _ (gfDouble_xor a b)

theorem gfShift_injective (n : Nat) : Function.Injective (gfShift n) := by
  have hker : ∀ a : Byte, gfDouble a = 0 → a = 0 := by decide
  refine Function.Injective.iterate (fun a b h => ?_) n
  refine BitVec.xor_eq_zero_iff.mp (hker _ ?_)
  rw [gfDouble_xor, h, BitVec.xor_self]
  rfl

/-- The powers of alpha that tell the 36 symbols apart are different (R398). -/
theorem gfShift_left_injOn {e : Byte} (he : e ≠ 0) {m n : Nat} (hm : m < 36) (hn : n < 36)
    (h : gfShift m e = gfShift n e) : m = n := by
  have horder : ∀ e : Byte, e ≠ 0 → e ∉ List.iterate gfDouble (gfDouble e) 35 := by decide +kernel
  have hlt {m n : Nat} (hmn : m < n) (hn : n < 36) (h : gfShift m e = gfShift n e) : False := by
    refine horder e he (List.mem_iterate.mpr ⟨n - m - 1, by omega, gfShift_injective m ?_⟩)
    rw [h, ← Function.iterate_succ_apply, show (n - m - 1).succ = n - m by omega, ← gfShift, ← gfShift_add,
      Nat.add_sub_cancel' hmn.le]
  rcases Nat.lt_trichotomy m n with h' | h' | h'
  · exact (hlt h' hn h).elim
  · exact h'
  · exact (hlt h' hm h.symm).elim

/-- Functions that keep sums are equal where they agree on the eight unit bytes. -/
theorem additive_ext {f g : Byte → Byte} (hf : ∀ a b, f (a ^^^ b) = f a ^^^ f b) (hg : ∀ a b, g (a ^^^ b) = g a ^^^ g b)
    (h : ∀ i < 8, f (1#8 <<< i) = g (1#8 <<< i)) (a : Byte) : f a = g a := by
  have hsum : ∀ a : Byte, ((List.range 8).filter a.getLsbD).foldr (fun i x => 1#8 <<< i ^^^ x) 0 = a := by decide
  have hzero {f : Byte → Byte} (hf : ∀ a b, f (a ^^^ b) = f a ^^^ f b) : f 0 = 0 := by simpa using hf 0 0
  have hlist (l : List Nat) (hl : ∀ i ∈ l, i < 8) :
      f (l.foldr (fun i x => 1#8 <<< i ^^^ x) 0) = g (l.foldr (fun i x => 1#8 <<< i ^^^ x) 0) := by
    induction l with
    | nil => rw [List.foldr_nil, hzero hf, hzero hg]
    | cons i l ih =>
      rw [List.foldr_cons, hf, hg, h i (hl i List.mem_cons_self), ih fun j hj => hl j (List.mem_cons_of_mem i hj)]
  rw [← hsum a]
  exact hlist _ fun i hi => List.mem_range.mp (List.mem_of_mem_filter hi)

/-- One step of a product: the sum so far, and the first factor times the next power of alpha. -/
def gfMulStep (c : Byte) (r : Byte × Byte) (i : Nat) : Byte × Byte :=
  (if c.getLsbD i then r.1 ^^^ r.2 else r.1, gfDouble r.2)

theorem gfMul_xor (c a b : Byte) : gfMul (a ^^^ b) c = gfMul a c ^^^ gfMul b c := by
  have hfold (l : List Nat) (p q a b : Byte) : (l.foldl (gfMulStep c) (p ^^^ q, a ^^^ b)).1 =
      (l.foldl (gfMulStep c) (p, a)).1 ^^^ (l.foldl (gfMulStep c) (q, b)).1 := by
    induction l generalizing p q a b with
    | nil => rfl
    | cons i l ih =>
      simp only [List.foldl_cons, gfMulStep, gfDouble_xor]
      rw [← ih]
      congr 3
      split_ifs
      · ac_rfl
      · rfl
  exact hfold (List.range 8) 0 0 a b

theorem gfMul_gfPow {n : Nat} (hn : n < 36) (a : Byte) : gfMul a (gfPow n) = gfShift n a := by
  have hunit : ∀ n < 36, ∀ i < 8, gfMul (1#8 <<< i) (gfPow n) = gfDouble^[n] (1#8 <<< i) := by decide +kernel
  exact additive_ext (f := (gfMul · (gfPow n))) (gfMul_xor _) (gfShift_xor n) (hunit n hn) a

/-! ### Syndromes of a codeword (R399, R400) -/

/-- A syndrome that has come to `a` and takes the symbols `c`. -/
def syndromeFrom (j : Nat) (a : Byte) (c : List Byte) : Byte := c.foldl (fun a x => gfShift j a ^^^ x) a

theorem syndrome_eq {j : Nat} (hj : j < 36) (c : List Byte) : syndrome j c = syndromeFrom j 0 c := by
  unfold syndrome syndromeFrom
  simp only [gfMul_gfPow hj]
  rfl

theorem syndromeFrom_xor (j : Nat) (a b : Byte) (c : List Byte) :
    syndromeFrom j (a ^^^ b) c = syndromeFrom j a c ^^^ gfShift (j * c.length) b := by
  induction c generalizing a b with
  | nil => rfl
  | cons x c ih =>
    have hstep : gfShift j (a ^^^ b) ^^^ x = (gfShift j a ^^^ x) ^^^ gfShift j b := by rw [gfShift_xor]; ac_rfl
    rw [syndromeFrom, List.foldl_cons, hstep, ← syndromeFrom, ih, ← gfShift_add, List.length_cons, Nat.mul_succ]
    rfl

theorem syndromeFrom_append (j : Nat) (a : Byte) (c d : List Byte) :
    syndromeFrom j a (c ++ d) = syndromeFrom j (syndromeFrom j a c) d := List.foldl_append

/-- An error at symbol `i` adds itself times the power of alpha that belongs to its place. -/
theorem syndromeFrom_set (j : Nat) (a e : Byte) (c : List Byte) {i : Nat} (hi : i < c.length) :
    syndromeFrom j a (c.set i (c.getD i 0 ^^^ e)) = syndromeFrom j a c ^^^ gfShift (j * (c.length - 1 - i)) e := by
  induction c generalizing a i with
  | nil => simp at hi
  | cons x c ih =>
    cases i with
    | zero =>
      have hx : gfShift j a ^^^ (x ^^^ e) = (gfShift j a ^^^ x) ^^^ e := by ac_rfl
      simpa [syndromeFrom, hx] using syndromeFrom_xor j (gfShift j a ^^^ x) e c
    | succ i =>
      have hlen : (x :: c).length - 1 - (i + 1) = c.length - 1 - i := by simp; omega
      rw [hlen]
      exact ih _ (by simpa using hi)

/-- The remainder register of R399: four symbols, the highest power first. -/
abbrev Remainder := Byte × Byte × Byte × Byte

/-- The register takes one data symbol (R399). -/
def zxStep (r : Remainder) (x : Byte) : Remainder :=
  let f := x ^^^ r.1
  (r.2.1 ^^^ gfMul f 0x0F#8, r.2.2.1 ^^^ gfMul f 0x36#8, r.2.2.2 ^^^ gfMul f 0x78#8, gfMul f 0x40#8)

/-- The register as a polynomial at alpha^j. -/
def Remainder.at (j : Nat) (r : Remainder) : Byte :=
  gfShift (3 * j) r.1 ^^^ gfShift (2 * j) r.2.1 ^^^ gfShift j r.2.2.1 ^^^ r.2.2.2

theorem zxCheck_eq (d : List Byte) :
    zxCheck d = let r := d.foldl zxStep (0, 0, 0, 0); [r.1, r.2.1, r.2.2.1, r.2.2.2] := rfl

/-- alpha^0 to alpha^3 are the roots of g(x), so at them its lower terms are alpha^4j (R399). -/
theorem generator_root {j : Nat} (hj : j < 4) (f : Byte) :
    gfShift (3 * j) (gfMul f 0x0F#8) ^^^ gfShift (2 * j) (gfMul f 0x36#8) ^^^ gfShift j (gfMul f 0x78#8) ^^^
      gfMul f 0x40#8 = gfShift (4 * j) f := by
  have hunit : ∀ j < 4, ∀ i < 8,
      gfDouble^[3 * j] (gfMul (1#8 <<< i) 0x0F#8) ^^^ gfDouble^[2 * j] (gfMul (1#8 <<< i) 0x36#8) ^^^
        gfDouble^[j] (gfMul (1#8 <<< i) 0x78#8) ^^^ gfMul (1#8 <<< i) 0x40#8 = gfDouble^[4 * j] (1#8 <<< i) := by
    decide +kernel
  refine additive_ext (f := fun f => gfShift (3 * j) (gfMul f 0x0F#8) ^^^ gfShift (2 * j) (gfMul f 0x36#8) ^^^
    gfShift j (gfMul f 0x78#8) ^^^ gfMul f 0x40#8) (fun a b => ?_) (gfShift_xor (4 * j)) (hunit j hj) f
  simp only [gfMul_xor, gfShift_xor]
  ac_rfl

theorem at_zxStep {j : Nat} (hj : j < 4) (r : Remainder) (x : Byte) :
    (zxStep r x).at j = gfShift j (r.at j) ^^^ gfShift (4 * j) x := by
  obtain ⟨r3, r2, r1, r0⟩ := r
  have hroot := generator_root hj (x ^^^ r3)
  have h4 : gfShift (4 * j) r3 = gfShift j (gfShift (3 * j) r3) := by rw [← gfShift_add]; congr 1; omega
  have h3 : gfShift (3 * j) r2 = gfShift j (gfShift (2 * j) r2) := by rw [← gfShift_add]; congr 1; omega
  have h2 : gfShift (2 * j) r1 = gfShift j (gfShift j r1) := by rw [← gfShift_add]; congr 1; omega
  rw [gfShift_xor, h4] at hroot
  simp only [Remainder.at, zxStep]
  generalize gfMul (x ^^^ r3) 0x0F#8 = g3, gfMul (x ^^^ r3) 0x36#8 = g2, gfMul (x ^^^ r3) 0x78#8 = g1,
    gfMul (x ^^^ r3) 0x40#8 = g0 at *
  simp only [gfShift_xor, h3, h2]
  calc _ = (gfShift j (gfShift (2 * j) r2) ^^^ gfShift j (gfShift j r1) ^^^ gfShift j r0) ^^^
        (gfShift (3 * j) g3 ^^^ gfShift (2 * j) g2 ^^^ gfShift j g1 ^^^ g0) := by ac_rfl
    _ = _ := by rw [hroot]; ac_rfl

theorem at_foldl_zxStep {j : Nat} (hj : j < 4) (d : List Byte) (r : Remainder) (a : Byte)
    (h : r.at j = gfShift (4 * j) a) : (d.foldl zxStep r).at j = gfShift (4 * j) (syndromeFrom j a d) := by
  induction d generalizing r a with
  | nil => exact h
  | cons x d ih =>
    refine ih _ _ ?_
    rw [at_zxStep hj, h, gfShift_xor, ← gfShift_add, ← gfShift_add, Nat.add_comm]

/-- Every codeword has the four syndromes 0 (R399, R400). -/
theorem syndrome_zxEncode {j : Nat} (hj : j < 4) (d : List Byte) : syndrome j (zxEncode d) = 0 := by
  have hat := at_foldl_zxStep hj d (0, 0, 0, 0) 0 (by simp [Remainder.at, gfShift_zero])
  rw [syndrome_eq (by omega), zxEncode, zxCheck_eq, syndromeFrom_append, syndromeFrom]
  simp only [Remainder.at] at hat
  simp only [List.foldl_cons, List.foldl_nil, gfShift_xor, ← gfShift_add]
  rw [show j + (j + (j + j)) = 4 * j by omega, ← hat, show j + (j + j) = 3 * j by omega, ← Nat.two_mul]
  generalize gfShift (3 * j) _ = a, gfShift (2 * j) _ = b, gfShift j _ = c, (d.foldl zxStep _).2.2.2 = e
  calc _ = (a ^^^ a) ^^^ (b ^^^ b) ^^^ (c ^^^ c) ^^^ (e ^^^ e) := by ac_rfl
    _ = 0 := by simp

@[simp] theorem zxEncode_length (d : List Byte) : (zxEncode d).length = d.length + 4 := by simp [zxEncode, zxCheck_eq]

/-! ### The decoder (R400) -/

theorem zxDecode_zxEncode (d : List Byte) : zxDecode (zxEncode d) = .ok := by
  simp [zxDecode, syndrome_zxEncode]

/-- A codeword with one symbol in error. -/
def oneError (d : List Byte) (i : Nat) (e : Byte) : List Byte := (zxEncode d).set i ((zxEncode d).getD i 0 ^^^ e)

theorem syndrome_oneError {d : List Byte} (hd : d.length = 32) {i j : Nat} (hi : i < 36) (hj : j < 4) (e : Byte) :
    syndrome j (oneError d i e) = gfShift (j * (35 - i)) e := by
  have hlen : (zxEncode d).length = 36 := by simp [hd]
  rw [syndrome_eq (by omega), oneError, syndromeFrom_set _ _ _ _ (by omega), ← syndrome_eq (by omega),
    syndrome_zxEncode hj, hlen]
  simp

theorem zxDecode_oneError {d : List Byte} (hd : d.length = 32) {i : Nat} (hi : i < 36) {e : Byte} (he : e ≠ 0) :
    zxDecode (oneError d i e) = .fixed i e := by
  have hs0 := syndrome_oneError hd hi (j := 0) (by decide) e
  have hs1 := syndrome_oneError hd hi (j := 1) (by decide) e
  have hs2 := syndrome_oneError hd hi (j := 2) (by decide) e
  have hs3 := syndrome_oneError hd hi (j := 3) (by decide) e
  have hne : gfShift (35 - i) e ≠ 0 := fun h => he (gfShift_injective _ (h.trans (gfShift_zero _).symm))
  have hfind : (List.range 36).find? (fun p => gfMul e (gfPow p) == gfShift (35 - i) e) = some (35 - i) := by
    rw [List.find?_range_eq_some]
    refine ⟨by simp [gfMul_gfPow (show 35 - i < 36 by omega)], by simp; omega, fun p hp => ?_⟩
    rw [gfMul_gfPow (by omega)]
    simpa using fun h => absurd (gfShift_left_injOn he (by omega) (by omega) h) (by omega)
  rw [Nat.zero_mul, gfShift_zero_left] at hs0
  rw [Nat.one_mul] at hs1
  simp only [zxDecode, hs0, hs1, hs2, hs3, hfind, gfMul_gfPow (show 35 - i < 36 by omega), ← gfShift_add]
  rw [show 2 * (35 - i) = 35 - i + (35 - i) by omega, show 3 * (35 - i) = 35 - i + (35 - i + (35 - i)) by omega]
  have he0 : e ≠ 0#8 := he
  have hne0 : gfShift (35 - i) e ≠ 0#8 := hne
  simp [he0, hne0]
  omega

theorem zxRepair_oneError {d : List Byte} (hd : d.length = 32) {i : Nat} (hi : i < 36) {e : Byte} (he : e ≠ 0) :
    zxRepair (oneError d i e) = zxEncode d := by
  have hlen : i < (zxEncode d).length := by simp [hd, hi]
  simp only [zxRepair, zxDecode_oneError hd hi he]
  rw [oneError]
  generalize zxEncode d = c at hlen
  rw [List.set_set]
  simp [hlen]

/-! ### Bit lanes (R395) -/

theorem testBit_maskOf (l : List Nat) (i : Nat) : (maskOf l).testBit i = decide (i ∈ l) := by
  have hfold (m : Nat) : (l.foldl (fun m i => m ||| 2 ^ i) m).testBit i = (m.testBit i || decide (i ∈ l)) := by
    induction l generalizing m with
    | nil => simp
    | cons k l ih =>
      rw [List.foldl_cons, ih, Nat.testBit_or, Nat.testBit_two_pow]
      simp [Bool.or_assoc, eq_comm]
  rw [maskOf, hfold, Nat.zero_testBit, Bool.false_or]

theorem getLsbD_symbolAt (beats : List (BitVec 36)) (i : Nat) {j : Nat} (hj : j < 8) :
    (symbolAt beats i).getLsbD j = (beats.getD j 0).getLsbD i := by
  rw [symbolAt, BitVec.getLsbD_ofNat, testBit_maskOf]
  simp [hj]

theorem getLsbD_wordBurst (c : List Byte) {i j : Nat} (hi : i < 36) (hj : j < 8) :
    ((wordBurst c).getD j 0).getLsbD i = (c.getD i 0).getLsbD j := by
  have hbeat : (wordBurst c).getD j 0 = BitVec.ofNat 36 (maskOf ((List.range 36).filter fun i => (c.getD i 0).getLsbD j)) := by
    simp [wordBurst, hj]
  rw [hbeat, BitVec.getLsbD_ofNat, testBit_maskOf]
  simp [hi]

theorem burstWord_getD (beats : List (BitVec 36)) {i : Nat} (hi : i < 36) :
    (burstWord beats).getD i 0 = symbolAt beats i := by simp [burstWord, hi]

theorem burstWord_wordBurst {c : List Byte} (hc : c.length = 36) : burstWord (wordBurst c) = c := by
  refine List.ext_getElem (by simp [burstWord, hc]) fun i hi hi' => BitVec.eq_of_getLsbD_eq fun j hj => ?_
  have hi36 : i < 36 := by omega
  have hw := getLsbD_wordBurst c hi36 hj
  rw [← getLsbD_symbolAt _ _ hj] at hw
  simpa [burstWord, hi'] using hw

/-- Settles O46: at alpha^0 to alpha^3 a codeword is 0 and one error is its own power, which names the place. -/
theorem oneSymbolIsCorrected : Obligations.OneSymbolIsCorrected := by
  refine ⟨fun d i e hd hi he => ⟨zxDecode_zxEncode d, zxDecode_oneError hd hi he, zxRepair_oneError hd hi he⟩,
    fun c hc => burstWord_wordBurst hc, fun a b lane h i hi hne => ?_⟩
  rw [burstWord_getD a hi, burstWord_getD b hi]
  refine BitVec.eq_of_getLsbD_eq fun j hj => ?_
  rw [getLsbD_symbolAt a i hj, getLsbD_symbolAt b i hj, h j i hj hi hne]

end Sys2Proof.Machine
end

section
/-! PROOF. One step, and the state after reset. -/
namespace Sys2Proof.Machine

/-- Settles O1: `step` reads nothing but the queue's front. -/
theorem stepRunsFrontCommand : Obligations.StepRunsFrontCommand := by
  refine ⟨fun c rest s => rfl, fun s hs => ?_⟩
  rw [step, hs]

/-- Settles O2: nothing is listed, so every unit reads as its reset state. -/
theorem resetState : Obligations.ResetState := by
  have hex (n : Nat) : State.reset.view.ex n = Exhibit.reset n := rfl
  refine ⟨fun h hh => ?_, fun n hn => ?_, rfl, rfl, rfl, rfl, ?_, rfl, rfl⟩
  · simp [hex, Exhibit.reset, hh]
  · simp [hex, Exhibit.reset, Nat.not_lt.mpr hn]
  · decide

end Sys2Proof.Machine
end

section
/-! PROOF. Attendant programs: jumps, timers, counters, masks (R243, R244, R246, R249) and waits (R240 to R242). -/
namespace Sys2Proof.Machine

/-! ### Tests and values -/

theorem jumpIf_eq (c : Bool) (a : Nat) (p : Prog) : jumpIf c a p = if c then { p with pc := a } else p := rfl

theorem jumpIf_not (c : Bool) (a : Nat) (p : Prog) : jumpIf (!c) a p = if c then p else { p with pc := a } := by
  cases c <;> rfl

theorem land_ne_zero_iff {x y : Nat} : x &&& y ≠ 0 ↔ ∃ n, x.testBit n = true ∧ y.testBit n = true := by
  constructor
  · intro h
    obtain ⟨n, hn⟩ := Nat.exists_testBit_of_ne_zero h
    exact ⟨n, by simpa [Nat.testBit_and] using hn⟩
  · rintro ⟨n, hx, hy⟩ h
    simpa [h, hx, hy] using Nat.testBit_and x y n

theorem land_eq_right_iff {x y : Nat} : x &&& y = y ↔ ∀ n, y.testBit n = true → x.testBit n = true := by
  constructor
  · intro h n hy
    have := Nat.testBit_and x y n
    simpa [h, hy] using this
  · intro h
    refine Nat.eq_of_testBit_eq fun n => ?_
    rw [Nat.testBit_and]
    cases hy : y.testBit n
    · simp
    · simp [h n hy]

theorem satU32_eq {z : Int} {v : Nat}
    (h : z < 0 ∧ v = 0 ∨ (v : Int) = z ∧ v ≤ 0xFFFFFFFF ∨ (0xFFFFFFFF : Int) < z ∧ v = 0xFFFFFFFF) : satU32 z = v := by
  unfold satU32
  split_ifs <;> omega

/-! ### Instructions that run at once -/

/-- A row that is `attExec` of an effect leaves that effect on its program, and nothing else. -/
theorem exec_of_attRuns {h : Nat} {i : Instr} {s : State} {eff : Trig → Prog → Prog} {p : Prog}
    (hx : exec i s = .next (attExec h i eff s)) (hr : AttRuns h i s) (hp : eff (s.tr h) (attNext h s) = p) :
    exec i s = .next (s.setProg h p) := by
  rw [hx, attExec_runs eff hr, hp]

/-- Settles O4: each row is `attExec` of its effect. -/
theorem attendantInstructions : Obligations.AttendantInstructions := by
  refine ⟨fun h a s => ⟨?jmp, ?jct, ?jcf, ?jany, ?jall, ?jz, ?jnz, ?jlt, ?jto, ?jst0, ?jst1, ?jst2⟩,
    fun h s => ⟨?nop, ?halt, ?ldk, ?addk, ?ldml, ?ldmh, ?act, ?tset, ?tsetk, ?tclr⟩⟩
  case jmp => exact fun hr => exec_of_attRuns rfl hr rfl
  case jct => exact fun c hr => exec_of_attRuns rfl hr rfl
  case jcf => exact fun c hr => exec_of_attRuns rfl hr (jumpIf_not _ _ _)
  case jany =>
    refine fun m hr => ⟨fun hex => ?_, fun hall => ?_⟩
    · refine exec_of_attRuns rfl hr (if_pos ?_)
      exact bne_iff_ne.mpr (land_ne_zero_iff.mpr hex)
    · refine exec_of_attRuns rfl hr (if_neg ?_)
      exact fun hb => (land_ne_zero_iff.mp (bne_iff_ne.mp hb)).elim fun n hn => hall n hn.1 hn.2
  case jall =>
    refine fun m hr => ⟨fun hall => ?_, fun ⟨n, hm, hb⟩ => ?_⟩
    · refine exec_of_attRuns rfl hr (if_pos ?_)
      exact beq_iff_eq.mpr (land_eq_right_iff.mpr hall)
    · refine exec_of_attRuns rfl hr (if_neg ?_)
      exact fun h => by simp [land_eq_right_iff.mp (beq_iff_eq.mp h) n hm] at hb
  case jz => exact fun k hr => exec_of_attRuns rfl hr (by simp [jumpIf, attNext, Prog.kv])
  case jnz => exact fun k hr => exec_of_attRuns rfl hr (by simp [jumpIf, attNext, Prog.kv])
  case jlt => exact fun k k2 hr => exec_of_attRuns rfl hr (by simp [jumpIf, attNext, Prog.kv])
  case jto => exact fun hr => exec_of_attRuns rfl hr rfl
  case jst0 => exact fun hr => exec_of_attRuns rfl hr rfl
  case jst1 => exact fun hr => exec_of_attRuns rfl hr rfl
  case jst2 => exact fun hr => exec_of_attRuns rfl hr (by simp [jumpIf, Trig.stateIs, attNext])
  case nop => exact fun hr => exec_of_attRuns rfl hr rfl
  case halt => exact fun hr => exec_of_attRuns rfl hr rfl
  case ldk => exact fun k imm hr => exec_of_attRuns rfl hr rfl
  case addk => exact fun k imm v hr hv => exec_of_attRuns rfl hr (congrArg (Prog.setK _ k) (satU32_eq hv))
  case ldml =>
    refine fun m imm hr => exec_of_attRuns rfl hr (congrArg (Prog.setM _ m) ?_)
    exact congrArg (· + imm.toNat) (by rw [Nat.div_mul_self_eq_mod_sub_self]; rfl)
  case ldmh =>
    refine fun m imm hr => exec_of_attRuns rfl hr (congrArg (Prog.setM _ m) ?_)
    rw [Nat.add_comm, Nat.mul_comm]
    rfl
  case act => exact fun m hr => exec_of_attRuns rfl hr rfl
  case tset => exact fun tm n hr => exec_of_attRuns rfl hr rfl
  case tsetk => exact fun tm k hr => exec_of_attRuns rfl hr rfl
  case tclr => exact fun tm hr => exec_of_attRuns rfl hr rfl

/-! ### Waits (R240 to R242) -/

/-- What the decoder reads in the word of each waiting instruction. -/
theorem attFields_wait {h w : Nat} {i : Instr} (hf : attFields h w = some i) :
    (∀ h n, i = .waitn h n → bitsOf w 26 6 = 0x13 ∧ bitsOf w 0 16 = n) ∧
    (∀ h tm, i = .waitt h tm → bitsOf w 26 6 = 0x12 ∧ bitsOf w 16 3 = tm) ∧
    ∀ h c mode tm te, i = .waitc h c mode tm te ∨ i = .waitm h c mode tm te →
      (bitsOf w 26 6 = 0x10 ∨ bitsOf w 26 6 = 0x11) ∧ bitsOf w 16 3 = tm ∧ w.testBit 19 = te := by
  unfold attFields at hf
  split at hf
  case h_26 => cases hf
  all_goals
    obtain rfl := Option.some.inj hf
    simp_all

/-- Opcodes of instructions that wait for a bounded number of samples or a timer alone have no test (R242). -/
theorem waitTest_eq_false {x : Trig} (h : bitsOf x.word 26 6 = 0x12 ∨ bitsOf x.word 26 6 = 0x13) :
    x.waitTest = false := by
  unfold Trig.waitTest
  rcases h with h | h <;> simp [h]

theorem waitEnds_of_test {x : Trig} {q : Nat} (hq : x.prog.pp ≤ q) (ht : x.waitTest = true) :
    x.waitEnds q = some false := by
  simp [Trig.waitEnds, Nat.not_lt.mpr hq, ht]

theorem waitEnds_of_deadline {x : Trig} {q e : Nat} (hq : x.prog.pp ≤ q) (ht : x.waitTest = false)
    (hd : x.prog.deadline x.word = some e) (he : e ≤ q) : x.waitEnds q = some (bitsOf x.word 26 6 != 0x13) := by
  simp [Trig.waitEnds, Nat.not_lt.mpr hq, ht, hd, he]

theorem waitEnd_ends {h q : Nat} {s : State} {tmo : Bool} (hst : (s.tr h).prog.st = 1)
    (hw : (s.tr h).prog.waiting = true) (hn : (s.tr h).next = q + 1)
    (hs : (s.tr h).prog.spent (s.view.gridK h) q < 16) (he : (s.tr h).waitEnds q = some tmo) :
    waitEnd h q s = s.setProg h { (s.tr h).prog with
      p := q, pc := ((s.tr h).prog.pc + 1) % 256, waiting := false, first := false, tmo := tmo,
      fired := if q = (s.tr h).prog.p then (s.tr h).prog.fired else none,
      beat := beatOf (s.view.gridK h) q, count := (s.tr h).prog.spent (s.view.gridK h) q + 1 } := by
  simp [waitEnd, hst, hw, hn, he, Prog.charge, Nat.not_le.mpr hs]

/-- Settles O5: a wait starts by `attWait`, and ends by its test, its count or its timer as `waitEnds` says. -/
theorem attendantWaiting : Obligations.AttendantWaiting := by
  refine ⟨fun h s i hi hr => ?_, fun h q s tmo hst hw hn hpp hs hend => ?_⟩
  · rw [← attWait_runs hr]
    obtain ⟨c, mode, tm, te, rfl⟩ | ⟨m, mode, tm, te, rfl⟩ | ⟨tm, rfl⟩ | ⟨n, rfl⟩ := hi <;> rfl
  · refine congrArg _ (waitEnd_ends hst hw hn hs ?_)
    rcases hend with ⟨rfl, ht⟩ | ⟨n, hword, rfl, hle⟩ | ⟨tm, e, hword, rfl, htimer, hle⟩ |
      ⟨c, mode, tm, e, hword, rfl, ht, htimer, hle⟩
    · exact waitEnds_of_test hpp ht
    · obtain ⟨-, h', hf⟩ := attFields_of_attEncode hword
      obtain ⟨hop, rfl⟩ := (attFields_wait hf).1 _ _ rfl
      rw [waitEnds_of_deadline hpp (waitTest_eq_false (.inr hop)) (by simp [Prog.deadline, hop]) hle, hop]
      rfl
    · obtain ⟨-, h', hf⟩ := attFields_of_attEncode hword
      obtain ⟨hop, rfl⟩ := (attFields_wait hf).2.1 _ _ rfl
      rw [List.getD_eq_getElem?_getD] at htimer
      rw [waitEnds_of_deadline (e := max e (s.tr h).prog.pp) hpp (waitTest_eq_false (.inl hop))
        (by simp [Prog.deadline, hop, htimer]) (max_le hle hpp), hop]
      rfl
    · obtain ⟨h', i, hf, hi⟩ : ∃ h' i, attFields h' (s.tr h).word = some i ∧
          (i = .waitc h c mode tm true ∨ i = .waitm h c mode tm true) := by
        rcases hword with hword | hword
        · obtain ⟨-, h', hf⟩ := attFields_of_attEncode hword
          exact ⟨h', _, hf, .inl rfl⟩
        · obtain ⟨-, h', hf⟩ := attFields_of_attEncode hword
          exact ⟨h', _, hf, .inr rfl⟩
      obtain ⟨hop, rfl, hte⟩ := (attFields_wait hf).2.2 _ _ _ _ _ hi
      rw [List.getD_eq_getElem?_getD] at htimer
      rw [waitEnds_of_deadline (e := max e (s.tr h).prog.pp) hpp ht
        (by rcases hop with hop | hop <;> simp [Prog.deadline, hop, htimer, hte]) (max_le hle hpp)]
      rcases hop with hop | hop <;> rw [hop] <;> rfl

end Sys2Proof.Machine
end

section
/-! SUPPORT. How a Conservator core issues an instruction that acts on its bank and on its memories (R292, R300), and what
the landing of writes leaves alone. -/
namespace Sys2Proof.Machine

/-! ### Issue -/

/-- `y` is `x` in the banks and in everything that the issue of an instruction itself changes (R292, R300). -/
def SameIssue (x y : Core) : Prop :=
  y.bank = x.bank ∧
    { y with fg := x.fg, sh := x.sh, cyc := x.cyc, credit := x.credit, irq := x.irq, resumed := x.resumed } = y

theorem SameIssue.fields {x y : Core} (h : SameIssue x y) :
    y.bank = x.bank ∧ y.fg = x.fg ∧ y.sh = x.sh ∧ y.cyc = x.cyc ∧ y.resumed = x.resumed := by
  obtain ⟨hbank, hrest⟩ := h
  refine ⟨hbank, ?_⟩
  rw [← hrest]
  exact ⟨rfl, rfl, rfl, rfl⟩

theorem sameIssue_refl (x : Core) : SameIssue x x := ⟨rfl, rfl⟩

theorem sameIssue_setMem (x : Core) (mem : Bool) (a : Nat) (v : DWord) : SameIssue x (x.setMem mem a v) := by
  cases mem <;> exact ⟨rfl, rfl⟩

theorem Core.onBank_setMem (x : Core) (mem : Bool) (a : Nat) (v : DWord) (f : Bank → Bank) :
    (x.onBank f).setMem mem a v = (x.setMem mem a v).onBank f := by
  unfold Core.onBank Core.setMem
  cases x.bank <;> cases mem <;> rfl

theorem Core.setMem_cur (x : Core) (mem : Bool) (a : Nat) (v : DWord) : (x.setMem mem a v).cur = x.cur := by
  cases mem <;> rfl

@[simp] theorem Core.onBank_onBank (x : Core) (f g : Bank → Bank) : (x.onBank f).onBank g = x.onBank fun b => g (f b) := by
  by_cases h : x.bank <;> simp [Core.onBank, h]

theorem Core.onBank_congr {x : Core} {f g : Bank → Bank} (h : f x.cur = g x.cur) : x.onBank f = x.onBank g := by
  by_cases hb : x.bank <;> simp_all [Core.onBank, Core.cur]

/-- The core after the issue of an instruction that acts as `f` on the bank of `y`, which is the core as the instruction
sees it, but for memories and shared registers. -/
def Core.issued (x y : Core) (f : Bank → Bank) : Core :=
  { (y.onBank fun b => (f b).next).clocks 1 with irq := x.wants, resumed := x.bank && x.resumed }

theorem Core.issue_of_sameIssue {x y : Core} {eff : Core → Core} {f : Bank → Bank} (he : eff x.land = y.onBank f)
    (hy : SameIssue x.land y) : x.issue eff = x.land.issued y f := by
  obtain ⟨hbank, -, -, -, hres⟩ := hy.fields
  simp only [Core.issue, Core.issued, he]
  by_cases h : x.land.bank <;> simp [Core.onBank, Core.clocks, h, hbank, hres]

theorem issues_issued {c : Nat} {s : State} {y : Core} {f : Bank → Bank} {m : Core → Core} (hm : m (seen c s) = y)
    (hy : SameIssue (seen c s) y) : Issues c s (s.setCore c ((seen c s).issued y f)) f m := by
  obtain ⟨hbank, hfg, hsh, hcyc, -⟩ := hy.fields
  have hcc : (s.setCore c ((seen c s).issued y f)).cc c = (seen c s).issued y f := State.cc_setCore_self _ _ _
  unfold Issues
  rw [hcc, hm]
  refine ⟨rfl, ?_, ?_, ?_, rfl, ?_⟩
  · by_cases h : (seen c s).bank <;> simp [Core.issued, Core.onBank, Core.clocks, hbank, h, hcyc]
  · by_cases h : (seen c s).bank <;> simp [Core.issued, Core.onBank, Core.clocks, Core.cur, hbank, h, hfg, hsh]
  · refine Eq.trans ?_ hy.2
    by_cases h : (seen c s).bank <;> simp [Core.issued, Core.onBank, Core.clocks, hbank, h]
  · by_cases h : (seen c s).bank <;> simp [Core.issued, Core.onBank, Core.clocks, hbank, h, hfg, hsh]

theorem issues_of_sameIssue {c : Nat} {i : Instr} {s : State} {eff : Core → Core} {f : Bank → Bank} {m : Core → Core}
    (hr : consReady c i s = true) (he : eff (seen c s) = (m (seen c s)).onBank f)
    (hy : SameIssue (seen c s) (m (seen c s))) : Issues c s (consExec c i eff s) f m := by
  rw [consExec_of_ready eff hr, Core.issue_of_sameIssue he hy]
  exact issues_issued rfl hy

/-- A row that runs `eff` at once, which acts as `m` on memories and shared registers and as `f` on the issuing bank. -/
theorem completes_of_sameIssue {c : Nat} {i : Instr} {s : State} {eff : Core → Core} {f : Bank → Bank} {m : Core → Core}
    (hx : exec i s = .next (consExec c i eff s)) (hr : consReady c i s = true)
    (he : eff (seen c s) = (m (seen c s)).onBank f) (hy : SameIssue (seen c s) (m (seen c s))) :
    Completes i s fun t => Issues c s t f m := ⟨_, hx, issues_of_sameIssue hr he hy⟩

/-- A row that runs `eff` at once, which acts as `f` on the issuing bank alone. -/
theorem completes_issues {c : Nat} {i : Instr} {s : State} {eff : Core → Core} {f : Bank → Bank}
    (hx : exec i s = .next (consExec c i eff s)) (hr : consReady c i s = true)
    (he : eff (seen c s) = (seen c s).onBank f) : Completes i s fun t => Issues c s t f :=
  completes_of_onBank hx hr he fun _ ht => ht

theorem Issues.memory_of {c : Nat} {s t : State} {f : Bank → Bank} {m : Core → Core} (h : Issues c s t f m) :
    (t.cc c).x = (m (seen c s)).x ∧ (t.cc c).y = (m (seen c s)).y := by
  obtain ⟨-, -, -, hrest, -⟩ := h
  rw [← hrest]
  exact ⟨rfl, rfl⟩

/-! ### Landing (R300) -/

/-- The landing of writes changes the two banks, IE and INTC. -/
theorem Core.land_rest (x : Core) :
    { x.land with fg := x.fg, sh := x.sh, ie := x.ie, intc := x.intc } = x := by
  have hon (x : Core) (f : Bank → Bank) :
      ({ x.onBank f with fg := {}, sh := {}, ie := false, intc := 0 } : Core) =
        { x with fg := {}, sh := {}, ie := false, intc := 0 } := by
    by_cases h : x.bank <;> simp [Core.onBank, h]
  have hcore (x : Core) (t : Tgt) : ({ t.landCore x with fg := {}, sh := {}, ie := false, intc := 0 } : Core) =
      { x with fg := {}, sh := {}, ie := false, intc := 0 } := by
    unfold Tgt.landCore
    split <;> rfl
  have hfold := foldl_unchanged (fun y : Core => ({ y with fg := {}, sh := {}, ie := false, intc := 0 } : Core))
    (f := fun (x : Core) (l : Late) => (l.tgt.landCore x).onBank l.tgt.land)
    (fun x l => (hon _ _).trans (hcore x l.tgt)) (x.cur.late.filter fun l => decide (l.due ≤ x.cur.issued)) x
  have hland := (hon _ (fun b => { b with late := b.late.filter fun l => !decide (l.due ≤ b.issued) })).trans hfold
  exact congrArg (fun y : Core => { y with fg := x.fg, sh := x.sh, ie := x.ie, intc := x.intc }) hland

@[simp] theorem Core.land_x (x : Core) : x.land.x = x.x := by
  have h := congrArg Core.x x.land_rest
  exact h
@[simp] theorem Core.land_y (x : Core) : x.land.y = x.y := by
  have h := congrArg Core.y x.land_rest
  exact h
@[simp] theorem Core.land_bank (x : Core) : x.land.bank = x.bank := by
  have h := congrArg Core.bank x.land_rest
  exact h

end Sys2Proof.Machine
end

section
/-! PROOF. Pointer steps, moves, loads and stores of a core (R293 to R295, R300), ADDI and LOGD (R298). -/
namespace Sys2Proof.Machine

/-! ### Pointer steps (R294) -/

theorem stepPtr_linear {b : Bank} {p : Nat} (h : bitsOf b.am.toNat (2 * p) 2 = 0 ∨ bitsOf b.am.toNat (2 * p) 2 = 3)
    (step : Int) : ((stepPtr b p step).toNat : Int) = (((b.pt.getD p 0).toNat : Int) + step) % 16384 := by
  have hstep : stepPtr b p step = BitVec.ofInt 14 (((b.pt.getD p 0).toNat : Int) + step) := by
    rcases h with h | h <;> simp [stepPtr, h]
  rw [hstep, BitVec.toNat_ofInt]
  omega

theorem stepPtr_modulo {b : Bank} {p : Nat} (h : bitsOf b.am.toNat (2 * p) 2 = 1) (hln : (b.ln.getD p 0).toNat ≠ 0)
    (step : Int) : ((stepPtr b p step).toNat : Int) =
      (((b.bs.getD p 0).toNat : Int) + (((b.pt.getD p 0).toNat : Int) - (b.bs.getD p 0).toNat + step) %
        ((b.ln.getD p 0).toNat : Int)) % 16384 := by
  simp only [stepPtr, h, if_neg hln, BitVec.toNat_ofInt]
  omega

/-- Bit-reversed steps of 4 over a block of 8 at address 0: what each pointer becomes. -/
theorem stepPtr_reversed {b : Bank} {p : Nat} (h : bitsOf b.am.toNat (2 * p) 2 = 2) (hln : b.ln.getD p 0 = 8)
    (hbs : b.bs.getD p 0 = 0) (v : BitVec 14) (hv : b.pt.getD p 0 = v) :
    stepPtr b p 4 = BitVec.ofInt 14 (revBits 3 ((revBits 3 (((v.toNat : Int) % (8 : Nat)).toNat) + revBits 3 4) % 8)) := by
  have hlog : Nat.log2 8 = 3 := by decide
  simp only [stepPtr, h, hln, hbs, hv]
  simp [hlog]

/-! ### Moves (R293, R300) -/

theorem movEff_dreg {src : Nat} (hsrc : src < 8) (dst : Nat) (other : DWord) (x : Core) :
    movEff dst src other x = x.onBank fun b => b.writeReg dst (x.cur.dv src) 1 := by
  have hne : ¬(8 ≤ src ∧ src < 12) := by omega
  have hex : regExists src = true := by simp [regExists]; omega
  simp [movEff, hne, hex, Core.regVal, hsrc]

theorem exec_mov {c dst src : Nat} (hsrc : src < 8) (s : State) :
    exec (.mov c dst src) s = .next (consExec c (.mov c dst src) (movEff dst src 0) s) := by
  have hex : regExists src = true := by simp [regExists]; omega
  exact congrArg Host.Outcome.next (by simp [movRow, hex])

theorem Bank.writeReg_dreg {num : Nat} (h : num < 8) (b : Bank) (v : DWord) (n : Nat) :
    b.writeReg num v n = b.delay n (.d num v) := by simp [Bank.writeReg, h]

theorem Bank.writeReg_special {num : Nat} (hl : 16 ≤ num) (hu : num ≤ 50) (b : Bank) (v : DWord) (n : Nat) :
    b.writeReg num v n = b.delay 2 (.reg num v) := by
  simp [Bank.writeReg, show ¬num < 8 by omega, show ¬num < 12 by omega, hl, hu]

theorem Bank.writeReg_readOnly {num : Nat} (h : 51 ≤ num) (b : Bank) (v : DWord) (n : Nat) : b.writeReg num v n = b := by
  simp [Bank.writeReg, show ¬num < 8 by omega, show ¬num < 12 by omega, show ¬num ≤ 50 by omega]

/-! ### Loads and stores (R295) -/

theorem stEff_eq (d : Nat) (mem : Bool) (p step : Nat) (x : Core) :
    stEff d mem p step x =
      (x.setMem mem (x.cur.addr p) (x.cur.dv d)).onBank fun b => b.bump p (stepOf b p step) := by
  rw [stEff, Core.onBank_setMem]
  exact Core.onBank_congr (by rw [Core.setMem_cur])

theorem ldEff_eq (d : Nat) (mem : Bool) (p step : Nat) (x : Core) :
    ldEff d mem p step x = x.onBank fun b => (b.delay 2 (.d d (x.mem mem (b.addr p)))).bump p (stepOf b p step) := by
  rw [ldEff]
  exact Core.onBank_congr rfl

theorem completes_ld {c : Nat} (d : Nat) (mem : Bool) (p step : Nat) {s : State}
    (hr : consReady c (.ld c d mem p step) s = true) : Completes (.ld c d mem p step) s fun t => Issues c s t fun b =>
      (b.delay 2 (.d d ((seen c s).mem mem (b.addr p)))).bump p (stepOf b p step) :=
  completes_issues rfl hr (ldEff_eq d mem p step _)

theorem completes_st {c : Nat} (d : Nat) (mem : Bool) (p step : Nat) {s : State}
    (hr : consReady c (.st c d mem p step) s = true) : Completes (.st c d mem p step) s fun t =>
      Issues c s t (fun b => b.bump p (stepOf b p step))
        (fun y => y.setMem mem ((seen c s).cur.addr p) ((seen c s).cur.dv d)) :=
  completes_of_sameIssue rfl hr (stEff_eq d mem p step _) (sameIssue_setMem _ _ _ _)

theorem Core.mem_setMem_self (x : Core) (mem : Bool) (a : Nat) (v : DWord)
    (h : cellsWf word36 (if mem then x.y else x.x) = true) : (x.setMem mem a v).mem mem a = v := by
  cases mem <;> simpa [Core.mem, Core.setMem] using (cget_cset _ _ a a v h).trans (if_pos rfl)

@[simp] theorem Core.land_mem (x : Core) (mem : Bool) (a : Nat) : x.land.mem mem a = x.mem mem a := by
  simp [Core.mem]

theorem mem_next_late {b : Bank} {l : Late} (h : l ∈ b.late) : l ∈ b.next.late := h

theorem mem_bump_late {b : Bank} {l : Late} (p : Nat) (step : Option Int) (h : l ∈ b.late) : l ∈ (b.bump p step).late := by
  cases step with
  | none => exact h
  | some k => exact List.mem_append_left _ h

/-- After a store, the core's memory as the next instruction sees it holds the word. -/
theorem seen_mem_of_issues {c a : Nat} {s t : State} {mem : Bool} {v : DWord} {f : Bank → Bank}
    (hwf : cellsWf word36 (if mem then (seen c s).y else (seen c s).x) = true)
    (ht : Issues c s t f (fun y => y.setMem mem a v)) : (seen c t).mem mem a = v := by
  obtain ⟨-, -, -, hrest, -⟩ := ht
  change _ = (seen c s).setMem mem a v at hrest
  rw [Core.land_mem, ← Core.mem_setMem_self (seen c s) mem a v hwf, ← hrest]
  rfl

/-- Settles O8: each row issues with its effect on bank and memory, and a store's word is there for the next load. -/
theorem conservatorMoves : Obligations.ConservatorMoves := by
  refine ⟨fun b p step => ⟨fun h => stepPtr_linear h step, fun h hln => stepPtr_modulo h hln step, ?_⟩,
    fun c s => ⟨fun d mem p step hr => completes_ld d mem p step hr, fun d mem p step hr => completes_st d mem p step hr,
      fun d half imm hr => completes_issues rfl hr rfl, fun d w hr => completes_issues rfl hr rfl, ?_, ?_, ?_, ?_,
      fun p imm hr => completes_issues rfl hr rfl⟩, ?_⟩
  · rintro h hln hbs rfl
    refine ⟨?_, ?_, ?_, ?_, ?_, ?_, ?_, ?_⟩
    all_goals
      intro hv
      rw [stepPtr_reversed h hln hbs _ hv]
      decide
  · intro d src hd hsrc hr
    refine completes_issues (exec_mov hsrc s) hr ((movEff_dreg hsrc d 0 _).trans (Core.onBank_congr ?_))
    exact Bank.writeReg_dreg hd _ _ _
  · intro num src hl hu hsrc hr
    refine completes_issues (exec_mov hsrc s) hr ((movEff_dreg hsrc num 0 _).trans (Core.onBank_congr ?_))
    exact Bank.writeReg_special hl hu _ _ _
  · intro num imm hl hu hr
    exact completes_issues rfl hr (Core.onBank_congr (Bank.writeReg_special hl hu _ _ _))
  · intro num imm hl hu hr
    exact completes_issues rfl hr (Core.onBank_congr (Bank.writeReg_readOnly hl _ _ _))
  · intro c d p e q k mem s t hwf hst hx hbank hld haddr
    obtain ⟨t', hx', hissue⟩ := completes_st d mem p 0 hst
    obtain rfl : t' = t := Host.Outcome.next.inj (hx'.symm.trans hx)
    obtain ⟨u, hu, hload⟩ := completes_ld e mem q k hld
    refine ⟨u, hu, ?_⟩
    change _ ∈ (u.cc c).cur.late
    rw [hload.cur_eq]
    refine mem_next_late (mem_bump_late _ _ (List.mem_append_right _ ?_))
    rw [haddr, seen_mem_of_issues hwf hissue]
    exact List.mem_singleton_self _

/-! ### Data arithmetic (R298) -/

theorem setD_eq (b : Bank) (d : Nat) (v : DWord) :
    b.setD d v = (b.delay 1 (.d d v)).delay 3 (.zn (v == 0) v.msb) := by
  have hzero : (v.toInt == 0) = (v == 0) := by
    rw [Bool.eq_iff_iff, beq_iff_eq, beq_iff_eq, ← BitVec.toInt_inj]
    rfl
  have hneg : decide (v.toInt < 0) = v.msb := by rw [BitVec.msb_eq_toInt]
  rw [Bank.setD, Bank.flags, hzero, hneg]

/-- The writes of a bank that are due land, oldest first (R300). -/
def landBank (b : Bank) : Bank :=
  let b' := (b.late.filter fun l => decide (l.due ≤ b.issued)).foldl (fun b l => l.tgt.land b) b
  { b' with late := b'.late.filter fun l => !decide (l.due ≤ b'.issued) }

theorem Core.land_cur (x : Core) : x.land.cur = landBank x.cur := by
  have hcore (t : Tgt) (x : Core) : (t.landCore x).cur = x.cur := by
    unfold Tgt.landCore
    split <;> rfl
  have hfold (l : List Late) (x : Core) :
      (l.foldl (fun (x : Core) (l : Late) => (l.tgt.landCore x).onBank l.tgt.land) x).cur =
        l.foldl (fun b l => l.tgt.land b) x.cur := by
    induction l generalizing x with
    | nil => rfl
    | cons l ls ih => rw [List.foldl_cons, List.foldl_cons, ih, Core.onBank_cur, hcore]
  rw [Core.land, Core.onBank_cur, hfold]
  rfl

@[simp] theorem Tgt.land_d_length (t : Tgt) (b : Bank) : (t.land b).d.length = b.d.length := by
  cases t with
  | reg num v =>
    simp only [Tgt.land, Bank.setReg]
    split_ifs <;> rfl
  | _ => simp [Tgt.land]

theorem dv_landBank {b : Bank} {l : List Late} {i k : Nat} {v : DWord}
    (hdue : (b.late.filter fun l => decide (l.due ≤ b.issued)) = l ++ [⟨k, .d i v⟩]) (hi : i < b.d.length) :
    (landBank b).dv i = v := by
  have hlen (l : List Late) (b : Bank) : (l.foldl (fun b l => l.tgt.land b) b).d.length = b.d.length :=
    foldl_unchanged (fun b : Bank => b.d.length) (fun b l => Tgt.land_d_length _ b) l b
  have hi' : i < (l.foldl (fun b l => l.tgt.land b) b).d.length := by rw [hlen]; exact hi
  simp only [landBank, hdue, List.foldl_append, List.foldl_cons, List.foldl_nil]
  generalize l.foldl (fun b l => l.tgt.land b) b = b' at hi'
  simp [Bank.dv, Tgt.land, hi']

/-- A data register that an instruction writes with delay 1 is there for the bank's next one (R300). -/
theorem dv_seen_of_issues {c d : Nat} {s t : State} {v : Bank → DWord} {g : Bank → Tgt}
    (hd : d < (seen c s).cur.d.length) (ht : Issues c s t fun b => (b.delay 1 (.d d (v b))).delay 3 (g b)) :
    (seen c t).cur.dv d = v (seen c s).cur := by
  rw [Core.land_cur, ht.cur_eq]
  refine dv_landBank (k := (seen c s).cur.issued + 1)
    (l := (seen c s).cur.late.filter fun l => decide (l.due ≤ (seen c s).cur.issued + 1)) ?_ hd
  simp [Bank.next, Bank.delay]

/-- Settles O9: both rows are `setD` of a value, whose write is the last of those that land before the next instruction. -/
theorem conservatorDataArithmetic : Obligations.ConservatorDataArithmetic := by
  intro c d s hd hlen
  have hd' : d < (seen c s).cur.d.length := by omega
  refine ⟨fun imm hr => ?_, fun r op v hr hv => ?_⟩
  · obtain ⟨t, hx, ht⟩ := completes_issues (f := fun b => (b.delay 1 (.d d (b.dv d + imm.signExtend 36))).delay 3
      (.zn (b.dv d + imm.signExtend 36 == 0) ((b.dv d + imm.signExtend 36).msb))) rfl hr
      (Core.onBank_congr (setD_eq _ d _))
    exact ⟨t, hx, ht, dv_seen_of_issues hd' ht⟩
  · have hlogic : logic op ((seen c s).cur.dv d) ((seen c s).cur.dv r) = v := by
      obtain ⟨rfl, rfl⟩ | ⟨rfl, rfl⟩ | ⟨rfl, rfl⟩ | ⟨rfl, rfl⟩ := hv <;> rfl
    obtain ⟨t, hx, ht⟩ := completes_issues (f := fun b => (b.delay 1 (.d d v)).delay 3 (.zn (v == 0) v.msb)) rfl hr
      (Core.onBank_congr (by rw [hlogic]; exact setD_eq _ d v))
    exact ⟨t, hx, ht, dv_seen_of_issues hd' ht⟩

end Sys2Proof.Machine
end

section
/-! PROOF. Accumulator instructions (R298, R319) and stores of accumulators (R299). -/
namespace Sys2Proof.Machine

/-! ### Accumulators (R298) -/

@[simp] theorem Bank.accWrite_length (b : Bank) (i : Nat) (z : Int) : (b.accWrite i z).acc.length = b.acc.length := by
  simp

/-- CLRA writes 0 to the accumulators of its mask, one after the other. -/
theorem clearAccs_accv {b : Bank} (mask : BitVec 4) {i : Nat} (hi : i < 4) (hlen : b.acc.length = 4) :
    (clearAccs mask b).accv i = if mask.getLsbD i then 0 else b.accv i := by
  have hfold (l : List Nat) (b : Bank) (hlen : b.acc.length = 4) :
      (l.foldl (fun b i => if mask.getLsbD i then b.accWrite i 0 else b) b).accv i =
        if i ∈ l ∧ mask.getLsbD i = true then 0 else b.accv i := by
    induction l generalizing b with
    | nil => simp
    | cons k l ih =>
      rw [List.foldl_cons, ih _ (by split_ifs <;> simp [hlen])]
      by_cases hk : i = k
      · subst hk
        by_cases hm : mask.getLsbD i <;> simp [hm, b.accWrite_accv_self 0 (by omega : i < b.acc.length), satAcc]
      · by_cases hm : mask.getLsbD k <;> simp [hk, hm, Bank.accWrite_accv_other]
  rw [clearAccs, hfold _ _ hlen]
  simp [hi]

/-- Settles O11: each row acts on the issuing bank alone, by one write of an accumulator, flags, or both. -/
theorem conservatorAccumulators : Obligations.ConservatorAccumulators := by
  intro c a b s
  refine ⟨?adda, ?addd, ?addd3, ?shl, ?shr, ?clra, ?cmpa, ?maxa, fun mask hr => completes_issues rfl hr rfl⟩
  case adda =>
    rintro sub z hr rfl
    exact completes_issues rfl hr (Core.onBank_congr rfl)
  case addd =>
    intro d part sub v hr hv
    have hpart : dPart ((seen c s).cur.dv d) part 0 = v ∧ part < 3 := by
      obtain ⟨rfl, rfl⟩ | ⟨rfl, rfl⟩ | ⟨rfl, rfl⟩ := hv <;> exact ⟨rfl, by decide⟩
    obtain ⟨rfl, hlt⟩ := hpart
    have hx : exec (.addd c a d part sub) s =
        .next (consBank c (.addd c a d part sub) (adddEff a d part sub 0) s) :=
      congrArg Host.Outcome.next (if_pos hlt)
    exact completes_issues hx hr (Core.onBank_congr rfl)
  case addd3 =>
    intro d sub hr
    have hr' : consReady c (.addd c a d 3 sub) { s with free := s.free + 1 } = true := hr
    have hx : exec (.addd c a d 3 sub) s = .next (consBank c (.addd c a d 3 sub)
        (adddEff a d 3 sub (Config.freeInt s.free)) { s with free := s.free + 1 }) :=
      congrArg Host.Outcome.next ((if_neg (by decide)).trans (if_pos hr))
    exact ⟨_, hx, Config.freeInt s.free, issues_consExec hr' (Core.onBank_congr rfl)⟩
  case shl =>
    rintro n z hr hn rfl
    exact completes_issues rfl hr (Core.onBank_congr (by rw [shifted, if_pos hn]; rfl))
  case shr =>
    rintro n z hr hn rfl
    exact completes_issues rfl hr (Core.onBank_congr (by rw [shifted, if_neg (by omega)]; rfl))
  case clra =>
    intro mask hlen hr
    refine completes_of_onBank rfl hr rfl fun t ht => ?_
    obtain ⟨hx, hy⟩ := ht.memories_eq
    refine ⟨ht.eq_setCore, hx, hy, fun i hi => ?_⟩
    rw [ht.cur_eq, Bank.next_accv]
    exact clearAccs_accv mask hi hlen
  case cmpa =>
    rintro zero z hr rfl
    refine completes_issues rfl hr (Core.onBank_congr ?_)
    cases zero <;> simp
  case maxa =>
    intro least z hr hz
    have hz' : (if least then min ((seen c s).cur.accv a) ((seen c s).cur.srcv b)
        else max ((seen c s).cur.accv a) ((seen c s).cur.srcv b)) = z := by
      obtain ⟨rfl, rfl⟩ | ⟨rfl, rfl⟩ := hz
      · rw [if_neg (by decide)]; split_ifs <;> omega
      · rw [if_pos rfl]; split_ifs <;> omega
    subst hz'
    exact completes_issues rfl hr (Core.onBank_congr rfl)

/-! ### Stores (R299) -/

theorem sat_eq_clamp {w : Nat} (z : Int) : sat w z = max (-(2 ^ (w - 1))) (min (2 ^ (w - 1) - 1) z) := by
  have hpow : (1 : Int) ≤ 2 ^ (w - 1) := by exact_mod_cast Nat.one_le_two_pow
  unfold sat
  push_cast
  split_ifs <;> omega

theorem satHit_eq (w : Nat) (z : Int) : satHit w z = decide (sat w z ≠ z) := by
  rw [satHit, Bool.eq_iff_iff, bne_iff_ne, decide_eq_true_eq]

/-- The clamp of a rounded store, and SOV where it acts. -/
theorem storeAcc_eq (b : Bank) (a sh w : Nat) :
    storeAcc b a sh w = (max (-(2 ^ (w - 1))) (min (2 ^ (w - 1) - 1) (rhe (b.srcv a) (2 ^ sh))),
      if decide (max (-(2 ^ (w - 1))) (min (2 ^ (w - 1) - 1) (rhe (b.srcv a) (2 ^ sh))) ≠ rhe (b.srcv a) (2 ^ sh)) then
        b.delay 3 .sov else b) := by
  rw [storeAcc, satHit_eq, sat_eq_clamp]

theorem storeAcc_srcv (b : Bank) (a sh w k : Nat) : (storeAcc b a sh w).2.srcv k = b.srcv k := by
  unfold storeAcc
  dsimp only
  split_ifs <;> rfl

theorem storeAcc_issued (b : Bank) (a sh w : Nat) : (storeAcc b a sh w).2.issued = b.issued := by
  unfold storeAcc
  dsimp only
  split_ifs <;> rfl

/-- STA to memory: the bank steps its pointer, and one word of memory is written. -/
theorem staEff_mem {f : StaF} {w : Nat} (hdst : f.dst = false) (hw : (if f.width then 36 else 18) = w) (x : Core) :
    staEff f x = (x.setMem f.mem (x.cur.addr f.p)
        (if f.width then dword (storeAcc x.cur f.a f.s w).1
          else withHalf (x.mem f.mem (x.cur.addr f.p)) f.half (storeAcc x.cur f.a f.s w).1)).onBank
      fun b => (storeAcc b f.a f.s w).2.bump f.p (stepOf b f.p f.step) := by
  subst hw
  simp only [staEff, hdst, Bool.false_eq_true, if_false]
  rw [Core.onBank_setMem]
  exact Core.onBank_congr (by rw [Core.setMem_cur])

/-- STA to a register: the bank alone. -/
theorem staEff_reg {f : StaF} {w : Nat} (hdst : f.dst = true) (hw : (if f.width then 36 else 18) = w) (x : Core) :
    staEff f x = x.onBank fun b => (storeAcc b f.a f.s w).2.delay 3
      (if f.width then .d f.p (dword (storeAcc b f.a f.s w).1) else .half f.p f.half (storeAcc b f.a f.s w).1) := by
  subst hw
  simp only [staEff, hdst, if_true]
  exact Core.onBank_congr rfl

/-- The word that CSTA stores, both halves rounded and clamped. -/
theorem cstaEff_eq (f : StaF) (x : Core) :
    let v := withHalf (withHalf 0 false (storeAcc x.cur f.a f.s 18).1) true (storeAcc x.cur (f.a + 1) f.s 18).1
    let b := (storeAcc (storeAcc x.cur f.a f.s 18).2 (f.a + 1) f.s 18).2
    cstaEff f x = if f.dst then x.onBank fun _ => b.delay 3 (.d f.p v)
      else (x.setMem f.mem (x.cur.addr f.p) v).onBank fun _ => b.bump f.p (stepOf x.cur f.p f.step) := by
  have hval : (storeAcc (storeAcc x.cur f.a f.s 18).2 (f.a + 1) f.s 18).1 = (storeAcc x.cur (f.a + 1) f.s 18).1 := by
    rw [storeAcc, storeAcc_srcv]
    rfl
  simp only [cstaEff, hval, Core.onBank_setMem]

/-- Settles O12: both stores are `storeAcc` and one write, of memory or of a register. -/
theorem conservatorStores : Obligations.ConservatorStores := by
  intro c f s
  refine ⟨fun hr hdst hw => ?_, fun hr hdst hw => ?_, fun hr hdst hw => ?_, fun hr hdst hw => ?_, fun hr hdst => ?_,
    fun hr hdst => ?_⟩
  · refine completes_of_sameIssue rfl hr ?_ (sameIssue_setMem _ _ _ _)
    simp only [staEff_mem hdst (if_pos hw), hw, if_true, storeAcc_eq]
    exact Core.onBank_congr (by rw [Core.setMem_cur])
  · refine completes_of_sameIssue rfl hr ?_ (sameIssue_setMem _ _ _ _)
    simp only [staEff_mem hdst (if_neg (by rw [hw]; decide)), hw, Bool.false_eq_true, if_false, storeAcc_eq]
    exact Core.onBank_congr (by rw [Core.setMem_cur])
  · refine completes_issues rfl hr ?_
    rw [staEff_reg hdst (if_pos hw)]
    exact Core.onBank_congr (by simp only [hw, if_true, storeAcc_eq])
  · refine completes_issues rfl hr ?_
    rw [staEff_reg hdst (if_neg (by rw [hw]; decide))]
    exact Core.onBank_congr (by simp only [hw, Bool.false_eq_true, if_false, storeAcc_eq])
  · have heff := cstaEff_eq f (seen c s)
    simp only [hdst, if_true] at heff
    refine completes_of_onBank rfl hr heff fun t ht => ?_
    obtain ⟨hx, hy⟩ := ht.memories_eq
    refine ⟨ht.eq_setCore, ?_, hx, hy⟩
    rw [ht.cur_eq]
    refine List.mem_append_right _ ?_
    simp only [storeAcc_issued, List.mem_singleton]
    simp only [storeAcc_eq]
  · have heff := cstaEff_eq f (seen c s)
    simp only [hdst, Bool.false_eq_true, if_false] at heff
    have ht := issues_of_sameIssue (f := fun _ => _)
      (m := fun x => x.setMem f.mem ((seen c s).cur.addr f.p) (withHalf (withHalf 0 false
        (storeAcc (seen c s).cur f.a f.s 18).1) true (storeAcc (seen c s).cur (f.a + 1) f.s 18).1)) hr heff
      (sameIssue_setMem _ _ _ _)
    obtain ⟨hx, hy⟩ := ht.memory_of
    refine ⟨_, rfl, ht.1, ?_, ?_⟩
    · simp only [hx, hy, storeAcc_eq]
      cases f.mem <;> rfl
    · simp only [hx, hy]
      cases f.mem <;> rfl

end Sys2Proof.Machine
end

section
/-! SUPPORT. What posting events, producing records and drawing free values leave unchanged. -/
namespace Sys2Proof.Machine

/-! ### Events (R486 to R497) -/

theorem notes_refl (a : State) : Notes a a := rfl

theorem notes_trans {a b c : State} (h : Notes a b) (k : Notes b c) : Notes a c :=
  Eq.trans (congrArg (fun z : State => { z with mbox := a.mbox, sent := a.sent, cur := { z.cur with held := a.cur.held } }) k) h

theorem notes_of_leaves {a b : State} (h : Leaves a b) : Notes a b :=
  congrArg (fun z : State => { z with cur := { z.cur with held := a.cur.held } }) h

theorem State.postTo_notes (s : State) (e : Held) : Notes s (s.postTo e) := by
  unfold State.postTo
  split_ifs
  · rfl
  · rfl
  · exact notes_of_leaves (s.deliverEvent_frame e)

theorem State.post_notes (s : State) (code : Nat) (payload : List (Nat × Nat)) (fn : Nat) :
    Notes s (s.post code payload fn) := s.postTo_notes _

theorem State.postEx_notes (s : State) (h code : Nat) (payload : List (Nat × Nat)) :
    Notes s (s.postEx h code payload) := s.postTo_notes _

theorem notes_foldl {α : Type} {f : State → α → State} (hf : ∀ s a, Notes s (f s a)) (l : List α) (s : State) :
    Notes s (l.foldl f s) := by
  induction l generalizing s with
  | nil => exact notes_refl s
  | cons a l ih => exact notes_trans (hf s a) (ih _)

theorem State.postAll_notes (s : State) (code : Nat) (payload : List (Nat × Nat)) : Notes s (s.postAll code payload) :=
  notes_foldl (fun s f => s.post_notes code payload f) _ s

/-- A field that notes cannot touch. -/
theorem Notes.field {α : Type} {u t : State} (h : Notes u t) (f : State → α)
    (hf : ∀ s m x l, f { s with mbox := m, sent := x, cur := { s.cur with held := l } } = f s) : f t = f u := by
  have := congrArg f h
  rwa [hf] at this

theorem State.postEx_core (s : State) (h code : Nat) (payload : List (Nat × Nat)) :
    (s.postEx h code payload).core = s.core := (s.postEx_notes h code payload).field State.core fun _ _ _ _ => rfl

/-! ### Records (R26) -/

theorem State.produce_rest (s : State) (r : Rec) : { s.produce r with streams := s.streams, produced := s.produced } = s := by
  unfold State.produce
  dsimp only
  split_ifs <;> rfl

@[simp] theorem State.produce_core (s : State) (r : Rec) : (s.produce r).core = s.core := by
  have h := congrArg State.core (s.produce_rest r)
  exact h

end Sys2Proof.Machine
end

section
/-! SUPPORT. Core slots: what a stop, a fault and a record that closes leave of the core and of the others (R311, R318). -/
namespace Sys2Proof.Machine

/-! ### Core slots -/

theorem State.cc_setCore_other (s : State) {c g : Nat} (x : Core) (h : g ≠ c) : (s.setCore c x).cc g = s.cc g := by
  simp [State.cc, tget_tset_other _ _ _ _ _ h.symm]

theorem State.cc_congr {s t : State} (h : t.core = s.core) (g : Nat) : t.cc g = s.cc g := by rw [State.cc, State.cc, h]

@[simp] theorem State.cc_produce (s : State) (r : Rec) (g : Nat) : (s.produce r).cc g = s.cc g :=
  State.cc_congr (s.produce_core r) g

@[simp] theorem State.cc_postEx (s : State) (h code : Nat) (payload : List (Nat × Nat)) (g : Nat) :
    (s.postEx h code payload).cc g = s.cc g := State.cc_congr (s.postEx_core h code payload) g

theorem State.cc_freeNat (s : State) (g : Nat) : s.freeNat.2.cc g = s.cc g := rfl

/-! ### Records that close, stops, faults (R311, R318) -/

/-- A core whose open records may have been closed: the banks and the record count may differ. -/
def ClosedFrom (x y : Core) : Prop := { y with fg := x.fg, sh := x.sh, records := x.records } = x

theorem closedFrom_refl (x : Core) : ClosedFrom x x := rfl

theorem ClosedFrom.trans {x y z : Core} (h : ClosedFrom x y) (k : ClosedFrom y z) : ClosedFrom x z :=
  Eq.trans (congrArg (fun w : Core => { w with fg := x.fg, sh := x.sh, records := x.records }) k) h

/-- The state in which a record that closes is produced (R311). -/
def closeFree (c : Nat) (x : Core) (o : OpenRec) (s : State) : Nat × State :=
  if o.time.isNone && o.sample.isNone && x.kind o.ref == 0 then s.freeNat else (portFirst s c x o.ref, s)

theorem closeFree_cc (c : Nat) (x : Core) (o : OpenRec) (s : State) (g : Nat) : (closeFree c x o s).2.cc g = s.cc g := by
  unfold closeFree
  split_ifs <;> rfl

theorem closeBank_of_none {c : Nat} {shadow trunc : Bool} {s : State}
    (h : (if shadow then (s.cc c).sh else (s.cc c).fg).opened = none) : closeBank c shadow trunc s = s := by
  simp only [closeBank, h]

theorem closeBank_of_some {c : Nat} {shadow trunc : Bool} {s : State} {o : OpenRec}
    (h : (if shadow then (s.cc c).sh else (s.cc c).fg).opened = some o) :
    ∃ u : State, u.core = s.core ∧ closeBank c shadow trunc s =
      u.setCore c (if shadow then { s.cc c with records := satAdd 64 (s.cc c).records 1, sh := (s.cc c).sh.closed }
        else { s.cc c with records := satAdd 64 (s.cc c).records 1, fg := (s.cc c).fg.closed }) := by
  have hcore : (closeFree c (s.cc c) o s).2.core = s.core := by
    unfold closeFree
    split_ifs <;> rfl
  refine ⟨(closeFree c (s.cc c) o s).2.produce (consRecord (closeFree c (s.cc c) o s).2 c (s.cc c)
    (if shadow then (s.cc c).sh else (s.cc c).fg) o shadow trunc (closeFree c (s.cc c) o s).1),
    (State.produce_core _ _).trans hcore, ?_⟩
  simp only [closeBank, h]
  cases shadow <;> rfl

theorem closeBank_cc_other {c g : Nat} (shadow trunc : Bool) (s : State) (hg : g ≠ c) :
    (closeBank c shadow trunc s).cc g = s.cc g := by
  cases h : (if shadow then (s.cc c).sh else (s.cc c).fg).opened with
  | none => rw [closeBank_of_none h]
  | some o =>
    obtain ⟨u, hu, hclose⟩ := closeBank_of_some (trunc := trunc) h
    rw [hclose, State.cc_setCore_other _ _ hg, State.cc_congr hu]

theorem closeBank_cc_self (c : Nat) (shadow trunc : Bool) (s : State) :
    ClosedFrom (s.cc c) ((closeBank c shadow trunc s).cc c) := by
  cases h : (if shadow then (s.cc c).sh else (s.cc c).fg).opened with
  | none => rw [closeBank_of_none h]; exact closedFrom_refl _
  | some o =>
    obtain ⟨u, -, hclose⟩ := closeBank_of_some (trunc := trunc) h
    rw [hclose, State.cc_setCore_self]
    cases shadow <;> rfl

theorem stopCore_cc_other {c g : Nat} (st : Nat) (s : State) (hg : g ≠ c) : (stopCore c st s).cc g = s.cc g := by
  rw [stopCore, State.cc_setCore_other _ _ hg, closeBank_cc_other _ _ _ hg, closeBank_cc_other _ _ _ hg]

/-- What a core that stops keeps (R318): everything but its state, its interrupt, and its records. -/
theorem stopCore_cc_self (c st : Nat) (s : State) : ∃ y, ClosedFrom (s.cc c) y ∧
    (stopCore c st s).cc c = { y with st := st, irq := false } :=
  ⟨_, (closeBank_cc_self c false true s).trans (closeBank_cc_self c true true _), State.cc_setCore_self _ _ _⟩

theorem coreFault_cc_other {c g : Nat} (code port : Nat) (s : State) (hg : g ≠ c) :
    (coreFault c code port s).cc g = s.cc g := by
  simp only [coreFault, State.cc_postEx]
  rw [stopCore_cc_other _ _ hg, State.cc_setCore_other _ _ hg]

theorem coreFault_cc_self (c code port : Nat) (s : State) : ∃ y,
    ClosedFrom { s.cc c with fault := code, fbank := (s.cc c).bank, fpc := (s.cc c).cur.pc, fport := port } y ∧
      (coreFault c code port s).cc c = { y with st := 2, irq := false } := by
  obtain ⟨y, hy, hstop⟩ := stopCore_cc_self c 2 (s.setCore c
    { s.cc c with fault := code, fbank := (s.cc c).bank, fpc := (s.cc c).cur.pc, fport := port })
  rw [State.cc_setCore_self] at hy
  exact ⟨y, hy, by simp only [coreFault, State.cc_postEx]; exact hstop⟩

theorem ClosedFrom.fields {x y : Core} (h : ClosedFrom x y) : y.fault = x.fault ∧ y.fbank = x.fbank ∧ y.fpc = x.fpc ∧
    y.fport = x.fport ∧ y.x = x.x ∧ y.y = x.y ∧ y.prog = x.prog ∧ y.page = x.page ∧ y.swaps = x.swaps := by
  rw [← show _ = x from h]
  exact ⟨rfl, rfl, rfl, rfl, rfl, rfl, rfl, rfl, rfl⟩

end Sys2Proof.Machine
end

section
/-! PROOF. Control flow of a core and its faults (R301, R302, R306, R318). -/
namespace Sys2Proof.Machine

@[simp] theorem Core.onBank_id (x : Core) : x.onBank id = x := by
  unfold Core.onBank
  split_ifs <;> rfl

/-- An instruction that may fault, and does not, issues as any other. -/
theorem consFaulting_ok {c : Nat} {i : Instr} {bad : Core → Option Nat} {eff : Core → Core} {s : State}
    (hr : consReady c i s = true) (hb : bad (seen c s) = none) : consFaulting c i bad eff s = consExec c i eff s := by
  simp [consFaulting, consExec, hr, hb]

theorem consFaulting_fault {c code : Nat} {i : Instr} {bad : Core → Option Nat} {eff : Core → Core} {s : State}
    (hr : consReady c i s = true) (hb : bad (seen c s) = some code) :
    consFaulting c i bad eff s = coreFault c code 0 (s.setCore c (seen c s)) := by
  simp [consFaulting, hr, hb]

theorem completes_faulting {c : Nat} {i : Instr} {bad : Core → Option Nat} {eff : Core → Core} {s : State}
    {f : Bank → Bank} (hx : exec i s = .next (consFaulting c i bad eff s)) (hr : consReady c i s = true)
    (hb : bad (seen c s) = none) (he : eff (seen c s) = (seen c s).onBank f) :
    Completes i s fun t => Issues c s t f :=
  completes_issues (hx.trans (congrArg _ (consFaulting_ok hr hb))) hr he

/-- A core that enters fault (R318): it stops with the code, the bank and the PC kept. -/
theorem completes_fault {c code : Nat} {i : Instr} {bad : Core → Option Nat} {eff : Core → Core} {s : State}
    (hx : exec i s = .next (consFaulting c i bad eff s)) (hr : consReady c i s = true)
    (hb : bad (seen c s) = some code) :
    Completes i s fun t => (t.cc c).st = 2 ∧ (t.cc c).fault = code ∧ (t.cc c).fbank = (s.cc c).bank ∧
      (t.cc c).fpc = (s.cc c).cur.pc ∧ (t.cc c).x = (s.cc c).x ∧ (t.cc c).y = (s.cc c).y ∧ ∀ g, g ≠ c → t.cc g = s.cc g := by
  have hpc : (seen c s).cur.pc = (s.cc c).cur.pc := by
    have hland (t : Tgt) (b : Bank) : (t.land b).pc = b.pc := by
      cases t with
      | reg num v =>
        simp only [Tgt.land, Bank.setReg]
        split_ifs <;> rfl
      | _ => rfl
    rw [Core.land_cur]
    exact foldl_unchanged Bank.pc (fun b l => hland _ b) _ _
  refine ⟨_, hx.trans (congrArg _ (consFaulting_fault hr hb)), ?_⟩
  obtain ⟨y, hy, hfault⟩ := coreFault_cc_self c code 0 (s.setCore c (seen c s))
  rw [State.cc_setCore_self] at hy
  obtain ⟨hf, hbank, hfpc, -, hx, hy', -⟩ := hy.fields
  refine ⟨?_, ?_, ?_, ?_, ?_, ?_, fun g hg => ?_⟩
  · rw [hfault]
  · rw [hfault]; exact hf
  · rw [hfault]; exact hbank.trans (s.cc c).land_bank
  · rw [hfault]; exact hfpc.trans hpc
  · rw [hfault]; exact hx.trans (s.cc c).land_x
  · rw [hfault]; exact hy'.trans (s.cc c).land_y
  · rw [coreFault_cc_other _ _ _ hg, State.cc_setCore_other _ _ hg]

theorem exec_loopd (c len d : Nat) (s : State) : exec (.loopd c len d) s = .next (consFaulting c (.loopd c len d)
    (fun x => if (x.cur.dv d).toNat % 2 ^ 20 != 0 && decide (4 ≤ x.cur.loops.length) then some 3 else none)
    (fun x => x.onBank fun b => if (b.dv d).toNat % 2 ^ 20 = 0 then { b with pc := b.pc + 1 + len } else
      b.pushLoop len ((b.dv d).toNat % 2 ^ 20)) s) := rfl

theorem completes_ie {c : Nat} {i : Instr} (v : Bool) {s : State}
    (hx : exec i s = .next (consExec c i (fun x => { x with ie := v }) s)) (hr : consReady c i s = true) :
    Completes i s fun t => Issues c s t id fun z => { z with ie := v } :=
  completes_of_sameIssue hx hr (Core.onBank_id _).symm ⟨rfl, rfl⟩

theorem completes_halt {c : Nat} {s : State} (hr : consReady c (.halt c) s = true) :
    Completes (.halt c) s fun t => (t.cc c).st = 0 ∧ (t.cc c).x = (seen c s).x ∧ (t.cc c).y = (seen c s).y ∧
      (t.cc c).prog = (seen c s).prog ∧ ∀ g, g ≠ c → t.cc g = s.cc g := by
  have hissue := Core.issue_of_sameIssue (x := s.cc c) (eff := id) (f := id) (Core.onBank_id (seen c s)).symm (sameIssue_refl _)
  have hmem : ((s.cc c).issue id).x = (seen c s).x ∧ ((s.cc c).issue id).y = (seen c s).y ∧
      ((s.cc c).issue id).prog = (seen c s).prog := by
    rw [hissue]
    unfold Core.issued Core.onBank
    split_ifs <;> exact ⟨rfl, rfl, rfl⟩
  refine ⟨stopCore c 0 (s.setCore c ((s.cc c).issue id)), congrArg _ (if_pos hr), ?_⟩
  obtain ⟨y, hy, hstop⟩ := stopCore_cc_self c 0 (s.setCore c ((s.cc c).issue id))
  rw [State.cc_setCore_self] at hy
  obtain ⟨-, -, -, -, hx, hy', hprog, -⟩ := hy.fields
  obtain ⟨hx', hy'', hprog'⟩ := hmem
  refine ⟨by rw [hstop], ?_, ?_, ?_, fun g hg => ?_⟩
  · rw [hstop]; exact hx.trans hx'
  · rw [hstop]; exact hy'.trans hy''
  · rw [hstop]; exact hprog.trans hprog'
  · rw [stopCore_cc_other _ _ hg, State.cc_setCore_other _ _ hg]

theorem completes_reti {c : Nat} {s : State} (hr : consReady c (.reti c) s = true) (hb : (seen c s).bank = true) :
    Completes (.reti c) s fun t => t = s.setCore c (t.cc c) ∧
      (t.cc c).bank = false ∧ (t.cc c).fg = (seen c s).fg ∧ (t.cc c).sh = (seen c s).sh.next ∧ (t.cc c).resumed = true := by
  have hx : exec (.reti c) s = .next (s.setCore c ((s.cc c).issue fun x => { x with bank := false, resumed := true })) :=
    congrArg _ ((consFaulting_ok hr (if_pos hb)).trans (consExec_of_ready _ hr))
  refine ⟨_, hx, ?_⟩
  simp only [State.cc_setCore_self]
  have hland : (s.cc c).bank = true := (s.cc c).land_bank.symm.trans hb
  simp [Core.issue, hland, Core.clocks]

/-- Two delay slots, then the transfer (R301). -/
theorem jump_next {b : Bank} (a : Nat) (hbr : b.branch = []) (hl : b.loops = []) :
    (b.jump a).next.pc = (b.pc + 1) % 2 ^ 14 ∧ (b.jump a).next.next.pc = ((b.pc + 1) % 2 ^ 14 + 1) % 2 ^ 14 ∧
      (b.jump a).next.next.next.pc = a := by
  simp [Bank.jump, Bank.next, loopNext, hbr, hl]

/-- Settles O13: rows that may fault are `consFaulting` of their test; the others issue at once. -/
theorem conservatorControl : Obligations.ConservatorControl := by
  refine ⟨fun c s => ⟨?nop, completes_ie true rfl, completes_ie false rfl, ?jmp, ?call, ?callNot, ?ret, ?retNot,
    completes_reti, ?loop, ?loopd, ?loopdZero, completes_halt, fun b a => jump_next a⟩, fun c s i code hr hi => ?fault⟩
  case nop => exact fun hr => completes_issues rfl hr rfl
  case jmp => exact fun cd a hr => completes_issues rfl hr rfl
  case call =>
    intro cd a hr hcd hlen
    refine completes_faulting rfl hr ?_ (Core.onBank_congr (if_pos hcd))
    simp [hcd, hlen]
  case callNot =>
    intro cd a hr hcd
    refine completes_faulting rfl hr ?_ (Core.onBank_congr ?_)
    · simp [hcd]
    · simp [hcd]
  case ret =>
    intro cd a l hr hcd hcalls
    refine completes_faulting rfl hr ?_ (Core.onBank_congr ?_)
    · simp [hcalls]
    · simp [hcd, hcalls, Bank.jump]
  case retNot =>
    intro cd hr hcd
    refine completes_faulting rfl hr ?_ (Core.onBank_congr ?_)
    · simp [hcd]
    · split <;> simp [hcd]
  case loop =>
    intro len n hr hlen
    exact completes_faulting rfl hr (if_neg (by omega)) (Core.onBank_congr rfl)
  case loopd =>
    intro len d hr hlen hcount
    refine completes_faulting (exec_loopd c len d s) hr ?_ ?_
    · simp [hlen]
    · exact Core.onBank_congr (if_neg hcount)
  case loopdZero =>
    intro len d hr hcount
    refine completes_faulting (exec_loopd c len d s) hr ?_ ?_
    · exact if_neg (by rw [hcount]; simp)
    · exact Core.onBank_congr (if_pos hcount)
  case fault =>
    obtain ⟨cd, a, rfl, rfl, hcd, hlen⟩ | ⟨cd, rfl, rfl, hcd, hcalls⟩ | ⟨len, n, rfl, rfl, hlen⟩ | ⟨rfl, rfl, hbank⟩ |
      ⟨d, rfl, rfl, hopen⟩ := hi
    · exact completes_fault rfl hr (by simp [hcd, hlen])
    · exact completes_fault rfl hr (by simp [hcd, hcalls])
    · exact completes_fault rfl hr (if_pos hlen)
    · exact completes_fault rfl hr (if_neg (by rw [hbank]; decide))
    · exact completes_fault rfl hr (by simp [hopen])

end Sys2Proof.Machine
end

section
/-! SUPPORT. The fields of a core that landing and issuing keep. -/
namespace Sys2Proof.Machine

/-! ### Landing (R300) -/

@[simp] theorem Core.land_ports (x : Core) : x.land.ports = x.ports := by
  have h := congrArg Core.ports x.land_rest
  exact h
@[simp] theorem Core.land_stim (x : Core) : x.land.stim = x.stim := by
  have h := congrArg Core.stim x.land_rest
  exact h
@[simp] theorem Core.land_blk (x : Core) : x.land.blk = x.blk := by
  have h := congrArg Core.blk x.land_rest
  exact h
@[simp] theorem Core.land_cyc (x : Core) : x.land.cyc = x.cyc := by
  have h := congrArg Core.cyc x.land_rest
  exact h
@[simp] theorem Core.land_origin (x : Core) : x.land.origin = x.origin := by
  have h := congrArg Core.origin x.land_rest
  exact h
@[simp] theorem Core.land_credit (x : Core) : x.land.credit = x.credit := by
  have h := congrArg Core.credit x.land_rest
  exact h
@[simp] theorem Core.land_records (x : Core) : x.land.records = x.records := by
  have h := congrArg Core.records x.land_rest
  exact h
@[simp] theorem Core.land_stalled (x : Core) : x.land.stalled = x.stalled := by
  have h := congrArg Core.stalled x.land_rest
  exact h
@[simp] theorem Core.land_port (x : Core) (p : Nat) : x.land.port p = x.port p := by rw [Core.port, Core.land_ports, Core.port]
@[simp] theorem Core.land_stimPort (x : Core) (k : Nat) : x.land.stimPort k = x.stimPort k := by
  rw [Core.stimPort, Core.land_stim, Core.stimPort]

theorem Tgt.land_opened (t : Tgt) (b : Bank) : (t.land b).opened = b.opened := by
  cases t with
  | reg num v =>
    simp only [Tgt.land, Bank.setReg]
    split_ifs <;> rfl
  | _ => rfl

theorem Core.land_opened (x : Core) : x.land.cur.opened = x.cur.opened := by
  rw [Core.land_cur]
  exact foldl_unchanged Bank.opened (fun b l => Tgt.land_opened _ b) _ _

/-! ### Issuing (R292) -/

theorem Core.onBank_rest (x : Core) (f : Bank → Bank) : { x.onBank f with fg := x.fg, sh := x.sh } = x := by
  unfold Core.onBank
  split_ifs <;> rfl

theorem Core.issued_cur (x y : Core) (f : Bank → Bank) : (x.issued y f).cur = (f y.cur).next :=
  Core.onBank_cur y fun b => (f b).next

/-- An issue leaves everything but the banks, the clocks, the credit and the interrupt as the instruction itself left it. -/
theorem Core.issued_rest (x y : Core) (f : Bank → Bank) :
    { x.issued y f with fg := y.fg, sh := y.sh, cyc := y.cyc, credit := y.credit, irq := y.irq, resumed := y.resumed } = y := by
  have h := congrArg (fun z : Core => { z with cyc := y.cyc, credit := y.credit, irq := y.irq, resumed := y.resumed })
    (y.onBank_rest fun b => (f b).next)
  exact h

theorem Core.issued_cyc (x y : Core) (f : Bank → Bank) : (x.issued y f).cyc = (y.cyc + 1) % 2 ^ 64 := by
  have h := congrArg (fun z : Core => (z.cyc + 1) % 2 ^ 64) (y.onBank_rest fun b => (f b).next)
  exact h

theorem Core.issued_credit (x y : Core) (f : Bank → Bank) :
    (x.issued y f).credit = min (16384 * 256) (y.credit + getU y.blk 12 2) := by
  have h := congrArg (fun z : Core => min (16384 * 256) (z.credit + 1 * getU z.blk 12 2)) (y.onBank_rest fun b => (f b).next)
  exact h.trans (by rw [Nat.one_mul])

theorem Core.issued_ports (x y : Core) (f : Bank → Bank) : (x.issued y f).ports = y.ports := by
  have h := congrArg Core.ports (x.issued_rest y f)
  exact h
theorem Core.issued_stim (x y : Core) (f : Bank → Bank) : (x.issued y f).stim = y.stim := by
  have h := congrArg Core.stim (x.issued_rest y f)
  exact h
theorem Core.issued_x (x y : Core) (f : Bank → Bank) : (x.issued y f).x = y.x := by
  have h := congrArg Core.x (x.issued_rest y f)
  exact h
theorem Core.issued_y (x y : Core) (f : Bank → Bank) : (x.issued y f).y = y.y := by
  have h := congrArg Core.y (x.issued_rest y f)
  exact h
theorem Core.issued_records (x y : Core) (f : Bank → Bank) : (x.issued y f).records = y.records := by
  have h := congrArg Core.records (x.issued_rest y f)
  exact h
theorem Core.issued_stalled (x y : Core) (f : Bank → Bank) : (x.issued y f).stalled = y.stalled := by
  have h := congrArg Core.stalled (x.issued_rest y f)
  exact h

theorem Core.issue_id (x : Core) : x.issue id = x.land.issued x.land id :=
  Core.issue_of_sameIssue (eff := id) (Core.onBank_id _).symm (sameIssue_refl _)

@[simp] theorem Bank.next_stall (b : Bank) : b.next.stall = 0 := rfl

@[simp] theorem Bank.next_opened (b : Bank) : b.next.opened = b.opened := rfl

@[simp] theorem Bank.next_quality (b : Bank) : b.next.quality = b.quality := rfl

/-! ### Ports -/

theorem Core.port_set_same {x : Core} {p : Nat} (hp : p < x.ports.length) (q : Port) :
    Core.port { x with ports := x.ports.set p q } p = q := by simp [Core.port, hp]

theorem Core.port_set_other {x : Core} {p g : Nat} (hg : g ≠ p) (q : Port) :
    Core.port { x with ports := x.ports.set p q } g = x.port g := by simp [Core.port, hg.symm]

theorem Core.port_congr {x y : Core} (h : x.ports = y.ports) (p : Nat) : x.port p = y.port p := by rw [Core.port, h, Core.port]

end Sys2Proof.Machine
end

section
/-! PROOF. Input ports of a core, and elements that arrive (R307 to R309, R318). -/
namespace Sys2Proof.Machine

/-- A core whose port `p` has had its oldest element taken. -/
def Core.taken (p : Nat) (e : Elem) (es : List Elem) (x : Core) : Core :=
  { x with ports := x.ports.set p { x.port p with elems := es, last := some e.n, read := (x.port p).read + 1 } }

theorem sameIssue_taken (p : Nat) (e : Elem) (es : List Elem) (x : Core) : SameIssue x (x.taken p e es) := ⟨rfl, rfl⟩

/-- The bank as the element `e` is read into D(d). -/
def Bank.reads (rate : Int) (d : Nat) (e : Elem) (b : Bank) : Bank :=
  { b.delay 2 (.d d e.v) with quality := b.quality ||| e.quality, upTo := max b.upTo (fsCeil rate e.n + 1) }

theorem readPort_of_elems {rate : Int} {d p : Nat} {x : Core} {e : Elem} {es : List Elem} (h : (x.port p).elems = e :: es) :
    readPort rate d p x = (x.taken p e es).onBank (Bank.reads rate d e) := by
  simp only [readPort, h]
  rfl

theorem issue_readPort {rate : Int} {d p : Nat} {x : Core} {e : Elem} {es : List Elem} (h : (x.port p).elems = e :: es) :
    x.issue (readPort rate d p) = x.land.issued (x.land.taken p e es) (Bank.reads rate d e) :=
  Core.issue_of_sameIssue (readPort_of_elems (by rw [Core.land_port, h])) (sameIssue_taken _ _ _ _)

theorem Core.taken_port_same {p : Nat} {x : Core} (hp : p < x.ports.length) (e : Elem) (es : List Elem) :
    (x.taken p e es).port p = { x.port p with elems := es, last := some e.n, read := (x.port p).read + 1 } :=
  Core.port_set_same hp _

theorem completes_inp {c d p : Nat} {s : State} {e : Elem} {es : List Elem} (hp : p < (s.cc c).ports.length)
    (hr : consReady c (.inp c d p) s = true) (he : ((s.cc c).port p).elems = e :: es) :
    Completes (.inp c d p) s fun t => t = s.setCore c (t.cc c) ∧ ((t.cc c).port p).elems = es ∧
      ((t.cc c).port p).last = some e.n ∧ ((t.cc c).port p).read = ((s.cc c).port p).read + 1 ∧
      (∀ q, q ≠ p → (t.cc c).port q = (s.cc c).port q) ∧
      (⟨(seen c s).cur.issued + 2, .d d e.v⟩ : Late) ∈ (t.cc c).cur.late ∧
      (t.cc c).cur.quality = (seen c s).cur.quality ||| e.quality := by
  have hx : exec (.inp c d p) s = .next (s.setCore c ((s.cc c).land.issued ((s.cc c).land.taken p e es)
      (Bank.reads (portRate s.view c (s.cc c) p) d e))) := by
    rw [← issue_readPort he]
    exact congrArg Host.Outcome.next (by simp [inRow, hr, he])
  refine ⟨_, hx, ?_⟩
  simp only [State.cc_setCore_self]
  have hport : ((s.cc c).land.issued ((s.cc c).land.taken p e es) (Bank.reads (portRate s.view c (s.cc c) p) d e)).port p =
      { (s.cc c).port p with elems := es, last := some e.n, read := ((s.cc c).port p).read + 1 } := by
    rw [Core.port_congr (Core.issued_ports _ _ _), Core.taken_port_same (by rwa [Core.land_ports]), Core.land_port]
  refine ⟨trivial, ?_, ?_, ?_, fun q hq => ?_, ?_, ?_⟩
  · rw [hport]
  · rw [hport]
  · rw [hport]
  · rw [Core.port_congr (Core.issued_ports _ _ _)]
    exact (Core.port_set_other hq _).trans (Core.land_port _ _)
  · rw [Core.issued_cur]
    exact List.mem_append_right _ (List.mem_singleton_self _)
  · rw [Core.issued_cur]
    rfl

theorem completes_inStallEnd {c d p clocks : Nat} {s : State} {e : Elem} {es : List Elem} (hp : p < (s.cc c).ports.length)
    (hst : (s.cc c).st = 1) (hstall : (s.cc c).cur.stall = 1) (hswap : swapDue s c (s.cc c) = false)
    (hd : bitsOf (s.cc c).word 23 3 = d) (hport : bitsOf (s.cc c).word 20 3 = p) (he : ((s.cc c).port p).elems = e :: es) :
    Completes (.inStallEnd c clocks) s fun t => t = s.setCore c (t.cc c) ∧ ((t.cc c).port p).elems = es ∧
      ((t.cc c).port p).last = some e.n ∧ (t.cc c).cur.stall = 0 ∧
      (t.cc c).cyc = (((s.cc c).cyc + clocks) % 2 ^ 64 + 1) % 2 ^ 64 := by
  have he' : (((s.cc c).clocks clocks).port p).elems = e :: es := he
  have hx : exec (.inStallEnd c clocks) s = .next (s.setCore c (((s.cc c).clocks clocks).land.issued
      (((s.cc c).clocks clocks).land.taken p e es) (Bank.reads (portRate s.view c (s.cc c) p) d e))) := by
    rw [← issue_readPort he']
    exact congrArg Host.Outcome.next (by simp [inStallEnd, hst, hstall, hswap, hd, hport, he])
  refine ⟨_, hx, ?_⟩
  simp only [State.cc_setCore_self]
  have hport : ∀ f, (((s.cc c).clocks clocks).land.issued (((s.cc c).clocks clocks).land.taken p e es) f).port p =
      { ((s.cc c).clocks clocks).port p with
        elems := es, last := some e.n, read := (((s.cc c).clocks clocks).port p).read + 1 } := by
    intro f
    rw [Core.port_congr (Core.issued_ports _ _ _), Core.taken_port_same (by rwa [Core.land_ports]), Core.land_port]
  refine ⟨trivial, ?_, ?_, ?_, ?_⟩
  · rw [hport]
  · rw [hport]
  · rw [Core.issued_cur]
    rfl
  · rw [Core.issued_cyc]
    exact congrArg (fun n => (n + 1) % 2 ^ 64) (Core.land_cyc _)

theorem elementArrival_of_next {c p n first : Nat} {codes : List Conv} {e : Elem} {s : State} (hst : (s.cc c).st = 1)
    (hp : p < 8) (hk : (s.cc c).kind p ≠ 0) (he : nextElement s c (s.cc c) p n first codes = some e) :
    elementArrival c p n first codes s =
      if 256 ≤ ((s.cc c).port p).elems.length then coreFault c 1 p s
      else s.setCore c { s.cc c with ports := (s.cc c).ports.set p { (s.cc c).port p with
        arrived := some n, first := some (((s.cc c).port p).first.getD n), coming := ((s.cc c).port p).coming.drop 1,
        elems := ((s.cc c).port p).elems ++ [e] } } := by
  simp [elementArrival, hst, hk, he, show ¬8 ≤ p by omega]

/-- Settles O14: reading a port and an arrival both replace one entry of the list of ports. -/
theorem conservatorInputPorts : Obligations.ConservatorInputPorts := by
  refine ⟨fun c d p s hp => ⟨fun e es hr he => completes_inp hp hr he, ?stall,
    fun clocks e es hst hstall hswap hd hport he => completes_inStallEnd hp hst hstall hswap hd hport he,
    fun hr => completes_issues rfl hr ?idx⟩, fun c p n first codes e s hst h8 hp hk he => ⟨?held, ?full⟩⟩
  case stall =>
    intro hr he
    exact congrArg Host.Outcome.next (by simp [inRow, hr, he])
  case idx => exact Core.onBank_congr (by rw [Core.land_port])
  case held =>
    intro hroom
    refine ⟨_, congrArg Host.Outcome.next ((elementArrival_of_next hst h8 hk he).trans (if_neg (by omega))), ?_⟩
    simp only [State.cc_setCore_self, Core.port_set_same hp]
    exact ⟨trivial, trivial, trivial, trivial, trivial, fun g hg => Core.port_set_other hg _⟩
  case full =>
    intro hfull
    refine ⟨_, congrArg Host.Outcome.next ((elementArrival_of_next hst h8 hk he).trans (if_pos hfull)), ?_⟩
    obtain ⟨y, hy, hfault⟩ := coreFault_cc_self c 1 p s
    obtain ⟨hcode, -, -, hport, -⟩ := hy.fields
    refine ⟨by rw [hfault], ?_, ?_, fun g hg => coreFault_cc_other _ _ _ hg⟩
    · rw [hfault]; exact hcode
    · rw [hfault]; exact hport

end Sys2Proof.Machine
end

section
/-! PROOF. The record port of a core (R310 to R312, R315). -/
namespace Sys2Proof.Machine

/-! ### Opening and filling a record -/

theorem isNone_consElem_of_contains {e : Nat} (h : [2, 4, 5, 7, 8].contains e = true) : (consElem e).isNone = false := by
  have hmem : e = 2 ∨ e = 4 ∨ e = 5 ∨ e = 7 ∨ e = 8 := by simpa using h
  obtain rfl | rfl | rfl | rfl | rfl := hmem <;> rfl

theorem exec_recOpen {c d : Nat} {s : State} (h : bitsOf ((seen c s).cur.dv d).toNat 34 2 ≠ 2) :
    exec (.recOpen c d) s = .next (consFaulting c (.recOpen c d)
      (fun x => if bitsOf (x.cur.dv d).toNat 34 2 != 1 || x.cur.opened.isSome ||
        getU (seen c s).blk (8 + bitsOf ((seen c s).cur.dv d).toNat 32 2) 1 == 0xFF ||
        (consElem (bitsOf (x.cur.dv d).toNat 28 4)).isNone then some 5 else none)
      (fun x => x.onBank fun b => { b with opened := some {
          stream := getU (seen c s).blk (8 + bitsOf ((seen c s).cur.dv d).toNat 32 2) 1,
          elem := bitsOf (x.cur.dv d).toNat 28 4, ref := bitsOf (x.cur.dv d).toNat 25 3,
          sample := (x.port (bitsOf (x.cur.dv d).toNat 25 3)).last } }) s) :=
  congrArg Host.Outcome.next (if_neg h)

/-! ### Closing a record (R311, R315) -/

/-- The core as a CLOSE takes the credit of a record of `w` words. -/
def Core.charged (x : Core) (w : Nat) : Core := { x with credit := x.credit - consLength w * 256 }

theorem closeBank_self {c : Nat} {s : State} {x : Core} {o : OpenRec} (h : x.cur.opened = some o) :
    ∃ u : State, u.core = (s.setCore c x).core ∧ closeBank c x.bank false (s.setCore c x) =
      u.setCore c ({ x with records := satAdd 64 x.records 1 }.onBank Bank.closed) := by
  have hself : (s.setCore c x).cc c = x := State.cc_setCore_self _ _ _
  have hopen : (if x.bank then ((s.setCore c x).cc c).sh else ((s.setCore c x).cc c).fg).opened = some o := by
    rw [hself]; exact h
  obtain ⟨u, hu, hclose⟩ := closeBank_of_some (trunc := false) hopen
  refine ⟨u, hu, hclose.trans ?_⟩
  rw [hself]
  rfl

/-- The core after a CLOSE. -/
def Core.closedOnce (x : Core) (w : Nat) : Core :=
  (({ x.land.charged w with records := satAdd 64 x.land.records 1 } : Core).onBank Bank.closed).issue id

theorem finishClose_eq {c : Nat} {s : State} {o : OpenRec} (h : (s.cc c).cur.opened = some o) :
    ∃ u : State, (∀ g, g ≠ c → u.cc g = s.cc g) ∧
      finishClose c s = u.setCore c ((s.cc c).closedOnce o.words.length) := by
  have hopen : (s.cc c).land.cur.opened = some o := (Core.land_opened _).trans h
  obtain ⟨u, hu, hclose⟩ := closeBank_self (c := c) (s := s) (x := (s.cc c).land.charged o.words.length) hopen
  have hfin : finishClose c s = (u.setCore c (({ (s.cc c).land.charged o.words.length with
      records := satAdd 64 (s.cc c).land.records 1 } : Core).onBank Bank.closed)).setCore c
        ((s.cc c).closedOnce o.words.length) := by
    have hmid : finishClose c s = (closeBank c ((s.cc c).land.charged o.words.length).bank false
        (s.setCore c ((s.cc c).land.charged o.words.length))).setCore c
          (((closeBank c ((s.cc c).land.charged o.words.length).bank false
            (s.setCore c ((s.cc c).land.charged o.words.length))).cc c).issue id) := by
      simp only [finishClose, hopen]
      rfl
    rw [hmid, hclose, State.cc_setCore_self]
    rfl
  refine ⟨_, fun g hg => ?_, hfin⟩
  rw [State.cc_setCore_other _ _ hg, State.cc_congr hu, State.cc_setCore_other _ _ hg]

/-- What a CLOSE does to its core: the record is no longer open, and is counted; its LENGTH is taken from the credit. -/
theorem Core.closedOnce_fields (x : Core) (w : Nat) :
    (x.closedOnce w).cur.opened = none ∧ (x.closedOnce w).cur.stall = 0 ∧
      (x.closedOnce w).records = satAdd 64 x.records 1 ∧ (x.closedOnce w).stalled = x.stalled ∧
      (x.closedOnce w).credit = min (16384 * 256) (x.credit - consLength w * 256 + getU x.blk 12 2) ∧
      (x.closedOnce w).x = x.x ∧ (x.closedOnce w).y = x.y := by
  have hrest := Core.onBank_rest { x.land.charged w with records := satAdd 64 x.land.records 1 } Bank.closed
  have hrecords := congrArg Core.records hrest
  have hstalled := congrArg Core.stalled hrest
  have hcredit := congrArg Core.credit hrest
  have hblk := congrArg Core.blk hrest
  have hx := congrArg Core.x hrest
  have hy := congrArg Core.y hrest
  unfold Core.closedOnce
  rw [Core.issue_id]
  refine ⟨?_, ?_, ?_, ?_, ?_, ?_, ?_⟩
  · rw [Core.issued_cur]
    refine (Core.land_opened _).trans ?_
    rw [Core.onBank_cur]
    rfl
  · rw [Core.issued_cur]
    rfl
  · rw [Core.issued_records, Core.land_records]
    exact hrecords.trans (by rw [Core.land_records])
  · rw [Core.issued_stalled, Core.land_stalled]
    exact hstalled.trans x.land_stalled
  · rw [Core.issued_credit, Core.land_credit, Core.land_blk]
    refine congrArg₂ (fun k bs => min (16384 * 256) (k + getU bs 12 2)) (hcredit.trans ?_) (hblk.trans x.land_blk)
    exact congrArg (· - consLength w * 256) x.land_credit
  · rw [Core.issued_x, Core.land_x]
    exact hx.trans x.land_x
  · rw [Core.issued_y, Core.land_y]
    exact hy.trans x.land_y

/-- A CLOSE of a record whose body is whole (R310): with enough credit it completes, else the bank stalls (R315). -/
theorem closeRow_of_whole {c d n : Nat} {s : State} {o : OpenRec} (hr : consReady c (.close c d) s = true)
    (hop : bitsOf ((seen c s).cur.dv d).toNat 34 2 = 2) (ho : (seen c s).cur.opened = some o) (hn : consElem o.elem = some n)
    (hw : 4 * o.words.length % n = 0) :
    closeRow c d s = if consLength o.words.length * 256 ≤ (seen c s).credit then finishClose c s
      else s.setCore c ((seen c s).onBank fun b => { b with stall := 3 }) := by
  simp only [closeRow, hr, Bool.not_true, Bool.false_eq_true, if_false]
  rw [if_neg (by rw [hop]; decide), if_neg (not_not.2 hop)]
  simp only [ho, hn, Option.getD_some, hw, ne_eq, not_true, if_false]

theorem creditStallEnd_of_reached {c clocks : Nat} {s : State} {o : OpenRec} (hst : (s.cc c).st = 1)
    (ho : (s.cc c).cur.opened = some o) (hstall : (s.cc c).cur.stall = 3) (hswap : swapDue s c (s.cc c) = false)
    (henough : consLength o.words.length * 256 ≤ (s.cc c).credit + clocks * getU (s.cc c).blk 12 2)
    (hnow : clocks = 0 ∨ (s.cc c).credit + (clocks - 1) * getU (s.cc c).blk 12 2 < consLength o.words.length * 256) :
    creditStallEnd c clocks s = finishClose c
      (s.setCore c { (s.cc c).clocks clocks with stalled := satAdd 64 (s.cc c).stalled clocks }) := by
  simp [creditStallEnd, ho, hst, hstall, hswap, henough, hnow]

/-! ### REC_TIME (R312) -/

theorem timeFrom_some (v l : Nat) :
    timeFrom v (some l) = if l < (l + 2 ^ 36 - v) % 2 ^ 36 then v else l - (l + 2 ^ 36 - v) % 2 ^ 36 := rfl

theorem timeFrom_mod {v : Nat} (hv : v < 2 ^ 36) (l : Nat) : timeFrom v (some l) % 2 ^ 36 = v := by
  rw [timeFrom_some]
  split_ifs <;> omega

theorem timeFrom_le {v l : Nat} (h : v ≤ l) : timeFrom v (some l) ≤ l := by
  rw [timeFrom_some]
  split_ifs <;> omega

theorem le_timeFrom {v l k : Nat} (hv : v < 2 ^ 36) (hk : k ≤ l) (hmod : k % 2 ^ 36 = v) : k ≤ timeFrom v (some l) := by
  rw [timeFrom_some]
  split_ifs <;> omega

theorem timeFrom_of_lt {v l : Nat} (hv : v < 2 ^ 36) (h : l < v) : timeFrom v (some l) = v := by
  rw [timeFrom_some, if_pos (by omega)]

/-- Settles O15: a CLOSE completes at once or at the end of its stall by the same `finishClose`. -/
theorem conservatorRecords : Obligations.ConservatorRecords := by
  refine ⟨fun c d s => ⟨?opening, ?data, ?time, ?close, ?stallEnd⟩, fun v l hv => ⟨rfl, timeFrom_mod hv l,
    fun h => ⟨timeFrom_le h, fun k hk hmod => le_timeFrom hv hk hmod⟩, timeFrom_of_lt hv⟩⟩
  case opening =>
    intro hr hop hnone hstr helem
    refine completes_faulting (exec_recOpen (by rw [hop]; decide)) hr ?_ ?_
    · have hknown := isNone_consElem_of_contains helem
      rw [Core.land_blk] at hstr
      simp [hop, hnone, hknown, hstr]
    · exact Core.onBank_congr rfl
  case data =>
    intro o hr ho hlen
    refine completes_faulting rfl hr ?_ ?_
    · simp only [ho]
      exact if_neg (by omega)
    · exact Core.onBank_congr (by simp only [ho, Option.map_some])
  case time =>
    intro o hr ho
    refine completes_issues rfl hr ?_
    exact Core.onBank_congr (by simp only [ho, Option.map_some])
  case close =>
    intro o n hr hop ho hn hw
    have hrow := closeRow_of_whole hr hop ho hn hw
    refine ⟨fun henough => ⟨_, congrArg Host.Outcome.next (hrow.trans (if_pos henough)), ?_⟩,
      fun hshort => congrArg Host.Outcome.next (hrow.trans (if_neg (by omega)))⟩
    obtain ⟨u, hother, hfin⟩ := finishClose_eq (c := c) (s := s) ((Core.land_opened _).symm.trans ho)
    obtain ⟨hopened, -, hrecords, -, hcredit, hx, hy⟩ := (s.cc c).closedOnce_fields o.words.length
    rw [hfin]
    simp only [State.cc_setCore_self]
    refine ⟨hopened, hrecords, ?_, hx.trans (s.cc c).land_x.symm, hy.trans (s.cc c).land_y.symm, fun g hg => ?_⟩
    · rw [hcredit, Core.land_credit, Core.land_blk]
    · rw [State.cc_setCore_other _ _ hg, hother g hg]
  case stallEnd =>
    intro o clocks hst ho hstall hswap henough hnow
    refine ⟨_, congrArg Host.Outcome.next (creditStallEnd_of_reached hst ho hstall hswap henough hnow), ?_⟩
    have hopen : ((s.setCore c { (s.cc c).clocks clocks with stalled := satAdd 64 (s.cc c).stalled clocks }).cc c).cur.opened =
        some o := by rw [State.cc_setCore_self]; exact ho
    obtain ⟨u, -, hfin⟩ := finishClose_eq hopen
    rw [State.cc_setCore_self] at hfin
    simp only [hfin, State.cc_setCore_self]
    obtain ⟨hopened, hzero, hrecords, hstalled, -⟩ := Core.closedOnce_fields
      { (s.cc c).clocks clocks with stalled := satAdd 64 (s.cc c).stalled clocks } o.words.length
    exact ⟨hopened, hzero, hstalled, hrecords⟩

end Sys2Proof.Machine
end

section
/-! PROOF. Stimulus and signal ports (R316, R317), interrupt entry (R305), page swaps (R322, R323). -/
namespace Sys2Proof.Machine

/-! ### Stimulus ports (R316) -/

/-- A core whose stimulus port `k` has taken a word. -/
def Core.pushed (d k : Nat) (x : Core) : Core :=
  { x with stim := x.stim.set k (x.stimPort k ++ [⟨x.origin + x.cyc + 2, x.cur.dv d⟩]) }

theorem Core.pushed_stimPort {d k : Nat} {x : Core} (h : k < x.stim.length) :
    (x.pushed d k).stimPort k = x.stimPort k ++ [⟨x.origin + x.cyc + 2, x.cur.dv d⟩] := by simp [Core.pushed, Core.stimPort, h]

theorem pushStim_eq (d k : Nat) (x : Core) :
    pushStim d k x = if getU x.blk (14 + k) 1 = 0xFF then x else x.pushed d k := rfl

theorem sameIssue_pushStim (d k : Nat) (x : Core) : SameIssue x (pushStim d k x) := by
  rw [pushStim_eq]
  split_ifs <;> exact ⟨rfl, rfl⟩

theorem issue_pushStim (d k : Nat) (x : Core) : x.issue (pushStim d k) = x.land.issued (pushStim d k x.land) id :=
  Core.issue_of_sameIssue (Core.onBank_id _).symm (sameIssue_pushStim _ _ _)

theorem pushStim_memory (d k : Nat) (x : Core) : (pushStim d k x).x = x.x ∧ (pushStim d k x).y = x.y := by
  rw [pushStim_eq]
  split_ifs <;> exact ⟨rfl, rfl⟩

theorem completes_outStim {c d k : Nat} {s : State} (hk : k < (seen c s).stim.length)
    (hdac : getU (seen c s).blk (14 + k) 1 ≠ 0xFF) (hroom : ((seen c s).stimPort k).length < 256)
    (hr : consReady c (.outStim c d k) s = true) : Completes (.outStim c d k) s fun t => t = s.setCore c (t.cc c) ∧
      (t.cc c).stimPort k = (seen c s).stimPort k ++ [⟨(seen c s).origin + (seen c s).cyc + 2, (seen c s).cur.dv d⟩] ∧
      (t.cc c).cur = (seen c s).cur.next := by
  have hx : exec (.outStim c d k) s = .next (s.setCore c ((seen c s).issued ((seen c s).pushed d k) id)) := by
    have hpush : pushStim d k (seen c s) = (seen c s).pushed d k := if_neg hdac
    rw [← hpush, ← issue_pushStim]
    rw [Core.land_stimPort] at hroom
    exact congrArg Host.Outcome.next (by simp [outStimRow, hr, show ¬256 ≤ ((s.cc c).stimPort k).length by omega])
  refine ⟨_, hx, ?_⟩
  simp only [State.cc_setCore_self]
  refine ⟨trivial, ?_, ?_⟩
  · rw [Core.stimPort, Core.issued_stim]
    exact Core.pushed_stimPort hk
  · rw [Core.issued_cur]
    rfl

theorem completes_stimStallEnd {c d k clocks : Nat} {s : State} (hst : (s.cc c).st = 1) (hstall : (s.cc c).cur.stall = 2)
    (hswap : swapDue s c (s.cc c) = false) (hk : bitsOf (s.cc c).word 20 3 = k + 3)
    (hd : bitsOf (s.cc c).word 23 3 = d) (hroom : ((s.cc c).stimPort k).length < 256) :
    Completes (.stimStallEnd c clocks) s fun t => t = s.setCore c (t.cc c) ∧ (t.cc c).cur.stall = 0 ∧
      (t.cc c).x = (s.cc c).x ∧ (t.cc c).y = (s.cc c).y := by
  have hx : exec (.stimStallEnd c clocks) s = .next (s.setCore c (((s.cc c).clocks clocks).land.issued
      (pushStim d k ((s.cc c).clocks clocks).land) id)) := by
    rw [← issue_pushStim]
    exact congrArg Host.Outcome.next (by simp [stimStallEnd, hst, hstall, hswap, hk, hd, hroom])
  obtain ⟨hpx, hpy⟩ := pushStim_memory d k ((s.cc c).clocks clocks).land
  refine ⟨_, hx, ?_⟩
  simp only [State.cc_setCore_self]
  refine ⟨trivial, ?_, ?_, ?_⟩
  · rw [Core.issued_cur]
    rfl
  · rw [Core.issued_x, hpx, Core.land_x]
    rfl
  · rw [Core.issued_y, hpy, Core.land_y]
    rfl

/-! ### Signals (R317, R507) -/

/-- A queue of messages in their order, with `m` in its place. -/
def BusMsg.insertInto (m : BusMsg) (q : List BusMsg) : List BusMsg :=
  q.takeWhile (·.before m) ++ [m] ++ q.dropWhile (·.before m)

theorem BusMsg.length_insertInto (m : BusMsg) (q : List BusMsg) : (m.insertInto q).length = q.length + 1 := by
  have hlen := congrArg List.length (List.takeWhile_append_dropWhile (p := (·.before m)) (l := q))
  simp only [List.length_append] at hlen
  simp only [BusMsg.insertInto, List.length_append, List.length_singleton]
  omega

theorem BusMsg.mem_insertInto (m : BusMsg) (q : List BusMsg) : m ∈ m.insertInto q := by simp [BusMsg.insertInto]

/-- A message that finds room joins the trigger queue. -/
theorem queueMsg_trigger {s : State} (m : BusMsg) (h : s.coll.trgQ.length < 64) :
    (queueMsg true m s).core = s.core ∧ (queueMsg true m s).coll.ctlQ = s.coll.ctlQ ∧
      (queueMsg true m s).coll.trgQ.length = s.coll.trgQ.length + 1 ∧ m ∈ (queueMsg true m s).coll.trgQ := by
  have hq : queueMsg true m s = { s with coll := { s.coll with trgQ := m.insertInto s.coll.trgQ } } := by
    simp only [queueMsg, if_true]
    exact if_neg (by omega)
  rw [hq]
  exact ⟨rfl, rfl, m.length_insertInto _, m.mem_insertInto _⟩

/-- The index in a SIG word's message: of the element that port 0 delivered last, or free (R317). -/
def sigIndex (c : Nat) (s : State) : Nat × State :=
  match ((seen c s).port 0).last with | some n => (n, s) | none => s.freeNat

theorem sigIndex_state (c : Nat) (s : State) : (sigIndex c s).2.core = s.core ∧ (sigIndex c s).2.coll = s.coll ∧
    (sigIndex c s).2.view.index = s.view.index := by
  unfold sigIndex
  split <;> exact ⟨rfl, rfl, rfl⟩

theorem exec_sig {c d : Nat} {s : State} (hr : consReady c (.sig c d) s = true)
    (hcode : ((seen c s).cur.dv d).toNat % 256 ≠ 0) :
    ∃ m u, exec (.sig c d) s = .next (u.setCore c ((u.cc c).issue id)) ∧ u = queueMsg true m (sigIndex c s).2 ∧
      m.kind = 1 ∧ m.code = ((seen c s).cur.dv d).toNat % 256 ∧ m.sender = s.view.index ∧
      m.handle = getU (s.cc c).blk 0 2 := by
  obtain ⟨-, -, hindex⟩ := sigIndex_state c s
  refine ⟨sigMessage (sigIndex c s).2 c (seen c s) (((seen c s).cur.dv d).toNat % 256) (sigIndex c s).1, _, ?_, rfl,
    rfl, rfl, hindex, congrArg (getU · 0 2) (Core.land_blk _)⟩
  refine congrArg Host.Outcome.next ?_
  simp only [sigRow, hr, Bool.not_true, Bool.false_eq_true, if_false]
  rw [if_neg hcode]
  rfl

theorem completes_sig {c d : Nat} {s : State} (hr : consReady c (.sig c d) s = true)
    (hcode : ((seen c s).cur.dv d).toNat % 256 ≠ 0) (hroom : s.coll.trgQ.length < 64) :
    Completes (.sig c d) s fun t => (t.cc c).cur = (seen c s).cur.next ∧ (∀ g, g ≠ c → t.cc g = s.cc g) ∧
      t.coll.ctlQ = s.coll.ctlQ ∧ t.coll.trgQ.length = s.coll.trgQ.length + 1 ∧
      ∃ m ∈ t.coll.trgQ, m.kind = 1 ∧ m.code = ((seen c s).cur.dv d).toNat % 256 ∧ m.sender = s.view.index ∧
        m.handle = getU (s.cc c).blk 0 2 := by
  obtain ⟨hcore, hcoll, -⟩ := sigIndex_state c s
  obtain ⟨m, u, hx, rfl, hm⟩ := exec_sig hr hcode
  obtain ⟨hcore', hctl, hlen, hmem⟩ := queueMsg_trigger (s := (sigIndex c s).2) m (by rwa [hcoll])
  rw [hcoll] at hctl hlen
  refine ⟨_, hx, ?_, fun g hg => ?_, hctl, hlen, m, hmem, hm⟩
  · rw [State.cc_setCore_self, Core.issue_id, Core.issued_cur, State.cc_congr (hcore'.trans hcore)]
    rfl
  · rw [State.cc_setCore_other _ _ hg, State.cc_congr (hcore'.trans hcore)]

/-! ### Page swaps (R322, R323) -/

theorem pageSwap_halts {c : Nat} {s : State} {w : Swap} {ws : List Swap} (hw : (s.cc c).swaps = w :: ws)
    (hdue : swapDue s c (s.cc c) = true) (hhalt : w.halt = true) :
    Completes (.pageSwap c) s fun t => (t.cc c).st = 0 ∧ (t.cc c).page = w.page ∧ (t.cc c).swaps = ws ∧
      (t.cc c).prog = (s.cc c).prog ∧ (t.cc c).x = (s.cc c).x ∧ (t.cc c).y = (s.cc c).y ∧
      ∀ g, g ≠ c → t.cc g = s.cc g := by
  obtain ⟨y, hy, hstop⟩ := stopCore_cc_self c 0
    (s.setCore c { s.cc c with swaps := ws, page := w.page, pseq := ((s.cc c).pseq + 1) % 2 ^ 32 })
  rw [State.cc_setCore_self] at hy
  obtain ⟨-, -, -, -, hx, hy', hprog, hpage, hswaps⟩ := hy.fields
  refine ⟨pageSwap c s, rfl, ?_⟩
  simp only [pageSwap, hw, hdue, hhalt, Bool.not_true, Bool.false_eq_true, if_false, if_true, State.cc_setCore_self, hstop]
  refine ⟨trivial, hpage, hswaps, hprog, hx, hy', fun g hg => ?_⟩
  rw [State.cc_setCore_other _ _ hg, stopCore_cc_other _ _ hg, State.cc_setCore_other _ _ hg]

/-- Settles O16: a stimulus word and a signal are the effect of one issue; a swap that halts stops the core. -/
theorem conservatorOutputsAndInterrupts : Obligations.ConservatorOutputsAndInterrupts := by
  refine ⟨fun c d k s => ⟨completes_outStim, ?discard, ?full, ?stallEnd, ?sigZero, completes_sig⟩,
    fun c s => ⟨?entry, ?swap, fun w ws hw hdue hhalt => pageSwap_halts hw hdue hhalt⟩⟩
  case discard =>
    intro hdac hr
    have hfree : pushStim d k (seen c s) = seen c s := if_pos hdac
    have hdac' : getU (s.cc c).blk (14 + k) 1 = 0xFF := by rwa [← Core.land_blk]
    have hx : exec (.outStim c d k) s = .next (s.setCore c ((seen c s).issued (seen c s) id)) := by
      rw [← congrArg (fun y => (seen c s).issued y id) hfree, ← issue_pushStim]
      exact congrArg Host.Outcome.next (by simp [outStimRow, hr, hdac'])
    exact ⟨_, hx, issues_issued rfl (sameIssue_refl _)⟩
  case full =>
    intro hdac hlen hr
    exact congrArg Host.Outcome.next (by simp [outStimRow, hr, hdac, hlen])
  case stallEnd =>
    intro clocks hst hstall hswap hk hroom
    exact completes_stimStallEnd hst hstall hswap hk rfl hroom
  case sigZero =>
    intro hr hcode
    have hx : exec (.sig c d) s = .next (s.setCore c ((seen c s).issued (seen c s) id)) := by
      rw [← Core.issue_id]
      exact congrArg Host.Outcome.next (by simp [sigRow, hr, hcode])
    exact ⟨_, hx, issues_issued rfl (sameIssue_refl _)⟩
  case entry =>
    intro hst hswap hirq
    refine ⟨interruptEntry c 0 s, rfl, ?_⟩
    simp only [interruptEntry, hst, hswap, hirq]
    simp [Core.clocks]
  case swap =>
    intro w ws hw hdue hhalt
    exact congrArg Host.Outcome.next (by simp [pageSwap, hw, hdue, hhalt])

end Sys2Proof.Machine
end

section
/-! SUPPORT. Mailbox commands whose body accepts or refuses, said of the next state (R465 to R471), and the checks that
bodies make. -/
namespace Sys2Proof.Machine

/-! ### Chains of checks -/

/-- Proved past a variable, so that `simp` rewrites with it: as a definitional unfolding the kernel would have to repeat
it on whole bodies. -/
@[simp] theorem ok_bind {α β : Type} (a : α) (f : α → Except Err β) : (Except.ok a >>= f) = f a := by
  have hbind (x : Except Err α) (hx : x = .ok a) : (x >>= f) = f a := by
    subst hx
    rfl
  exact hbind _ rfl

@[simp] theorem error_bind {α β : Type} (e : Err) (f : α → Except Err β) : (Except.error e >>= f) = .error e := rfl

@[simp] theorem pure_eq_ok {α : Type} (a : α) : (pure a : Except Err α) = .ok a := rfl

@[simp] theorem ensure_true (code detail : Nat) : ensure true code detail = .ok () := rfl

theorem ensure_of {c : Bool} (h : c = true) (code detail : Nat) : ensure c code detail = .ok () := by rw [h]; rfl

theorem lenIs_of {r : Req} {n : Nat} (h : r.len = n) : r.lenIs n = .ok () := ensure_of (by simpa using h) _ _

theorem rsvIs_of {r : Req} {off size : Nat} (h : r.u off size = 0) : r.rsvIs off size = .ok () :=
  ensure_of (by simpa using h) _ _

theorem oneNum_of {r : Req} (hlen : r.len = 8) (hrsv : r.u 2 6 = 0) : r.oneNum = .ok (r.u 0 2) := by
  simp [Req.oneNum, lenIs_of hlen, rsvIs_of hrsv]

theorem twoNum_of {r : Req} (hlen : r.len = 8) (hrsv : r.u 4 4 = 0) : r.twoNum = .ok (r.u 0 2, r.u 2 2) := by
  simp [Req.twoNum, lenIs_of hlen, rsvIs_of hrsv]

theorem ownedHandle_of {s : State} {fn h off : Nat} {e : Exhibit} (hf : s.view.find h = some e) (ho : e.owner = fn) :
    ownedHandle s fn h off = .ok e := by
  simp [ownedHandle, hf, ho]

theorem exists_ok_of_passes {e : Effect} (h : Passes e) : ∃ out, e = .ok out := by
  cases e with
  | ok out => exact ⟨out, rfl⟩
  | error e => exact absurd h Bool.false_ne_true

/-! ### States but for mailboxes and what has been sent -/

/-- A field that an answer cannot touch. -/
theorem Leaves.field {α : Type} {u t : State} (h : Leaves u t) (f : State → α)
    (hf : ∀ s m x, f { s with mbox := m, sent := x } = f s) : f t = f u := by
  have := congrArg f h
  rwa [hf] at this

theorem mailOnly_of_leaves {r : Req} {s t : State} (hl : Leaves (s.tick r.t) t) (hs : s.sent <+: t.sent)
    (hm : ∀ g, g ≠ r.fn → t.mb g = s.mb g) : MailOnly r s t := ⟨hl, hs, hm⟩

/-! ### Commands that their bodies accept -/

section
variable {i : Instr} {op : Nat} {pf : Bool} {r : Req} {s : State} {body : State → Effect}

/-- A fresh command whose body accepts it leaves the body's state, but for the answer. -/
theorem completes_of_ok (hx : exec i s = .next (runCommand op pf r s body)) (h : Fresh r s) (hpf : pf = true → r.fn = 0)
    {u : State} {res : List Byte} (hb : body (s.tick r.t) = .ok (u, res)) (hl : Fits r res.length) :
    Completes i s fun t => Answered op r s t eOk 0 res ∧ Leaves u t ∧ u.sent <+: t.sent ∧
      ∀ g, g ≠ r.fn → t.mb g = u.mb g := ⟨_, hx, runCommand_ok h hpf hb hl⟩

/-- A fresh command whose body answers and keeps the state. -/
theorem reports_of_ok (hx : exec i s = .next (runCommand op pf r s body)) (h : Fresh r s) (hpf : pf = true → r.fn = 0)
    {res : List Byte} (hb : body (s.tick r.t) = .ok (s.tick r.t, res)) (hl : Fits r res.length) :
    Reports i op r s res := completes_of_ok hx h hpf hb hl

/-- A fresh command that its body accepts with an empty result. -/
theorem accepts_of_ok (hx : exec i s = .next (runCommand op pf r s body)) (h : Fresh r s) (hpf : pf = true → r.fn = 0)
    {u : State} (hb : body (s.tick r.t) = .ok (u, [])) {P : State → Prop} (hP : ∀ t, Leaves u t → P t) :
    Accepts i op r s P := by
  obtain ⟨t, hx', hans, hleaves, -⟩ := completes_of_ok hx h hpf hb (.inl (Nat.zero_le _))
  exact ⟨t, hx', hans, hP t hleaves⟩

/-- A fresh command that the checks refuse, whether those that all commands share or its body's own. -/
theorem completes_of_error (hx : exec i s = .next (runCommand op pf r s body)) (h : Fresh r s) {e : Err}
    (hc : checked op pf r (s.tick r.t) body = .error e) (hl : e.result.length ≤ 2016) :
    Completes i s fun t => Answered op r s t e.code e.detail e.result ∧ MailOnly r s t := by
  have haddr : answer op r s e.code e.detail e.result = { answer op r s e.code e.detail e.result with addr := 0 } := by
    simp [answer, hl]
  have hrun : runCommand op pf r s body = (s.tick r.t).complete r.fn (answer op r s e.code e.detail e.result) false r.seq
      (some (answer op r s e.code e.detail e.result)) := by
    obtain ⟨-, -, -, hseq, -⟩ := id h
    rw [haddr]
    simp only [runCommand, runWith, accepting_fresh h, State.mb_tick, hseq, hc, Bool.not_true, Bool.false_eq_true, if_false,
      if_true, answer]
  refine ⟨_, hx, ?_⟩
  rw [hrun]
  obtain ⟨-, -, hst, hlast, hbusy, hvalid, -⟩ := (s.tick r.t).complete_frame r.fn (answer op r s e.code e.detail e.result)
    false r.seq (some (answer op r s e.code e.detail e.result))
  exact ⟨⟨hst, hlast, hbusy, hvalid⟩, s.complete_mailOnly r _ false _ _⟩

theorem checked_notPf (h : Fresh r s) (hfn : r.fn ≠ 0) :
    checked op true r (s.tick r.t) body = .error ⟨eNotPf, 0, []⟩ := by
  obtain ⟨hst, -⟩ := id h
  simp [checked, hst, hfn, ensure, refuse]

end

end Sys2Proof.Machine
end

section
/-! PROOF. Refused commands (R463, R471, R493). -/
namespace Sys2Proof.Machine

/-- Settles O17: both refusals stop in the checks, whose error becomes the answer. -/
theorem refusedCommandChangesNothing : Obligations.RefusedCommandChangesNothing :=
  ⟨fun _ _ _ _ _ s _ hi h hpf hb hl => completes_of_error (exec_of_mailRow hi s) h (checked_fresh_error h hpf hb) hl,
    fun _ _ _ _ s hi h hfn => completes_of_error (exec_of_mailRow hi s) h (checked_notPf h hfn) (Nat.zero_le _)⟩

end Sys2Proof.Machine
end

section
/-! PROOF. Status of the device and of its numbered units (R74, R100, R118, R288, R355, R377, R417, R453, R455, R494, R495,
R521, R545). -/
namespace Sys2Proof.Machine

/-! ### Clipped samples of a wing (R100) -/

/-- The clipped fs-samples of a wing's channels, from channel `k` of it on, are counted. -/
def countWing (w k : Nat) (env : List Nat) (s : State) : State :=
  (env.zipIdx k).foldl (fun s p => if p.2 < 12 then countClips (12 * w + p.2) p.1 s else s) s

theorem countWing_cons (w k n : Nat) (env : List Nat) (s : State) :
    countWing w k (n :: env) s = countWing w (k + 1) env (if k < 12 then countClips (12 * w + k) n s else s) := rfl

theorem countWing_rest (w k : Nat) (env : List Nat) (s : State) : { countWing w k env s with chan := s.chan } = s := by
  induction env generalizing k s with
  | nil => rfl
  | cons n env ih =>
    rw [countWing_cons]
    refine (congrArg (fun u : State => { u with chan := s.chan }) (ih (k + 1) _)).trans ?_
    split_ifs <;> rfl

theorem countClips_ch (c n g : Nat) (s : State) :
    (countClips c n s).ch g = if g = c then { s.ch c with clip := satAdd 32 (s.ch c).clip n } else s.ch g := by
  split_ifs with h
  · simp [countClips, State.setCh, State.ch, h]
  · exact tget_tset_other _ _ _ _ _ (Ne.symm h)

theorem countWing_ch_other {w k : Nat} {env : List Nat} {s : State} {c : Nat}
    (h : ∀ i, i < env.length → c ≠ 12 * w + (k + i)) : (countWing w k env s).ch c = s.ch c := by
  induction env generalizing k s with
  | nil => rfl
  | cons n env ih =>
    rw [countWing_cons, ih fun i hi => by
      have := h (i + 1) (by simp only [List.length_cons]; omega)
      omega]
    split_ifs
    · have hc := h 0 (by simp)
      rw [countClips_ch, if_neg (by omega)]
    · rfl

theorem countWing_ch {w k i n : Nat} {env : List Nat} {s : State} (hi : env[i]? = some n) (h12 : k + env.length ≤ 12) :
    (countWing w k env s).ch (12 * w + (k + i)) =
      { s.ch (12 * w + (k + i)) with clip := satAdd 32 (s.ch (12 * w + (k + i))).clip n } := by
  induction env generalizing k i s with
  | nil => simp at hi
  | cons m env ih =>
    simp only [List.length_cons] at h12
    rw [countWing_cons, if_pos (by omega)]
    cases i with
    | zero =>
      obtain rfl : m = n := by simpa using hi
      rw [countWing_ch_other fun i hi => by omega, countClips_ch, Nat.add_zero, if_pos rfl]
    | succ i =>
      have hk : k + (i + 1) = k + 1 + i := by omega
      rw [hk, ih (by simpa using hi) (by omega), countClips_ch, if_neg (by omega)]

theorem wingStatusBody_of {r : Req} {s : State} (hlen : r.len = 8) (hrsv : r.u 2 6 = 0) (hw : r.u 0 2 < 4) :
    wingStatusBody r s = .ok (countWing (r.u 0 2) 0 r.env s, wingStatusBytes (countWing (r.u 0 2) 0 r.env s) (r.u 0 2)) := by
  simp [wingStatusBody, oneNum_of hlen hrsv, hw, countWing]

theorem completes_wingStatus {r : Req} {s : State} (h : Fresh r s) (hlen : r.len = 8) (hrsv : r.u 2 6 = 0)
    (hw : r.u 0 2 < 4) (henv : r.env.length ≤ 12) : Completes (.wingStatus r) s fun t =>
      Answered 0x28 r s t eOk 0 (wingStatusBytes t (r.u 0 2)) ∧ Leaves { s.tick r.t with chan := t.chan } t ∧
      (∀ i k, r.env[i]? = some k → t.ch (12 * r.u 0 2 + i) =
        { s.ch (12 * r.u 0 2 + i) with clip := min ((s.ch (12 * r.u 0 2 + i)).clip + k) 0xFFFFFFFF }) ∧
      ∀ c, (∀ i, i < r.env.length → c ≠ 12 * r.u 0 2 + i) → t.ch c = s.ch c := by
  obtain ⟨t, hx, hans, hleaves, -⟩ := completes_of_ok (exec_of_mailRow (i := .wingStatus r) rfl s) h (by simp)
    (wingStatusBody_of hlen hrsv hw) (.inl (by rw [wingStatusBytes_length]; decide))
  have hch (c : Nat) : t.ch c = (countWing (r.u 0 2) 0 r.env (s.tick r.t)).ch c :=
    hleaves.field (fun u => u.ch c) fun _ _ _ => rfl
  have hchan : t.chan = (countWing (r.u 0 2) 0 r.env (s.tick r.t)).chan := hleaves.field State.chan fun _ _ _ => rfl
  refine ⟨t, hx, ?_, ?_, fun i k hi => ?_, fun c hc => ?_⟩
  · rwa [← hleaves.field (fun u => wingStatusBytes u (r.u 0 2)) fun _ _ _ => rfl] at hans
  · refine leaves_trans ?_ hleaves
    have hrest := congrArg (fun u : State => { u with chan := t.chan })
      (countWing_rest (r.u 0 2) 0 r.env (s.tick r.t))
    rw [hchan] at hrest ⊢
    exact congrArg (fun u : State => { u with mbox := s.mbox, sent := s.sent }) hrest
  · have := countWing_ch (w := r.u 0 2) (k := 0) (s := s.tick r.t) hi (by omega)
    rw [hch]
    rwa [Nat.zero_add] at this
  · rw [hch]
    exact countWing_ch_other fun i hi => by
      rw [Nat.zero_add]
      exact hc i hi

/-! ### Clamped samples of a DAC (R377) -/

theorem dc_setDac_self (s : State) (d : Nat) (x : Dac) : (s.setDac d x).dc d = x := by simp [State.setDac, State.dc]

theorem dc_setDac_other (s : State) {d g : Nat} (x : Dac) (h : g ≠ d) : (s.setDac d x).dc g = s.dc g :=
  tget_tset_other _ _ _ _ _ (Ne.symm h)

/-- Where a DAC plays nothing, only the sample up to which clamps are counted moves. -/
theorem settleDac_of_silent {d : Nat} {s : State} (h : ¬((s.dc d).source = 1 ∨ (s.dc d).source = 2)) :
    settleDac d s = s.setDac d { s.dc d with formed := s.cad.now } := if_neg h

theorem settleDac_eq (d : Nat) (s : State) : ∃ clip formed,
    settleDac d s = s.setDac d { s.dc d with clip := clip, formed := formed } := by
  unfold settleDac
  dsimp only
  split_ifs
  · exact ⟨_, _, rfl⟩
  · exact ⟨_, _, rfl⟩

theorem settleDac_of_playing {d : Nat} {s : State} (h : (s.dc d).source = 1 ∨ (s.dc d).source = 2)
    (hheld : (s.dc d).held = none) : settleDac d s = s.setDac d { s.dc d with
      clip := satAdd 32 (s.dc d).clip ((List.range (s.cad.now - (s.dc d).formed)).filter fun i =>
        match rawCode (s.samplesOf (s.dc d)) (s.dc d) ((s.dc d).formed + i) with
        | some c => satHit 14 c | none => false).length
      formed := max (s.dc d).formed s.cad.now } := by
  refine (if_pos h).trans ?_
  simp only [hheld] <;> rfl

theorem stimulusStatusBody_of {r : Req} {s : State} (hlen : r.len = 8) (hrsv : r.u 2 6 = 0) (hd : r.u 0 2 < 8) :
    stimulusStatusBody r s = .ok (settleDac (r.u 0 2) s, stimulusStatusBytes (settleDac (r.u 0 2) s) (r.u 0 2)) := by
  simp [stimulusStatusBody, oneNum_of hlen hrsv, hd]

/-! ### Other units -/

theorem namedStore_of {s : State} {fn n off : Nat} (hn : n < 1024) (hon : (s.sto n).on = true) (ho : s.storeOwner n = fn) :
    namedStore s fn n off = .ok (s.sto n) := by
  simp [namedStore, hn, hon, ho]

/-- Settles O19: each body is its checks and a status block; two of them first settle a count. -/
theorem deviceAndUnitStatus : Obligations.DeviceAndUnitStatus := by
  refine ⟨fun r s h hlen => ⟨?_, ?_, ?_, fun hpf hfits => ?_, ?_, ?_, ?_⟩, fun r s n h hlen hrsv hn => ?_⟩
  · exact reports_of_ok (exec_of_mailRow rfl s) h (by simp) (by simp [deviceInfoBody, lenIs_of hlen])
      (.inl (by rw [deviceInfoBytes_length]; decide))
  · exact reports_of_ok (exec_of_mailRow rfl s) h (by simp) (by simp [cadenceStatusBody, lenIs_of hlen])
      (.inl (by rw [cadenceStatusBytes_length]; decide))
  · exact reports_of_ok (exec_of_mailRow rfl s) h (by simp) (by simp [comparatorStatusBody, lenIs_of hlen])
      (.inl (by rw [comparatorStatusBytes_length]; decide))
  · exact reports_of_ok (exec_of_mailRow rfl s) h (fun _ => hpf) (by simp [archiveStatusBody, lenIs_of hlen])
      (by rw [archiveStatusBytes_length]; exact hfits)
  · exact reports_of_ok (exec_of_mailRow rfl s) h (by simp) (by simp [collectionStatusBody, lenIs_of hlen])
      (.inl (by rw [collectionStatusBytes_length]; decide))
  · exact reports_of_ok (exec_of_mailRow rfl s) h (by simp) (by simp [powerStatusBody, lenIs_of hlen])
      (.inl (by rw [powerStatusBytes_length]; decide))
  · exact reports_of_ok (exec_of_mailRow rfl s) h (by simp) (by simp [fwStatusBody, lenIs_of hlen])
      (.inl (by rw [fwStatusBytes_length]; decide))
  subst hn
  have hone := oneNum_of hlen hrsv
  refine ⟨fun hw henv => ?wing, fun hw henv => completes_wingStatus h hlen hrsv hw henv, fun hp => ?_, fun hp => ?_,
    fun hd => ?dac, fun hd => ?_, fun hk => ?_, fun hq hown => ?_, fun hst hon hown => ?_⟩
  case wing =>
    refine reports_of_ok (exec_of_mailRow rfl s) h (by simp) ?_ (.inl (by rw [wingStatusBytes_length]; decide))
    rw [wingStatusBody_of hlen hrsv hw, henv]
    rfl
  case dac =>
    obtain ⟨t, hx, hans, hleaves, -⟩ := completes_of_ok (exec_of_mailRow (i := .stimulusStatus r) rfl s) h (by simp)
      (stimulusStatusBody_of hlen hrsv hd) (.inl (by rw [stimulusStatusBytes_length]; decide))
    have hdc (g : Nat) : t.dc g = (settleDac (r.u 0 2) (s.tick r.t)).dc g :=
      hleaves.field (fun u => u.dc g) fun _ _ _ => rfl
    obtain ⟨clip, formed, hsettle⟩ := settleDac_eq (r.u 0 2) (s.tick r.t)
    refine ⟨t, hx, ?_, ?_, fun g hg => ?_, ?_, fun hsrc hheld => ?_, fun hsrc => ?_⟩
    · rwa [← hleaves.field (fun u => stimulusStatusBytes u (r.u 0 2)) fun _ _ _ => rfl] at hans
    · refine leaves_trans ?_ hleaves
      rw [hleaves.field State.dac fun _ _ _ => rfl, hsettle]
      rfl
    · rw [hdc, hsettle, dc_setDac_other _ _ hg]
      rfl
    · rw [hdc, hsettle, dc_setDac_self]
      rfl
    · rw [hdc, settleDac_of_playing (s := s.tick r.t) hsrc hheld, dc_setDac_self]
      rfl
    · rw [hdc, settleDac_of_silent (s := s.tick r.t) hsrc, dc_setDac_self]
      rfl
  · exact reports_of_ok (exec_of_mailRow rfl s) h (by simp) (by simp [mountStatusBody, hone, hp])
      (.inl (by rw [mountStatusBytes_length]; decide))
  · exact reports_of_ok (exec_of_mailRow rfl s) h (by simp) (by simp [mountReadBody, hone, hp]; rfl)
      (.inl (by rw [padTo_length]; decide))
  · exact reports_of_ok (exec_of_mailRow rfl s) h (by simp) (by simp [levelStatusBody, hone, hd])
      (.inl (by rw [levelStatusBytes_length]; decide))
  · exact reports_of_ok (exec_of_mailRow rfl s) h (by simp) (by simp [memoryStatusBody, hone, show r.u 0 2 ≤ 1 by omega])
      (.inl (by rw [memoryStatusBytes_length]; decide))
  · have howned : (r.fn == 0 || ((s.tick r.t).qu (r.u 0 2)).fn == r.fn) = true := by
      rw [Bool.or_eq_true, beq_iff_eq, beq_iff_eq]
      exact hown
    exact reports_of_ok (exec_of_mailRow rfl s) h (by simp) (by simp [courierStatusBody, hone, hq, ensure_of howned])
      (.inl (by rw [courierStatusBytes_length]; decide))
  · have hnamed : namedStore (s.tick r.t) r.fn (r.u 0 2) 0 = .ok ((s.tick r.t).sto (r.u 0 2)) := namedStore_of hst hon hown
    exact reports_of_ok (exec_of_mailRow rfl s) h (by simp) (by simp [storeStatusBody, hone, hnamed])
      (.inl (by rw [pageBytes_length]; decide))

end Sys2Proof.Machine
end

section
/-! PROOF. Status commands of an exhibit, and EXHIBIT_QUERY (R144, R173, R236, R254, R328, R485). -/
namespace Sys2Proof.Machine

theorem samplerHandle_of {r : Req} {s : State} {e : Exhibit} (hlen : r.len = 8) (hrsv : r.u 2 6 = 0)
    (hf : s.view.find (r.u 0 2) = some e) (ho : e.owner = r.fn) (hk : e.kind ≤ 1) : samplerHandle r s = .ok (r.u 0 2) := by
  simp [samplerHandle, oneNum_of hlen hrsv, ownedHandle_of hf ho, hk]

theorem exhibitQueryBody_of {r : Req} {s : State} (hlen : r.len = 8) (hrsv : r.u 2 6 = 0)
    (hown : s.view.isOwn (r.u 0 2) = true) :
    let e := s.view.ex (r.u 0 2 % 4096)
    exhibitQueryBody r s = .ok (s, fields ([(2, r.u 0 2), (1, e.kind), (1, e.owner), (4, if e.st = 1 then e.epoch + 1 else
      e.epoch), (1, if e.st = 2 ∧ s.dying (r.u 0 2) then 3 else e.st), (3, 0), (2, e.members.length), (2, 0)] ++
        e.members.map (2, ·))) := by
  simp [exhibitQueryBody, oneNum_of hlen hrsv, hown]

/-- Settles O20: each body checks the exhibit that it names and answers with its block. -/
theorem exhibitStatusCommands : Obligations.ExhibitStatusCommands := by
  rintro r s _ h hlen
  refine ⟨fun e hrsv hn hf ho => ?_, fun c hrsv hslot => ?_, fun hrsv hn hown => ?_⟩
  · subst hn
    have hfind : (s.tick r.t).view.find (r.u 0 2) = some e := hf
    have hone := oneNum_of hlen hrsv
    have howned := ownedHandle_of (off := 0) hfind ho
    refine ⟨fun hk => ?_, fun hk => ?_, ?_, fun hprog => ?_⟩
    · exact reports_of_ok (exec_of_mailRow rfl s) h (by simp)
        (by simp [decimationStatusBody, samplerHandle_of hlen hrsv hfind ho hk])
        (.inl (by rw [decimationStatusBytes_length]; decide))
    · exact reports_of_ok (exec_of_mailRow rfl s) h (by simp)
        (by simp [spectrumStatusBody, samplerHandle_of hlen hrsv hfind ho hk])
        (.inl (by rw [spectrumStatusBytes_length]; decide))
    · exact reports_of_ok (exec_of_mailRow rfl s) h (by simp) (by simp [triggerStatusBody, hone, howned])
        (.inl (by rw [triggerStatusBytes_length]; decide))
    · have hblock : (((s.tick r.t).block btTrigger [r.u 0 2]).u 3 1 == 2) = true := by
        rw [beq_iff_eq]
        exact hprog
      exact reports_of_ok (exec_of_mailRow rfl s) h (by simp)
        (by simp [attendantStatusBody, hone, howned, ensure_of hblock])
        (.inl (by rw [attendantStatusBytes_length]; decide))
  · have hslot' : slotOf (s.tick r.t) r = .ok c := hslot
    exact reports_of_ok (exec_of_mailRow rfl s) h (by simp)
      (by simp [conservatorStatusBody, lenIs_of hlen, rsvIs_of hrsv, hslot']; rfl)
      (.inl (by rw [conservatorStatusBytes_length]; decide))
  · subst hn
    intro e hfits
    refine reports_of_ok (exec_of_mailRow rfl s) h (by simp) (exhibitQueryBody_of hlen hrsv hown) ?_
    have hsum : ((e.members.map fun m => (2, m)).map (·.1)).sum = 2 * e.members.length := by
      simp [Function.comp_def, Nat.mul_comm]
    rw [fields_length, List.map_append, List.sum_append]
    change Fits r (16 + ((e.members.map fun m => (2, m)).map (·.1)).sum)
    rwa [hsum]

end Sys2Proof.Machine
end

section
/-! PROOF. Commands that read blocks, memories and logs (R327, R393, R478, R567). -/
namespace Sys2Proof.Machine

/-! ### BLOCK_READ (R478) -/

/-- The block that BLOCK_READ answers with, where the function has staged none of that key. -/
theorem blockReadBody_of {r : Req} {s : State} {b : Block} (hsize : blockSize b.typ ≠ 0) (hlen : r.len = 8 + blockSize b.typ)
    (htyp : r.u 0 2 = b.typ) (hrsv : r.u 3 5 = 0) (hdata : b.data = slice r.bytes 8 (blockSize b.typ))
    (hbare : allZero ((blockKey b.typ).foldl (fun d k => putU d k.1 k.2 0) b.data) = true)
    (hkey : keyOwned s r.fn b = .ok ()) :
    (r.u 2 1 = 1 → blockReadBody r s = .ok (s, (s.view.instanceIn s.cur.committed b).data)) ∧
      (r.u 2 1 = 2 → blockReadBody r s = .ok (s, (s.lastView.instanceIn s.lastView.blocks b).data)) ∧
      (r.u 2 1 = 0 → s.cur.staged = [] → blockReadBody r s = .ok (s, (s.view.instanceIn s.cur.committed b).data)) := by
  have hblock : (⟨r.u 0 2, slice r.bytes 8 (blockSize (r.u 0 2))⟩ : Block) = b := by rw [htyp, ← hdata]
  have hbare' : allZero ((blockKey (r.u 0 2)).foldl (fun d k => putU d k.1 k.2 0)
      (slice r.bytes 8 (blockSize (r.u 0 2)))) = true := by rw [htyp, ← hdata]; exact hbare
  have hknown : (blockSize (r.u 0 2) != 0) = true := by rw [htyp]; exact bne_iff_ne.mpr hsize
  have hlen8 : 8 ≤ r.len := by omega
  refine ⟨fun hsrc => ?_, fun hsrc => ?_, fun hsrc hstaged => ?_⟩
  · simp [blockReadBody, hlen8, rsvIs_of hrsv, hsrc, ensure_of hknown, lenIs_of (htyp ▸ hlen), hbare', hblock, hkey]
  · simp [blockReadBody, hlen8, rsvIs_of hrsv, hsrc, ensure_of hknown, lenIs_of (htyp ▸ hlen), hbare', hblock, hkey]
  · simp [blockReadBody, hlen8, rsvIs_of hrsv, hsrc, ensure_of hknown, lenIs_of (htyp ▸ hlen), hbare', hblock, hkey, hstaged]

/-! ### CONSERVATOR_READ (R327) -/

theorem cgetAll_length {w : Nat} (d : Nat → BitVec w) (m : Cells w) (a n : Nat) : (cgetAll d m a n).length = n := by
  simp [cgetAll]

theorem flatMap_leBytes_length {α : Type} (k : Nat) (f : α → Nat) (l : List α) :
    (l.flatMap fun x => leBytes k (f x)).length = k * l.length := by
  simp [List.length_flatMap, Nat.mul_comm]

theorem conservatorReadBody_of {r : Req} {s : State} {c : Nat} (hlen : r.len = 24) (hrsv : r.u 12 4 = 0)
    (hrsv' : r.u 16 8 = 0) (hslot : slotOf s r = .ok c) (hn : 1 ≤ r.u 8 4) (hend : r.u 4 4 + r.u 8 4 ≤ 16384) :
    (r.u 3 1 = 0 → conservatorReadBody r s =
      .ok (s, (cgetAll haltWord (s.cc c).prog (r.u 4 4) (r.u 8 4)).flatMap fun w => leBytes 4 w.toNat)) ∧
    (r.u 3 1 = 1 → conservatorReadBody r s =
      .ok (s, (cgetAll word36 (s.cc c).x (r.u 4 4) (r.u 8 4)).flatMap fun w => leBytes 8 w.toNat)) ∧
    (r.u 3 1 = 2 → conservatorReadBody r s =
      .ok (s, (cgetAll word36 (s.cc c).y (r.u 4 4) (r.u 8 4)).flatMap fun w => leBytes 8 w.toNat)) := by
  refine ⟨fun hmem => ?_, fun hmem => ?_, fun hmem => ?_⟩
  all_goals simp [conservatorReadBody, lenIs_of hlen, rsvIs_of hrsv, rsvIs_of hrsv', hslot, hmem, hn, hend]

/-! ### HEALTH_LOG_READ, CAL_STATUS (R393, R567) -/

theorem healthLogBytes_length (h : Health) (first count : Nat) : (healthLogBytes h first count).length = 16 + 32 * count := by
  simp only [healthLogBytes, List.length_append, List.length_flatMap, fields_length]
  rw [List.map_congr_left (l := List.range count) (g := fun _ => 32) fun i _ => by split <;> simp]
  simp [Nat.mul_comm]

theorem calStatusBody_of_report {r : Req} {s : State} {b : List Byte} (hlen : r.len = 8) (hrsv : r.u 4 4 = 0)
    (hk : r.u 0 2 ≤ 5) (hunit : calUnitOk (r.u 0 2) (r.u 2 2) = true)
    (hb : tfind s.hk.reports (calTag (r.u 0 2) (r.u 2 2)) = some b) :
    calStatusBody r s = .ok (s, b ++ leBytes 1
      (b2n (s.calSpans.any fun p => p.tag == calTag (r.u 0 2) (r.u 2 2) && p.hi.isNone))) := by
  simp [calStatusBody, twoNum_of hlen hrsv, show r.u 0 2 ≤ 6 by omega, show r.u 0 2 ≠ 6 by omega, hunit, hb]

theorem calStatusBody_of_none {r : Req} {s : State} (hlen : r.len = 8) (hrsv : r.u 4 4 = 0)
    (hk : r.u 0 2 ≤ 5) (hunit : calUnitOk (r.u 0 2) (r.u 2 2) = true)
    (hb : tfind s.hk.reports (calTag (r.u 0 2) (r.u 2 2)) = none) :
    calStatusBody r s = .ok ((s.freeBytes 64).2, (s.freeBytes 64).1 ++ leBytes 1
      (b2n (s.calSpans.any fun p => p.tag == calTag (r.u 0 2) (r.u 2 2) && p.hi.isNone))) := by
  simp [calStatusBody, twoNum_of hlen hrsv, show r.u 0 2 ≤ 6 by omega, show r.u 0 2 ≠ 6 by omega, hunit, hb]

/-- Settles O21: each body answers with what it read; only a calibration that has not reported draws free bytes. -/
theorem readCommands : Obligations.ReadCommands := by
  intro r s h
  refine ⟨fun b hsize hlen htyp hrsv hdata hbare hkey => ?_, fun c hlen hrsv hrsv' hslot hn hend => ?_,
    fun hlen hrsv hn hmax hold hfits => ?_, fun k n hlen hrsv hk hn hmax hunit => ?_⟩
  · obtain ⟨hdone, hlast, hstaged⟩ := blockReadBody_of (s := s.tick r.t) hsize hlen htyp hrsv hdata hbare hkey
    exact ⟨fun hsrc hfits => reports_of_ok (exec_of_mailRow rfl s) h (by simp) (hdone hsrc) hfits,
      fun hsrc hfits => reports_of_ok (exec_of_mailRow rfl s) h (by simp) (hlast hsrc) hfits,
      fun hsrc hnone hfits => reports_of_ok (exec_of_mailRow rfl s) h (by simp) (hstaged hsrc hnone) hfits⟩
  · obtain ⟨hprog, hx, hy⟩ := conservatorReadBody_of (s := s.tick r.t) hlen hrsv hrsv' hslot hn hend
    refine ⟨fun hmem hfits => reports_of_ok (exec_of_mailRow rfl s) h (by simp) (hprog hmem) ?_,
      fun hmem hfits => reports_of_ok (exec_of_mailRow rfl s) h (by simp) (hx hmem) ?_,
      fun hmem hfits => reports_of_ok (exec_of_mailRow rfl s) h (by simp) (hy hmem) ?_⟩
    all_goals
      rw [flatMap_leBytes_length, cgetAll_length]
      exact hfits
  · have hbody : healthLogReadBody r (s.tick r.t) =
        .ok (s.tick r.t, healthLogBytes s.health (r.u 0 4) (r.u 4 4)) := by
      simp [healthLogReadBody, lenIs_of hlen, rsvIs_of hrsv, hn, hmax, Nat.sub_le_iff_le_add.mp hold]
    exact reports_of_ok (exec_of_mailRow rfl s) h (by simp) hbody (by rw [healthLogBytes_length]; exact hfits)
  · subst hk hn
    refine ⟨fun b hb hfits => ?_, fun hnone => ?_⟩
    · exact reports_of_ok (exec_of_mailRow rfl s) h (by simp)
        (calStatusBody_of_report (s := s.tick r.t) hlen hrsv hmax hunit hb) (by simpa using hfits)
    · obtain ⟨t, hx, hans, hleaves, -⟩ := completes_of_ok (exec_of_mailRow (i := .calStatus r) rfl s) h (by simp)
        (calStatusBody_of_none (s := s.tick r.t) hlen hrsv hmax hunit hnone) (.inl (by simp [State.freeBytes]))
      exact ⟨t, hx, _, hans, congrArg (fun u : State => { u with mbox := s.mbox, sent := s.sent, free := s.free }) hleaves⟩

end Sys2Proof.Machine
end

section
/-! SUPPORT. What events and completions leave of an event ring's registers (R486 to R488), what a refusal with an effect
of its own leaves (R530), and the numbers that discarded definitions free (R484). -/
namespace Sys2Proof.Machine

/-! ### Event rings (R486 to R488) -/

/-- Where a function's event ring stands and what the host has consumed of it. -/
def Mbox.ring (m : Mbox) : Nat × Nat × Nat := (m.ringAddr, m.ringSize, m.consumed)

/-- All that a mailbox holds about events. -/
def Mbox.events (m : Mbox) : (Nat × Nat × Nat) × Nat × Nat × Nat := (m.ring, m.produced, m.lostCount, m.lostFirst)

theorem State.setMb_ring {s : State} {f : Nat} {m : Mbox} (h : m.ring = (s.mb f).ring) (g : Nat) :
    ((s.setMb f m).mb g).ring = (s.mb g).ring := by
  by_cases hg : f = g
  · subst hg
    rw [State.mb_setMb_self, h]
  · rw [State.mb_setMb_other _ _ _ _ hg]

theorem State.msix_events (s : State) (f v g : Nat) : ((s.msix f v).mb g).events = (s.mb g).events := by
  obtain ⟨-, -, hself, hother⟩ := s.msix_frame f v
  by_cases hg : g = f
  · subst hg
    have := congrArg Mbox.events hself
    exact this
  · rw [hother g hg]

theorem State.msix_ring (s : State) (f v g : Nat) : ((s.msix f v).mb g).ring = (s.mb g).ring :=
  congrArg Prod.fst (s.msix_events f v g)

@[simp] theorem State.writeEvent_ring (s : State) (e : Held) (g : Nat) : ((s.writeEvent e).mb g).ring = (s.mb g).ring := by
  unfold State.writeEvent
  rw [State.msix_ring]
  exact State.setMb_ring (by rfl) g

@[simp] theorem State.flushLost_ring (s : State) (f g : Nat) : ((s.flushLost f).mb g).ring = (s.mb g).ring := by
  unfold State.flushLost
  dsimp only
  split_ifs
  · rw [State.writeEvent_ring]
    exact State.setMb_ring (by rfl) g
  · rfl

@[simp] theorem State.loseEvent_ring (s : State) (f code g : Nat) : ((s.loseEvent f code).mb g).ring = (s.mb g).ring := by
  unfold State.loseEvent
  exact State.setMb_ring (by rfl) g

@[simp] theorem State.deliverEvent_ring (s : State) (e : Held) (g : Nat) :
    ((s.deliverEvent e).mb g).ring = (s.mb g).ring := by
  unfold State.deliverEvent
  dsimp only
  split_ifs <;> simp

@[simp] theorem State.postTo_ring (s : State) (e : Held) (g : Nat) : ((s.postTo e).mb g).ring = (s.mb g).ring := by
  unfold State.postTo
  split_ifs
  · rfl
  · exact s.loseEvent_ring _ _ g
  · exact s.deliverEvent_ring e g

@[simp] theorem State.post_ring (s : State) (code : Nat) (payload : List (Nat × Nat)) (f g : Nat) :
    ((s.post code payload f).mb g).ring = (s.mb g).ring := s.postTo_ring _ g

@[simp] theorem State.postAll_ring (s : State) (code : Nat) (payload : List (Nat × Nat)) (g : Nat) :
    ((s.postAll code payload).mb g).ring = (s.mb g).ring :=
  foldl_unchanged (fun u : State => (u.mb g).ring) (fun u f => u.post_ring code payload f g) _ s

/-- A completion leaves the event ring of its function as it is. -/
theorem State.complete_events (s : State) (fn : Nat) (p : Resp) (replay : Bool) (last : Nat) (st : Option Resp) :
    ((s.complete fn p replay last st).mb fn).events = (s.mb fn).events := by
  unfold State.complete
  dsimp only
  rw [State.msix_events, State.mb_setMb_self]
  split_ifs <;> rfl

theorem State.writeEvent_mb_other (s : State) (e : Held) {g : Nat} (h : g ≠ e.fn) : (s.writeEvent e).mb g = s.mb g := by
  unfold State.writeEvent
  dsimp only
  obtain ⟨-, -, -, hother⟩ := State.msix_frame (State.setMb (State.send (State.send s _) _) e.fn _) e.fn 1
  rw [hother g h, State.mb_setMb_other _ _ _ _ (Ne.symm h)]
  rfl

theorem State.writeEvent_produced (s : State) (e : Held) :
    ((s.writeEvent e).mb e.fn).produced = ((s.mb e.fn).produced + 1) % 2 ^ 32 ∧
      ((s.writeEvent e).mb e.fn).lostCount = (s.mb e.fn).lostCount := by
  have hevents : ((s.writeEvent e).mb e.fn).events =
      { s.mb e.fn with produced := ((s.mb e.fn).produced + 1) % 2 ^ 32 }.events := by
    unfold State.writeEvent
    rw [State.msix_events, State.mb_setMb_self]
  exact ⟨congrArg (fun x => x.2.1) hevents, congrArg (fun x => x.2.2.1) hevents⟩

theorem State.writeEvent_sent (s : State) (e : Held) : s.sent <+: (s.writeEvent e).sent := by
  unfold State.writeEvent
  dsimp only
  obtain ⟨-, hsent, -⟩ := State.msix_frame (State.setMb (State.send (State.send s _) _) e.fn _) e.fn 1
  refine List.IsPrefix.trans ?_ hsent
  exact (List.prefix_append _ _).trans (List.prefix_append _ _)

/-- EV_EVENTS_LOST goes out where events were lost and the ring has space. -/
theorem State.flushLost_of_lost {s : State} {f : Nat} (hl : (s.mb f).lostCount ≠ 0) (hroom : (s.mb f).room = true) :
    ((s.flushLost f).mb f).produced = ((s.mb f).produced + 1) % 2 ^ 32 ∧ ((s.flushLost f).mb f).lostCount = 0 ∧
      s.sent <+: (s.flushLost f).sent ∧ ∀ g, g ≠ f → (s.flushLost f).mb g = s.mb g := by
  have hflush : s.flushLost f = (s.setMb f { s.mb f with lostCount := 0, lostFirst := 0 }).writeEvent
      ⟨f, evLost, s.time, 0xFFFF, 0, fields [(4, (s.mb f).lostCount), (2, (s.mb f).lostFirst)]⟩ := by
    simp [State.flushLost, hl, hroom]
  rw [hflush]
  obtain ⟨hprod, hlost⟩ := State.writeEvent_produced (s.setMb f { s.mb f with lostCount := 0, lostFirst := 0 })
    ⟨f, evLost, s.time, 0xFFFF, 0, fields [(4, (s.mb f).lostCount), (2, (s.mb f).lostFirst)]⟩
  rw [State.mb_setMb_self] at hprod hlost
  refine ⟨hprod, hlost, State.writeEvent_sent (s.setMb f _) _, fun g hg => ?_⟩
  rw [State.writeEvent_mb_other _ _ hg, State.mb_setMb_other _ _ _ _ (Ne.symm hg)]

theorem State.flushLost_of_none {s : State} {f : Nat} (hl : (s.mb f).lostCount = 0) : s.flushLost f = s := by
  simp [State.flushLost, hl]

/-- While the Curator runs, an event posted to every function changes mailboxes and what has been sent. -/
theorem State.postAll_frame (s : State) (code : Nat) (payload : List (Nat × Nat)) (h : s.boot.st = 1) :
    Leaves s (s.postAll code payload) := by
  suffices ∀ (l : List Nat) (u : State), u.boot.st = 1 → Leaves u (l.foldl (fun s f => s.post code payload f) u) from
    this _ s h
  intro l
  induction l with
  | nil => exact fun u _ => leaves_refl u
  | cons f l ih =>
    intro u hu
    have hpost := u.postTo_frame ⟨f, code, u.time, 0xFFFF, 0, fields payload⟩ hu
    obtain ⟨hboot, -⟩ := leaves_at hpost
    exact leaves_trans hpost (ih _ ((congrArg Boot.st hboot).trans hu))

theorem State.post_frame {s : State} (h : s.boot.st = 1) (code : Nat) (payload : List (Nat × Nat)) (fn : Nat) :
    Leaves s (s.post code payload fn) := s.postTo_frame _ h

/-! ### Refusals -/

section
variable {onErr : Err → State → State} {i : Instr} {op : Nat} {pf : Bool} {r : Req} {s : State} {body : State → Effect}

/-- A fresh command of any kind of row whose body accepts it. -/
theorem completes_runWith_ok (hx : exec i s = .next (runWith onErr op pf r s body)) (h : Fresh r s)
    (hpf : pf = true → r.fn = 0) {u : State} {res : List Byte} (hb : body (s.tick r.t) = .ok (u, res))
    (hl : Fits r res.length) : Completes i s fun t => Answered op r s t eOk 0 res ∧ Leaves u t := by
  refine ⟨_, hx, ?_⟩
  rw [runWith_ok h hpf hb hl]
  obtain ⟨hrest, -, hst, hlast, hbusy, hvalid, -⟩ := u.complete_frame r.fn (answer op r s eOk 0 res) false r.seq
    (some (answer op r s eOk 0 res))
  exact ⟨⟨hst, hlast, hbusy, hvalid⟩, hrest⟩

/-- A fresh command that its body refuses leaves what `onErr` does. -/
theorem completes_runWith_error (hx : exec i s = .next (runWith onErr op pf r s body)) (h : Fresh r s)
    (hpf : pf = true → r.fn = 0) {e : Err} (hb : body (s.tick r.t) = .error e) (hl : e.result.length ≤ 2016) :
    Completes i s fun t => Answered op r s t e.code e.detail e.result ∧ Leaves (onErr e (s.tick r.t)) t ∧
      (onErr e (s.tick r.t)).sent <+: t.sent ∧ ∀ g, g ≠ r.fn → t.mb g = (onErr e (s.tick r.t)).mb g := by
  obtain ⟨p, hp, hrun⟩ := runWith_error (onErr := onErr) (op := op) h hpf hb
  have hans : p = answer op r s e.code e.detail e.result := by rw [hp]; simp [answer, hl]
  refine ⟨_, hx, ?_⟩
  rw [hrun, hans]
  obtain ⟨hrest, hsent, hst, hlast, hbusy, hvalid, hmb⟩ := (onErr e (s.tick r.t)).complete_frame r.fn
    (answer op r s e.code e.detail e.result) false r.seq (some (answer op r s e.code e.detail e.result))
  exact ⟨⟨hst, hlast, hbusy, hvalid⟩, hrest, hsent, hmb⟩

end

/-! ### Numbers that discarded definitions held (R484) -/

/-- One of these items defines local number `n`. -/
def Defines (items : List Item) (n : Nat) : Prop := ∃ h kd ms, Item.define h kd ms ∈ items ∧ h % 4096 = n

theorem ex_setExh (s : State) (n k : Nat) (e : Exhibit) :
    ({ s with exh := tset s.exh n e } : State).view.ex k = if k = n then e else s.view.ex k := by
  simp only [State.view, View.ex]
  split_ifs with h
  · rw [h, tget_tset_self]
  · rw [tget_tset_other _ _ _ _ _ (Ne.symm h)]

/-- One item of `freeNumbers`. -/
def freeNumber (s : State) (i : Item) : State := freeNumbers [i] s

theorem freeNumbers_cons (i : Item) (items : List Item) (s : State) :
    freeNumbers (i :: items) s = freeNumbers items (freeNumber s i) := rfl

theorem freeNumber_rest (i : Item) (s : State) : { freeNumber s i with exh := s.exh } = s := by
  cases i with
  | define h kd ms =>
    simp only [freeNumber, freeNumbers, List.foldl_cons, List.foldl_nil]
    split_ifs <;> rfl
  | _ => rfl

theorem freeNumbers_rest (items : List Item) (s : State) : { freeNumbers items s with exh := s.exh } = s := by
  induction items generalizing s with
  | nil => rfl
  | cons i items ih => exact (congrArg (fun u : State => { u with exh := s.exh }) (ih _)).trans (freeNumber_rest i s)

theorem freeNumber_ex_of_defines {i : Item} {s : State} {n : Nat} (hi : Defines [i] n) (hst : (s.view.ex n).st = 1) :
    (freeNumber s i).view.ex n = { epoch := (s.view.ex n).epoch } := by
  obtain ⟨h, kd, ms, hmem, rfl⟩ := hi
  obtain rfl : Item.define h kd ms = i := by simpa using hmem
  simp only [freeNumber, freeNumbers, List.foldl_cons, List.foldl_nil, hst, if_true, ex_setExh]

theorem freeNumber_ex_of_not {i : Item} {s : State} {n : Nat} (hi : ¬(Defines [i] n ∧ (s.view.ex n).st = 1)) :
    (freeNumber s i).view.ex n = s.view.ex n := by
  cases i with
  | define h kd ms =>
    simp only [freeNumber, freeNumbers, List.foldl_cons, List.foldl_nil]
    split_ifs with hst
    · rw [ex_setExh, if_neg]
      rintro rfl
      exact hi ⟨⟨h, kd, ms, List.mem_singleton_self _, rfl⟩, hst⟩
    · rfl
  | _ => rfl

theorem defines_cons {i : Item} {items : List Item} {n : Nat} :
    Defines (i :: items) n ↔ Defines [i] n ∨ Defines items n := by
  simp only [Defines, List.mem_cons, List.not_mem_nil, or_false]
  constructor
  · rintro ⟨h, kd, ms, hi | hi, hn⟩
    · exact .inl ⟨h, kd, ms, hi, hn⟩
    · exact .inr ⟨h, kd, ms, hi, hn⟩
  · rintro (⟨h, kd, ms, hi, hn⟩ | ⟨h, kd, ms, hi, hn⟩)
    · exact ⟨h, kd, ms, .inl hi, hn⟩
    · exact ⟨h, kd, ms, .inr hi, hn⟩

/-- A number that is free stays so, so that each of several definitions of one number frees it alike. -/
theorem freeNumbers_ex (items : List Item) (s : State) (n : Nat) :
    (Defines items n → (s.view.ex n).st = 1 → (freeNumbers items s).view.ex n = { epoch := (s.view.ex n).epoch }) ∧
      (¬Defines items n ∨ (s.view.ex n).st ≠ 1 → (freeNumbers items s).view.ex n = s.view.ex n) := by
  induction items generalizing s with
  | nil => exact ⟨fun ⟨_, _, _, hmem, _⟩ => absurd hmem List.not_mem_nil, fun _ => rfl⟩
  | cons i items ih =>
    rw [freeNumbers_cons, defines_cons]
    by_cases hi : Defines [i] n ∧ (s.view.ex n).st = 1
    · have hfreed := freeNumber_ex_of_defines hi.1 hi.2
      refine ⟨fun _ _ => ((ih _).2 (.inr ?_)).trans hfreed, fun h => ?_⟩
      · rw [hfreed]
        exact Nat.zero_ne_one
      · exact absurd hi fun ⟨hd, hst⟩ => h.elim (fun h => h (.inl hd)) fun h => h hst
    · have hsame := freeNumber_ex_of_not hi
      obtain ⟨hfree, hkeep⟩ := ih (freeNumber s i)
      rw [hsame] at hfree hkeep
      exact ⟨fun hd hst => hfree (hd.resolve_left fun h => hi ⟨h, hst⟩) hst,
        fun h => hkeep (h.imp_left fun h hd => h (.inr hd))⟩

end Sys2Proof.Machine
end

section
/-! PROOF. EVENT_RING_SET, BLOCK_STAGE, STAGE_DISCARD (R476, R478, R484, R486, R488, R579). -/
namespace Sys2Proof.Machine

/-! ### EVENT_RING_SET -/

/-- The state once a function's ring is set, before any event of it goes out. -/
def ringSet (fn addr size : Nat) (s : State) : State :=
  s.setMb fn { s.mb fn with ringAddr := addr, ringSize := size, produced := 0, consumed := 0 }

theorem eventRingSetBody_of {r : Req} {s : State} {k : Nat} (hlen : r.len = 16) (hrsv : r.u 12 4 = 0)
    (ha : r.u 0 8 % 4096 = 0) (hk : 6 ≤ k) (hk' : k ≤ 16) (hn : r.u 8 4 = 2 ^ k) :
    eventRingSetBody r s = .ok (tellRollback ((ringSet r.fn (r.u 0 8) (2 ^ k) s).flushLost r.fn), []) := by
  have hlow : 64 ≤ 2 ^ k := Nat.pow_le_pow_right (n := 2) (by decide) hk
  have hhigh : 2 ^ k ≤ 65536 := Nat.pow_le_pow_right (n := 2) (by decide) hk'
  simp [eventRingSetBody, lenIs_of hlen, rsvIs_of hrsv, ha, hn, hlow, hhigh]
  rfl

theorem ringSet_room (fn addr : Nat) {k : Nat} (s : State) : ((ringSet fn addr (2 ^ k) s).mb fn).room = true := by
  simp [ringSet, Mbox.room]

/-- Setting a ring, and EV_EVENTS_LOST as its first record where events were lost. -/
theorem flushLost_ringSet (fn addr k : Nat) (s : State) :
    let u := (ringSet fn addr (2 ^ k) s).flushLost fn
    Leaves s u ∧ (u.mb fn).ring = (addr, 2 ^ k, 0) ∧ s.sent <+: u.sent ∧ (∀ g, g ≠ fn → u.mb g = s.mb g) ∧
      ((s.mb fn).lostCount = 0 → (u.mb fn).produced = 0) ∧
      ((s.mb fn).lostCount ≠ 0 → (u.mb fn).produced = 1 ∧ (u.mb fn).lostCount = 0) := by
  intro u
  have hself : (ringSet fn addr (2 ^ k) s).mb fn =
      { s.mb fn with ringAddr := addr, ringSize := 2 ^ k, produced := 0, consumed := 0 } := State.mb_setMb_self _ _ _
  have hother (g : Nat) (hg : g ≠ fn) : (ringSet fn addr (2 ^ k) s).mb g = s.mb g := State.mb_setMb_other _ _ _ _ (Ne.symm hg)
  have hset : Leaves s (ringSet fn addr (2 ^ k) s) := rfl
  refine ⟨leaves_trans hset (State.flushLost_frame _ _), ?_, ?_⟩
  · rw [State.flushLost_ring, hself]
    rfl
  by_cases hl : (s.mb fn).lostCount = 0
  · have hnone : u = ringSet fn addr (2 ^ k) s := State.flushLost_of_none (by rw [hself]; exact hl)
    rw [hnone]
    exact ⟨List.prefix_refl _, hother, fun _ => by rw [hself], fun h => absurd hl h⟩
  · obtain ⟨hprod, hcount, hsent, hmb⟩ := State.flushLost_of_lost (s := ringSet fn addr (2 ^ k) s) (f := fn)
      (by rw [hself]; exact hl) (ringSet_room fn addr s)
    rw [hself] at hprod
    exact ⟨hsent, fun g hg => (hmb g hg).trans (hother g hg), fun h => absurd h hl, fun _ => ⟨hprod, hcount⟩⟩

theorem tellRollback_of_none {s : State} (h : s.boot.rollback = none) : tellRollback s = s := by
  simp only [tellRollback, h]

theorem tellRollback_frame {s : State} (hst : s.boot.st = 1) (h : s.boot.rollback.isSome) :
    Leaves { s with boot := { s.boot with rollback := none } } (tellRollback s) := by
  obtain ⟨why, hwhy⟩ := Option.isSome_iff_exists.mp h
  simp only [tellRollback, hwhy]
  exact State.postAll_frame (s.setBoot { s.boot with rollback := none }) _ _ hst

theorem tellRollback_ring (s : State) (g : Nat) : ((tellRollback s).mb g).ring = (s.mb g).ring := by
  unfold tellRollback
  split
  · rfl
  · rw [State.postAll_ring]
    rfl

theorem accepts_eventRingSet {r : Req} {s : State} {k : Nat} (h : Fresh r s) (hlen : r.len = 16) (hrsv : r.u 12 4 = 0)
    (ha : r.u 0 8 % 4096 = 0) (hk : 6 ≤ k) (hk' : k ≤ 16) (hn : r.u 8 4 = 2 ^ k) :
    Accepts (.eventRingSet r) 0x02 r s fun t =>
      (t.mb r.fn).ringAddr = r.u 0 8 ∧ (t.mb r.fn).ringSize = 2 ^ k ∧ (t.mb r.fn).consumed = 0 ∧
      (s.boot.rollback = none →
        ((s.mb r.fn).lostCount = 0 → (t.mb r.fn).produced = 0 ∧ MailOnly r s t) ∧
        ((s.mb r.fn).lostCount ≠ 0 → (t.mb r.fn).produced = 1 ∧ (t.mb r.fn).lostCount = 0 ∧ MailOnly r s t)) ∧
      (s.boot.rollback.isSome → t.boot = { s.boot with rollback := none } ∧
        Leaves { s.tick r.t with boot := t.boot } t) := by
  obtain ⟨hleaves, hring, hsent, hother, hzero, hlost⟩ := flushLost_ringSet r.fn (r.u 0 8) k (s.tick r.t)
  generalize hu : (ringSet r.fn (r.u 0 8) (2 ^ k) (s.tick r.t)).flushLost r.fn = u at *
  obtain ⟨hboot, -⟩ := leaves_at hleaves
  have hx : exec (.eventRingSet r) s = .next (runCommand 0x02 false r s (eventRingSetBody r)) := rfl
  have hbody : eventRingSetBody r (s.tick r.t) = .ok (tellRollback u, []) := by
    rw [eventRingSetBody_of hlen hrsv ha hk hk' hn, hu]
  obtain ⟨hans, hrest, hsent', hmb⟩ := runCommand_ok (op := 0x02) (pf := false) h (by simp) hbody (.inl (Nat.zero_le _))
  have hevents : ((runCommand 0x02 false r s (eventRingSetBody r)).mb r.fn).events = ((tellRollback u).mb r.fn).events := by
    rw [runCommand, runWith_ok h (by simp) hbody (.inl (Nat.zero_le _)), State.complete_events]
  generalize runCommand 0x02 false r s (eventRingSetBody r) = t at *
  have hregs : (t.mb r.fn).ring = (r.u 0 8, 2 ^ k, 0) :=
    (congrArg Prod.fst hevents).trans ((tellRollback_ring u r.fn).trans hring)
  refine ⟨t, hx, hans, congrArg Prod.fst hregs, congrArg (fun x => x.2.1) hregs, congrArg (fun x => x.2.2) hregs,
    fun hnone => ?_, fun hsome => ?_⟩
  · rw [tellRollback_of_none ((congrArg Boot.rollback hboot).trans hnone)] at hevents hrest hsent' hmb
    have hmail : MailOnly r s t := ⟨leaves_trans hleaves hrest, hsent.trans hsent', fun g hg => (hmb g hg).trans (hother g hg)⟩
    have hprod : (t.mb r.fn).produced = (u.mb r.fn).produced := congrArg (fun x => x.2.1) hevents
    have hcount : (t.mb r.fn).lostCount = (u.mb r.fn).lostCount := congrArg (fun x => x.2.2.1) hevents
    exact ⟨fun hl => ⟨hprod.trans (hzero hl), hmail⟩,
      fun hl => ⟨hprod.trans (hlost hl).1, hcount.trans (hlost hl).2, hmail⟩⟩
  · obtain ⟨hst, -⟩ := id h
    have htell : Leaves { s.tick r.t with boot := { s.boot with rollback := none } } (tellRollback u) := by
      refine leaves_trans ?_ (tellRollback_frame ((congrArg Boot.st hboot).trans hst) (by rw [hboot]; exact hsome))
      rw [hboot]
      exact congrArg (fun z : State => { z with boot := { s.boot with rollback := none } }) hleaves
    have hall := leaves_trans htell hrest
    obtain ⟨hb, -⟩ := leaves_at hall
    refine ⟨hb, ?_⟩
    rw [hb]
    exact hall

/-! ### BLOCK_STAGE and STAGE_DISCARD -/

theorem blockStageBody_of {r : Req} {s : State} {b : Block} (hsize : blockSize b.typ ≠ 0) (hlen : r.len = 8 + blockSize b.typ)
    (htyp : r.u 0 2 = b.typ) (hrsv : r.u 2 6 = 0) (hdata : b.data = slice r.bytes 8 (blockSize b.typ))
    (hown : blockOwned s r.fn b = .ok ()) (hcheck : stageCheck b = none) :
    blockStageBody r s = .ok ({ s with cur := { s.cur with staged := putStaged s r.fn b } }, []) := by
  have hblock : (⟨r.u 0 2, slice r.bytes 8 (blockSize (r.u 0 2))⟩ : Block) = b := by rw [htyp, ← hdata]
  have hknown : (blockSize (r.u 0 2) != 0) = true := by rw [htyp]; exact bne_iff_ne.mpr hsize
  have hlen8 : 8 ≤ r.len := by omega
  simp [blockStageBody, hlen8, rsvIs_of hrsv, ensure_of hknown, lenIs_of (htyp ▸ hlen), hblock, hown, hcheck]

theorem discardStaged_eq (fn : Nat) (s : State) : discardStaged fn s =
    { s with exh := (freeNumbers ((s.cur.staged.filter (·.fn == fn)).map (·.item)) s).exh
             cur := { s.cur with staged := s.cur.staged.filter (·.fn != fn) } } := by
  have hrest := freeNumbers_rest ((s.cur.staged.filter (·.fn == fn)).map (·.item)) s
  unfold discardStaged
  dsimp only
  generalize freeNumbers _ s = u at *
  have hcur := congrArg State.cur hrest
  have hall := congrArg (fun z : State => { z with exh := u.exh, cur := { s.cur with staged := s.cur.staged.filter (·.fn != fn) } }) hrest
  rw [show u.cur = s.cur from hcur]
  exact hall

theorem defines_staged {s : State} {fn n : Nat} : Defines ((s.cur.staged.filter (·.fn == fn)).map (·.item)) n ↔
    ∃ h kd ms, (⟨fn, .define h kd ms⟩ : Staged) ∈ s.cur.staged ∧ h % 4096 = n := by
  simp only [Defines, List.mem_map, List.mem_filter, beq_iff_eq]
  constructor
  · rintro ⟨h, kd, ms, ⟨⟨f, item⟩, ⟨hmem, rfl⟩, rfl⟩, hn⟩
    exact ⟨h, kd, ms, hmem, hn⟩
  · rintro ⟨h, kd, ms, hmem, hn⟩
    exact ⟨h, kd, ms, ⟨⟨fn, .define h kd ms⟩, ⟨hmem, rfl⟩, rfl⟩, hn⟩

theorem mem_putStaged {s : State} {fn : Nat} {b : Block} {x : Staged} : x ∈ putStaged s fn b ↔ x = ⟨fn, .block b⟩ ∨
    (x ∈ s.cur.staged ∧ ¬∃ c, x = ⟨fn, .block c⟩ ∧ s.view.sameKey b c = true) := by
  obtain ⟨f, item⟩ := x
  simp only [putStaged, List.mem_append, List.mem_filter, List.mem_singleton, or_comm (b := _ = _)]
  refine or_congr Iff.rfl (and_congr Iff.rfl ?_)
  cases item with
  | block c => simp [or_iff_not_imp_left]
  | _ => simp

/-- Settles O22: a ring is set before what waits for it goes out; the staged set is a filtered list. -/
theorem eventRingAndStagedSet : Obligations.EventRingAndStagedSet := by
  refine ⟨fun r s k h hlen hrsv ha hk hk' hn => accepts_eventRingSet h hlen hrsv ha hk hk' hn,
    fun r s h => ⟨fun b hsize hlen htyp hrsv hdata hown hcheck => ?_, fun hlen => ?_⟩⟩
  · refine accepts_of_ok (exec_of_mailRow rfl s) h (by simp)
      (blockStageBody_of (s := s.tick r.t) hsize hlen htyp hrsv hdata hown hcheck) fun t ht => ?_
    obtain ⟨-, hcur, -⟩ := leaves_at ht
    rw [hcur]
    exact ⟨fun x => mem_putStaged (s := s.tick r.t), rfl, ht⟩
  · have hbody : stageDiscardBody r (s.tick r.t) = .ok (discardStaged r.fn (s.tick r.t), []) := by
      simp [stageDiscardBody, lenIs_of hlen]
    refine accepts_of_ok (exec_of_mailRow rfl s) h (by simp) hbody fun t ht => ?_
    rw [discardStaged_eq] at ht
    obtain ⟨-, hcur, hexh, -⟩ := leaves_at ht
    have hview (n : Nat) : t.view.ex n = (freeNumbers
        (((s.tick r.t).cur.staged.filter (·.fn == r.fn)).map (·.item)) (s.tick r.t)).view.ex n :=
      congrArg (fun x => tget (Exhibit.reset n) x n) hexh
    refine ⟨fun x => ?_, fun n hn hst => ?_, fun n hn => ?_, ?_, ?_⟩
    · rw [hcur]
      simp
    · rw [hview]
      exact (freeNumbers_ex _ (s.tick r.t) n).1 (defines_staged.mpr hn) hst
    · rw [hview]
      exact (freeNumbers_ex _ (s.tick r.t) n).2 (hn.imp_left fun h hd => h (defines_staged.mp hd))
    · rw [hcur]
      rfl
    · rw [hcur, hexh]
      exact ht

end Sys2Proof.Machine
end

section
/-! PROOF. COMMIT and COMMIT_CANCEL (R479, R480, R482, R484, R530). -/
namespace Sys2Proof.Machine

/-! ### What an accepted plan is (R480, R530) -/

/-- An accepted commit has the next number, and the time asked for unless the Commons delays it. -/
theorem planCommit_ok {s : State} {fn h : Nat} {all : Bool} {T : CT} {env : List Nat} {lead : Nat} {member : Option Nat}
    {a : Accepted} (ha : planCommit s fn all h T env lead member = .ok a) :
    a.p.id = s.cur.nextCommit ∧ a.p.fn = fn ∧ (a.delay = none → a.p.time = T ∧ a.p.sT = sampleOf s.cad T) := by
  unfold planCommit at ha
  extract_lets hs items dead big check cm at0 at ha
  have hcheck (t : CT) (x : Pending × List Migration) (hx : check t = .ok x) :
      x.1 = mkPending s fn all hs t items big member := by
    simp only [check] at hx
    split at hx
    · cases hx
    · obtain ⟨-, -, hret⟩ := bind_ok hx
      cases hret
      rfl
  clear_value hs items dead big check cm at0
  obtain ⟨-, -, ha⟩ := bind_ok ha
  obtain ⟨-, -, ha⟩ := bind_ok ha
  obtain ⟨x, hp, ha⟩ := bind_ok ha
  have hx := hcheck T _ hp
  obtain ⟨hid, hfn, htime, hsT⟩ : x.1.id = s.cur.nextCommit ∧ x.1.fn = fn ∧ x.1.time = T ∧ x.1.sT = sampleOf s.cad T := by
    rw [hx]
    exact ⟨rfl, rfl, rfl, rfl⟩
  split at ha
  extract_lets extra refused more j at ha
  clear_value extra more j
  revert ha
  split
  · rintro ⟨⟩
    exact ⟨hid, hfn, fun _ => ⟨htime, hsT⟩⟩
  split
  · rintro ⟨⟩
  split
  · exact fun h => nomatch (show Except.error _ = Except.ok a from h)
  split
  · exact fun h => nomatch (show Except.error _ = Except.ok a from h)
  intro ha
  obtain ⟨x, hq, ha⟩ := bind_ok ha
  have hx := hcheck _ _ hq
  split at ha
  cases ha
  dsimp only at hx
  rw [hx]
  exact ⟨rfl, rfl, fun h => absurd h (Option.some_ne_none _)⟩

/-! ### COMMIT -/

theorem testBit_one_of_lt {n : Nat} (h : n < 4) : n.testBit 1 = (n / 2 == 1) := by
  interval_cases n <;> rfl

theorem exec_commit {r : Req} {s : State}
    (h : ((r.u 2 1) / 2 == 1) = true ∨ collectionRequest r s = false) (hflags : r.u 2 1 < 4) :
    exec (.commit r) s = .next (runWith (commitRefused r) 0x06 false r s (localCommitBody r)) := by
  refine congrArg Host.Outcome.next (if_neg ?_)
  rw [testBit_one_of_lt hflags]
  rcases h with h | h <;> simp [h]

theorem localCommitBody_of {r : Req} {s : State} {T : CT} (hlen : r.len = 16) (hrsv : r.u 3 1 = 0) (hrsv' : r.u 14 2 = 0)
    (hflags : r.u 2 1 < 4) (hown : (r.u 2 1 / 2 == 1) = true ∨ ∃ e, s.view.find (r.u 0 2) = some e ∧ e.owner = r.fn)
    (hT : (if r.u 2 1 % 2 = 1 then asapTime s.cad else ctOfBytes r.params 4) = T) (hslot : T.slot < s.cad.spt) :
    localCommitBody r s = planCommit s r.fn (r.u 2 1 / 2 == 1) (r.u 0 2) T r.env leadSamples none >>= fun a =>
      .ok (accept a s, fields ([(4, a.p.id), (4, 0), (8, a.p.sT)] ++ ctFields a.p.time)) := by
  rcases hown with hall | ⟨e, hf, ho⟩
  · simp only [localCommitBody, lenIs_of hlen, rsvIs_of hrsv, rsvIs_of hrsv', decide_eq_true hflags, ensure_true, hall, hT,
      decide_eq_true hslot, ok_bind, pure_eq_ok, if_true]
  · have howned := ownedHandle_of (off := 0) hf ho
    simp only [localCommitBody, lenIs_of hlen, rsvIs_of hrsv, rsvIs_of hrsv', decide_eq_true hflags, ensure_true, howned, hT,
      decide_eq_true hslot, ok_bind, pure_eq_ok, ite_self]

/-- What `accept` leaves but for the counter and the event of a delay. -/
theorem accept_frame {s : State} (a : Accepted) (hst : s.boot.st = 1) : ∃ n, Leaves { s with
    cur := { s.cur with staged := s.cur.staged.filter fun x => !(x.fn == a.p.fn && a.p.items.contains x.item)
                        pending := s.cur.pending ++ [a.p], nextCommit := max s.cur.nextCommit (a.p.id + 1) }
    gal := { s.gal with migr := s.gal.migr ++ a.migr }
    pow := { s.pow with delayed := n } } (accept a s) := by
  unfold accept
  dsimp only
  split
  · exact ⟨_, State.post_frame (by exact hst) _ _ _⟩
  · exact ⟨s.pow.delayed, rfl⟩

/-- What the refusal of leave leaves (R530): counters, and an event. -/
theorem commitRefused_frame {r : Req} {s : State} {e : Err} (hst : s.boot.st = 1) (he : e.code = eLeaveRefused) :
    Leaves { s with pow := { s.pow with refused := satAdd 32 s.pow.refused 1 }
                    cur := { s.cur with refusals := satAdd 32 s.cur.refusals 1 } } (commitRefused r e s) := by
  have hno : (e.code != eLeaveRefused) = false := by rw [he]; rfl
  simp only [commitRefused, hno, Bool.false_eq_true, if_false]
  exact State.post_frame (by exact hst) _ _ _

section
variable {r : Req} {s : State} {T : CT} (h : Fresh r s)
  (hbody : localCommitBody r (s.tick r.t) = planCommit (s.tick r.t) r.fn (r.u 2 1 / 2 == 1) (r.u 0 2) T r.env leadSamples
    none >>= fun a => .ok (accept a (s.tick r.t), fields ([(4, a.p.id), (4, 0), (8, a.p.sT)] ++ ctFields a.p.time)))
  (hx : exec (.commit r) s = .next (runWith (commitRefused r) 0x06 false r s (localCommitBody r)))
include h hbody hx

theorem completes_commit {a : Accepted} (ha : planCommit (s.tick r.t) r.fn (r.u 2 1 / 2 == 1) (r.u 0 2) T r.env leadSamples
    none = .ok a) : Completes (.commit r) s fun t =>
      Answered 0x06 r s t eOk 0 (fields ([(4, a.p.id), (4, 0), (8, a.p.sT)] ++ ctFields a.p.time)) ∧
      t.cur.pending = s.cur.pending ++ [a.p] ∧ t.cur.committed = s.cur.committed ∧ t.exh = s.exh ∧
      (∀ x, x ∈ t.cur.staged ↔ x ∈ s.cur.staged ∧ ¬(x.fn = a.p.fn ∧ x.item ∈ a.p.items)) ∧
      a.p.id = s.cur.nextCommit ∧ a.p.fn = r.fn ∧ (a.delay = none → a.p.time = T ∧ a.p.sT = sampleOf (s.tick r.t).cad T) ∧
      Leaves { s.tick r.t with cur := t.cur, gal := { s.gal with migr := s.gal.migr ++ a.migr },
                               pow := { s.pow with delayed := t.pow.delayed } } t := by
  rw [ha, ok_bind] at hbody
  obtain ⟨t, hx', hans, hleaves⟩ := completes_runWith_ok hx h (by simp) hbody (.inl (by simp))
  obtain ⟨hst, -⟩ := id h
  obtain ⟨n, haccept⟩ := accept_frame (s := s.tick r.t) a hst
  have hall := leaves_trans haccept hleaves
  obtain ⟨-, hcur, hexh, -, -, hpow⟩ := leaves_at hall
  obtain ⟨hid, hfn, htime⟩ := planCommit_ok ha
  refine ⟨t, hx', hans, ?_, ?_, hexh, fun x => ?_, hid, hfn, htime, ?_⟩
  · rw [hcur]; rfl
  · rw [hcur]; rfl
  · rw [hcur]; simp [or_iff_not_imp_left]
  · rw [hcur, hpow]; exact hall

theorem completes_commit_refused {e : Err} (he : planCommit (s.tick r.t) r.fn (r.u 2 1 / 2 == 1) (r.u 0 2) T r.env
    leadSamples none = .error e) (hl : e.result.length ≤ 2016) :
    (e.code ≠ eLeaveRefused → Completes (.commit r) s fun t =>
      Answered 0x06 r s t e.code e.detail e.result ∧ MailOnly r s t) ∧
    (e.code = eLeaveRefused → Completes (.commit r) s fun t =>
      Answered 0x06 r s t eLeaveRefused e.detail e.result ∧ t.cur.staged = s.cur.staged ∧
      t.cur.pending = s.cur.pending ∧ t.cur.committed = s.cur.committed ∧ t.exh = s.exh ∧
      t.pow.refused = satAdd 32 s.pow.refused 1) := by
  rw [he, error_bind] at hbody
  obtain ⟨t, hx', hans, hleaves, hsent, hmb⟩ := completes_runWith_error hx h (by simp) hbody hl
  refine ⟨fun hne => ⟨t, hx', hans, ?_⟩, fun heq => ⟨t, hx', heq ▸ hans, ?_⟩⟩
  · have hkeep : commitRefused r e (s.tick r.t) = s.tick r.t := if_pos (bne_iff_ne.mpr hne)
    rw [hkeep] at hleaves hsent hmb
    exact ⟨hleaves, hsent, hmb⟩
  · obtain ⟨hst, -⟩ := id h
    obtain ⟨-, hcur, hexh, -, -, hpow⟩ :=
      leaves_at (leaves_trans (commitRefused_frame (r := r) (s := s.tick r.t) hst heq) hleaves)
    rw [hcur, hexh, hpow]
    exact ⟨rfl, rfl, rfl, rfl, rfl⟩

end

/-! ### COMMIT_CANCEL -/

/-- A commit that no later one follows leaves the pending ones, and its planned migrations the galleries' (R482). -/
def canceled (p : Pending) (s : State) : State :=
  { s with cur := { s.cur with pending := s.cur.pending.filter fun q => q.id != p.id }
           gal := { s.gal with migr := s.gal.migr.filter fun m =>
             !(m.planned && m.tm == p.sT && ((galleryMoves s.view p.items).map (·.1)).contains m.pos) } }

theorem commitCancelBody_of {r : Req} {s : State} {p : Pending} (hlen : r.len = 8) (hrsv : r.u 4 4 = 0)
    (hp : s.cur.pending.find? (fun p => p.id == r.u 0 4 && p.fn == r.fn) = some p) (hsoon : tooSoon s.cad p.time = false)
    (hlast : ∀ q ∈ s.cur.pending, q.id ≠ p.id → ctLt q.time p.time = true) :
    commitCancelBody r s = .ok (freeNumbers p.items (canceled p s), []) := by
  have hid : p.id = r.u 0 4 := by
    have := List.find?_some hp
    simp only [Bool.and_eq_true, beq_iff_eq] at this
    exact this.1
  have hnone : ((s.cur.pending.filter fun q => q.id != r.u 0 4).filter fun q => !ctLt q.time p.time) = [] := by
    rw [List.filter_eq_nil_iff]
    intro q hq
    obtain ⟨hmem, hne⟩ := List.mem_filter.mp hq
    rw [← hid] at hne
    simp [hlast q hmem (bne_iff_ne.mp hne)]
  simp only [commitCancelBody, lenIs_of hlen, rsvIs_of hrsv, ok_bind, hp, hsoon, Bool.not_false, ensure_true, hnone,
    List.all_nil, pure_eq_ok, canceled, hid]

theorem accepts_commitCancel {r : Req} {s : State} {p : Pending} (h : Fresh r s) (hlen : r.len = 8) (hrsv : r.u 4 4 = 0)
    (hp : s.cur.pending.find? (fun p => p.id == r.u 0 4 && p.fn == r.fn) = some p)
    (hsoon : tooSoon (s.tick r.t).cad p.time = false)
    (hlast : ∀ q ∈ s.cur.pending, q.id ≠ p.id → ctLt q.time p.time = true) :
    Accepts (.commitCancel r) 0x07 r s fun t =>
      (∀ q, q ∈ t.cur.pending ↔ q ∈ s.cur.pending ∧ q.id ≠ p.id) ∧ t.cur.staged = s.cur.staged ∧
      t.cur.committed = s.cur.committed ∧ (galleryMoves s.view p.items = [] → t.gal = s.gal) ∧
      (∀ n, (∃ h kd ms, .define h kd ms ∈ p.items ∧ h % 4096 = n) → (s.view.ex n).st = 1 →
        t.view.ex n = { epoch := (s.view.ex n).epoch }) ∧
      (∀ n, (¬∃ h kd ms, .define h kd ms ∈ p.items ∧ h % 4096 = n) ∨ (s.view.ex n).st ≠ 1 →
        t.view.ex n = s.view.ex n) ∧ Leaves { s.tick r.t with cur := t.cur, gal := t.gal, exh := t.exh } t := by
  refine accepts_of_ok (exec_of_mailRow rfl s) h (by simp)
    (commitCancelBody_of (s := s.tick r.t) hlen hrsv hp hsoon hlast) fun t ht => ?_
  have hrest := freeNumbers_rest p.items (canceled p (s.tick r.t))
  obtain ⟨hfree, hkeep⟩ : (∀ n, Defines p.items n → (s.view.ex n).st = 1 →
      (freeNumbers p.items (canceled p (s.tick r.t))).view.ex n = { epoch := (s.view.ex n).epoch }) ∧
      ∀ n, ¬Defines p.items n ∨ (s.view.ex n).st ≠ 1 →
        (freeNumbers p.items (canceled p (s.tick r.t))).view.ex n = s.view.ex n :=
    ⟨fun n => (freeNumbers_ex p.items (canceled p (s.tick r.t)) n).1,
      fun n => (freeNumbers_ex p.items (canceled p (s.tick r.t)) n).2⟩
  generalize freeNumbers p.items (canceled p (s.tick r.t)) = u at *
  obtain ⟨-, hcur, hexh, -, hgal, -⟩ := leaves_at ht
  have hucur : u.cur = (canceled p (s.tick r.t)).cur := by
    have h := congrArg State.cur hrest
    exact h
  have hugal : u.gal = (canceled p (s.tick r.t)).gal := by
    have h := congrArg State.gal hrest
    exact h
  have hview (n : Nat) : t.view.ex n = u.view.ex n := congrArg (fun x => tget (Exhibit.reset n) x n) hexh
  refine ⟨fun q => ?_, ?_, ?_, fun hmoves => ?_, fun n hn hst => (hview n).trans (hfree n hn hst),
    fun n hn => (hview n).trans (hkeep n hn), ?_⟩
  · rw [hcur, hucur]
    simp [canceled]
  · rw [hcur, hucur]
    rfl
  · rw [hcur, hucur]
    rfl
  · have hmoves' : galleryMoves (s.tick r.t).view p.items = [] := hmoves
    rw [hgal, hugal]
    simp [canceled, hmoves']
  · rw [hcur, hgal, hexh]
    refine leaves_trans ?_ ht
    have hall := congrArg (fun z : State => { z with cur := u.cur, gal := u.gal, exh := u.exh, mbox := s.mbox, sent := s.sent })
      hrest
    exact hall

/-- Settles O23: an accepted plan joins the pending commits, a refused one leaves what its refusal does. -/
theorem commitIsPlannedOrCancelled : Obligations.CommitIsPlannedOrCancelled := by
  refine ⟨fun r s h hlen hrsv hrsv' hflags => ?_, fun r s p h hlen hrsv hp hsoon hlast =>
    accepts_commitCancel h hlen hrsv hp hsoon hlast⟩
  intro u all T hscope hslot
  have hown : all = true ∨ ∃ e, u.view.find (r.u 0 2) = some e ∧ e.owner = r.fn := hscope.imp_right And.right
  have hbody : localCommitBody r u = planCommit u r.fn all (r.u 0 2) T r.env leadSamples none >>= fun a =>
      .ok (accept a u, fields ([(4, a.p.id), (4, 0), (8, a.p.sT)] ++ ctFields a.p.time)) :=
    localCommitBody_of hlen hrsv hrsv' hflags hown rfl hslot
  have hx := exec_commit (s := s) (hscope.imp_right And.left) hflags
  exact ⟨fun a ha => completes_commit h hbody hx ha,
    fun e he hne hl => (completes_commit_refused h hbody hx he hl).1 hne,
    fun e he heq hl => (completes_commit_refused h hbody hx he hl).2 heq⟩

end Sys2Proof.Machine
end

section
/-! PROOF. EXHIBIT_DEFINE, EXHIBIT_DELETE, EXHIBIT_ASSIGN (R484, R485). -/
namespace Sys2Proof.Machine

/-! ### EXHIBIT_DEFINE -/

/-- Local number that a definition takes: the one asked for, or the first free one. -/
def freeNumberFor (any : Bool) (asked : Nat) (v : View) : Option Nat :=
  if any then (List.range 4096).find? fun n => (v.ex n).st == 0 else if (v.ex asked).st = 0 then some asked else none

theorem freeNumberFor_some {any : Bool} {asked n : Nat} {v : View} (h : freeNumberFor any asked v = some n) :
    (v.ex n).st = 0 ∧ (any = false → n = asked) ∧ (any = true → ∀ m < n, (v.ex m).st ≠ 0) := by
  cases any with
  | false =>
    rw [freeNumberFor, if_neg (by decide)] at h
    split_ifs at h with hst
    obtain rfl := Option.some.inj h
    exact ⟨hst, fun _ => rfl, fun h => absurd h (by decide)⟩
  | true =>
    rw [freeNumberFor, if_pos rfl] at h
    obtain ⟨hst, hmin⟩ := List.find?_range_eq_some.mp h
    exact ⟨by simpa using hst, fun h => absurd h (by decide), fun _ m hm => by simpa using hmin.2 m hm⟩

/-- The state after a definition. -/
def defined (s : State) (fn top kind n : Nat) (ms : List Nat) : State :=
  { s with exh := tset s.exh n { s.view.ex n with kind := kind, owner := fn, st := 1, members := ms }
           cur := { s.cur with staged := s.cur.staged ++ [⟨fn, .define (top * 4096 + n) kind ms⟩] } }

theorem exhibitDefineBody_ok {r : Req} {s : State} {out : State × List Byte} (h : exhibitDefineBody r s = .ok out) :
    ∃ n, freeNumberFor ((r.u 3 1).testBit 0) (r.u 0 2 % 4096) s.view = some n ∧
      out = (defined s r.fn (if r.u 2 1 = 3 then s.view.lead else s.view.index) (r.u 2 1) n
        ((List.range (r.u 4 2)).map fun i => r.u (8 + 2 * i) 2),
        fields [(2, (if r.u 2 1 = 3 then s.view.lead else s.view.index) * 4096 + n)]) := by
  unfold exhibitDefineBody at h
  extract_lets kind any count v members top take choose taken at h
  obtain ⟨-, -, h⟩ := bind_ok h
  obtain ⟨-, -, h⟩ := bind_ok h
  obtain ⟨-, -, h⟩ := bind_ok h
  obtain ⟨-, -, h⟩ := bind_ok h
  obtain ⟨-, -, h⟩ := bind_ok h
  obtain ⟨-, -, h⟩ := bind_ok h
  obtain ⟨-, -, h⟩ := bind_ok h
  obtain ⟨-, -, h⟩ := bind_ok h
  obtain ⟨-, -, h⟩ := bind_ok h
  have hchoose : choose () = .ok out := by
    split at h
    · obtain ⟨-, -, h⟩ := bind_ok h
      obtain ⟨-, -, h⟩ := bind_ok h
      obtain ⟨_, -, h⟩ := bind_ok h
      exact h
    · exact h
  clear h
  have hfree : (freeNumberFor any (r.u 0 2 % 4096) v).elim (refuse eNoHandle) take = .ok out := by
    rw [← hchoose]
    simp only [choose, freeNumberFor]
    cases (if any then (List.range 4096).find? fun n => (v.ex n).st == 0 else
      if (v.ex (r.u 0 2 % 4096)).st = 0 then some (r.u 0 2 % 4096) else none) with
    | none => rfl
    | some n => rfl
  cases hn : freeNumberFor any (r.u 0 2 % 4096) v with
  | none =>
    rw [hn] at hfree
    cases hfree
  | some n =>
    rw [hn] at hfree
    exact ⟨n, rfl, (Except.ok.inj hfree).symm⟩

theorem completes_exhibitDefine {r : Req} {s : State} (h : Fresh r s) (hp : Passes (exhibitDefineBody r (s.tick r.t))) :
    ∃ n, (s.view.ex n).st = 0 ∧
      let h := (if r.u 2 1 = 3 then s.view.lead else s.view.index) * 4096 + n
      let ms := (List.range (r.u 4 2)).map fun i => r.u (8 + 2 * i) 2
      ((r.u 3 1).testBit 0 = false → n = r.u 0 2 % 4096) ∧
      ((r.u 3 1).testBit 0 = true → ∀ m < n, (s.view.ex m).st ≠ 0) ∧
      Completes (.exhibitDefine r) s fun t =>
        Answered 0x10 r s t eOk 0 (fields [(2, h)]) ∧
        t.view.ex n = { s.view.ex n with kind := r.u 2 1, owner := r.fn, st := 1, members := ms } ∧
        (∀ m, m ≠ n → t.view.ex m = s.view.ex m) ∧
        t.cur = { s.cur with staged := s.cur.staged ++ [⟨r.fn, .define h (r.u 2 1) ms⟩] } ∧
        Leaves { s.tick r.t with cur := t.cur, exh := t.exh } t := by
  obtain ⟨out, hout⟩ := exists_ok_of_passes hp
  obtain ⟨n, hn, rfl⟩ := exhibitDefineBody_ok hout
  obtain ⟨hst, hasked, hfirst⟩ := freeNumberFor_some hn
  obtain ⟨t, hx, hans, hleaves, -⟩ := completes_of_ok (exec_of_mailRow (i := .exhibitDefine r) rfl s) h (by simp) hout
    (.inl (by simp))
  obtain ⟨-, hcur, hexh, -⟩ := leaves_at hleaves
  have hview (m : Nat) := congrArg (fun x => tget (Exhibit.reset m) x m) hexh
  refine ⟨n, hst, hasked, hfirst, t, hx, hans, (hview n).trans (tget_tset_self _ _ _ _),
    fun m hm => (hview m).trans (tget_tset_other _ _ _ _ _ (Ne.symm hm)), hcur, ?_⟩
  rw [hcur, hexh]
  exact hleaves

theorem exhibitDefineBody_array {r : Req} {s : State} {n : Nat} (hlen : r.len = 8 + 2 * r.u 4 2) (hkind : r.u 2 1 = 2)
    (hany : r.u 3 1 = 1) (hrsv : r.u 6 2 = 0) (hlow : 1 ≤ r.u 4 2) (hhigh : r.u 4 2 ≤ 4095) (hn : n < 4096)
    (hst : (s.view.ex n).st = 0)
    (hown : ∀ i e, i < r.u 4 2 → s.view.find (r.u (8 + 2 * i) 2) = some e → e.owner = r.fn) :
    Passes (exhibitDefineBody r s) := by
  have hmembers : (((List.range (r.u 4 2)).map fun i => r.u (8 + 2 * i) 2).all fun m =>
      match s.view.find m with | some e => e.owner == r.fn | none => true) = true := by
    rw [List.all_map, List.all_eq_true]
    intro i hi
    dsimp only [Function.comp]
    split
    · next e he => exact beq_iff_eq.mpr (hown i e (List.mem_range.mp hi) he)
    · rfl
  have hsome : ((List.range 4096).find? fun n => (s.view.ex n).st == 0).isSome = true := by
    rw [List.find?_isSome]
    exact ⟨n, List.mem_range.mpr hn, beq_iff_eq.mpr hst⟩
  obtain ⟨k, hk⟩ := Option.isSome_iff_exists.mp hsome
  have hlen8 : 8 ≤ r.len := by omega
  have hbit : Nat.testBit 1 0 = true := rfl
  unfold exhibitDefineBody
  simp only [hlen8, decide_true, ensure_true, ok_bind, rsvIs_of hrsv, hkind, hany, hlow, hhigh, lenIs_of hlen, hbit,
    Bool.true_or, hk, Nat.reduceLT, Nat.reduceLeDiff, Nat.reduceEqDiff, Nat.reduceBNe, Bool.and_self, if_false, if_true,
    pure_eq_ok]
  exact congrArg (fun e : Except Err Unit => (e >>= fun _ => Except.ok (_, _) : Effect).toBool) (ensure_of hmembers eNotOwner 8)

/-! ### EXHIBIT_DELETE, EXHIBIT_ASSIGN -/

/-- The function has staged the definition of this handle. -/
def definesHere (fn h : Nat) (x : Staged) : Bool :=
  x.fn == fn && (match x.item with | .define g _ _ => g == h | _ => false)

theorem definesHere_iff {fn h : Nat} {x : Staged} : definesHere fn h x = true ↔ ∃ kd ms, x = ⟨fn, .define h kd ms⟩ := by
  obtain ⟨f, item⟩ := x
  cases item with
  | define g kd ms => simp [definesHere]
  | _ => simp [definesHere]

theorem exhibitDeleteBody_committed {r : Req} {s : State} {e : Exhibit} (hlen : r.len = 8) (hrsv : r.u 2 6 = 0)
    (hf : s.view.find (r.u 0 2) = some e) (ho : e.owner = r.fn) (hkind : e.kind ≠ 0) (hst : e.st = 2) :
    exhibitDeleteBody r s = .ok ({ s with cur := { s.cur with staged :=
      (s.cur.staged.filter fun x => !(x.fn == r.fn && x.item == .delete (r.u 0 2))) ++ [⟨r.fn, .delete (r.u 0 2)⟩] } }, []) := by
  have hkind' : (e.kind != 0) = true := bne_iff_ne.mpr hkind
  simp [exhibitDeleteBody, oneNum_of hlen hrsv, ownedHandle_of hf ho, hkind', hst]

theorem exhibitDeleteBody_defined {r : Req} {s : State} {e : Exhibit} (hlen : r.len = 8) (hrsv : r.u 2 6 = 0)
    (hf : s.view.find (r.u 0 2) = some e) (ho : e.owner = r.fn) (hkind : e.kind ≠ 0) (hst : e.st = 1)
    (hdef : ∃ kd ms, (⟨r.fn, .define (r.u 0 2) kd ms⟩ : Staged) ∈ s.cur.staged) :
    exhibitDeleteBody r s = .ok ({ s with
      exh := tset s.exh (r.u 0 2 % 4096) { epoch := e.epoch }
      cur := { s.cur with staged := s.cur.staged.filter fun x => !definesHere r.fn (r.u 0 2) x } }, []) := by
  have hkind' : (e.kind != 0) = true := bne_iff_ne.mpr hkind
  have hany : s.cur.staged.any (definesHere r.fn (r.u 0 2)) = true := by
    obtain ⟨kd, ms, hmem⟩ := hdef
    exact List.any_eq_true.mpr ⟨_, hmem, definesHere_iff.mpr ⟨kd, ms, rfl⟩⟩
  have hbranch : e.st = 1 ∧ s.cur.staged.any (definesHere r.fn (r.u 0 2)) = true := ⟨hst, hany⟩
  simp only [exhibitDeleteBody, oneNum_of hlen hrsv, ownedHandle_of hf ho, hkind', ensure_true, ok_bind]
  exact if_pos hbranch

theorem exhibitAssignBody_of {r : Req} {s : State} {e : Exhibit} (hlen : r.len = 8) (hrsv : r.u 4 4 = 0)
    (hc : s.view.committed (r.u 0 2) = some e) (hfn : r.u 2 2 ≤ s.boot.numVfs) (hidle : s.view.exActive (r.u 0 2) = false) :
    exhibitAssignBody r s = .ok ({ s with cur := { s.cur with staged :=
      (s.cur.staged.filter fun x => match x.item with | .assign g _ => g != r.u 0 2 | _ => true) ++
        [⟨0, .assign (r.u 0 2) (r.u 2 2)⟩] } }, []) := by
  simp [exhibitAssignBody, twoNum_of hlen hrsv, hc, hfn, hidle] <;> rfl

theorem mem_assigned {l : List Staged} {h fn : Nat} {x : Staged} :
    x ∈ (l.filter fun x => match x.item with | .assign g _ => g != h | _ => true) ++ [⟨0, .assign h fn⟩] ↔
      x = ⟨0, .assign h fn⟩ ∨ (x ∈ l ∧ ¬∃ f, x.item = .assign h f) := by
  obtain ⟨f, item⟩ := x
  simp only [List.mem_append, List.mem_filter, List.mem_singleton, or_comm (b := _ = _)]
  refine or_congr Iff.rfl (and_congr Iff.rfl ?_)
  cases item with
  | assign g k => simp
  | _ => simp

/-- Settles O24: a definition takes a number and is staged at once; deletions and changes of owner are staged. -/
theorem exhibitCommands : Obligations.ExhibitCommands := by
  intro r s h
  refine ⟨fun hp => completes_exhibitDefine h hp,
    fun n hlen hkind hany hrsv hlow hhigh hn hst hown =>
      exhibitDefineBody_array (s := s.tick r.t) hlen hkind hany hrsv hlow hhigh hn hst hown,
    fun _ e hlen hrsv hh hf ho hkind => ?_, fun _ e hpf hlen hrsv hh hc hfn hidle => ?_⟩
  · subst hh
    refine ⟨fun hst => ?_, fun hst hdef => ?_⟩
    · refine accepts_of_ok (exec_of_mailRow rfl s) h (by simp)
        (exhibitDeleteBody_committed (s := s.tick r.t) hlen hrsv hf ho hkind hst) fun t ht => ?_
      obtain ⟨-, hcur, -⟩ := leaves_at ht
      refine ⟨fun x => ?_, ?_, ?_⟩
      · obtain ⟨f, item⟩ := x
        rw [hcur]
        simp only [List.mem_append, List.mem_filter, List.mem_singleton, or_comm (b := _ = _)]
        by_cases hx : (⟨f, item⟩ : Staged) = ⟨r.fn, .delete (r.u 0 2)⟩
        · simp [hx]
        · have hkeep : (!(f == r.fn && item == .delete (r.u 0 2))) = true := by
            simpa [or_iff_not_imp_left] using hx
          simp [hx, hkeep]
      · rw [hcur]
        rfl
      · rw [hcur]
        exact ht
    · refine accepts_of_ok (exec_of_mailRow rfl s) h (by simp)
        (exhibitDeleteBody_defined (s := s.tick r.t) hlen hrsv hf ho hkind hst hdef) fun t ht => ?_
      obtain ⟨-, hcur, hexh, -⟩ := leaves_at ht
      have hview (m : Nat) := congrArg (fun x => tget (Exhibit.reset m) x m) hexh
      refine ⟨fun x => ?_, (hview _).trans (tget_tset_self _ _ _ _),
        fun m hm => (hview m).trans (tget_tset_other _ _ _ _ _ (Ne.symm hm)), ?_, ?_⟩
      · rw [hcur, ← definesHere_iff]
        simp
      · rw [hcur]
        rfl
      · rw [hcur, hexh]
        exact ht
  · subst hh
    refine accepts_of_ok (exec_of_mailRow rfl s) h (fun _ => hpf)
      (exhibitAssignBody_of (s := s.tick r.t) hlen hrsv hc hfn hidle) fun t ht => ?_
    obtain ⟨-, hcur, hexh, -⟩ := leaves_at ht
    refine ⟨fun x => ?_, hexh, ?_, ?_⟩
    · rw [hcur]
      exact mem_assigned
    · rw [hcur]
      rfl
    · rw [hcur]
      exact ht

end Sys2Proof.Machine
end

section
/-! SUPPORT. Words that a load has written (R474), and memories of the state in canonical form. -/
namespace Sys2Proof.Machine

/-! ### Consecutive writes -/

theorem cget_csetAll {w : Nat} {d : Nat → BitVec w} {m : Cells w} (h : cellsWf d m = true) (a j : Nat)
    (vs : List (BitVec w)) : cget d (csetAll d m a vs) j = if a ≤ j ∧ j < a + vs.length then vs.getD (j - a) 0 else cget d m j := by
  induction vs generalizing m a with
  | nil => rw [if_neg (by simp only [List.length_nil]; omega)]; rfl
  | cons v vs ih =>
    rw [csetAll_cons, ih (cellsWf_cset d m a v h), cget_cset d m a j v h, List.length_cons]
    rcases lt_trichotomy a j with hj | hj | hj
    · obtain ⟨k, rfl⟩ : ∃ k, j = a + 1 + k := ⟨j - (a + 1), by omega⟩
      have hk : a + 1 + k - a = k + 1 := by omega
      rw [Nat.add_sub_cancel_left, hk, List.getD_cons_succ, if_neg (by omega : a ≠ a + 1 + k)]
      exact if_congr (by omega) rfl rfl
    · subst hj
      rw [if_neg (by omega), if_pos rfl, if_pos (by omega), Nat.sub_self, List.getD_cons_zero]
    · rw [if_neg (by omega), if_neg (by omega), if_neg (by omega)]

theorem cget_csetAll_map {w : Nat} {d : Nat → BitVec w} {m : Cells w} (h : cellsWf d m = true) (a j n : Nat)
    (g : Nat → BitVec w) :
    cget d (csetAll d m a ((List.range n).map g)) j = if a ≤ j ∧ j < a + n then g (j - a) else cget d m j := by
  rw [cget_csetAll h, List.length_map, List.length_range]
  refine if_ctx_congr Iff.rfl (fun hj => ?_) fun _ => rfl
  have hlt : j - a < n := by omega
  simp [hlt]

/-! ### Memories of the state -/

theorem tget_all {α : Type} {p : α → Bool} {t : Table α} {d : α} (ht : t.all (fun e => p e.2) = true) (hd : p d = true)
    (k : Nat) : p (tget d t k) = true := by
  induction t with
  | nil => exact hd
  | cons e t ih =>
    obtain ⟨a, v⟩ := e
    rw [List.all_cons, Bool.and_eq_true] at ht
    obtain ⟨hv, ht⟩ := ht
    by_cases hk : a = k
    · simpa [tget, tfind, hk] using hv
    · simpa [tget, tfind, hk] using ih ht

section
variable {s : State} (h : Memory.wf s = true)
include h

theorem Memory.wf.parts : s.mbox.all (fun e => e.2.wf) = true ∧ s.wram.all (fun e => e.2.wf) = true ∧
    s.mask.all (fun e => e.2.wf limitDefault) = true ∧ s.prog.all (fun e => e.2.wf haltWord) = true ∧
    s.store.all (fun e => cellsWf sampleDefault e.2.samples) = true ∧ s.core.all (fun e => e.2.wf) = true := by
  simp only [Memory.wf, Bool.and_eq_true] at h
  obtain ⟨⟨⟨⟨⟨⟨⟨⟨hmbox, hwram⟩, hmask⟩, hprog⟩, -⟩, -⟩, -⟩, hstore⟩, hcore⟩ := h
  exact ⟨hmbox, hwram, hmask, hprog, hstore, hcore⟩

theorem Memory.wf.mb (g : Nat) : (s.mb g).wf = true := tget_all (p := Mbox.wf) (Memory.wf.parts h).1 rfl g

theorem Memory.wf.window (x : Nat) : (tget ({} : WindowMem) s.wram x).wf = true := by
  obtain ⟨-, hwram, -⟩ := Memory.wf.parts h
  exact tget_all (p := WindowMem.wf) hwram rfl x

theorem Memory.wf.limits (x : Nat) : (tget ({} : WordMem) s.mask x).wf limitDefault = true := by
  obtain ⟨-, -, hmask, -⟩ := Memory.wf.parts h
  exact tget_all (p := WordMem.wf limitDefault) hmask rfl x

theorem Memory.wf.program (x : Nat) : (tget ({} : WordMem) s.prog x).wf haltWord = true := by
  obtain ⟨-, -, -, hprog, -⟩ := Memory.wf.parts h
  exact tget_all (p := WordMem.wf haltWord) hprog rfl x

theorem Memory.wf.samples (n : Nat) : cellsWf sampleDefault (s.sto n).samples = true := by
  obtain ⟨-, -, -, -, hstore, -⟩ := Memory.wf.parts h
  exact tget_all (p := fun x : Store => cellsWf sampleDefault x.samples) hstore rfl n

theorem Memory.wf.core (c : Nat) : (s.cc c).wf = true := by
  obtain ⟨-, -, -, -, -, hcore⟩ := Memory.wf.parts h
  exact tget_all (p := Core.wf) hcore rfl c

end

theorem WordMem.wf_open {d : Nat → BitVec 32} {m : WordMem} (h : m.wf d = true) : cellsWf d m.open = true := by
  rw [WordMem.wf, Bool.and_eq_true] at h
  obtain ⟨hcur, hshadow⟩ := h
  unfold WordMem.open
  split_ifs
  · exact hshadow
  · exact hcur

theorem WindowMem.wf_open {m : WindowMem} (h : m.wf = true) :
    cellsWf (fun _ => 0#18) (if m.dirty then m.shadow else m.cur) = true := by
  rw [WindowMem.wf, Bool.and_eq_true] at h
  obtain ⟨hcur, hshadow⟩ := h
  split_ifs
  · exact hshadow
  · exact hcur

theorem Core.wf.memories {x : Core} (h : x.wf = true) : cellsWf haltWord x.prog = true ∧ cellsWf word36 x.x = true ∧
    cellsWf word36 x.y = true ∧ cellsWf word36 x.imgX = true ∧ cellsWf word36 x.imgY = true ∧
    cellsWf word36 x.shadow = true := by
  simp only [Core.wf, Bool.and_eq_true, List.all_cons, List.all_nil] at h
  obtain ⟨⟨hprog, hx, hy, himgX, himgY, -, hshadow, -⟩, -⟩ := h
  exact ⟨hprog, hx, hy, himgX, himgY, hshadow⟩

end Sys2Proof.Machine
end

section
/-! PROOF. WINDOW_LOAD, MASK_LOAD, ATTENDANT_LOAD (R151, R206, R250, R474). -/
namespace Sys2Proof.Machine

theorem loadBlock_of {r : Req} {size : Nat} (hlen : r.len = 16 + size * r.u 8 4) (hrsv : r.u 2 2 = 0)
    (hrsv' : r.u 12 4 = 0) : loadBlock r size = .ok (r.u 0 2, r.u 4 4, r.u 8 4) := by
  have hlen' : (decide (16 ≤ r.len) && r.len == 16 + size * r.u 8 4) = true := by
    rw [hlen, beq_self_eq_true, Bool.and_true, decide_eq_true_eq]
    exact Nat.le_add_right _ _
  simp only [loadBlock, ensure_of hlen', ok_bind, rsvIs_of hrsv, rsvIs_of hrsv', pure_eq_ok]

/-- A window memory after a load of `n` words from `f` on. -/
def windowLoaded (m : WindowMem) (f n : Nat) (params : List Byte) : WindowMem :=
  let words := (List.range n).map fun i => BitVec.ofInt 18 (getI params (16 + 4 * i) 4)
  { m with shadow := csetAll (fun _ => 0) (if m.dirty then m.shadow else m.cur) f words, dirty := true }

theorem windowLoadBody_of {r : Req} {s : State} (hlen : r.len = 16 + 4 * r.u 8 4) (hrsv : r.u 2 2 = 0)
    (hrsv' : r.u 12 4 = 0) (hx : r.u 0 2 < 8) (hend : r.u 4 4 + r.u 8 4 ≤ 65536)
    (hw : ∀ i < r.u 8 4, -131072 ≤ getI r.params (16 + 4 * i) 4 ∧ getI r.params (16 + 4 * i) 4 ≤ 131071) :
    let m := windowLoaded (tget {} s.wram (r.u 0 2)) (r.u 4 4) (r.u 8 4) r.params
    windowLoadBody r s = .ok ({ s with wram := tset s.wram (r.u 0 2) m }, []) := by
  have hall : (((List.range (r.u 8 4)).map fun i => getI r.params (16 + 4 * i) 4).all
      fun w => decide (-131072 ≤ w) && decide (w ≤ 131071)) = true := by
    simpa using hw
  simp only [windowLoadBody, loadBlock_of hlen hrsv hrsv', ok_bind, decide_eq_true hx, decide_eq_true hend, ensure_true,
    ensure_of hall, pure_eq_ok, List.map_map]
  rfl

/-- A word memory after a load of words from `f` on. -/
def wordsLoaded (d : Nat → BitVec 32) (m : WordMem) (f : Nat) (ws : List (BitVec 32)) : WordMem :=
  { m with shadow := csetAll d m.open f ws, dirty := true }

theorem attendantLoadBody_of {r : Req} {s : State} {e : Exhibit} (hlen : r.len = 16 + 4 * r.u 8 4) (hrsv : r.u 2 2 = 0)
    (hrsv' : r.u 12 4 = 0) (hf : s.view.find (r.u 0 2) = some e) (ho : e.owner = r.fn)
    (hend : r.u 4 4 + r.u 8 4 ≤ (s.stagedBlock r.fn btProgram [r.u 0 2]).u 2 2) :
    attendantLoadBody r s = .ok ({ s with prog := tset s.prog (r.u 0 2) (wordsLoaded haltWord (tget {} s.prog (r.u 0 2))
      (r.u 4 4) ((List.range (r.u 8 4)).map fun i => BitVec.ofNat 32 (getU r.params (16 + 4 * i) 4))) }, []) := by
  simp only [attendantLoadBody, loadBlock_of hlen hrsv hrsv', ok_bind, ownedHandle_of hf ho, decide_eq_true hend,
    ensure_true, pure_eq_ok]
  rfl

/-- The limits of a mask load, UPPER and LOWER in turn, are its words in order. -/
theorem mask_words (b : List Byte) (n : Nat) :
    ((List.range n).map fun i => (getU b (16 + 8 * i) 4, getU b (20 + 8 * i) 4)).flatMap
      (fun p => [BitVec.ofNat 32 p.1, BitVec.ofNat 32 p.2]) =
    (List.range (2 * n)).map fun i => BitVec.ofNat 32 (getU b (16 + 4 * i) 4) := by
  induction n with
  | zero => rfl
  | succ n ih =>
    have hlow : 16 + 4 * (2 * n) = 16 + 8 * n := by omega
    have hhigh : 16 + 4 * (2 * n + 1) = 20 + 8 * n := by omega
    rw [List.range_succ, List.map_append, List.flatMap_append, ih, show 2 * (n + 1) = 2 * n + 1 + 1 by omega,
      List.range_succ, List.range_succ, List.map_append, List.map_append]
    simp [hlow, hhigh]

theorem maskLoadBody_of {r : Req} {s : State} (hlen : r.len = 16 + 8 * r.u 8 4) (hrsv : r.u 2 2 = 0)
    (hrsv' : r.u 12 4 = 0) (hp : Passes (maskLoadBody r s)) :
    maskLoadBody r s = .ok ({ s with mask := tset s.mask (r.u 0 2) (wordsLoaded limitDefault (tget {} s.mask (r.u 0 2))
      (2 * r.u 4 4) ((List.range (2 * r.u 8 4)).map fun i => BitVec.ofNat 32 (getU r.params (16 + 4 * i) 4))) }, []) := by
  obtain ⟨out, hout⟩ := exists_ok_of_passes hp
  rw [hout]
  have hbody := hout
  unfold maskLoadBody at hbody
  rw [loadBlock_of hlen hrsv hrsv', ok_bind] at hbody
  obtain ⟨e, -, hbody⟩ := bind_ok hbody
  obtain ⟨-, -, hbody⟩ := bind_ok hbody
  obtain ⟨-, -, hbody⟩ := bind_ok hbody
  obtain ⟨-, -, hbody⟩ := bind_ok hbody
  obtain ⟨-, -, hbody⟩ := bind_ok hbody
  rw [← mask_words]
  exact hbody.symm

theorem wordsLoaded_shadow {d : Nat → BitVec 32} {m : WordMem} (h : m.wf d = true) (f n a : Nat) (b : List Byte) :
    cget d (wordsLoaded d m f ((List.range n).map fun i => BitVec.ofNat 32 (getU b (16 + 4 * i) 4))).shadow a =
      if f ≤ a ∧ a < f + n then BitVec.ofNat 32 (loadWord b 16 4 f a) else cget d (if m.dirty then m.shadow else m.cur) a :=
  cget_csetAll_map (WordMem.wf_open h) f a n _

/-- Settles O25: each load writes consecutive words over the open copy of one memory. -/
theorem shadowLoads : Obligations.ShadowLoads := by
  intro r s x f n h hwf hx hf hn hrsv hrsv'
  subst hx hf hn
  refine ⟨fun hlen hpos hend hw => ?_, fun e _ _ _ _ hlen _ hp => ?_, fun e hfind hown hlen hend => ?_⟩
  · refine accepts_of_ok (exec_of_mailRow rfl s) h (by simp)
      (windowLoadBody_of (s := s.tick r.t) hlen hrsv hrsv' hpos hend hw) fun t ht => ?_
    have hwram := ht.field State.wram fun _ _ _ => rfl
    have hself : tget ({} : WindowMem) t.wram (r.u 0 2) =
        windowLoaded (tget {} s.wram (r.u 0 2)) (r.u 4 4) (r.u 8 4) r.params := by
      rw [hwram]
      exact tget_tset_self _ _ _ _
    intro m m'
    rw [show m' = _ from hself]
    refine ⟨fun a => ?_, rfl, rfl, fun p hp => ?_, ?_⟩
    · exact cget_csetAll_map (WindowMem.wf_open (Memory.wf.window hwf (r.u 0 2))) _ a _ _
    · rw [hwram]
      exact tget_tset_other _ _ _ _ _ (Ne.symm hp)
    · rw [hwram]
      exact ht
  · refine accepts_of_ok (exec_of_mailRow rfl s) h (by simp)
      (maskLoadBody_of (s := s.tick r.t) hlen hrsv hrsv' hp) fun t ht => ?_
    have hmask := ht.field State.mask fun _ _ _ => rfl
    intro m m'
    have hself : m' = wordsLoaded limitDefault m (2 * r.u 4 4)
        ((List.range (2 * r.u 8 4)).map fun i => BitVec.ofNat 32 (getU r.params (16 + 4 * i) 4)) := by
      simp only [m', hmask]
      exact tget_tset_self _ _ _ _
    rw [hself]
    refine ⟨fun a => ?_, rfl, rfl, fun p hp => ?_, ?_⟩
    · rw [wordsLoaded_shadow (Memory.wf.limits hwf (r.u 0 2)), Nat.mul_add]
    · rw [hmask]
      exact tget_tset_other _ _ _ _ _ (Ne.symm hp)
    · rw [hmask]
      exact ht
  · refine accepts_of_ok (exec_of_mailRow rfl s) h (by simp)
      (attendantLoadBody_of (s := s.tick r.t) hlen hrsv hrsv' hfind hown hend) fun t ht => ?_
    have hprog := ht.field State.prog fun _ _ _ => rfl
    intro m m'
    have hself : m' = wordsLoaded haltWord m (r.u 4 4)
        ((List.range (r.u 8 4)).map fun i => BitVec.ofNat 32 (getU r.params (16 + 4 * i) 4)) := by
      simp only [m', hprog]
      exact tget_tset_self _ _ _ _
    rw [hself]
    refine ⟨fun a => ?_, rfl, rfl, fun p hp => ?_, ?_⟩
    · rw [wordsLoaded_shadow (Memory.wf.program hwf (r.u 0 2))]
    · rw [hprog]
      exact tget_tset_other _ _ _ _ _ (Ne.symm hp)
    · rw [hprog]
      exact ht

end Sys2Proof.Machine
end

section
/-! PROOF. CONSERVATOR_LOAD, CONSERVATOR_PARAM, STORE_LOAD, STORE_RELEASE (R276, R285, R289, R320, R322, R327). -/
namespace Sys2Proof.Machine

/-! ### Memories of a core -/

/-- A new core in one slot is all that a state gains. -/
theorem leaves_setCore {u t : State} {c : Nat} {x : Core} (h : Leaves (u.setCore c x) t) :
    t.cc c = x ∧ Leaves (u.setCore c (t.cc c)) t := by
  have hcc : t.cc c = x := (h.field (fun s => s.cc c) fun _ _ _ => rfl).trans (State.cc_setCore_self u c x)
  exact ⟨hcc, hcc ▸ h⟩

section
variable {r : Req} {s : State} {c : Nat} (hlen : r.len = 24) (hrsv : r.u 12 4 = 0) (hslot : slotOf s r = .ok c)
  (hf : r.u 4 4 < 16384) (hn : 1 ≤ r.u 8 4) (hend : r.u 4 4 + r.u 8 4 ≤ 16384) (hst : (s.cc c).st ≠ 1) (hmem : r.memOk = true)
include hlen hrsv hslot hf hn hend hst hmem

theorem conservatorLoadBody_program (h0 : r.u 3 1 = 0) :
    let ws := (List.range (r.u 8 4)).map fun i => BitVec.ofNat 32 (getU r.payload (4 * i) 4)
    conservatorLoadBody r s =
      .ok (s.setCore c { s.cc c with prog := csetAll haltWord (s.cc c).prog (r.u 4 4) ws }, []) := by
  have hst' : ((s.cc c).st != 1) = true := bne_iff_ne.mpr hst
  simp [conservatorLoadBody, lenIs_of hlen, rsvIs_of hrsv, hslot, h0, hf, hn, hend, hst', hmem]

theorem conservatorLoadBody_data (hw : ∀ w ∈ wide r.payload 0 (r.u 8 4), w < 2 ^ 36) :
    let vs := (wide r.payload 0 (r.u 8 4)).map fun w => BitVec.ofNat 36 w
    (r.u 3 1 = 1 → conservatorLoadBody r s = .ok (s.setCore c { s.cc c with
      x := csetAll word36 (s.cc c).x (r.u 4 4) vs, imgX := csetAll word36 (s.cc c).imgX (r.u 4 4) vs }, [])) ∧
    (r.u 3 1 = 2 → conservatorLoadBody r s = .ok (s.setCore c { s.cc c with
      y := csetAll word36 (s.cc c).y (r.u 4 4) vs, imgY := csetAll word36 (s.cc c).imgY (r.u 4 4) vs }, [])) := by
  have hall : ((wide r.payload 0 (r.u 8 4)).all fun w => decide (w < 2 ^ 36)) = true :=
    List.all_eq_true.mpr fun w hmem => decide_eq_true (hw w hmem)
  have hst' : ((s.cc c).st != 1) = true := bne_iff_ne.mpr hst
  refine ⟨fun h1 => ?_, fun h2 => ?_⟩
  · simp [conservatorLoadBody, lenIs_of hlen, rsvIs_of hrsv, hslot, h1, hf, hn, hend, hst', hmem, ensure_of hall, -Nat.reducePow]
  · simp [conservatorLoadBody, lenIs_of hlen, rsvIs_of hrsv, hslot, h2, hf, hn, hend, hst', hmem, ensure_of hall, -Nat.reducePow]

end

theorem conservatorParamBody_of {r : Req} {s : State} {c : Nat} (hlen : r.len = 24 + 8 * r.u 8 4) (hrsv : r.u 3 1 = 0)
    (hrsv' : r.u 12 12 = 0) (hslot : slotOf s r = .ok c) (hn : 1 ≤ r.u 8 4) (hn' : r.u 8 4 ≤ 256)
    (hend : r.u 4 4 + r.u 8 4 ≤ 256) (hw : ∀ w ∈ wide r.params 24 (r.u 8 4), w < 2 ^ 36) :
    let vs := (wide r.params 24 (r.u 8 4)).map fun w => BitVec.ofNat 36 w
    conservatorParamBody r s =
      .ok (s.setCore c { s.cc c with shadow := csetAll word36 (s.cc c).shadow (r.u 4 4) vs }, []) := by
  have hall : ((wide r.params 24 (r.u 8 4)).all fun w => decide (w < 2 ^ 36)) = true :=
    List.all_eq_true.mpr fun w hmem => decide_eq_true (hw w hmem)
  have hlen24 : 24 ≤ r.len := by omega
  have hlen' : (r.len == 24 + 8 * r.u 8 4) = true := beq_iff_eq.mpr hlen
  simp [conservatorParamBody, hlen24, rsvIs_of hrsv, rsvIs_of hrsv', hslot, hn, hn', hend, ensure_of hlen', ensure_of hall,
    -Nat.reducePow]

theorem cget_wide {m : Cells 36} (h : cellsWf word36 m = true) (f n a off : Nat) (b : List Byte) :
    cget word36 (csetAll word36 m f ((wide b off n).map fun w => BitVec.ofNat 36 w)) a =
      if f ≤ a ∧ a < f + n then BitVec.ofNat 36 (loadWord b off 8 f a) else cget word36 m a := by
  rw [wide, List.map_map]
  exact cget_csetAll_map h f a n _

/-! ### Stores -/

theorem State.sto_setSto_self (s : State) (n : Nat) (x : Store) :
    (s.setSto n x).sto n = { x with gen := ((s.setSto n x).sto n).gen } := by
  unfold State.setSto
  split_ifs with h
  · rw [← h]
  · simp [State.sto]

theorem State.sto_setSto_other (s : State) {n k : Nat} (x : Store) (h : k ≠ n) : (s.setSto n x).sto k = s.sto k := by
  unfold State.setSto
  split_ifs
  · rfl
  · exact tget_tset_other _ _ _ _ _ (Ne.symm h)

theorem State.setSto_rest (s : State) (n : Nat) (x : Store) : { s.setSto n x with store := s.store } = s := by
  unfold State.setSto
  split_ifs <;> rfl

/-- What a new Store in one slot leaves, said of the state that answers. -/
theorem leaves_setSto {u t : State} {n : Nat} {x : Store} (h : Leaves (u.setSto n x) t) :
    t.sto n = { x with gen := (t.sto n).gen } ∧ (∀ k, k ≠ n → t.sto k = u.sto k) ∧ Leaves { u with store := t.store } t := by
  have hsto (k : Nat) : t.sto k = (u.setSto n x).sto k := h.field (fun s => s.sto k) fun _ _ _ => rfl
  have hstore : t.store = (u.setSto n x).store := h.field State.store fun _ _ _ => rfl
  refine ⟨?_, fun k hk => (hsto k).trans (State.sto_setSto_other _ _ hk), leaves_trans ?_ h⟩
  · rw [hsto]
    exact State.sto_setSto_self u n x
  · rw [hstore]
    have hrest := congrArg (fun z : State => { z with store := (u.setSto n x).store, mbox := u.mbox, sent := u.sent })
      (u.setSto_rest n x)
    exact hrest

theorem storeLoadBody_of {r : Req} {s : State} (hlen : r.len = 32) (hrsv : r.u 2 6 = 0) (hm : r.u 0 2 < 1024)
    (hon : (s.sto (r.u 0 2)).on = true) (hmode : (s.sto (r.u 0 2)).mode = 2) (hplays : s.plays (r.u 0 2) = false)
    (hfn : r.fn = 0) (hoff : r.u 8 8 % 16 = 0) (hcount : r.u 16 8 % 16 = 0)
    (hend : 2 * (r.u 8 8 + r.u 16 8) ≤ (s.sto (r.u 0 2)).size - 4096) (hmem : r.memOk = true) :
    let ws := (List.range (r.u 16 8)).map fun i => BitVec.ofNat 16 (getU r.payload (2 * i) 2)
    storeLoadBody r s = .ok (s.setSto (r.u 0 2) { s.sto (r.u 0 2) with
      samples := csetAll sampleDefault (s.sto (r.u 0 2)).samples (r.u 8 8) ws }, []) := by
  have hown : s.storeOwner (r.u 0 2) = r.fn := by simp [State.storeOwner, hmode, hfn]
  have hend' : (r.u 16 8 % 16 == 0 && decide (2 * (r.u 8 8 + r.u 16 8) ≤ (s.sto (r.u 0 2)).size - 4096)) = true := by
    rw [hcount, decide_eq_true hend]
    rfl
  simp only [storeLoadBody, lenIs_of hlen, rsvIs_of hrsv, namedStore_of hm hon hown, hmode, hoff, ensure_of hend', hplays, hmem,
    ok_bind, pure_eq_ok, ensure_true, beq_self_eq_true, Bool.not_false]

section
variable {r : Req} {s : State} (hlen : r.len = 16) (hrsv : r.u 2 6 = 0) (hn : r.u 0 2 < 1024)
  (hon : (s.sto (r.u 0 2)).on = true) (hown : s.storeOwner (r.u 0 2) = r.fn) (hfree : s.view.consumed (r.u 0 2) = false)
include hlen hrsv hn hon hown hfree

theorem storeReleaseBody_window (hmode : (s.sto (r.u 0 2)).mode = 0) (hlow : (s.sto (r.u 0 2)).release ≤ r.u 8 8)
    (hpos : r.u 8 8 = (s.sto (r.u 0 2)).write ∨ ∃ k ∈ (s.sto (r.u 0 2)).recs, k.pos = r.u 8 8) :
    storeReleaseBody r s = .ok (s.setSto (r.u 0 2)
      { s.sto (r.u 0 2) with release := r.u 8 8, head := [], head2 := [] }, []) := by
  have hpos' : (decide ((s.sto (r.u 0 2)).release ≤ r.u 8 8) && (r.u 8 8 == (s.sto (r.u 0 2)).write ||
      (s.sto (r.u 0 2)).recs.any fun k => k.pos == r.u 8 8)) = true := by
    rw [decide_eq_true hlow, Bool.true_and, Bool.or_eq_true, beq_iff_eq, List.any_eq_true]
    exact hpos.imp_right fun ⟨k, hk, hv⟩ => ⟨k, hk, beq_iff_eq.mpr hv⟩
  simp only [storeReleaseBody, lenIs_of hlen, rsvIs_of hrsv, namedStore_of hn hon hown, hfree, hmode, ensure_of hpos', ok_bind,
    pure_eq_ok, ensure_true, Bool.not_false, if_true]

/-- A segment after a release up to `v`. -/
def Seg.releasedBelow (v : Nat) (g : Seg) : Seg := if g.n < v && g.st == 2 then { g with st := 3 } else g

theorem storeReleaseBody_segments (hmode : (s.sto (r.u 0 2)).mode = 1) (hv : r.u 8 8 ≤ (s.sto (r.u 0 2)).segNext) :
    let x : Store := { s.sto (r.u 0 2) with segs := (s.sto (r.u 0 2)).segs.map (Seg.releasedBelow (r.u 8 8)) }
    storeReleaseBody r s = .ok (s.setSto (r.u 0 2) { x with segRel := x.segFloor }, []) := by
  simp only [storeReleaseBody, lenIs_of hlen, rsvIs_of hrsv, namedStore_of hn hon hown, hfree, hmode, decide_eq_true hv, ok_bind,
    pure_eq_ok, ensure_true, Bool.not_false, if_true, one_ne_zero, if_false]
  rfl

end

theorem Seg.releasedBelow_eq (v : Nat) (g : Seg) :
    g.releasedBelow v = { g with st := if g.n < v ∧ g.st = 2 then 3 else g.st } := by
  unfold Seg.releasedBelow
  by_cases h : g.n < v ∧ g.st = 2
  · rw [if_pos h, if_pos (by simpa using h)]
  · rw [if_neg h, if_neg (by simpa using h)]

/-- Settles O26: each command replaces one core or one Store, in the memory or registers that it names. -/
theorem memoryLoadsAndReleases : Obligations.MemoryLoadsAndReleases := by
  refine ⟨fun r s f n h hwf => ?_, fun r s n v h hlen hrsv hn hv hlt hon hown hfree => ?_⟩
  · obtain ⟨-, -, -, -, -, -, -, hmem⟩ := id h
    refine ⟨fun c hlen hrsv hslot hf hn hlt hpos hend hst => ⟨fun h0 => ?_, fun hw => ⟨fun h1 => ?_, fun h2 => ?_⟩⟩,
      fun c hlen hrsv hrsv' hslot hf hn hpos hmax hend hw => ?_,
      fun m hfn hlen hrsv hm hlt hon hmode hplays hf hn hoff hcount hend => ?_⟩
    all_goals subst hf hn
    · obtain ⟨hprog, -⟩ := Core.wf.memories (Memory.wf.core hwf c)
      refine accepts_of_ok (exec_of_mailRow rfl s) h (by simp)
        (conservatorLoadBody_program (s := s.tick r.t) hlen hrsv hslot hlt hpos hend hst hmem h0) fun t ht => ?_
      obtain ⟨hcc, hrest⟩ := leaves_setCore ht
      refine ⟨fun a => ?_, by rw [hcc]; rfl, hrest⟩
      rw [hcc, loadWord, Nat.zero_add]
      exact cget_csetAll_map hprog (r.u 4 4) a (r.u 8 4) fun i => BitVec.ofNat 32 (getU r.payload (4 * i) 4)
    · obtain ⟨-, hx, -, himg, -⟩ := Core.wf.memories (Memory.wf.core hwf c)
      refine accepts_of_ok (exec_of_mailRow rfl s) h (by simp)
        ((conservatorLoadBody_data (s := s.tick r.t) hlen hrsv hslot hlt hpos hend hst hmem hw).1 h1) fun t ht => ?_
      obtain ⟨hcc, hrest⟩ := leaves_setCore ht
      refine ⟨fun a => ?_, fun a => ?_, by rw [hcc]; rfl, hrest⟩
      · rw [hcc]
        exact cget_wide hx _ _ _ _ _
      · rw [hcc]
        exact cget_wide himg _ _ _ _ _
    · obtain ⟨-, -, hy, -, himg, -⟩ := Core.wf.memories (Memory.wf.core hwf c)
      refine accepts_of_ok (exec_of_mailRow rfl s) h (by simp)
        ((conservatorLoadBody_data (s := s.tick r.t) hlen hrsv hslot hlt hpos hend hst hmem hw).2 h2) fun t ht => ?_
      obtain ⟨hcc, hrest⟩ := leaves_setCore ht
      refine ⟨fun a => ?_, fun a => ?_, by rw [hcc]; rfl, hrest⟩
      · rw [hcc]
        exact cget_wide hy _ _ _ _ _
      · rw [hcc]
        exact cget_wide himg _ _ _ _ _
    · obtain ⟨-, -, -, -, -, hshadow⟩ := Core.wf.memories (Memory.wf.core hwf c)
      refine accepts_of_ok (exec_of_mailRow rfl s) h (by simp)
        (conservatorParamBody_of (s := s.tick r.t) hlen hrsv hrsv' hslot hpos hmax hend hw) fun t ht => ?_
      obtain ⟨hcc, hrest⟩ := leaves_setCore ht
      refine ⟨fun a => ?_, by rw [hcc]; rfl, hrest⟩
      rw [hcc]
      exact cget_wide hshadow _ _ _ _ _
    · subst hm
      refine accepts_of_ok (exec_of_mailRow rfl s) h (fun _ => hfn)
        (storeLoadBody_of (s := s.tick r.t) hlen hrsv hlt hon hmode hplays hfn hoff hcount hend hmem) fun t ht => ?_
      obtain ⟨hsto, hother, hrest⟩ := leaves_setSto ht
      refine ⟨fun a => ?_, ?_, hother, hrest⟩
      · rw [hsto, loadWord, Nat.zero_add]
        exact cget_csetAll_map (Memory.wf.samples hwf (r.u 0 2)) (r.u 8 8) a (r.u 16 8)
          fun i => BitVec.ofNat 16 (getU r.payload (2 * i) 2)
      · rw [hsto]
        rfl
  · subst hn hv
    refine ⟨fun hmode hlow hpos => ?_, fun hmode hle => ?_⟩
    · refine accepts_of_ok (exec_of_mailRow rfl s) h (by simp)
        (storeReleaseBody_window (s := s.tick r.t) hlen hrsv hlt hon hown hfree hmode hlow hpos) fun t ht => ?_
      exact leaves_setSto ht
    · refine accepts_of_ok (exec_of_mailRow rfl s) h (by simp)
        (storeReleaseBody_segments (s := s.tick r.t) hlen hrsv hlt hon hown hfree hmode hle) fun t ht => ?_
      obtain ⟨hsto, hother, hrest⟩ := leaves_setSto ht
      have hsegs : (t.sto (r.u 0 2)).segs = (s.sto (r.u 0 2)).segs.map (Seg.releasedBelow (r.u 8 8)) := by rw [hsto]; rfl
      refine ⟨?_, fun i g hg => ?_, ?_, ?_, hother, hrest⟩
      · rw [hsegs, List.length_map]
      · rw [hsegs, List.getElem?_map, hg, Option.map_some, Seg.releasedBelow_eq]
      · rw [hsto]
        rfl
      · rw [hsto]
        rfl

end Sys2Proof.Machine
end

section
/-! PROOF. Commands that schedule an action (R49 to R53, R180, R235, R336, R382, R389). -/
namespace Sys2Proof.Machine

/-! ### Checks -/

theorem schedCheck_of {s : State} {T : CT} {kind : Nat} {hs : List Nat} (h : Schedulable s T kind hs) (off : Nat) :
    schedCheck s T off kind hs = .ok () := by
  obtain ⟨hslot, hsoon, hcount, hfree⟩ := h
  have hconflict : (!s.cur.actions.any fun a =>
      a.act.kind == kind && a.time == T && (a.handles s.view).any hs.contains) = true := by
    rw [Bool.not_eq_true', List.any_eq_false]
    intro a ha hclash
    simp only [Bool.and_eq_true, beq_iff_eq, List.any_eq_true, List.contains_iff_mem] at hclash
    obtain ⟨⟨hkind, htime⟩, m, hm, hmem⟩ := hclash
    exact hfree a ha ⟨hkind, htime, m, hmem, hm⟩
  simp only [schedCheck, ensure_of (decide_eq_true hslot), hsoon, ensure_of hconflict, ensure_of (decide_eq_true hcount),
    Bool.not_false, ensure_true, ok_bind]

theorem triggerHandle_of {r : Req} {s : State} {e : Exhibit} (hlen : r.len = 16) (hrsv : r.u 3 1 = 0) (hrsv' : r.u 14 2 = 0)
    (hf : s.view.find (r.u 0 2) = some e) (ho : e.owner = r.fn) (hgang : s.view.gangMember (r.u 0 2) = false)
    (hall : ∀ m ∈ s.view.triggerReach (r.u 0 2), ∀ e', s.view.find m = some e' → e'.owner = r.fn) :
    triggerHandle s r = .ok (r.u 0 2, e) := by
  have hmine : ((s.view.triggerReach (r.u 0 2)).all fun m => s.view.owner m == r.fn || s.view.find m == none) = true := by
    rw [List.all_eq_true]
    intro m hm
    cases hfind : s.view.find m with
    | none => simp
    | some e' => simp [View.owner, hfind, hall m hm e' hfind]
  simp only [triggerHandle, lenIs_of hlen, rsvIs_of hrsv, rsvIs_of hrsv', ownedHandle_of hf ho, hgang, Bool.not_false,
    ensure_true, ensure_of hmine, ok_bind, pure_eq_ok]

/-! ### Bodies -/

theorem swardSnapshotBody_ok {r : Req} {s : State} {out : State × List Byte} (h : swardSnapshotBody r s = .ok out) :
    out = (s.schedule r.fn ⟨r.u 4 6, r.u 2 2, r.u 10 2⟩ (some (r.u 0 2)) (.snapshot (r.u 12 1)), []) := by
  unfold swardSnapshotBody at h
  obtain ⟨-, -, h⟩ := bind_ok h
  obtain ⟨-, -, h⟩ := bind_ok h
  obtain ⟨e, -, h⟩ := bind_ok h
  obtain ⟨-, -, h⟩ := bind_ok h
  obtain ⟨-, -, h⟩ := bind_ok h
  obtain ⟨-, -, h⟩ := bind_ok h
  obtain ⟨-, -, h⟩ := bind_ok h
  obtain ⟨-, -, h⟩ := bind_ok h
  split at h
  obtain ⟨-, -, h⟩ := bind_ok h
  exact (Except.ok.inj h).symm

theorem armBody_of {r : Req} {s : State} {e : Exhibit} (ht : triggerHandle s r = .ok (r.u 0 2, e)) (harm : r.u 2 1 ≤ 2)
    (hs : Schedulable s (ctOfBytes r.params 4) 6 (s.view.triggerReach (r.u 0 2))) :
    armBody r s = .ok (s.schedule r.fn (ctOfBytes r.params 4) (some (r.u 0 2)) (.arm (r.u 2 1)), []) := by
  simp only [armBody, ht, ensure_of (decide_eq_true harm), schedCheck_of hs, ok_bind, pure_eq_ok]

theorem forceBody_of {r : Req} {s : State} {e : Exhibit} {T : CT} (ht : triggerHandle s r = .ok (r.u 0 2, e))
    (hT : r.u 2 1 = 0 ∧ T = ctOfBytes r.params 4 ∨ r.u 2 1 = 1 ∧ T = asapTime s.cad)
    (hs : Schedulable s T 6 (s.view.triggerReach (r.u 0 2)))
    (hcond : e.kind = 0 ∨ ∃ b ∈ (s.viewAt T).conditions (r.u 0 2), b.u 3 1 = 12) :
    forceBody r s = .ok (s.schedule r.fn T (some (r.u 0 2)) .force, fields (ctFields T)) := by
  have hcond' : (e.kind == 0 || ((s.viewAt T).conditions (r.u 0 2)).any fun b => b.u 3 1 == 12) = true := by
    rw [Bool.or_eq_true, beq_iff_eq, List.any_eq_true]
    exact hcond.imp_right fun ⟨b, hb, h12⟩ => ⟨b, hb, beq_iff_eq.mpr h12⟩
  have htime : (if (r.u 2 1 == 1) = true then asapTime s.cad else ctOfBytes r.params 4) = T := by
    obtain ⟨h0, rfl⟩ | ⟨h1, rfl⟩ := hT
    · rw [h0]
      rfl
    · rw [h1]
      rfl
  have hflag : r.u 2 1 ≤ 1 := by omega
  simp only [forceBody, ht, ensure_of (decide_eq_true hflag), htime, schedCheck_of hs, ensure_of hcond', ok_bind, pure_eq_ok]

theorem comparatorClearBody_of {r : Req} {s : State} (hlen : r.len = 24) (hrsv : r.u 10 6 = 0)
    (hs : Schedulable s (ctOfBytes r.params 0) 1 []) :
    comparatorClearBody r s = .ok (s.schedule r.fn (ctOfBytes r.params 0) none (.clear (r.u 16 8)), []) := by
  simp only [comparatorClearBody, lenIs_of hlen, rsvIs_of hrsv, schedCheck_of hs, ok_bind, pure_eq_ok]

theorem hkInjectBody_of {r : Req} {s : State} (hlen : r.len = 16) (hrsv : r.u 13 3 = 0) (hconv : r.u 10 1 ≤ 1)
    (hin : r.u 11 1 ≤ 31) (hrate : r.u 12 1 ≤ 8)
    (hcount : (s.cur.actions.filter fun a => match a.act with | .inject c _ _ => c == r.u 10 1 | _ => false).length < 16)
    (hs : Schedulable s (ctOfBytes r.params 0) 4 []) : hkInjectBody r s =
      .ok (s.schedule r.fn (ctOfBytes r.params 0) none (.inject (r.u 10 1) (r.u 11 1) (r.u 12 1)), []) := by
  simp only [hkInjectBody, lenIs_of hlen, rsvIs_of hrsv, ensure_of (decide_eq_true hconv), ensure_of (decide_eq_true hin),
    ensure_of (decide_eq_true hrate), schedCheck_of hs, ok_bind, pure_eq_ok]
  exact congrArg (fun e : Except Err Unit => (e >>= fun _ => Except.ok (_, _) : Effect))
    (ensure_of (decide_eq_true hcount) eScheduleFull 0)

theorem calStartBody_of {r : Req} {s : State} (hlen : r.len = 16) (hrsv : r.u 12 4 = 0) (hkind : r.u 10 1 ≤ 5)
    (hunit : calUnitOk (r.u 10 1) (r.u 11 1) = true) (hs : Schedulable s (ctOfBytes r.params 0) 4 [])
    (hfree : ∀ a ∈ s.cur.actions, a.time = ctOfBytes r.params 0 →
      a.act ≠ .cal (r.u 10 1) (r.u 11 1) true ∧ a.act ≠ .cal (r.u 10 1) (r.u 11 1) false) :
    let S := sampleOf s.cad (ctOfBytes r.params 0)
    calStartBody r s = ensure (grantFits s ⟨11, calTag (r.u 10 1) (r.u 11 1), 500, S, some (S + calSpan), 0⟩) eLeaveRefused >>=
      fun _ => .ok (s.schedule r.fn (ctOfBytes r.params 0) none (.cal (r.u 10 1) (r.u 11 1) false), []) := by
  have hfree' : (!s.cur.actions.any fun a => a.time == ctOfBytes r.params 0 &&
      (a.act == .cal (r.u 10 1) (r.u 11 1) true || a.act == .cal (r.u 10 1) (r.u 11 1) false)) = true := by
    rw [Bool.not_eq_true', List.any_eq_false]
    intro a ha hclash
    simp only [Bool.and_eq_true, Bool.or_eq_true, beq_iff_eq] at hclash
    obtain ⟨htime, hact⟩ := hclash
    obtain ⟨hsched, hcmd⟩ := hfree a ha htime
    exact hact.elim hsched hcmd
  simp only [calStartBody, lenIs_of hlen, rsvIs_of hrsv, ensure_of (decide_eq_true hkind), ensure_of hunit, schedCheck_of hs,
    ensure_of hfree', ok_bind, pure_eq_ok]

/-- What an action that waits leaves, said of the state that answers. -/
theorem leaves_schedule {u t : State} {fn : Nat} {T : CT} {h : Option Nat} {a : Act}
    (hl : Leaves (u.schedule fn T h a) t) : t.cur = scheduled u fn T h a ∧ Leaves { u with cur := t.cur } t := by
  obtain ⟨-, hcur, -⟩ := leaves_at hl
  refine ⟨hcur, ?_⟩
  rw [hcur]
  exact hl

/-- Settles O27: every body ends in `State.schedule`. -/
theorem actionsAreScheduled : Obligations.ActionsAreScheduled := by
  intro r s h
  refine ⟨fun hp => ?snapshot, fun _ e hlen hrsv hrsv' hh hf ho hgang hcoll hall => ⟨fun harm hs => ?arm, fun T hT hs hcond => ?force⟩,
    fun hpf hlen hrsv hs => ?clear, fun hpf hlen hrsv hconv hin hrate hcount hs => ?inject,
    fun _ _ T hpf hlen hrsv hk hn hkind hunit hT hs hfree => ⟨fun hfits => ?cal, fun hfull => ?refused⟩⟩
  case snapshot =>
    obtain ⟨out, hout⟩ := exists_ok_of_passes hp
    obtain rfl := swardSnapshotBody_ok hout
    exact accepts_of_ok (exec_of_mailRow rfl s) h (by simp) hout fun t ht => leaves_schedule ht
  case arm =>
    subst hh
    have hx : exec (.triggerArm r) s = .next (runCommand 0x51 false r s (armBody r)) :=
      congrArg Host.Outcome.next (if_neg (by rw [hcoll]; decide))
    exact accepts_of_ok hx h (by simp) (armBody_of (s := s.tick r.t)
      (triggerHandle_of hlen hrsv hrsv' hf ho hgang hall) harm hs) fun t ht => leaves_schedule ht
  case force =>
    subst hh
    have hx : exec (.triggerForce r) s = .next (runCommand 0x52 false r s (forceBody r)) :=
      congrArg Host.Outcome.next (if_neg (by rw [hcoll]; decide))
    obtain ⟨t, hx', hans, hleaves, -⟩ := completes_of_ok hx h (by simp) (forceBody_of (s := s.tick r.t)
      (triggerHandle_of hlen hrsv hrsv' hf ho hgang hall) hT hs hcond) (.inl (by simp))
    exact ⟨t, hx', hans, leaves_schedule hleaves⟩
  case clear =>
    exact accepts_of_ok (exec_of_mailRow rfl s) h (fun _ => hpf) (comparatorClearBody_of hlen hrsv hs)
      fun t ht => leaves_schedule ht
  case inject =>
    exact accepts_of_ok (exec_of_mailRow rfl s) h (fun _ => hpf)
      (hkInjectBody_of (s := s.tick r.t) hlen hrsv hconv hin hrate hcount hs) fun t ht => leaves_schedule ht
  case cal =>
    subst hk hn hT
    have hbody := calStartBody_of (s := s.tick r.t) hlen hrsv hkind hunit hs hfree
    dsimp only at hbody
    rw [ensure_of hfits, ok_bind] at hbody
    obtain ⟨t, hx, hans, hleaves⟩ := completes_runWith_ok (i := .calStart r) (onErr := calStartRefused) rfl h (fun _ => hpf)
      hbody (.inl (Nat.zero_le _))
    exact ⟨t, hx, hans, leaves_schedule hleaves⟩
  case refused =>
    subst hk hn hT
    have hbody := calStartBody_of (s := s.tick r.t) hlen hrsv hkind hunit hs hfree
    dsimp only at hbody
    rw [hfull] at hbody
    obtain ⟨t, hx, hans, hleaves, -⟩ := completes_runWith_error (i := .calStart r) (onErr := calStartRefused) rfl h (fun _ => hpf)
      hbody (Nat.zero_le _)
    obtain ⟨hst, -⟩ := id h
    have hall : Leaves { s.tick r.t with
        pow := { s.pow with refused := satAdd 32 s.pow.refused 1 }
        cur := { s.cur with refusals := satAdd 32 s.cur.refusals 1 } } t :=
      leaves_trans (State.post_frame (by exact hst) _ _ _) hleaves
    obtain ⟨-, hcur, -, -, -, hpow⟩ := leaves_at hall
    refine ⟨t, hx, hans, hpow, hcur, ?_⟩
    rw [hcur, hpow]
    exact hall

end Sys2Proof.Machine
end

section
/-! PROOF. CLOCK_SYNC_ARM, MOUNT_RELEASE, COURIER_ASSIGN, COURIER_RESUME (R68, R111, R113, R421, R438, R452). -/
namespace Sys2Proof.Machine

/-! ### Tables and units -/

@[simp] theorem tset_tset {α : Type} (t : Table α) (k : Nat) (v w : α) : tset (tset t k v) k w = tset t k w := by
  induction t with
  | nil => simp [tset]
  | cons e t ih =>
    obtain ⟨a, x⟩ := e
    by_cases hlt : k < a
    · simp [tset, hlt]
    · by_cases heq : a = k
      · simp [tset, heq]
      · simp [tset, hlt, heq, ih]

@[simp] theorem State.mt_setMt_self (s : State) (p : Nat) (m : Mount) : (s.setMt p m).mt p = m := tget_tset_self _ _ _ _

@[simp] theorem State.setMt_setMt (s : State) (p : Nat) (m m' : Mount) : (s.setMt p m).setMt p m' = s.setMt p m' := by
  simp only [State.setMt, tset_tset]

@[simp] theorem State.qu_setQu_self (s : State) (q : Nat) (x : Queue) : (s.setQu q x).qu q = x := tget_tset_self _ _ _ _

theorem State.qu_setQu_other (s : State) {q k : Nat} (x : Queue) (h : k ≠ q) : (s.setQu q x).qu k = s.qu k :=
  tget_tset_other _ _ _ _ _ (Ne.symm h)

/-! ### Write-back of a mount's counters -/

/-- A mount whose counters are written back as they stand at `now` (R105, R107, R113). -/
def Mount.writtenBack (x : MountXfer) (now : Nat) (m : Mount) : Mount :=
  let m' := { m with wroteAt := some now }
  if !m.governs then m
  else if x.done.isSome then
    { m' with gen := (m.gen + 1) % 2 ^ 32, copyB := !m.copyB, wRelay := m.relay, wEvents := m.events, wTime := m.timeUs, failing := false }
  else if x.gone then m' else { m' with failing := true }

/-- A mount once its removal has been asked for (R111). -/
def Mount.letGo (m : Mount) : Mount := { m with released := m.present, due := true }

theorem Mount.writtenBack_fields (x : MountXfer) (now : Nat) (m : Mount) :
    let w := m.writtenBack x now
    (m.governs = true → x.done.isSome → w.gen = (m.gen + 1) % 2 ^ 32 ∧ w.copyB = !m.copyB ∧ w.wRelay = m.relay ∧
      w.wEvents = m.events ∧ w.wTime = m.timeUs ∧ w.failing = false) ∧
    (m.governs = true → x.done = none →
      w.failing = (m.failing || !x.gone) ∧ w.gen = m.gen ∧ w.wTime = m.wTime) ∧
    w.record = m.record ∧ (m.governs = true → w.wroteAt = some now) ∧ (m.governs = false → w = m) := by
  by_cases hgov : m.governs = true
  · cases hdone : x.done with
    | none => cases hgone : x.gone <;> simp [writtenBack, hgov, hdone, hgone]
    | some _ => simp [writtenBack, hgov, hdone]
  · simp [writtenBack, hgov]

theorem Mount.writtenBack_present (x : MountXfer) (now : Nat) (m : Mount) :
    (m.writtenBack x now).present = m.present := by
  unfold writtenBack
  dsimp only
  split_ifs <;> rfl

theorem leaves_foldl {α : Type} {f : State → α → State} (hf : ∀ u a, Leaves u (f u a)) (l : List α) (s : State) :
    Leaves s (l.foldl f s) := by
  induction l generalizing s with
  | nil => exact leaves_refl s
  | cons a l ih => exact leaves_trans (hf s a) (ih _)

theorem State.sendCopy_leaves (s : State) (p off : Nat) (b : List Byte) : Leaves s (s.sendCopy p off b) := by
  unfold State.sendCopy
  refine leaves_foldl (fun u i => ?_) _ s
  rfl

theorem leaves_setMt {u t : State} (h : Leaves u t) (p : Nat) (m : Mount) : Leaves (u.setMt p m) (t.setMt p m) :=
  congrArg (fun z : State => z.setMt p m) h

/-- A mount that a state gains, and what becomes of it then. -/
theorem leaves_setMt_mt {u t : State} {p : Nat} {m : Mount} (h : Leaves (u.setMt p m) t) (f : Mount → Mount) :
    Leaves (u.setMt p (f m)) (t.setMt p (f (t.mt p))) := by
  have hmt : t.mt p = m := (h.field (fun z => z.mt p) fun _ _ _ => rfl).trans (u.mt_setMt_self p m)
  have hset := leaves_setMt h p (f m)
  rw [State.setMt_setMt] at hset
  rw [hmt]
  exact hset

/-- A write-back, and what becomes of its mount then: nothing else but mailboxes and what has been sent. -/
theorem writeCounts_leaves {s : State} (h : s.boot.st = 1) (p : Nat) (tries : List MountTry) (f : Mount → Mount) :
    Leaves (s.setMt p (f ((s.mt p).writtenBack (mountXfer tries) s.cad.now)))
      ((writeCounts p tries s).setMt p (f ((writeCounts p tries s).mt p))) := by
  unfold writeCounts
  dsimp only
  by_cases hgov : (s.mt p).governs = true
  · have hsent : Leaves s ((List.range (mountXfer tries).made).foldl (fun u _ => u.sendCopy p
        (if (s.mt p).copyB then 352 else 432) (copyBytes (s.mt p) (((s.mt p).gen + 1) % 2 ^ 32))) s) :=
      leaves_foldl (fun u _ => u.sendCopy_leaves p _ _) _ s
    generalize (List.range (mountXfer tries).made).foldl _ s = u at hsent ⊢
    obtain ⟨hboot, -, -, hcad, -⟩ := leaves_at hsent
    simp only [Mount.writtenBack, hgov, hcad, Bool.not_true, Bool.false_eq_true, if_false, -Nat.reducePow]
    split_ifs
    all_goals refine leaves_setMt_mt ?_ f
    · exact leaves_setMt hsent p _
    · exact leaves_setMt hsent p _
    · refine leaves_trans (leaves_setMt hsent p _) (State.post_frame ?_ _ _ _)
      exact (congrArg Boot.st hboot).trans h
  · simp [Mount.writtenBack, hgov]

/-! ### Bodies -/

theorem clockSyncArmBody_of {r : Req} {s : State} (hlen : r.len = 0) (hidle : s.view.anyActive = false) :
    clockSyncArmBody r s = .ok (s.setCad { s.cad with syncArmed := true }, []) := by
  simp only [clockSyncArmBody, lenIs_of hlen, hidle, Bool.not_false, ensure_true, ok_bind, pure_eq_ok]

theorem mountReleaseBody_of {r : Req} {s : State} {p : Nat} (hlen : r.len = 8) (hrsv : r.u 2 6 = 0) (hp : r.u 0 2 = p)
    (hlt : p < 12) :
    let u := writeCounts p (envTries r.env) s
    mountReleaseBody r s = .ok ((u.setMt p (u.mt p).letGo).post evMountReleased [(1, p)], []) := by
  subst hp
  simp only [mountReleaseBody, oneNum_of hlen hrsv, ensure_of (decide_eq_true hlt), ok_bind, pure_eq_ok, Mount.letGo]

theorem courierAssignBody_of {r : Req} {s : State} {q : Nat} (hlen : r.len = 8) (hrsv : r.u 4 4 = 0) (hq : r.u 0 2 = q)
    (hlt : q < 64) (hfn : r.u 2 2 ≤ s.boot.numVfs) (hoff : (s.quBlock q).u 1 1 = 0) :
    courierAssignBody r s = .ok (s.setQu q { s.qu q with fn := r.u 2 2 }, []) := by
  subst hq
  simp only [courierAssignBody, twoNum_of hlen hrsv, ensure_of (decide_eq_true hlt), ensure_of (decide_eq_true hfn), hoff,
    beq_self_eq_true, ensure_true, ok_bind, pure_eq_ok]

/-- The Stores of a resumed queue, each with its sequence number. -/
def resumeEntries (r : Req) : List (Nat × Nat × Nat) :=
  (List.range (r.u 1 1)).map fun i => (r.u (8 + 10 * i) 2, r.u (10 + 10 * i) 8, 8 + 10 * i)

/-- One Store of the queue takes up where the host stands. -/
def resumeEntry (s : State) (e : Nat × Nat × Nat) : State := s.setSto e.1 (resumeStore s.cad e.2.1 (s.sto e.1))

theorem courierResumeBody_ok {r : Req} {s : State} {out : State × List Byte} (h : courierResumeBody r s = .ok out) :
    distinct ((resumeEntries r).map (·.1)) = true ∧
      out = (((resumeEntries r).foldl resumeEntry s).setQu (r.u 0 1) { s.qu (r.u 0 1) with
        st := 1, head := 0, tail := 0, desc := none, reads := [], next := 0, asked := false, waiting := 0
        sample := (s.quBlock (r.u 0 1)).u 64 8 }, []) := by
  unfold courierResumeBody at h
  obtain ⟨-, -, h⟩ := bind_ok h
  obtain ⟨-, -, h⟩ := bind_ok h
  extract_lets q x b ns ents s' at h
  obtain ⟨-, -, h⟩ := bind_ok h
  obtain ⟨-, -, h⟩ := bind_ok h
  obtain ⟨-, -, h⟩ := bind_ok h
  obtain ⟨_, hcount, h⟩ := bind_ok h
  obtain ⟨-, -, h⟩ := bind_ok h
  obtain ⟨_, hdist, h⟩ := bind_ok h
  have hlen : r.u 1 1 = ns.length := beq_iff_eq.mp (ensure_ok hcount)
  have hents : ents = resumeEntries r := by
    rw [resumeEntries, hlen]
  rw [← hents]
  exact ⟨ensure_ok hdist, (Except.ok.inj h).symm⟩

/-! ### Stores that take up again -/

theorem resumeStore_gen (c : Cad) (seq : Nat) (x : Store) : { resumeStore c seq x with gen := x.gen } = resumeStore c seq x := by
  unfold resumeStore
  split <;> rfl

theorem resumeEntry_rest (s : State) (e : Nat × Nat × Nat) : { resumeEntry s e with store := s.store } = s :=
  State.setSto_rest _ _ _

/-- The entries of a resumed queue change Stores alone. -/
theorem resumeEntries_rest (l : List (Nat × Nat × Nat)) (s : State) :
    { l.foldl resumeEntry s with store := s.store } = s := by
  induction l generalizing s with
  | nil => rfl
  | cons e l ih =>
    have hrest := congrArg (fun z : State => { z with store := s.store }) (ih (resumeEntry s e))
    exact hrest.trans (resumeEntry_rest s e)

theorem resumeEntries_leaves (l : List (Nat × Nat × Nat)) (s : State) (q : Nat) (x : Queue) :
    Leaves { s.setQu q x with store := (l.foldl resumeEntry s).store } ((l.foldl resumeEntry s).setQu q x) := by
  have hrest := congrArg (fun z : State => ({ z with
    store := (l.foldl resumeEntry s).store, mbox := s.mbox, sent := s.sent } : State).setQu q x) (resumeEntries_rest l s)
  exact hrest

theorem resumeEntries_cad (l : List (Nat × Nat × Nat)) (s : State) : (l.foldl resumeEntry s).cad = s.cad := by
  have hrest := congrArg State.cad (resumeEntries_rest l s)
  exact hrest

theorem resumeEntries_sto_other {n : Nat} (l : List (Nat × Nat × Nat)) (s : State) (h : ∀ e ∈ l, e.1 ≠ n) :
    (l.foldl resumeEntry s).sto n = s.sto n := by
  induction l generalizing s with
  | nil => rfl
  | cons e l ih =>
    rw [List.foldl_cons, ih _ fun e' he' => h e' (List.mem_cons_of_mem _ he')]
    exact State.sto_setSto_other _ _ (Ne.symm (h e List.mem_cons_self))

/-- Each Store of the list takes up once, where no Store is listed twice. -/
theorem resumeEntries_sto_of_mem {e : Nat × Nat × Nat} (l : List (Nat × Nat × Nat)) (s : State)
    (hd : distinct (l.map (·.1)) = true) (he : e ∈ l) :
    { (l.foldl resumeEntry s).sto e.1 with gen := (s.sto e.1).gen } = resumeStore s.cad e.2.1 (s.sto e.1) := by
  induction l generalizing s with
  | nil => exact absurd he List.not_mem_nil
  | cons a l ih =>
    rw [List.map_cons, distinct, Bool.and_eq_true, Bool.not_eq_true', List.contains_eq_mem, decide_eq_false_iff_not] at hd
    obtain ⟨ha, hd⟩ := hd
    rw [List.foldl_cons]
    obtain rfl | hmem := List.mem_cons.mp he
    · have hother : ∀ e' ∈ l, e'.1 ≠ e.1 := fun e' he' heq => ha (heq ▸ List.mem_map_of_mem (f := (·.1)) he')
      rw [resumeEntries_sto_other l _ hother]
      exact (congrArg (fun x : Store => { x with gen := (s.sto e.1).gen }) (State.sto_setSto_self _ _ _)).trans
        (resumeStore_gen _ _ _)
    · have hne : e.1 ≠ a.1 := fun heq => ha (heq ▸ List.mem_map_of_mem (f := (·.1)) hmem)
      have hsto : (resumeEntry s a).sto e.1 = s.sto e.1 := State.sto_setSto_other _ _ hne
      have hcad : (resumeEntry s a).cad = s.cad := resumeEntries_cad [a] s
      rw [← hsto, ← hcad]
      exact ih _ hd hmem

/-- Settles O28: each body's one update, and for COURIER_RESUME one update per Store, no Store named twice. -/
theorem unitCommands : Obligations.UnitCommands := by
  intro r s h
  obtain ⟨hst, -⟩ := id h
  refine ⟨fun hpf hlen hidle => ?sync, fun p hpf hlen hrsv hp hlt => ?release, fun q hpf hlen hrsv hq hlt hfn hoff => ?assign,
    fun hp => ?resume⟩
  case sync =>
    exact accepts_of_ok (exec_of_mailRow rfl s) h (fun _ => hpf) (clockSyncArmBody_of (s := s.tick r.t) hlen hidle)
      fun _ => id
  case release =>
    refine accepts_of_ok (exec_of_mailRow rfl s) h (fun _ => hpf) (mountReleaseBody_of (s := s.tick r.t) hlen hrsv hp hlt)
      fun t ht => ?_
    have hwrite := writeCounts_leaves (s := s.tick r.t) hst p (envTries r.env) Mount.letGo
    have hpost := State.post_frame (s := (writeCounts p (envTries r.env) (s.tick r.t)).setMt p
      ((writeCounts p (envTries r.env) (s.tick r.t)).mt p).letGo)
      ((congrArg Boot.st (leaves_at hwrite).1).trans hst) evMountReleased [(1, p)] 0
    have hall := leaves_trans hwrite (leaves_trans hpost ht)
    have hmt : t.mt p = _ := (hall.field (fun z => z.mt p) fun _ _ _ => rfl).trans (State.mt_setMt_self _ p _)
    have hleaves : Leaves ((s.tick r.t).setMt p (t.mt p)) t := by
      rw [hmt]
      exact hall
    obtain ⟨hdone, hfailed, hrecord, hwrote, hsame⟩ :=
      (s.mt p).writtenBack_fields (mountXfer (envTries r.env)) (s.tick r.t).cad.now
    rw [hmt] at hleaves ⊢
    refine ⟨?_, rfl, hdone, hfailed, hrecord, hwrote, fun hgov => ?_, hleaves⟩
    · exact (s.mt p).writtenBack_present _ _
    · have hrel := congrArg Mount.letGo (hsame hgov)
      exact hrel
  case assign =>
    exact accepts_of_ok (exec_of_mailRow rfl s) h (fun _ => hpf)
      (courierAssignBody_of (s := s.tick r.t) hlen hrsv hq hlt hfn hoff) fun _ => id
  case resume =>
    obtain ⟨out, hout⟩ := exists_ok_of_passes hp
    obtain ⟨hd, rfl⟩ := courierResumeBody_ok hout
    refine accepts_of_ok (exec_of_mailRow rfl s) h (by simp) hout fun t ht => ?_
    have hsto (n : Nat) : t.sto n = ((resumeEntries r).foldl resumeEntry (s.tick r.t)).sto n :=
      ht.field (fun z => z.sto n) fun _ _ _ => rfl
    have hqu : t.qu (r.u 0 1) = _ := (ht.field (fun z => z.qu (r.u 0 1)) fun _ _ _ => rfl).trans (State.qu_setQu_self _ _ _)
    have hstore : t.store = ((resumeEntries r).foldl resumeEntry (s.tick r.t)).store := ht.field State.store fun _ _ _ => rfl
    refine ⟨hqu, fun i n hi hn => ?_, fun n hn => ?_, ?_⟩
    · rw [hsto, hn]
      exact resumeEntries_sto_of_mem _ _ hd (List.mem_map_of_mem (List.mem_range.mpr hi))
    · rw [hsto]
      refine resumeEntries_sto_other _ _ fun e he => ?_
      obtain ⟨i, hi, rfl⟩ := List.mem_map.mp he
      exact hn i (List.mem_range.mp hi)
    · rw [hqu, hstore]
      exact leaves_trans (resumeEntries_leaves (resumeEntries r) (s.tick r.t) (r.u 0 1) _) ht

end Sys2Proof.Machine
end

section
/-! PROOF. COLLECTION_FORM and COLLECTION_DISSOLVE (R511 to R515). -/
namespace Sys2Proof.Machine

/-! ### COLLECTION_FORM -/

/-- The result of COLLECTION_FORM has a place in the mailbox (R466, R521). -/
theorem collectionFormBody_ok {r : Req} {s : State} {out : State × List Byte} (h : collectionFormBody r s = .ok out) :
    out.1 = formed (correctionAt s r.env (s.posOf s.view.index)) ((s.time.turn + 1) % 2 ^ 48) s ∧
      out.2.length ≤ 2016 := by
  unfold collectionFormBody at h
  extract_lets others al corrs entries turn at h
  have hentries : entries.length = 128 := by
    have hrow (p : Nat) : (if s.collD ≤ p then zeros 8
        else fields [(4, if p = 0 then 0 else r.env.getD (2 * (p - 1) + 1) 0), (4, ofInt 32 (corrs.getD p 0))]).length = 8 := by
      split <;> simp
    simp only [entries, List.length_flatMap, hrow]
    rfl
  have hturn : turn = (s.time.turn + 1) % 2 ^ 48 := rfl
  clear_value others al corrs entries turn
  obtain ⟨-, -, h⟩ := bind_ok h
  obtain ⟨-, -, h⟩ := bind_ok h
  obtain ⟨-, -, h⟩ := bind_ok h
  obtain ⟨-, -, h⟩ := bind_ok h
  obtain ⟨-, -, h⟩ := bind_ok h
  obtain ⟨-, -, h⟩ := bind_ok h
  obtain ⟨-, -, h⟩ := bind_ok h
  obtain rfl := Except.ok.inj h
  refine ⟨by rw [hturn], ?_⟩
  simp [hentries]

theorem formed_leaves {s : State} (h : s.boot.st = 1) (corr : Int) (turn : Nat) :
    Leaves { s with
      cad := { s.cad with awaitAnchor := true, keptTurn := some turn }
      coll := { s.coll with st := 2, corr := corr, formed := s.coll.aligns, lost := [], nextTrg := 0, nextCtl := 0 } }
      (formed corr turn s) := State.post_frame (by exact h) _ _ _

/-! ### COLLECTION_DISSOLVE -/

theorem Block.rehandle_typ (old new : Nat) (b : Block) : (b.rehandle old new).typ = b.typ := rfl

/-- No committed block of a type: its default stands. -/
theorem block_of_none {s : State} {t : Nat} {key : List Nat} (h : ∀ b ∈ s.cur.committed, b.typ ≠ t) :
    s.block t key = defaultBlock t key := by
  have hnone : s.cur.committed.find? (fun b => b.typ == t && b.key == key) = none := by
    rw [List.find?_eq_none]
    intro b hb
    simp [h b hb]
  simp only [State.block, View.block, State.view, hnone, Option.getD_none]

theorem collectionDissolveBody_of {r : Req} {s : State} (hlen : r.len = 0) (hlead : s.isLead = true)
    (hidle : s.view.anyActive = false) (henv : r.env = []) (hexh : ∀ e ∈ s.exh, 48 ≤ e.1 → e.2.st = 0) :
    let u : State := { s with cur := { s.cur with committed := s.cur.committed.filter fun b => b.typ != btCollection } }
    collectionDissolveBody r s = .ok (applyCollection s.collBlock (u.block btCollection []) u, []) := by
  have hnone : (s.exh.any fun e => decide (48 ≤ e.1) && e.2.st != 0) = false := by
    rw [List.any_eq_false]
    intro e he hdef
    simp only [Bool.and_eq_true, decide_eq_true_eq, bne_iff_ne] at hdef
    exact hdef.2 (hexh e he hdef.1)
  simp only [collectionDissolveBody, lenIs_of hlen, hlead, hidle, hnone, henv, List.isEmpty_nil, Bool.not_false, Bool.and_self,
    ensure_true, ok_bind, pure_eq_ok]

/-- What a COLLECTION block that takes effect leaves of what it does not speak of. -/
theorem applyCollection_fields (old new : Block) (s : State) :
    (applyCollection old new s).cad = s.cad ∧ (applyCollection old new s).health = s.health ∧
      (applyCollection old new s).boot = s.boot ∧
      ∀ b ∈ (applyCollection old new s).cur.committed, ∃ b' ∈ s.cur.committed, b.typ = b'.typ := by
  unfold applyCollection
  split_ifs
  · exact ⟨rfl, rfl, rfl, fun b hb => ⟨b, hb, rfl⟩⟩
  · refine ⟨rfl, rfl, rfl, fun b hb => ?_⟩
    obtain ⟨b', hb', rfl⟩ := List.mem_map.mp hb
    exact ⟨b', hb', rfl⟩

theorem applyCollection_same {old new : Block} {s : State} (h : old.data = new.data) : applyCollection old new s = s := by
  simp [applyCollection, h]

theorem applyCollection_coll {old new : Block} {s : State} (h : old.data ≠ new.data) :
    let c := (applyCollection old new s).coll
    c.st = 0 ∧ c.formed = [] ∧ c.corr = 0 ∧ c.lost = [] := by
  rw [applyCollection, if_neg (by simpa using h)]
  exact ⟨rfl, rfl, rfl, rfl⟩

/-- Settles O29: the dissolved collection has no committed COLLECTION block, so its default stands. -/
theorem collectionCommands : Obligations.CollectionCommands := by
  intro r s h hpf
  obtain ⟨hst, -⟩ := id h
  refine ⟨fun hp => ?form, fun hlen hlead hidle henv hexh => ?dissolve⟩
  case form =>
    obtain ⟨⟨u, res⟩, hout⟩ := exists_ok_of_passes hp
    obtain ⟨rfl, hres⟩ := collectionFormBody_ok hout
    obtain ⟨t, hx, -, hleaves, -⟩ := completes_of_ok (exec_of_mailRow (i := .collectionForm r) rfl s) h (fun _ => hpf) hout (.inl hres)
    have hall := leaves_trans (formed_leaves (s := s.tick r.t) hst _ _) hleaves
    have hcoll : t.coll = _ := hall.field State.coll fun _ _ _ => rfl
    obtain ⟨-, -, -, hcad, -⟩ := leaves_at hall
    refine ⟨t, hx, hcoll, hcad, ?_⟩
    rw [hcoll, hcad]
    exact hall
  case dissolve =>
    refine accepts_of_ok (exec_of_mailRow rfl s) h (fun _ => hpf)
      (collectionDissolveBody_of (s := s.tick r.t) hlen hlead hidle henv hexh) fun t ht => ?_
    have hfilter : ∀ b ∈ (s.tick r.t).cur.committed.filter (fun b => b.typ != btCollection), b.typ ≠ btCollection :=
      fun b hb => bne_iff_ne.mp (List.mem_filter.mp hb).2
    rw [block_of_none hfilter] at ht
    obtain ⟨hcad, hhealth, hboot, hcom⟩ := applyCollection_fields (s.tick r.t).collBlock (defaultBlock btCollection [])
      { s.tick r.t with cur := { s.cur with committed := s.cur.committed.filter fun b => b.typ != btCollection } }
    obtain ⟨htboot, htcur, -, htcad, -⟩ := leaves_at ht
    have hcoll : t.coll = _ := ht.field State.coll fun _ _ _ => rfl
    refine ⟨block_of_none fun b hb => ?_, fun hdata => ?_, fun hdata => ?_, htcad.trans hcad,
      (ht.field State.health fun _ _ _ => rfl).trans hhealth, htboot.trans hboot⟩
    · rw [htcur] at hb
      obtain ⟨b', hb', htyp⟩ := hcom b hb
      rw [htyp]
      exact hfilter b' hb'
    · rw [hcoll]
      exact applyCollection_coll hdata
    · have hsame : (s.tick r.t).collBlock.data = (defaultBlock btCollection []).data := hdata
      rw [hcoll, applyCollection_same hsame]
      rfl

end Sys2Proof.Machine
end

section
/-! PROOF. FW_STAGE, FW_VERIFY, FW_ACTIVATE (R495, R496, R576). -/
namespace Sys2Proof.Machine

/-! ### Commands that act once their response is complete -/

/-- A fresh command that its body accepts acts on what its answer leaves. -/
theorem completes_runThen {i : Instr} {op : Nat} {pf : Bool} {r : Req} {s : State} {body : State → Effect}
    {after : State → State} (hx : exec i s = .next (runThen op pf r s body after)) (h : Fresh r s)
    (hpf : pf = true → r.fn = 0) {u : State} {res : List Byte} (hb : body (s.tick r.t) = .ok (u, res))
    (hl : Fits r res.length) :
    Completes i s fun t => ∃ w, t = after w ∧ Answered op r s w eOk 0 res ∧ Leaves u w := by
  obtain ⟨-, -, -, hseq, -⟩ := id h
  have hdone : runThen op pf r s body after = after (runCommand op pf r s body) := by
    simp only [runThen, accepting_fresh h, State.mb_tick, checked_fresh h hpf hb hl, hseq, beq_self_eq_true, Bool.and_self,
      Except.toBool, if_true]
  obtain ⟨hans, hleaves, -⟩ := runCommand_ok h hpf hb hl
  exact ⟨_, hx, _, hdone, hans, hleaves⟩

/-! ### Images -/

@[simp] theorem Boot.img_setImg_slot (b : Boot) (x : Image) : (b.setImg b.slot x).img b.slot = x := by
  simp only [Boot.setImg, Boot.img]
  split_ifs <;> rfl

/-- The slot that does not run is not the one that runs. -/
theorem Boot.img_setImg_image (b : Boot) (x : Image) : (b.setImg b.slot x).img b.image = b.img b.image := by
  by_cases h : b.image = 0
  · simp [Boot.setImg, Boot.img, Boot.slot, h]
  · have hslot : 1 - b.image = 0 := by omega
    simp [Boot.setImg, Boot.img, Boot.slot, h, hslot]

theorem Boot.slot_setImg (b : Boot) (i : Nat) (x : Image) : (b.setImg i x).slot = b.slot := by
  unfold Boot.setImg
  split_ifs <;> rfl

theorem fwStageBody_of {r : Req} {s : State} {b : Boot} (hb : s.boot = b) (hlen : 8 ≤ r.len) (hlen' : r.len ≤ 8 + 2 ^ 20)
    (hrsv : r.u 4 4 = 0) (hend : r.u 0 4 + (r.bytes.drop 8).length ≤ 12 * 2 ^ 20) :
    let y := flashWrite (if (b.img b.slot).erase then [] else (b.img b.slot).bytes) (r.u 0 4) (r.bytes.drop 8)
    fwStageBody r s = .ok (s.setBoot (b.setImg b.slot { bytes := y, st := 1, erase := false, patch := getU y 6 1
                                                        minor := getU y 7 1, major := getU y 8 1, svn := getU y 10 2 }), []) := by
  subst hb
  have hlens : (decide (8 ≤ r.len) && decide (r.len ≤ 8 + 2 ^ 20)) = true := by rw [decide_eq_true hlen, decide_eq_true hlen']; rfl
  simp only [fwStageBody, ensure_of hlens, rsvIs_of hrsv, ensure_of (decide_eq_true hend), ok_bind, pure_eq_ok, -Nat.reducePow,
    -Nat.reduceAdd, -Nat.reduceMul]

theorem fwVerifyBody_of {r : Req} {s : State} (hlen : r.len = 0) (hst : (s.boot.img s.boot.slot).st ≠ 0) :
    let x := s.boot.img s.boot.slot
    fwVerifyBody r s = ensure (imageOk s.boot.minSvn x.bytes) eFwImage >>= fun _ =>
      .ok (s.setBoot (s.boot.setImg s.boot.slot { x with valid := true, st := 2 }),
        fwStatusBytes (s.boot.setImg s.boot.slot { x with valid := true, st := 2 })) := by
  have hst' : ((s.boot.img s.boot.slot).st != 0) = true := bne_iff_ne.mpr hst
  simp only [fwVerifyBody, lenIs_of hlen, hst', Bool.true_and, ok_bind, pure_eq_ok]
  rfl

theorem fwActivateBody_of_restart {r : Req} {s : State} (hlen : r.len = 8) (hrsv : r.u 1 7 = 0) (hmode : r.u 0 1 = 1)
    (hst : (s.boot.img s.boot.slot).st ≠ 0) : fwActivateBody r s =
      .ok (s.setBoot { s.boot with tryFirst := some s.boot.slot, gen := (s.boot.gen + 1) % 2 ^ 32 }, []) := by
  have hst' : ((s.boot.img s.boot.slot).st != 0) = true := bne_iff_ne.mpr hst
  simp only [fwActivateBody, lenIs_of hlen, rsvIs_of hrsv, hmode, ensure_of hst', decide_true, Nat.le_refl, ensure_true, if_true,
    ok_bind, pure_eq_ok]

theorem fwActivateBody_of_now {r : Req} {s : State} (hlen : r.len = 8) (hrsv : r.u 1 7 = 0) (hmode : r.u 0 1 = 0)
    (hboot : s.boot.st = 1) (hst : (s.boot.img s.boot.slot).st = 2)
    (hmajor : (s.boot.img s.boot.slot).major = (s.boot.img s.boot.image).major)
    (hmembers : ∀ e ∈ s.coll.formed, e.2.1 = (s.boot.img s.boot.slot).major) : fwActivateBody r s = .ok (s, []) := by
  have hall : (s.coll.formed.all fun e => e.2.1 == (s.boot.img s.boot.image).major) = true :=
    List.all_eq_true.mpr fun e he => beq_iff_eq.mpr ((hmembers e he).trans hmajor)
  simp only [fwActivateBody, lenIs_of hlen, rsvIs_of hrsv, hmode, hboot, hst, hmajor, ensure_of hall, decide_true, Nat.zero_le,
    ensure_true, Nat.zero_ne_one, if_false, beq_self_eq_true, Bool.and_self, ok_bind, pure_eq_ok]

/-- Settles O30: an image is written in the slot that does not run; an activation begins once the answer is complete. -/
theorem firmwareCommands : Obligations.FirmwareCommands := by
  rintro r s b h hpf rfl
  obtain ⟨hst, -⟩ := id h
  refine ⟨fun hlen hlen' hrsv hend => ?stage, fun hlen hx => ?verify, fun hlen hrsv hmode hx => ?restart,
    fun hlen hrsv hmode hx hmajor hmembers => ?now⟩
  case stage =>
    refine accepts_of_ok (exec_of_mailRow rfl s) h (fun _ => hpf)
      (fwStageBody_of (s := s.tick r.t) (b := s.boot) rfl hlen hlen' hrsv hend) fun t ht => ?_
    obtain ⟨hboot, -⟩ := leaves_at ht
    have hslot := (congrArg (Boot.img · s.boot.slot) hboot).trans (s.boot.img_setImg_slot _)
    have hrun := (congrArg (Boot.img · s.boot.image) hboot).trans (s.boot.img_setImg_image _)
    refine ⟨congrArg Image.bytes hslot, congrArg Image.st hslot, congrArg Image.erase hslot, ?_, hrun, ?_⟩
    · rw [hboot]
      exact Boot.slot_setImg _ _ _
    · rw [hslot]
      exact ht
  case verify =>
    have hbody := fwVerifyBody_of (s := s.tick r.t) hlen hx
    dsimp only at hbody
    cases hok : imageOk s.boot.minSvn (s.boot.img s.boot.slot).bytes with
    | true =>
      have hok' : imageOk (s.tick r.t).boot.minSvn ((s.tick r.t).boot.img (s.tick r.t).boot.slot).bytes = true := hok
      rw [ensure_of hok', ok_bind] at hbody
      obtain ⟨t, hx', hans, hleaves⟩ := completes_runWith_ok (i := .fwVerify r) (onErr := fwVerifyFailed) rfl h (fun _ => hpf)
        hbody (.inl (by simp [fwStatusBytes]))
      refine ⟨t, hx', fun _ => ⟨?_, hleaves⟩, fun hbad => absurd hbad (by simp)⟩
      rw [(leaves_at hleaves).1]
      exact hans
    | false =>
      have hbad : imageOk (s.tick r.t).boot.minSvn ((s.tick r.t).boot.img (s.tick r.t).boot.slot).bytes = false := hok
      rw [hbad] at hbody
      obtain ⟨t, hx', hans, hleaves, -⟩ := completes_runWith_error (i := .fwVerify r) (onErr := fwVerifyFailed) rfl h
        (fun _ => hpf) hbody (Nat.zero_le _)
      exact ⟨t, hx', fun hok => absurd hok (by simp), fun _ => ⟨hans, hleaves⟩⟩
  case restart =>
    obtain ⟨t, hx', w, rfl, hans, hleaves⟩ := completes_runThen (i := .fwActivate r) (after := activationBegins r) rfl h
      (fun _ => hpf) (fwActivateBody_of_restart (s := s.tick r.t) hlen hrsv hmode hx) (.inl (Nat.zero_le _))
    have hafter : activationBegins r w = w := by simp [activationBegins, hmode]
    rw [hafter] at hx'
    exact ⟨w, hx', hans, hleaves⟩
  case now =>
    obtain ⟨t, hx', w, rfl, hans, hleaves⟩ := completes_runThen (i := .fwActivate r) (after := activationBegins r) rfl h
      (fun _ => hpf) (fwActivateBody_of_now (s := s.tick r.t) hlen hrsv hmode hst hx hmajor hmembers) (.inl (Nat.zero_le _))
    obtain ⟨hboot, hcur, -, hcad, -⟩ := leaves_at hleaves
    have hafter : activationBegins r w = restartBegins 3 (w.setBoot (w.boot.setImg w.boot.slot
        { w.boot.img w.boot.slot with st := 3 })) := by simp [activationBegins, hmode]
    rw [hafter] at hx'
    have hslot : w.boot.slot = s.boot.slot := congrArg Boot.slot hboot
    generalize hv : w.setBoot (w.boot.setImg w.boot.slot { w.boot.img w.boot.slot with st := 3 }) = v at hx'
    have hvcur : v.cur = s.cur := by
      rw [← hv]
      exact hcur
    have hvcad : v.cad = (s.tick r.t).cad := by
      rw [← hv]
      exact hcad
    have hvimg : (v.boot.img s.boot.slot).st = 3 := by
      rw [← hv, ← hslot]
      exact congrArg Image.st (w.boot.img_setImg_slot _)
    have hvleaves : Leaves { s.tick r.t with boot := v.boot } v := by
      have hset := congrArg (fun z : State => z.setBoot v.boot) hleaves
      rw [← hv] at hset ⊢
      exact hset
    have hvans : Answered 0xC2 r s v eOk 0 [] := by
      rw [← hv]
      exact hans
    have halert := congrArg (fun c : Cur => c.alert ||| 8) hvcur
    have hall := congrArg (fun z : State => { z with boot := (restartBegins 3 v).boot, cur := (restartBegins 3 v).cur })
      hvleaves
    exact ⟨_, hx', hvans, rfl, hvimg, congrArg (fun c : Cad => some (3, c.now)) hvcad,
      congrArg (fun c : Cur => satAdd 32 c.restarts 1) hvcur, halert, hall⟩

end Sys2Proof.Machine
end

section
/-! PROOF. Writes to BAR0 and the registers with rows of their own (R9, R10, R420, R456 to R463, R468, R488). -/
namespace Sys2Proof.Machine

/-! ### Which register an offset names -/

section
variable {fn t : Nat} {v : BitVec 64} {s : State} (hfn : fn ≤ s.boot.numVfs)
include hfn

theorem registerWrite_ring : registerWrite fn 0x100 4 v t s =
    if (v.setWidth 32).getLsbD 0 then ring fn (s.tick t) else s.tick t := by
  have hnot : ¬(s.tick t).boot.numVfs < fn := Nat.not_lt.mpr hfn
  unfold registerWrite
  dsimp only
  rw [if_neg hnot, if_pos rfl]
  rfl

theorem registerWrite_request {a size : Nat} (ha : 0x1000 ≤ a) (hend : a + size ≤ 0x1800) :
    registerWrite fn a size v t s = writeRequest fn a size v (s.tick t) := by
  have hring : a ≠ 0x100 := by omega
  have hnot : ¬(s.tick t).boot.numVfs < fn := Nat.not_lt.mpr hfn
  unfold registerWrite
  dsimp only
  rw [if_neg hnot, if_neg hring, if_pos ⟨ha, hend⟩]

theorem registerWrite_rest {a size : Nat} (ha : 0x5000 ≤ a) : registerWrite fn a size v t s = s.tick t := by
  have hnot : ¬(s.tick t).boot.numVfs < fn := Nat.not_lt.mpr hfn
  unfold registerWrite
  dsimp only
  rw [if_neg hnot, if_neg (by omega), if_neg (by omega), if_neg (c := a = 0x104) (by omega),
    if_neg (c := a = 0x110) (by omega), if_neg (c := a = 0x208) (by omega), if_neg (c := a = 0x20C) (by omega),
    if_neg (c := 0x2000 ≤ a ∧ a < 0x2100) (by omega), if_neg (c := 0x4000 ≤ a ∧ a < 0x5000) (by omega), ite_self]

variable (hfallow : s.pow.fallow = 0)
include hfallow

/-- Outside fallow mode, below the request area: the registers with rows of their own. -/
theorem registerWrite_control :
    let w : Word := v.setWidth 32
    registerWrite fn 0x104 4 v t s = doorbellLostClear fn w false (s.tick t) ∧
      registerWrite fn 0x110 4 v t s = eventConsumed fn w t (s.tick t) ∧
      registerWrite fn 0x208 4 v t s = alertStatusClear fn w 0 (s.tick t) ∧
      registerWrite fn 0x20C 4 v t s = if fn = 0 then
        { s.tick t with cur := { s.cur with alertMask := v.toNat % 16 } } else s.tick t := by
  have hnot : ¬(s.tick t).boot.numVfs < fn := Nat.not_lt.mpr hfn
  have hup : ¬(s.tick t).pow.fallow ≠ 0 := not_not_intro hfallow
  refine ⟨?_, ?_, ?_, ?_⟩
  all_goals
    unfold registerWrite
    dsimp only
    rw [if_neg hnot, if_neg (by decide), if_neg (by decide), if_neg hup]
  · rfl
  · rfl
  · rfl
  · have hmask : (v.setWidth 32 &&& 0xF#32).toNat = v.toNat % 16 := by
      have hlow : v.toNat % 2 ^ 32 &&& (2 ^ 4 - 1) = v.toNat % 2 ^ 32 % 2 ^ 4 := Nat.and_two_pow_sub_one_eq_mod _ 4
      rw [BitVec.toNat_and, BitVec.toNat_setWidth]
      refine hlow.trans ?_
      omega
    have hword : ((4 : Nat) == 4 && 0x20C % 4 == 0) = true := rfl
    rw [hword, hmask]
    by_cases h0 : fn = 0
    · simp only [h0, and_self, if_true]
      rfl
    · simp only [h0, and_false, if_false]
      rfl

theorem registerWrite_doorbell {q : Nat} (hq : q < 64) :
    let w : Word := v.setWidth 32
    registerWrite fn (0x2000 + 4 * q) 4 v t s = doorbell fn q w (w.getLsbD 31) (s.tick t) := by
  have hnot : ¬(s.tick t).boot.numVfs < fn := Nat.not_lt.mpr hfn
  have hup : ¬(s.tick t).pow.fallow ≠ 0 := not_not_intro hfallow
  have hword : ((4 : Nat) == 4 && (0x2000 + 4 * q) % 4 == 0) = true := by
    have : (0x2000 + 4 * q) % 4 = 0 := by omega
    simp [this]
  have hidx : (0x2000 + 4 * q - 0x2000) / 4 = q := by omega
  unfold registerWrite
  dsimp only
  rw [hword, if_neg hnot, if_neg (by omega), if_neg (by omega), if_neg hup, if_neg (by omega), if_neg (by omega),
    if_neg (by omega), if_neg (by omega), if_pos (by omega), if_pos rfl, hidx]

theorem registerWrite_msix {a : Nat} (ha : a < 1024) :
    registerWrite fn (0x4000 + 4 * a) 4 v t s = writeMsix fn a (v.setWidth 32) (s.tick t) := by
  have hnot : ¬(s.tick t).boot.numVfs < fn := Nat.not_lt.mpr hfn
  have hup : ¬(s.tick t).pow.fallow ≠ 0 := not_not_intro hfallow
  have hword : ((4 : Nat) == 4 && (0x4000 + 4 * a) % 4 == 0) = true := by
    have : (0x4000 + 4 * a) % 4 = 0 := by omega
    simp [this]
  have hidx : (0x4000 + 4 * a - 0x4000) / 4 = a := by omega
  unfold registerWrite
  dsimp only
  rw [hword, if_neg hnot, if_neg (by omega), if_neg (by omega), if_neg hup, if_neg (by omega), if_neg (by omega),
    if_neg (by omega), if_neg (by omega), if_neg (by omega), if_pos (by omega), if_pos rfl, hidx]

end

/-! ### What each register does -/

theorem ring_busy {fn : Nat} {s : State} (hst : s.boot.st = 1 ∨ s.boot.st = 4) (hbusy : (s.mb fn).busy = true) :
    ring fn s = s.setMb fn { s.mb fn with lost := true } := by
  have hst0 : s.boot.st ≠ 0 := by omega
  simp [ring, hst0, State.busyOf, hbusy]

theorem ring_free {fn : Nat} {s : State} (hst : s.boot.st = 1 ∨ s.boot.st = 4) (hbusy : (s.mb fn).busy = false) :
    let u := s.setMb fn { s.mb fn with busy := true, respValid := false, replay := false }
    (s.pow.fallow = 0 → opcodes.contains (getU (cgetAll (fun _ => (0 : Byte)) (s.mb fn).req 0 8) 0 2) = true →
      ring fn s = u) ∧
    (s.pow.fallow ≠ 0 → ring fn s = { u with pow := { s.pow with rung := true } }) := by
  have hst0 : s.boot.st ≠ 0 := by omega
  have hfree : s.busyOf fn = false := by
    rcases hst with h | h <;> simp [State.busyOf, hbusy, h]
  have hring : ring fn s =
      let u := s.setMb fn { s.mb fn with busy := true, respValid := false, replay := false }
      let area := cgetAll (fun _ => (0 : Byte)) (s.mb fn).req 0 8
      if s.pow.fallow = 0 then (if opcodes.contains (getU area 0 2) then u else unknownOpcode fn area u)
      else { u with pow := { s.pow with rung := true } } := by
    unfold ring
    dsimp only
    rw [if_neg hst0, hfree, if_neg Bool.false_ne_true]
    rfl
  refine ⟨fun hfallow hop => ?_, fun hfallow => ?_⟩
  · rw [hring]
    dsimp only
    rw [if_pos hfallow, if_pos hop]
  · rw [hring]
    dsimp only
    rw [if_neg hfallow]

theorem writeRequest_busy {fn off size : Nat} {v : BitVec 64} {s : State} (hbusy : s.busyOf fn = true) :
    writeRequest fn off size v s = s := by
  simp [writeRequest, hbusy]

theorem writeRequest_free {fn off size : Nat} {v : BitVec 64} {s : State} (hbusy : s.busyOf fn = false)
    (hsize : size ∈ [1, 2, 4, 8]) (halign : off % size = 0) : writeRequest fn off size v s =
      s.setMb fn { s.mb fn with req := csetAll (fun _ => 0) (s.mb fn).req (off - 0x1000) (leBytes size v.toNat) } := by
  have hcontains : [1, 2, 4, 8].contains size = true := List.contains_iff_mem.mpr hsize
  simp only [writeRequest, hbusy, hcontains, halign, Bool.not_true, Bool.false_eq_true, ne_eq, not_true_eq_false, or_self,
    if_false]

theorem writeMsix_of {fn a : Nat} {v : BitVec 32} {s : State} (h : a / 4 ∉ (s.mb fn).pba) :
    writeMsix fn a v s = s.setMb fn { s.mb fn with
      msix := cset msixDefault (s.mb fn).msix a (if a % 4 = 3 then v &&& 1#32 else v) } := by
  simp [writeMsix, h]

theorem eventConsumed_off {fn : Nat} {v : Word} {t : Nat} {s : State} (h : fn > s.boot.numVfs ∨ s.pow.fallow ≠ 0) :
    eventConsumed fn v t s = s.tick t := if_pos h

theorem eventConsumed_on {fn : Nat} {v : Word} {t : Nat} {s : State} (h : fn ≤ s.boot.numVfs) (hfallow : s.pow.fallow = 0) :
    let u := (s.tick t).setMb fn { s.mb fn with consumed := v.toNat }
    eventConsumed fn v t s = if s.boot.st = 2 ∨ s.boot.st = 3 then u else u.flushLost fn := by
  have hnot : ¬((s.tick t).boot.numVfs < fn ∨ (s.tick t).pow.fallow ≠ 0) := by
    rintro (hfn | hup)
    · exact absurd h (Nat.not_le.mpr hfn)
    · exact hup hfallow
  exact if_neg hnot

theorem State.flushLost_mb_other (s : State) {f g : Nat} (h : g ≠ f) : (s.flushLost f).mb g = s.mb g := by
  unfold State.flushLost
  dsimp only
  split_ifs
  · rw [State.writeEvent_mb_other _ _ h, State.mb_setMb_other _ _ _ _ (Ne.symm h)]
  · rfl

theorem alertStatusClear_testBit {fn : Nat} {v set : Word} {s : State} {i : Nat} (hi : i < 4) :
    (alertStatusClear fn v set s).cur.alert.testBit i =
      (set.getLsbD i || (s.cur.alert.testBit i && !(v.getLsbD i && decide (fn = 0) && decide (s.pow.fallow = 0)))) := by
  have hlow : (0xF#32).getLsbD i = true := by
    have h4 : i = 0 ∨ i = 1 ∨ i = 2 ∨ i = 3 := by omega
    rcases h4 with rfl | rfl | rfl | rfl <;> rfl
  have halert : (BitVec.ofNat 32 s.cur.alert).getLsbD i = s.cur.alert.testBit i := by
    have h32 : i < 32 := by omega
    rw [BitVec.getLsbD_ofNat, decide_eq_true h32, Bool.true_and]
  have h32 : i < 32 := by omega
  unfold alertStatusClear
  dsimp only
  rw [BitVec.testBit_toNat, BitVec.getLsbD_and, hlow, Bool.and_true, BitVec.getLsbD_or]
  by_cases hfn : fn = 0
  · by_cases hfallow : s.pow.fallow = 0
    · simp only [hfn, hfallow, and_self, if_true, BitVec.getLsbD_and, BitVec.getLsbD_not, halert, h32, decide_true,
        Bool.true_and, Bool.and_true, Bool.or_comm]
    · simp only [hfn, hfallow, and_false, if_false, halert, decide_false, Bool.and_false, Bool.not_false, Bool.and_true,
        Bool.or_comm]
  · simp only [hfn, false_and, if_false, halert, decide_false, Bool.and_false, Bool.false_and, Bool.not_false, Bool.and_true,
      Bool.or_comm]

theorem alertStatusClear_lt (fn : Nat) (v set : Word) (s : State) : (alertStatusClear fn v set s).cur.alert < 16 := by
  unfold alertStatusClear
  dsimp only
  rw [BitVec.toNat_and]
  exact lt_of_le_of_lt Nat.and_le_right (by decide)

/-- Settles O31: by offset, what `registerWrite` runs, and then each register's own row. -/
theorem registerAccesses : Obligations.RegisterAccesses := by
  refine ⟨fun fn t v s hfn => ⟨fun hfallow => ?rows, fun hbit => ?idle, fun hbit hst => ⟨fun hbusy => ?lost, fun hbusy => ?rung⟩,
    fun a size ha hend hsize halign hwf => ⟨fun hbusy => ?discarded, fun hbusy => ?request⟩, fun a size ha => ?rest⟩,
    fun fn t v set again same s => ⟨fun hfn => ?doorbellLost, ?alert, fun hfn hfallow => ?consumed, fun hoff => ?off, ?refusals⟩⟩
  case rows =>
    obtain ⟨hlost, hconsumed, halert, hmask⟩ := registerWrite_control (t := t) (v := v) hfn hfallow
    refine ⟨congrArg Host.Outcome.next hlost, congrArg Host.Outcome.next hconsumed, congrArg Host.Outcome.next halert,
      fun q hq => ?_, fun h0 => ?_, fun h0 => ?_, fun a ha hpba hwf => ?_⟩
    · refine (congrArg Host.Outcome.next (registerWrite_doorbell hfn hfallow hq)).trans ?_
      cases hack : (v.setWidth 32).getLsbD 31 with
      | true => rfl
      | false => rfl
    · exact congrArg Host.Outcome.next (hmask.trans (if_pos h0))
    · exact congrArg Host.Outcome.next (hmask.trans (if_neg h0))
    · have hmsix := (registerWrite_msix hfn hfallow ha).trans (writeMsix_of (v := v.setWidth 32) (s := s.tick t) hpba)
      have hcells : cellsWf msixDefault (s.mb fn).msix = true := (Bool.and_eq_true_iff.mp (Memory.wf.mb hwf fn)).2
      refine ⟨_, congrArg Host.Outcome.next hmsix, ?_, fun b hb => ?_, ?_, ?_⟩
      · rw [State.mb_setMb_self, State.mb_tick, cget_cset msixDefault _ _ _ _ hcells, if_pos rfl]
        rfl
      · rw [State.mb_setMb_self, State.mb_tick, cget_cset msixDefault _ _ _ _ hcells, if_neg (Ne.symm hb)]
      · rw [State.mb_setMb_self]
        rfl
      · rw [State.mb_setMb_self]
  case idle =>
    have hlow : (v.setWidth 32 : Word).getLsbD 0 = false := by simpa using hbit
    exact congrArg Host.Outcome.next ((registerWrite_ring hfn).trans (by rw [hlow]; rfl))
  case lost =>
    have hlow : (v.setWidth 32 : Word).getLsbD 0 = true := by simpa using hbit
    exact congrArg Host.Outcome.next (((registerWrite_ring hfn).trans (if_pos hlow)).trans
      (ring_busy (s := s.tick t) hst hbusy))
  case rung =>
    have hlow : (v.setWidth 32 : Word).getLsbD 0 = true := by simpa using hbit
    obtain ⟨hcommand, hwake⟩ := ring_free (s := s.tick t) hst hbusy
    exact ⟨fun hfallow hop => congrArg Host.Outcome.next (((registerWrite_ring hfn).trans (if_pos hlow)).trans
        (hcommand hfallow hop)),
      fun hfallow => congrArg Host.Outcome.next (((registerWrite_ring hfn).trans (if_pos hlow)).trans (hwake hfallow))⟩
  case discarded =>
    exact congrArg Host.Outcome.next ((registerWrite_request hfn ha hend).trans (writeRequest_busy (s := s.tick t) hbusy))
  case request =>
    have hcells : cellsWf (fun _ => (0 : Byte)) (s.mb fn).req = true :=
      (Bool.and_eq_true_iff.mp (Memory.wf.mb hwf fn)).1
    refine ⟨_, congrArg Host.Outcome.next ((registerWrite_request hfn ha hend).trans
      (writeRequest_free (s := s.tick t) hbusy hsize halign)), fun b => ?_, ?_, ?_⟩
    · rw [State.mb_setMb_self]
      refine (cget_csetAll hcells _ _ _).trans ?_
      rw [leBytes_length]
    · rw [State.mb_setMb_self]
      rfl
    · rw [State.mb_setMb_self]
  case rest => exact congrArg Host.Outcome.next (registerWrite_rest hfn ha)
  case doorbellLost =>
    have hnot : ¬s.boot.numVfs < fn := Nat.not_lt.mpr hfn
    have hlost : doorbellLostClear fn v again s = s.setMb fn { s.mb fn with
        lost := if s.pow.fallow = 0 && v.getLsbD 2 then again else (s.mb fn).lost || again } := if_neg hnot
    refine ⟨_, congrArg Host.Outcome.next hlost, ?_, ?_⟩
    · rw [State.mb_setMb_self]
    · rw [State.mb_setMb_self]
      by_cases hfallow : s.pow.fallow = 0
      · cases hclear : v.getLsbD 2 <;> simp [hfallow, Bool.or_comm]
      · simp [hfallow, Bool.or_comm]
  case alert => exact ⟨_, rfl, rfl, alertStatusClear_lt fn v set s, fun i hi => alertStatusClear_testBit hi⟩
  case consumed =>
    have hx : exec (.eventConsumedWrite fn v t) s = .next _ :=
      congrArg Host.Outcome.next (eventConsumed_on (v := v) (t := t) hfn hfallow)
    have hleaves : Leaves (s.tick t) ((s.tick t).setMb fn { s.mb fn with consumed := v.toNat }) := rfl
    have hself : ((s.tick t).setMb fn { s.mb fn with consumed := v.toNat }).mb fn = { s.mb fn with consumed := v.toNat } :=
      State.mb_setMb_self _ _ _
    have hother : ∀ g, g ≠ fn → ((s.tick t).setMb fn { s.mb fn with consumed := v.toNat }).mb g = s.mb g :=
      fun g hg => State.mb_setMb_other _ _ _ _ (Ne.symm hg)
    generalize hu : (s.tick t).setMb fn { s.mb fn with consumed := v.toNat } = u at *
    refine ⟨_, hx, ?_⟩
    by_cases hheld : s.boot.st = 2 ∨ s.boot.st = 3
    · rw [if_pos hheld]
      exact ⟨congrArg Mbox.consumed hself, hleaves, hother, fun _ => rfl, fun _ hst => by omega⟩
    · rw [if_neg hheld]
      have hring := congrArg (fun x : Nat × Nat × Nat => x.2.2) (u.flushLost_ring fn fn)
      refine ⟨hring.trans (congrArg Mbox.consumed hself), leaves_trans hleaves (u.flushLost_frame fn), fun g hg => ?_,
        fun hnone => State.flushLost_of_none ((congrArg Mbox.lostCount hself).trans hnone), fun hlost hst hroom => ?_⟩
      · rw [State.flushLost_mb_other u hg]
        exact hother g hg
      · obtain ⟨hprod, hzero, -⟩ := State.flushLost_of_lost (s := u) (f := fn) (by rw [hself]; exact hlost)
          (by rw [hself]; exact hroom)
        rw [hself] at hprod
        exact ⟨hzero, hprod⟩
  case off => exact congrArg Host.Outcome.next (eventConsumed_off hoff)
  case refusals =>
    have hcount : satAdd 32 0 same = min same (2 ^ 32 - 1) := by rw [satAdd, Nat.zero_add]
    refine ⟨_, rfl, ?_⟩
    rw [← hcount]
    rfl

end Sys2Proof.Machine
end

section
/-! PROOF. Doorbells of Courier queues (R424, R425, R432, R435, R540). -/
namespace Sys2Proof.Machine

/-- Queue `q`, mailboxes and what has been sent are all that may differ. -/
def QueueAlone (q : Nat) (s t : State) : Prop :=
  { t with queue := s.queue, sent := s.sent, mbox := s.mbox } = s ∧ ∀ p, p ≠ q → t.qu p = s.qu p

theorem queueAlone_refl (q : Nat) (s : State) : QueueAlone q s s := ⟨rfl, fun _ _ => rfl⟩

theorem queueAlone_trans {q : Nat} {a b c : State} (h : QueueAlone q a b) (k : QueueAlone q b c) : QueueAlone q a c := by
  refine ⟨?_, fun p hp => (k.2 p hp).trans (h.2 p hp)⟩
  have hrest := congrArg (fun z : State => { z with queue := a.queue, sent := a.sent, mbox := a.mbox }) k.1
  exact hrest.trans h.1

theorem queueAlone_setQu (q : Nat) (s : State) (x : Queue) : QueueAlone q s (s.setQu q x) :=
  ⟨rfl, fun _ hp => State.qu_setQu_other s x hp⟩

theorem queueAlone_of_leaves {q : Nat} {s t : State} (h : Leaves s t) : QueueAlone q s t := by
  have hqueue : t.queue = s.queue := h.field State.queue fun _ _ _ => rfl
  refine ⟨?_, fun p _ => h.field (fun z => z.qu p) fun _ _ _ => rfl⟩
  rw [← hqueue]
  exact h

/-- The interrupt of a queue takes what has waited for it, or nothing. -/
theorem quInterrupt_qu (q : Nat) (s : State) : QueueAlone q s (quInterrupt q s) ∧
    ∃ n, (n = 0 ∨ n = (s.qu q).waiting) ∧ (quInterrupt q s).qu q = { s.qu q with waiting := n } ∧
      ((s.qu q).waiting = 0 → quInterrupt q s = s) := by
  unfold quInterrupt
  dsimp only
  split_ifs with hdue
  · have hmsix : Leaves (s.setQu q { s.qu q with waiting := 0 }) ((s.setQu q { s.qu q with waiting := 0 }).msix (s.qu q).fn
        ((s.quBlock q).u 3 1)) := (State.msix_frame _ _ _).1
    refine ⟨queueAlone_trans (queueAlone_setQu q s _) (queueAlone_of_leaves hmsix), 0, .inl rfl, ?_, fun h => ?_⟩
    · exact (hmsix.field (fun z => z.qu q) fun _ _ _ => rfl).trans (State.qu_setQu_self _ _ _)
    · simp [h] at hdue
  · exact ⟨queueAlone_refl q s, _, .inr rfl, rfl, fun _ => rfl⟩

/-- A queue that may fetch asks for its next descriptor; one that may not stays as it is. -/
theorem quFetch_qu (q : Nat) (s : State) : QueueAlone q s (quFetch q s) ∧
    ∃ asked, (quFetch q s).qu q = { s.qu q with asked := asked } ∧
      ((s.qu q).st ≠ 1 → quFetch q s = s) ∧
      ((s.qu q).st = 1 → (s.qu q).desc = none → (s.qu q).drain = false → (s.qu q).tail ≠ (s.qu q).head → s.isUp 24 = true →
        s.isUp 25 = true → ((s.quBlock q).u 2 1 = 1 → s.plays ((s.quBlock q).u 32 2) = false) → asked = true) := by
  unfold quFetch
  dsimp only
  split_ifs with hmay
  · refine ⟨queueAlone_trans (queueAlone_setQu q s _) ⟨rfl, fun _ _ => rfl⟩, true, State.qu_setQu_self _ _ _, fun h => ?_,
      fun _ _ _ _ _ _ _ => rfl⟩
    exact absurd hmay.1 h
  · refine ⟨queueAlone_refl q s, (s.qu q).asked, rfl, fun _ => rfl, fun hst hdesc hdrain hne h24 h25 hplays => ?_⟩
    by_contra hasked
    refine hmay ⟨hst, ?_⟩
    have hidle : ((s.quBlock q).u 2 1 == 1 && s.plays ((s.quBlock q).u 32 2)) = false := by
      by_cases hkind : (s.quBlock q).u 2 1 = 1
      · simp [hkind, hplays hkind]
      · simp [hkind]
    simp [hdesc, hdrain, h24, h25, hidle, Bool.eq_false_iff.mpr hasked, Ne.symm hne]

/-- Settles O32: a doorbell of the queue's function writes TAIL, then the queue fetches and interrupts as it may. -/
theorem doorbells : Obligations.Doorbells := by
  intro fn q v ack s
  have hx : exec (if ack then .doorbellAck fn q v else .doorbellTail fn q v) s = .next (doorbell fn q v ack s) := by
    cases ack <;> rfl
  dsimp only
  rw [hx]
  refine ⟨fun hoff => congrArg Host.Outcome.next (if_pos hoff), fun hq hfn hfallow => ⟨_, hx, ?_⟩⟩
  have hrun : ¬(64 ≤ q ∨ (s.qu q).fn ≠ fn ∨ s.pow.fallow ≠ 0) := by omega
  have hbell : doorbell fn q v ack s = quInterrupt q (quFetch q (s.setQu q { s.qu q with
      tail := v.toNat % 65536 % (s.quBlock q).u 4 4, st := if ack && (s.qu q).st == 2 then 1 else (s.qu q).st })) := if_neg hrun
  rw [hbell]
  generalize hy : ({ s.qu q with
    tail := v.toNat % 65536 % (s.quBlock q).u 4 4, st := if ack && (s.qu q).st == 2 then 1 else (s.qu q).st } : Queue) = y
  have hset := s.qu_setQu_self q y
  obtain ⟨hfetch, asked, hfetched, hidle, hasks⟩ := quFetch_qu q (s.setQu q y)
  rw [hset] at hfetched hidle hasks
  obtain ⟨hint, n, hn, htaken, hquiet⟩ := quInterrupt_qu q (quFetch q (s.setQu q y))
  rw [hfetched] at hn htaken hquiet
  obtain ⟨hrest, hother⟩ := queueAlone_trans (queueAlone_setQu q s y) (queueAlone_trans hfetch hint)
  beta_reduce
  rw [htaken]
  have hstate : y.st = if ack = true ∧ (s.qu q).st = 2 then 1 else (s.qu q).st := by
    rw [← hy]
    simp
  refine ⟨?_, hstate, ?_, ?_, hother, hrest, fun hst hdesc hdrain hne h24 h25 hplays => ?_, fun hst => ⟨?_, fun hw => ?_⟩⟩
  · rw [← hy]
  · rw [← hy]
  · rw [← hy] at hn
    exact hn
  · rw [← hy] at hasks hne hst
    exact hasks hst hdesc hdrain hne h24 h25 hplays
  · have hsame := hfetched
    rw [hidle hst, hset] at hsame
    have hasked := congrArg Queue.asked hsame
    rw [← hy] at hasked
    exact hasked.symm
  · rw [hquiet (by rw [← hy]; exact hw), hidle hst]
    rfl

end Sys2Proof.Machine
end

section
/-! PROOF. Reads of BAR4, the throttle and the refresh guard (R277 to R279, R413, R414, R540). -/
namespace Sys2Proof.Machine

/-- A read of BAR4 has a byte for each address, what the manual states where it states one, and takes free values alone. -/
theorem bar4Bytes_spec (s : State) (fn off len : Nat) :
    (bar4Bytes s fn off len).2.length = len ∧ { (bar4Bytes s fn off len).1 with free := s.free } = s ∧
      ∀ i b, i < len → bar4Byte s fn (off + i) = some b → (bar4Bytes s fn off len).2[i]? = some b := by
  induction len with
  | zero => exact ⟨rfl, rfl, fun i _ hi => absurd hi (Nat.not_lt_zero i)⟩
  | succ k ih =>
    obtain ⟨hlen, hrest, hbytes⟩ := ih
    unfold bar4Bytes
    cases hb : bar4Byte s fn (off + k) with
    | some b =>
      refine ⟨by simp [hlen], hrest, fun i b' hi hb' => ?_⟩
      dsimp only
      rcases Nat.lt_succ_iff_lt_or_eq.mp hi with hlt | rfl
      · rw [List.getElem?_append_left (hlen.symm ▸ hlt)]
        exact hbytes i b' hlt hb'
      · rw [List.getElem?_append_right (Nat.le_of_eq hlen), hlen, Nat.sub_self]
        rw [hb] at hb'
        exact hb'
    | none =>
      refine ⟨by simp [hlen, State.freeBytes], hrest, fun i b' hi hb' => ?_⟩
      dsimp only
      rcases Nat.lt_succ_iff_lt_or_eq.mp hi with hlt | rfl
      · rw [List.getElem?_append_left (hlen.symm ▸ hlt)]
        exact hbytes i b' hlt hb'
      · rw [hb] at hb'
        cases hb'

@[simp] theorem State.stk_setStk_self (s : State) (k : Nat) (x : Stack) : (s.setStk k x).stk k = x := tget_tset_self _ _ _ _

/-- Settles O33: the bytes are those that `bar4Bytes` collects once the activations and bad words have counted. -/
theorem bar4ReadsAndGuard : Obligations.Bar4ReadsAndGuard := by
  refine ⟨fun fn off len t bad rows s => ⟨fun hend => if_pos hend, fun hend => ⟨fun hfallow => ?_, fun hfallow => ?_⟩⟩,
    fun k req s => ⟨⟨_, rfl, ?_, ?_, fun q => ?_⟩, ⟨_, rfl, rfl⟩⟩⟩
  · have hx : exec (.bar4Read fn off len bad rows t) s = .next (bar4Read fn off len bad rows t s) :=
      if_neg (Nat.not_lt.mpr hend)
    exact hx.trans (congrArg Host.Outcome.next (if_pos hfallow))
  · have hx : exec (.bar4Read fn off len bad rows t) s = .next (bar4Read fn off len bad rows t s) :=
      if_neg (Nat.not_lt.mpr hend)
    have hread : bar4Read fn off len bad rows t s =
        let u := bad.foldl (fun s w => readWord w s) (activateAll fn rows (s.tick t))
        (bar4Bytes u fn off len).1.send (.readData fn off (bar4Bytes u fn off len).2
          ((List.range len).filter fun i => bad.any fun w => !w.fixed && w.key / 32 == (off + i) / 32)) :=
      if_neg (not_not_intro hfallow)
    refine ⟨_, hx.trans (congrArg Host.Outcome.next hread), _, _, List.getLast?_concat, ?_, fun i hi => ?_, ?_⟩
    · exact (bar4Bytes_spec _ fn off len).1
    · obtain ⟨hrange, hany⟩ := List.mem_filter.mp hi
      obtain ⟨w, hw, hbad⟩ := List.any_eq_true.mp hany
      rw [Bool.and_eq_true, Bool.not_eq_true', beq_iff_eq] at hbad
      exact ⟨List.mem_range.mp hrange, w, hw, hbad⟩
    · rintro rfl rfl
      obtain ⟨-, hrest, hbytes⟩ := bar4Bytes_spec (s.tick t) fn off len
      exact ⟨hbytes, congrArg (fun z : State => { z with sent := s.sent }) hrest⟩
  · rw [throttleEnd, State.stk_setStk_self]
  · rw [throttleEnd, State.stk_setStk_self]
  · rw [throttleEnd, State.stk_setStk_self]
    simp

end Sys2Proof.Machine
end

section
/-! PROOF. Loss and return of the reference, slewing, missing marks, alignment (R55, R57 to R60, R66 to R68). -/
namespace Sys2Proof.Machine

theorem tfind_tmap {α : Type} (t : Table α) (f : Nat → α → α) (k : Nat) : tfind (tmap t f) k = (tfind t k).map (f k) := by
  induction t with
  | nil => rfl
  | cons e t ih =>
    obtain ⟨a, x⟩ := e
    by_cases h : a = k
    · subst h
      simp [tmap, tfind]
    · simpa [tmap, tfind, h] using ih

/-! ### HOLDOVER (R57, R60) -/

theorem Cad.endHold_some {c : Cad} {f : Nat} (h : c.holdFrom = some f) (t : Nat) :
    c.endHold t = { c with holdFrom := none, holdSpans := c.holdSpans ++ [(f, t)] } := by
  simp only [Cad.endHold, h]

theorem Cad.endHold_none {c : Cad} (h : c.holdFrom = none) (t : Nat) : c.endHold t = c := by
  simp only [Cad.endHold, h]

/-- A span that ends changes the spans alone, and none is open then. -/
theorem Cad.endHold_frame (c : Cad) (t : Nat) :
    c.endHold t = { c with holdFrom := none, holdSpans := (c.endHold t).holdSpans } := by
  cases h : c.holdFrom with
  | some f => rw [c.endHold_some h]
  | none =>
    rw [c.endHold_none h, ← h]

/-- The cadence once the reference counts as returned, before HOLDOVER ends (R59). -/
def Cad.withReturned (c : Cad) (phase : Int) : Cad :=
  { c with coasting := false, refPresent := true, returned := if c.anchored then some phase else none, returnedAt := c.now }

/-- HOLDOVER ends at once where the phase lies outside the window or no anchor stands (R59, R60). -/
theorem refReturned_coasting {t : Nat} {phase : Int} {s : State} (hco : s.cad.coasting = true) :
    refReturned t phase s = (s.tick t).setCad (let c := (s.tick t).cad.withReturned phase
      if phase.natAbs ≤ s.cadBlock.u 30 2 ∧ c.anchored then c else c.endHold c.now) := by
  have hnot : ¬(!(s.tick t).cad.coasting) = true := by
    change ¬(!s.cad.coasting) = true
    rw [hco]
    decide
  exact if_neg hnot

/-! ### Alignment (R66, R68) -/

/-- The alignment takes free values for the delays, and changes nothing else. -/
theorem alignClocks_frame (s : State) :
    alignClocks s = { s with cad := { s.cad with align := (alignClocks s).cad.align }, free := (alignClocks s).free } := by
  unfold alignClocks
  generalize List.range 8 = l
  induction l generalizing s with
  | nil => rfl
  | cons k l ih =>
    rw [List.foldl_cons, ih]
    rfl

/-- The outputs restart together, before the delays are set (R68). -/
def restartClocks (s : State) : State :=
  let s := s.setCad { s.cad with syncDue := false, syncArmed := false, syncAt := s.cad.now, synced := true }
  { s with clkOut := tmap s.clkOut fun _ o =>
      { o with fall := 64 * s.cad.now, rise := clkFirst s.cad o (64 * s.cad.now) } }

theorem restartClocks_clkOut (s : State) (k : Nat) : tfind (restartClocks s).clkOut k = (tfind s.clkOut k).map fun o =>
    { o with fall := 64 * s.cad.now, rise := clkFirst (restartClocks s).cad o (64 * s.cad.now) } :=
  tfind_tmap s.clkOut (fun _ o => { o with
    fall := 64 * s.cad.now, rise := clkFirst (restartClocks s).cad o (64 * s.cad.now) }) k

/-- Settles O34: each row as its branches say. -/
theorem referenceEvents : Obligations.ReferenceEvents := by
  intro t s
  refine ⟨fun hco => ?lostAgain, fun hco => ?lost, fun phase hco => ?early, fun phase hco => ?returned, fun hslew => ?noSlew,
    fun hslew f hf => ?slewHold, fun hslew hf => ?slew, fun turn ha => ?unanchored, fun turn ha hsrc hco => ?missing,
    fun harm => ?armed, fun harm => ?unarmed, fun hdue => ?align, fun hdue => ?notDue⟩
  case lostAgain => exact congrArg Host.Outcome.next (if_pos hco)
  case lost =>
    have hnot : ¬(s.tick t).cad.coasting = true := Bool.eq_false_iff.mp hco
    refine ⟨_, congrArg Host.Outcome.next (if_neg hnot), _, rfl, fun hf => ?_, fun g hg => ?_⟩
    · rw [hf]
      rfl
    · rw [hg]
      rfl
  case early =>
    have hnot : (!(s.tick t).cad.coasting) = true := by rw [hco]; rfl
    exact congrArg Host.Outcome.next (if_pos hnot)
  case returned =>
    refine ⟨_, congrArg Host.Outcome.next (refReturned_coasting hco), rfl, ?_⟩
    dsimp only [State.setCad_cad]
    generalize hc : (s.tick t).cad.withReturned phase = c
    by_cases hin : phase.natAbs ≤ s.cadBlock.u 30 2 ∧ c.anchored = true
    · rw [if_pos hin, ← hc]
      exact ⟨rfl, rfl, rfl, rfl, fun ha => if_pos ha, fun ha => if_neg (Bool.eq_false_iff.mp ha), fun _ _ => rfl,
        fun hout => absurd hin.1 (Nat.not_le.mpr hout)⟩
    · rw [if_neg hin, c.endHold_frame]
      refine ⟨?_, ?_, ?_, ?_, fun ha => ?_, fun ha => ?_, fun ha hle => ?_, fun hout => ⟨rfl, fun f hf => ?_⟩⟩
      · rw [← hc]
        rfl
      · rw [← hc]
        rfl
      · rw [← hc]
        rfl
      · rw [← hc]
        rfl
      · rw [← hc]
        exact if_pos ha
      · rw [← hc]
        exact if_neg (Bool.eq_false_iff.mp ha)
      · exact absurd ⟨hle, hc ▸ ha⟩ hin
      · have hopen : c.holdFrom = some f := hc ▸ hf
        rw [Cad.endHold_some hopen, ← hc]
        rfl
  case noSlew =>
    have hnot : (!(s.tick t).cad.slewing) = true := by rw [hslew]; rfl
    exact congrArg Host.Outcome.next (if_pos hnot)
  case slewHold =>
    have hnot : ¬(!(s.tick t).cad.slewing) = true := by rw [hslew]; decide
    refine congrArg Host.Outcome.next ((if_neg hnot).trans ?_)
    rw [Cad.endHold_some hf]
  case slew =>
    have hnot : ¬(!(s.tick t).cad.slewing) = true := by rw [hslew]; decide
    refine congrArg Host.Outcome.next ((if_neg hnot).trans ?_)
    rw [Cad.endHold_none hf]
  case unanchored =>
    have hmiss : markMissingAt turn s = s := by simp [markMissingAt, markMissing, ha]
    exact congrArg Host.Outcome.next hmiss
  case missing =>
    have hmiss : markMissingAt turn s = markMissing (s.tick (sampleOf s.cad ⟨turn, 0, 0⟩)) := congrArg markMissing (if_pos ha)
    exact congrArg Host.Outcome.next (hmiss.trans (if_pos ⟨ha, hsrc, by rw [Bool.not_eq_true']; exact hco⟩))
  case armed => exact congrArg Host.Outcome.next (if_pos harm)
  case unarmed => exact congrArg Host.Outcome.next (if_neg (Bool.eq_false_iff.mp harm))
  case align =>
    have hnotes := State.post_notes (alignClocks (restartClocks (s.tick t))) evSyncDone [] 0
    rw [alignClocks_frame (restartClocks (s.tick t))] at hnotes
    have hcad : ((alignClocks (restartClocks (s.tick t))).post evSyncDone []).cad = _ :=
      (State.post_notes _ evSyncDone [] 0).field State.cad fun _ _ _ _ => rfl
    have hframe := congrArg State.cad (alignClocks_frame (restartClocks (s.tick t)))
    have hkeep := congrArg State.clkOut (alignClocks_frame (restartClocks (s.tick t)))
    have hclk : ((alignClocks (restartClocks (s.tick t))).post evSyncDone []).clkOut = (restartClocks (s.tick t)).clkOut :=
      ((State.post_notes _ evSyncDone [] 0).field State.clkOut fun _ _ _ _ => rfl).trans hkeep
    have hfree : ((alignClocks (restartClocks (s.tick t))).post evSyncDone []).free = _ :=
      (State.post_notes _ evSyncDone [] 0).field State.free fun _ _ _ _ => rfl
    have hx : exec (.syncAlign t) s = .next ((alignClocks (restartClocks (s.tick t))).post evSyncDone []) :=
      congrArg Host.Outcome.next (if_pos hdue)
    refine ⟨_, hx, ?_, fun k o ho => ?_, ?_⟩
    · rw [hcad]
      exact hframe
    · rw [hclk, hcad, hframe]
      have ho' : tfind (s.tick t).clkOut k = some o := ho
      rw [restartClocks_clkOut, ho']
      rfl
    · rw [hcad, hclk, hfree]
      exact hnotes
  case notDue => exact congrArg Host.Outcome.next (if_neg (Bool.eq_false_iff.mp hdue))

end Sys2Proof.Machine
end

section
/-! SUPPORT. Control state: what records, streams, analysis, outputs and events leave alone. -/
namespace Sys2Proof.Machine

/-- The state without what carries records and signals: cadence, Curator, power, health, galleries, stacks, queues, archive
and collection as they stand. -/
def State.control (s : State) : State :=
  { cad := s.cad, boot := s.boot, cur := { s.cur with held := [] }, exh := s.exh, pow := s.pow, health := s.health, gal := s.gal
    queue := s.queue, archive := s.archive, coll := s.coll, stack := s.stack, losses := s.losses }

/-- Any field that control state has. -/
theorem control_at {s t : State} (h : t.control = s.control) :
    t.cad = s.cad ∧ t.boot = s.boot ∧ t.exh = s.exh ∧ t.pow = s.pow ∧ t.health = s.health ∧ t.gal = s.gal ∧
      t.queue = s.queue ∧ t.archive = s.archive ∧ t.coll = s.coll ∧ t.stack = s.stack ∧ t.losses = s.losses :=
  have k {α : Type} (f : State → α) : f t.control = f s.control := congrArg f h
  ⟨k State.cad, k State.boot, k State.exh, k State.pow, k State.health, k State.gal, k State.queue, k State.archive,
    k State.coll, k State.stack, k State.losses⟩

/-- What of the Curator is not an event held for later. -/
theorem control_cur {s t : State} (h : t.control = s.control) :
    t.cur.staged = s.cur.staged ∧ t.cur.committed = s.cur.committed ∧ t.cur.pending = s.cur.pending ∧
      t.cur.actions = s.cur.actions ∧ t.cur.restart = s.cur.restart ∧ t.cur.alert = s.cur.alert ∧
      t.cur.restarts = s.cur.restarts ∧ t.cur.mismatches = s.cur.mismatches ∧ t.cur.refusals = s.cur.refusals :=
  have k {α : Type} (f : Cur → α) : f t.control.cur = f s.control.cur := congrArg (fun z : State => f z.cur) h
  ⟨k Cur.staged, k Cur.committed, k Cur.pending, k Cur.actions, k Cur.restart, k Cur.alert, k Cur.restarts, k Cur.mismatches,
    k Cur.refusals⟩

theorem Notes.control {s t : State} (h : Notes s t) : t.control = s.control := by
  have hall := congrArg State.control h
  exact hall

@[simp] theorem control_ite (p : Prop) [Decidable p] (a b : State) :
    (if p then a else b).control = if p then a.control else b.control := apply_ite State.control p a b

@[simp] theorem foldl_control {α : Type} {f : State → α → State} (hf : ∀ s a, (f s a).control = s.control) (l : List α)
    (s : State) : (l.foldl f s).control = s.control := foldl_unchanged State.control hf l s

theorem foldl_control_of {α β : Type} (g : β → State) {f : β → α → β} (hf : ∀ b a, (g (f b a)).control = (g b).control)
    (l : List α) (b : β) : (g (l.foldl f b)).control = (g b).control :=
  foldl_unchanged (fun b => (g b).control) hf l b

section
variable (s : State)

/-! ### Updates -/

@[simp] theorem State.post_control (code : Nat) (payload : List (Nat × Nat)) (fn : Nat) :
    (s.post code payload fn).control = s.control := (s.post_notes code payload fn).control
@[simp] theorem State.postAll_control (code : Nat) (payload : List (Nat × Nat)) :
    (s.postAll code payload).control = s.control := (s.postAll_notes code payload).control
@[simp] theorem State.postEx_control (h code : Nat) (payload : List (Nat × Nat)) :
    (s.postEx h code payload).control = s.control := (s.postEx_notes h code payload).control
@[simp] theorem State.send_control (x : Sent) : (s.send x).control = s.control := rfl
@[simp] theorem State.setMb_control (f : Nat) (m : Mbox) : (s.setMb f m).control = s.control := rfl
@[simp] theorem State.setStream_control (k : Nat) (x : Stream) : (s.setStream k x).control = s.control := rfl
@[simp] theorem State.bumpSeq_control (k : Nat) : (s.bumpSeq k).control = s.control := rfl
@[simp] theorem State.setCh_control (c : Nat) (x : Chan) : (s.setCh c x).control = s.control := rfl
@[simp] theorem State.setDac_control (d : Nat) (x : Dac) : (s.setDac d x).control = s.control := rfl
@[simp] theorem State.setLv_control (d : Nat) (x : Level) : (s.setLv d x).control = s.control := rfl
@[simp] theorem State.setHk_control (x : Hk) : (s.setHk x).control = s.control := rfl
@[simp] theorem State.setConv_control (c : Nat) (x : HkConv) : (s.setConv c x).control = s.control := rfl
@[simp] theorem State.setPu_control (u : Nat) (x : Pairer) : (s.setPu u x).control = s.control := rfl
@[simp] theorem State.setTr_control (h : Nat) (x : Trig) : (s.setTr h x).control = s.control := rfl
@[simp] theorem State.setMt_control (p : Nat) (m : Mount) : (s.setMt p m).control = s.control := rfl
@[simp] theorem State.setPlane_control (h : Nat) (x : Plane) : (s.setPlane h x).control = s.control := rfl
@[simp] theorem State.setPipe_control (h : Nat) (x : Pipe) : (s.setPipe h x).control = s.control := rfl
@[simp] theorem State.setInterval_control (h : Nat) (x : Interval) : (s.setInterval h x).control = s.control := rfl
@[simp] theorem State.setCore_control (c : Nat) (x : Core) : (s.setCore c x).control = s.control := rfl
@[simp] theorem State.setSto_control (n : Nat) (x : Store) : (s.setSto n x).control = s.control := by
  unfold State.setSto
  split_ifs <;> rfl
@[simp] theorem State.setCad_control (c : Cad) : (s.setCad c).control = { s.control with cad := c } := rfl

/-! ### Records, gaps and Stores (R26, R33, R34) -/

@[simp] theorem State.produce_control (r : Rec) : (s.produce r).control = s.control := by
  have hrest := congrArg State.control (s.produce_rest r)
  exact hrest

@[simp] theorem State.closeGap_control (h st hi : Nat) : (s.closeGap h st hi).control = s.control := by
  unfold State.closeGap
  dsimp only
  split
  · rfl
  · split_ifs <;> rfl

theorem State.publishAll_rest : { s.publishAll with store := s.store } = s := by
  unfold State.publishAll
  refine foldl_unchanged (fun u : State => { u with store := s.store }) (fun u e => ?_) _ s
  split_ifs
  · have hrest := congrArg (fun z : State => { z with store := s.store }) (u.setSto_rest e.1
      ((u.sto e.1).publish u.cad (u.view.gridExp e.2.handle) (e.2.ahead.length + 1)))
    exact hrest
  · rfl

@[simp] theorem State.publishAll_control : s.publishAll.control = s.control := by simp [State.publishAll]

@[simp] theorem State.openGap_control (h st cause unit lo : Nat) : (s.openGap h st cause unit lo).control = s.control := by
  unfold State.openGap
  dsimp only
  split_ifs
  · rfl
  · refine (show _ = State.control (List.foldl _ s _) from rfl).trans (foldl_control (fun u n => ?_) _ s)
    exact u.setSto_control _ _

/-! ### Time stamps (R345, R349, R352) -/

@[simp] theorem stampRecord_control (h st : Nat) (b : Block) (l : List Entry) : (stampRecord h st b l s).control = s.control :=
  State.produce_control s _

theorem drainStamps_control (h st : Nat) (b : Block) (k : Nat) (s : State) : (drainStamps h st b k s).control = s.control := by
  induction k generalizing s with
  | zero => rfl
  | succ k ih => simp [drainStamps, ih]

@[simp] theorem intervalRecord_control (u : Nat) (b : Block) (l : List Entry) : (intervalRecord u b l s).control = s.control := by
  simp [intervalRecord]

theorem drainIntervals_control (u : Nat) (b : Block) (k : Nat) (s : State) :
    (drainIntervals u b k s).control = s.control := by
  induction k generalizing s with
  | zero => rfl
  | succ k ih => simp [drainIntervals, ih]

@[simp] theorem openTdcGap_control (h st cause unit lo : Nat) : (openTdcGap h st cause unit lo s).control = s.control := by
  unfold openTdcGap
  dsimp only
  split
  · rfl
  · rw [State.setStream_control, State.openGap_control, foldl_control_of Prod.fst (fun a b => ?_),
      foldl_control_of Prod.fst (fun a b => ?_), foldl_control (fun s b => ?_)]
    · split_ifs
      · exact drainStamps_control _ _ _ _ _
      · rfl
    · split_ifs
      · rfl
      · exact drainIntervals_control _ _ _ _
      · rfl
      · rfl
      · rfl
    · split_ifs <;> rfl

@[simp] theorem resumeTdcStream_control (S h st : Nat) : (resumeTdcStream S h st s).control = s.control := by
  unfold resumeTdcStream
  dsimp only
  split_ifs
  · rfl
  · exact s.closeGap_control h st S

@[simp] theorem resumeUnits_control (S : Nat) (hs : List Nat) : (resumeUnits S hs s).control = s.control := by
  refine foldl_control (fun u b => ?_) _ s
  split_ifs <;> rfl

@[simp] theorem takeStream_control (d : StreamDef) (cause unit lo : Nat) :
    (takeStream d cause unit lo s).control = s.control := by
  simp [takeStream]

/-! ### Analysis that resumes (R135, R165, R191, R213, R325) -/

@[simp] theorem resumeChain_control (S h : Nat) : (resumeChain S h s).control = s.control := by
  unfold resumeChain
  dsimp only
  split <;> rfl

@[simp] theorem resumePipe_control (S h : Nat) : (resumePipe S h s).control = s.control := by
  unfold resumePipe
  dsimp only
  split_ifs <;> rfl

@[simp] theorem resumeConc_control (S h : Nat) : (resumeConc S h s).control = s.control := rfl

@[simp] theorem resumeTrigger_control (S h : Nat) : (resumeTrigger S h s).control = s.control := rfl

@[simp] theorem restartCore_control (S c : Nat) : (restartCore S c s).control = s.control := by
  unfold restartCore
  dsimp only
  split_ifs <;> rfl

@[simp] theorem resumeExhibit_control (S : Nat) (failed : Bool) (h : Nat) : (resumeExhibit S failed h s).control = s.control := by
  simp [resumeExhibit]

@[simp] theorem resumeStreams_control (S : Nat) (ds : List StreamDef) (was : List Nat) (failed : Bool) :
    (resumeStreams S ds was failed s).control = s.control := by
  simp [resumeStreams]

/-! ### Outputs and gleaning (R93, R365 to R374) -/

@[simp] theorem settleDac_control (d : Nat) : (settleDac d s).control = s.control := by
  unfold settleDac
  dsimp only
  split_ifs <;> rfl

@[simp] theorem haltGleaning_control (chs : List Nat) : (haltGleaning chs s).control = s.control :=
  foldl_control (fun _ _ => by rfl) _ s

@[simp] theorem holdOutputs_control (w : Nat) : (holdOutputs w s).control = s.control := by
  simp [holdOutputs]

@[simp] theorem resumeOutputs_control (S w : Nat) : (resumeOutputs S w s).control = s.control := by
  simp [resumeOutputs]

@[simp] theorem hkTouch_control : (hkTouch s).control = s.control := rfl

@[simp] theorem pllLoss_control (k : Nat) : (pllLoss k s).control = s.control := by
  simp [pllLoss]

end

end Sys2Proof.Machine
end

section
/-! PROOF. CAD_MARK: counted, misplaced, re-anchoring (R55, R56, R60 to R63). -/
namespace Sys2Proof.Machine

/-! ### Nothing that waits comes due -/

/-- The plans of a state, alone. -/
theorem nothingWaits_of_control {s t : State} (h : NothingWaits s) (hp : t.cur.pending = s.cur.pending)
    (ha : t.cur.actions = s.cur.actions) (hc : t.cur.committed = s.cur.committed) : NothingWaits t := by
  obtain ⟨hpending, hactions, hconds⟩ := h
  refine ⟨hp.trans hpending, ha.trans hactions, ?_⟩
  simp only [State.view, View.ofType, hc] at hconds ⊢
  exact hconds

theorem lateSchedules_of_nothing {s : State} (h : NothingWaits s) (who : Nat → Bool) (a b : CT) :
    lateSchedules who a b s = ([], s) := by
  obtain ⟨-, -, hconds⟩ := h
  have hnone : ((s.view.ofType btCondition).filter fun x => x.u 3 1 == 11 && who (x.u 0 2)) = [] := by
    rw [List.filter_eq_nil_iff]
    intro x hx
    simp [hconds x hx]
  rw [lateSchedules, hnone, List.foldl_nil]

theorem markLate_of_nothing {s : State} (h : s.cur.actions = []) (due : Nat → Bool) : markLate due s = s := by
  have hlist (f : Action → Action) : s.cur.actions.map f = s.cur.actions := by rw [h, List.map_nil]
  have hset (l : List Action) (hl : l = s.cur.actions) : ({ s with cur := { s.cur with actions := l } } : State) = s := by
    rw [hl]
  exact hset _ (hlist _)

theorem runLate_of_nothing {s : State} (h : NothingWaits s) (due : Nat → Bool) (n : Nat) : runLate due n [] s = s := by
  obtain ⟨hpending, hactions, -⟩ := h
  cases n with
  | zero => rfl
  | succ n => simp [runLate, dueNow, hpending, hactions, firstDue]

/-! ### The axis moves (R62, R63) -/

@[simp] theorem settleAll_control (s : State) : (settleAll s).control = s.control := rfl

/-- Of the control state, the move of the axis changes the cadence's spans and where the bus looks for its next slots. -/
theorem moveAxis_control (old S : Nat) (s : State) :
    (moveAxis old S s).control = { s.control with cad := s.cad.shift old S, coll := { s.coll with nextTrg := 0, nextCtl := 0 } } := by
  have hdacs : ((List.range 8).foldl (fun s d => settleDac d s) s).control = s.control :=
    foldl_control (fun u d => settleDac_control u d) _ s
  unfold moveAxis
  generalize (List.range 8).foldl (fun s d => settleDac d s) s = u at hdacs
  have hmoved : ((moveOutputs old S (moveAnalysis old S (moveWings old S u))).setCad
      ((moveOutputs old S (moveAnalysis old S (moveWings old S u))).cad.shift old S)).control =
      { u.control with cad := u.cad.shift old S, coll := { u.coll with nextTrg := 0, nextCtl := 0 } } := rfl
  obtain ⟨hcad, -, -, -, -, -, -, -, hcoll, -⟩ := control_at hdacs
  refine hmoved.trans ?_
  rw [hdacs, hcad, hcoll]

theorem anchorStream_control (s0 : State) (gap : Option Gap) (old S : Nat) (oldT : CT) (back : Bool) (d : StreamDef) (s : State) :
    (anchorStream s0 gap old S oldT back d s).control = s.control := by
  unfold anchorStream
  dsimp only
  cases gap with
  | none => split_ifs <;> simp
  | some g => split_ifs <;> simp

/-- The cadence at a re-anchoring mark (R62, R63). -/
def Cad.MovedTo (c : Cad) (S : Nat) (c' : Cad) : Prop :=
  c'.now = S ∧ c'.jumps = satAdd 32 c.jumps 1 ∧ c'.returned = none ∧ c'.slewing = false ∧ c'.markRun = 0 ∧
    c'.markFaults = c.markFaults ∧ c'.anchored = c.anchored ∧ c'.jumpSpan = some (S, nextTurn c S)

/-- The cadence after the jump of a mark at `pos` (R62, R63). -/
def Cad.jump (c : Cad) (pos : CT) : Cad :=
  let c' := match c.holdFrom with
    | some _ => c.endHold (if c.returned.isSome then c.returnedAt else c.now)
    | none => c
  let S := sampleOf c (anchorTime c pos)
  { c' with now := S, returned := none, slewing := false, slewPpb := 0, coasting := false, markRun := 0
            jumps := satAdd 32 c.jumps 1, jumpSpan := some (S, nextTurn c S) }

theorem Cad.jump_movedTo (c : Cad) (pos : CT) : c.MovedTo (sampleOf c (anchorTime c pos)) (c.jump pos) := by
  unfold Cad.jump
  cases hf : c.holdFrom with
  | none => exact ⟨rfl, rfl, rfl, rfl, rfl, rfl, rfl, rfl⟩
  | some f =>
    rw [Cad.endHold_some hf]
    exact ⟨rfl, rfl, rfl, rfl, rfl, rfl, rfl, rfl⟩

/-- The jump changes the cadence, and events tell of it. -/
theorem moveAnchor_control (pos : CT) (s : State) :
    (moveAnchor pos s).1.control = { s.control with cad := s.cad.jump pos } := by
  unfold moveAnchor
  extract_lets c new S back c' restored c'' u
  have hu : u.control = (s.setCad (s.cad.jump pos)).control := State.post_control _ _ _ _
  clear_value u
  dsimp only
  rw [control_ite, State.post_control, ite_self]
  exact hu.trans (s.setCad_control _)

/-- The spans that move with the axis are none of those that the map and the anchor rest on. -/
theorem Cad.shift_jump_movedTo (c : Cad) (old S : Nat) (pos : CT) :
    c.MovedTo (sampleOf c (anchorTime c pos)) ((c.shift old S).jump pos) := by
  have h := (c.shift old S).jump_movedTo pos
  exact h

/-- With nothing that waits, a re-anchoring is the move of the anchor. -/
theorem reanchor_cad {pos : CT} {s : State} (h : NothingWaits s) :
    s.cad.MovedTo (sampleOf s.cad (anchorTime s.cad pos)) (reanchor pos s).cad := by
  unfold reanchor
  extract_lets old ds gaps s1 s0 new S s2 s3 back s4 s5 due s6
  have h1 : s1.control = s.control := foldl_control (fun u d => by split_ifs <;> simp) _ s
  have h2 : s2.control = { s1.control with
      cad := s1.cad.shift old S, coll := { s1.coll with nextTrg := 0, nextCtl := 0 } } := moveAxis_control old S (settleAll s1)
  have h3 : s3.control = { s2.control with cad := s2.cad.jump pos } := moveAnchor_control pos s2
  have h4 : s4.control = s3.control := foldl_control (fun u d => anchorStream_control _ _ _ _ _ _ _ u) _ s3
  have h5 : s5.control = s4.control := haltGleaning_control s4 _
  have h6 (hnothing : NothingWaits s5) : s6 = s5 := by
    obtain ⟨-, hactions, -⟩ := id hnothing
    have hlate : (match lateSchedules (fun h => !lostFor s5 (some h)) pos new (markLate due s5) with
        | (times, s) => runLate due 4096 times s) = s5 := by
      rw [markLate_of_nothing hactions, lateSchedules_of_nothing hnothing]
      exact runLate_of_nothing hnothing due 4096
    exact (if_congr Iff.rfl rfl hlate).trans (ite_self _)
  clear_value s6 due s5 s4 back s3 s2 S new s0 s1 gaps ds old
  obtain ⟨hcad1, -⟩ := control_at h1
  have hcad2 : s2.cad = s.cad.shift old S := by
    have hcad := congrArg State.cad h2
    rw [hcad1] at hcad
    exact hcad
  have hall : s5.control = { s2.control with cad := (s.cad.shift old S).jump pos } := by
    rw [h5, h4, h3, hcad2]
  have hcur : s5.control.cur = s.control.cur := by
    rw [hall]
    have hcur2 := congrArg State.cur h2
    have hcur1 := congrArg State.cur h1
    exact hcur2.trans hcur1
  have hcad5 : s5.cad = (s.cad.shift old S).jump pos := by
    have hcad := congrArg State.cad hall
    exact hcad
  have k {α : Type} (f : Cur → α) : f s5.control.cur = f s.control.cur := congrArg f hcur
  have hnothing : NothingWaits s5 := nothingWaits_of_control h (k Cur.pending) (k Cur.actions) (k Cur.committed)
  have hcad : s6.publishAll.cad = (s.cad.shift old S).jump pos := by
    rw [h6 hnothing]
    exact (control_at (State.publishAll_control s5)).1.trans hcad5
  rw [hcad]
  exact Cad.shift_jump_movedTo _ _ _ _

/-! ### Marks -/

/-- A mark that a running cadence reads at `pos` (R55, R56, R60 to R62). -/
def markRead (pos : CT) (s : State) : State :=
  let jw := s.cadBlock.u 30 2
  match s.cad.returned with
  | some phase => if decide (phase.natAbs ≤ jw) && markAtPhase s phase pos then beginSlew phase s else reanchor pos s
  | none =>
    if s.cad.slewing && markWithin s.cad jw pos then s.setCad { s.cad with markRun := 0 }
    else if !s.cad.slewing && pos.slot == 0 && pos.phase == 0 then s.setCad { s.cad with markRun := 0 }
    else if (misplaced pos s).2 then reanchor pos (misplaced pos s).1 else (misplaced pos s).1

theorem exec_cadMark {mark : CT} {s u : State} {pos : CT} (hpos : edgeTime s.cad mark = pos) (hu : s.tick (sampleOf s.cad pos) = u)
    (ha : u.cad.anchored = true) (hsrc : u.cad.source = 1 ∨ u.cad.returned.isSome = true) :
    exec (.cadMark mark) s = .next (if u.cad.coasting then u else markRead pos u) := by
  subst hpos hu
  have ha' : s.cad.anchored = true := ha
  have hif : ¬(!s.cad.anchored || (s.cad.source != 1 && s.cad.returned.isNone)) = true := by
    rcases hsrc with h | h
    · have h' : s.cad.source = 1 := h
      simp [ha', h']
    · have h' : s.cad.returned.isSome = true := h
      simp [ha', Option.isSome_iff_ne_none.mp h']
  exact congrArg Host.Outcome.next (if_neg hif)

section
variable {s : State} {pos : CT}

theorem markRead_onTime (hret : s.cad.returned = none) (hslew : s.cad.slewing = false) (h0 : pos.slot = 0 ∧ pos.phase = 0) :
    markRead pos s = s.setCad { s.cad with markRun := 0 } := by
  obtain ⟨hslot, hphase⟩ := h0
  simp [markRead, hret, hslew, hslot, hphase]

theorem markRead_misplaced (hret : s.cad.returned = none) (hslew : s.cad.slewing = false)
    (h0 : ¬(pos.slot = 0 ∧ pos.phase = 0)) :
    markRead pos s = if (misplaced pos s).2 then reanchor pos (misplaced pos s).1 else (misplaced pos s).1 := by
  have hmis : (pos.slot == 0 && pos.phase == 0) = false := by simpa using h0
  simp only [markRead, hret, hslew, Bool.false_and, Bool.not_false, Bool.true_and, hmis, Bool.false_eq_true, if_false]

theorem markRead_slewing (hret : s.cad.returned = none) (hslew : s.cad.slewing = true)
    (hin : markWithin s.cad (s.cadBlock.u 30 2) pos = true) : markRead pos s = s.setCad { s.cad with markRun := 0 } := by
  simp only [markRead, hret, hslew, hin, Bool.and_self, if_true]

theorem markRead_returned {phase : Int} (hret : s.cad.returned = some phase) : markRead pos s =
    if phase.natAbs ≤ s.cadBlock.u 30 2 ∧ markAtPhase s phase pos = true then beginSlew phase s else reanchor pos s := by
  simp only [markRead, hret, Bool.and_eq_true, decide_eq_true_eq]

/-- A misplaced mark counts, and goes on with the run of the mark before or begins one (R56). -/
theorem misplaced_eq {run : Nat} (hrun : run = if s.cad.markRun ≠ 0 ∧ s.cad.markLast.slot = pos.slot ∧
      s.cad.markLast.phase = pos.phase ∧ turnDiff pos.turn s.cad.markLast.turn = 1 then s.cad.markRun + 1 else 1) :
    let n := satAdd 32 s.cad.markFaults 1
    let u := (s.setCad { s.cad with markFaults := n, markRun := run, markLast := pos }).post evMarkFault [(2, pos.slot), (4, n)]
    misplaced pos s = (u, decide (u.cadBlock.u 38 1 ≤ run)) := by
  have hsame : (s.cad.markRun != 0 && s.cad.markLast.slot == pos.slot && s.cad.markLast.phase == pos.phase &&
      turnDiff pos.turn s.cad.markLast.turn == 1) = decide (s.cad.markRun ≠ 0 ∧ s.cad.markLast.slot = pos.slot ∧
      s.cad.markLast.phase = pos.phase ∧ turnDiff pos.turn s.cad.markLast.turn = 1) := by
    rw [Bool.eq_iff_iff]
    simp only [Bool.and_eq_true, bne_iff_ne, beq_iff_eq, decide_eq_true_eq, and_assoc]
  subst hrun
  unfold misplaced
  dsimp only
  rw [hsame]
  simp only [decide_eq_true_eq]

end

theorem cadBlock_of_control {s t : State} (h : t.cur.committed = s.cur.committed) : t.cadBlock = s.cadBlock := by
  simp only [State.cadBlock, State.block, View.block, State.view, h]

theorem State.setCad_post_cadBlock (s : State) (c : Cad) (code : Nat) (payload : List (Nat × Nat)) (fn : Nat) :
    ((s.setCad c).post code payload fn).cadBlock = s.cadBlock :=
  cadBlock_of_control (control_cur ((s.setCad c).post_control code payload fn)).2.1

/-- Settles O35: counted and misplaced marks change the cadence alone; a jump does so with nothing that waits. -/
theorem marks : Obligations.Marks := by
  intro mark s
  dsimp only
  have hblock : (s.tick (sampleOf s.cad (edgeTime s.cad mark))).cadBlock = s.cadBlock := rfl
  have hplans (h : NothingWaits s) : NothingWaits (s.tick (sampleOf s.cad (edgeTime s.cad mark))) := h
  have hoff (h : s.cad.anchored = false ∨ s.cad.source ≠ 1 ∧ s.cad.returned = none) : exec (.cadMark mark) s = .next s := by
    have hif : (!s.cad.anchored || (s.cad.source != 1 && s.cad.returned.isNone)) = true := by
      rcases h with ha | ⟨hsrc, hret⟩
      · simp [ha]
      · simp [hsrc, hret]
    exact congrArg Host.Outcome.next (if_pos hif)
  refine ⟨hoff, ?_⟩
  generalize hpos : edgeTime s.cad mark = pos
  rw [hpos] at hblock hplans
  generalize hu : s.tick (sampleOf s.cad pos) = u at hblock hplans ⊢
  rw [← hblock]
  refine ⟨fun ha hsrc hco => ?coasting, fun ha hsrc hco => ⟨fun hret hslew => ⟨fun h0 => ?onTime,
    fun hmis run hrun => ⟨fun hlow => ?counted, fun hlimit hnothing => ?limit⟩⟩, fun hret hslew hin => ?slewing,
    fun phase hret => ⟨fun hle hat => ?within, fun hout hnothing => ?outside⟩⟩⟩
  case coasting =>
    rw [exec_cadMark hpos hu ha hsrc, if_pos hco]
  all_goals
    have hx := exec_cadMark hpos hu ha hsrc
    rw [hco, if_neg Bool.false_ne_true] at hx
  case onTime => rw [hx, markRead_onTime hret hslew h0]
  case counted =>
    have hblk := u.setCad_post_cadBlock
      { u.cad with markFaults := satAdd 32 u.cad.markFaults 1, markRun := run, markLast := pos } evMarkFault [(2, pos.slot), (4, satAdd 32 u.cad.markFaults 1)] 0
    have hno : ¬(u.cadBlock.u 38 1 ≤ run) := Nat.not_le.mpr hlow
    rw [hx, markRead_misplaced hret hslew hmis, misplaced_eq hrun]
    dsimp only
    rw [hblk]
    exact congrArg Host.Outcome.next (if_neg (by simpa using hno))
  case limit =>
    have hpost := (u.setCad { u.cad with markFaults := satAdd 32 u.cad.markFaults 1, markRun := run, markLast := pos }).post_control
      evMarkFault [(2, pos.slot), (4, satAdd 32 u.cad.markFaults 1)] 0
    have hblk := u.setCad_post_cadBlock
      { u.cad with markFaults := satAdd 32 u.cad.markFaults 1, markRun := run, markLast := pos } evMarkFault [(2, pos.slot), (4, satAdd 32 u.cad.markFaults 1)] 0
    rw [markRead_misplaced hret hslew hmis, misplaced_eq hrun] at hx
    dsimp only at hx
    generalize ((u.setCad { u.cad with markFaults := satAdd 32 u.cad.markFaults 1, markRun := run, markLast := pos }).post
      evMarkFault [(2, pos.slot), (4, satAdd 32 u.cad.markFaults 1)]) = v at hx hpost hblk
    rw [hblk, if_pos (decide_eq_true hlimit)] at hx
    obtain ⟨hcad, -⟩ := control_at hpost
    obtain ⟨-, hcommitted, hpending, hactions, -⟩ := control_cur hpost
    have hmoved := reanchor_cad (pos := pos) (nothingWaits_of_control (hplans hnothing) hpending hactions hcommitted)
    rw [hcad] at hmoved
    obtain ⟨hnow, hjumps, -, -, hzero, hfaults, hanchored, -⟩ := hmoved
    exact ⟨_, hx, hnow, hjumps, hfaults, hzero, hanchored.trans ha⟩
  case slewing => rw [hx, markRead_slewing hret hslew hin]
  case within =>
    rw [markRead_returned hret, if_pos ⟨hle, hat⟩] at hx
    refine ⟨_, hx, rfl, fun h => if_pos h, fun h => ?_, fun h => ?_⟩
    · exact (if_neg (Int.not_lt.mpr h.le)).trans (if_pos h)
    · subst h
      rfl
  case outside =>
    have hno : ¬(phase.natAbs ≤ u.cadBlock.u 30 2 ∧ markAtPhase u phase pos = true) := by
      rintro ⟨hle, hat⟩
      rcases hout with hlt | hnot
      · omega
      · rw [hnot] at hat
        cases hat
    rw [markRead_returned hret, if_neg hno] at hx
    obtain ⟨hnow, hjumps, hreturned, hslewing, -, hfaults, -, hspan⟩ := reanchor_cad (pos := pos) (hplans hnothing)
    exact ⟨_, hx, hnow, hjumps, hreturned, hslewing, hfaults, by rw [hspan, hnow]⟩

end Sys2Proof.Machine
end

section
/-! PROOF. Lock detection, analysis that resumes, and the anchor (R43, R46, R58, R69, R70, R539). -/
namespace Sys2Proof.Machine

/-! ### Synthesisers -/

@[simp] theorem pllOf_setPll_self (c : Cad) (k : Nat) (p : Pll) : pllOf (c.setPll k p) k = p := tget_tset_self _ _ _ _

theorem pllOf_setPll_other (c : Cad) {k j : Nat} (p : Pll) (h : j ≠ k) : pllOf (c.setPll k p) j = pllOf c j :=
  tget_tset_other _ _ _ _ _ (Ne.symm h)

@[simp] theorem Cad.setPll_setPll (c : Cad) (k : Nat) (p q : Pll) : (c.setPll k p).setPll k q = c.setPll k q := by
  simp only [Cad.setPll, tset_tset]

/-- Records of clean windows that are released change Stores alone. -/
theorem eq_publishAll (u : State) (c : Cad) :
    ((u.setCad c).publishAll).cad = c ∧
      (u.setCad c).publishAll = { u with cad := ((u.setCad c).publishAll).cad, store := ((u.setCad c).publishAll).store } := by
  have hrest := (u.setCad c).publishAll_rest
  have hcad := congrArg State.cad hrest
  refine ⟨hcad, ?_⟩
  generalize (u.setCad c).publishAll = t at hrest hcad ⊢
  have hall := congrArg (fun z : State => { z with cad := t.cad, store := t.store }) hrest
  exact hall

/-! ### Lock windows (R58, R69, R70) -/

section
variable {k diff t : Nat} {s : State}

theorem lockWindowEnd_coasting (hco : (s.tick t).cad.coasting = true) :
    let c := (s.tick t).cad
    lockWindowEnd k diff t s = ((s.tick t).setCad (c.setPll k { pllOf c k with winFrom := c.now })).publishAll := by
  simp only [lockWindowEnd, windowEnd, hco, if_true, Bool.false_eq_true, if_false]

theorem lockWindowEnd_locked (hco : (s.tick t).cad.coasting = false) (hlock : (pllOf (s.tick t).cad k).locked = true)
    (hdiff : diff ≤ 8) :
    let c := (s.tick t).cad
    lockWindowEnd k diff t s =
      ((s.tick t).setCad ({ c with refPresent := true }.setPll k { pllOf c k with winFrom := c.now })).publishAll := by
  have hnot : ¬8 < diff := Nat.not_lt.mpr hdiff
  simp only [lockWindowEnd, windowEnd, hco, hlock, hnot, if_true, Bool.false_eq_true, if_false]
  rfl

theorem lockWindowEnd_lost (hco : (s.tick t).cad.coasting = false) (hlock : (pllOf (s.tick t).cad k).locked = true)
    (hdiff : 8 < diff) :
    lockWindowEnd k diff t s = pllLoss k (declareLoss k ((s.tick t).setCad { (s.tick t).cad with refPresent := true })) := by
  simp only [lockWindowEnd, windowEnd, hco, hlock, hdiff, if_true, Bool.false_eq_true, if_false]

theorem lockWindowEnd_acquiring (hco : (s.tick t).cad.coasting = false) (hlock : (pllOf (s.tick t).cad k).locked = false) {n : Nat}
    (hn : n = if diff ≤ 2 then (pllOf (s.tick t).cad k).good + 1 else 0) :
    let c := (s.tick t).cad
    let u := (s.tick t).setCad ({ c with refPresent := true }.setPll k { pllOf c k with good := n, winFrom := c.now })
    lockWindowEnd k diff t s = (if 4 ≤ n then declareLock k u else u).publishAll := by
  subst hn
  simp only [lockWindowEnd, windowEnd, hco, hlock, Bool.false_eq_true, if_false]
  rfl

end

/-- The cadence once a synthesiser has declared loss (R70). -/
def Cad.lose (c : Cad) (k : Nat) : Cad :=
  let p := pllOf c k
  { c.setPll k { p with locked := false, good := 0, lossFrom := some (p.lossFrom.getD p.winFrom), lossAt := c.now } with
    unlocks := satAdd 32 c.unlocks 1 }

/-- A loss that is declared changes the control state in its synthesiser and count alone, whatever it takes. -/
theorem pllLoss_declareLoss_control (k : Nat) (s : State) :
    (pllLoss k (declareLoss k s)).control = (s.setCad (s.cad.lose k)).control := by
  have hpost : (declareLoss k s).control = (s.setCad (s.cad.lose k)).control := State.post_control _ _ _ _
  rw [pllLoss_control, hpost]

theorem Cad.pllOf_lose_self (c : Cad) (k : Nat) : pllOf (c.lose k) k = { pllOf c k with
    locked := false, good := 0, lossFrom := some ((pllOf c k).lossFrom.getD (pllOf c k).winFrom), lossAt := c.now } :=
  pllOf_setPll_self _ _ _

theorem Cad.pllOf_lose_other (c : Cad) {k j : Nat} (h : j ≠ k) : pllOf (c.lose k) j = pllOf c j := pllOf_setPll_other _ _ h

theorem loss_facts {k : Nat} {s t : State} (h : t.control = (s.setCad (s.cad.lose k)).control) :
    (pllOf t.cad k).locked = false ∧ (pllOf t.cad k).good = 0 ∧
      (pllOf t.cad k).lossFrom = some ((pllOf s.cad k).lossFrom.getD (pllOf s.cad k).winFrom) ∧
      (∀ j, j ≠ k → pllOf t.cad j = pllOf s.cad j) ∧ t.cad.unlocks = satAdd 32 s.cad.unlocks 1 ∧ t.health = s.health ∧
      t.exh = s.exh ∧ t.cur.committed = s.cur.committed := by
  obtain ⟨hcad, -, hexh, -, hhealth, -⟩ := control_at h
  obtain ⟨-, hcom, -⟩ := control_cur h
  rw [hcad, State.setCad_cad, s.cad.pllOf_lose_self]
  exact ⟨rfl, rfl, rfl, fun j hj => s.cad.pllOf_lose_other hj, rfl, hhealth, hexh, hcom⟩

/-! ### Analysis that resumes (R54, R70) -/

/-- Losses that are over, of the cadence. -/
def Cad.found (ks : List Nat) (c : Cad) : Cad := ks.foldl (fun c k => c.setPll k { pllOf c k with lossFrom := none }) c

theorem foldl_setCad (f : Cad → Nat → Cad) (ks : List Nat) (s : State) :
    ks.foldl (fun s k => s.setCad (f s.cad k)) s = s.setCad (ks.foldl f s.cad) := by
  induction ks generalizing s with
  | nil => rfl
  | cons k ks ih => rw [List.foldl_cons, ih]; rfl

theorem pllOf_found (ks : List Nat) (c : Cad) (j : Nat) :
    pllOf (Cad.found ks c) j = if j ∈ ks then { pllOf c j with lossFrom := none } else pllOf c j := by
  induction ks generalizing c with
  | nil => simp [Cad.found]
  | cons k ks ih =>
    have hstep : Cad.found (k :: ks) c = Cad.found ks (c.setPll k { pllOf c k with lossFrom := none }) := rfl
    rw [hstep, ih]
    by_cases hjk : j = k
    · subst hjk
      simp
    · simp [pllOf_setPll_other _ _ hjk, hjk]

theorem resumePlls_control (ks : List Nat) (S : Nat) (s : State) :
    (resumePlls ks S s).control = (s.setCad (Cad.found ks s.cad)).control := by
  unfold resumePlls
  extract_lets ds was s1 s2 s3
  have h1 : s1 = s.setCad (Cad.found ks s.cad) := foldl_setCad (fun c k => c.setPll k { pllOf c k with lossFrom := none }) ks s
  have h2 : s2.control = s1.control := resumeStreams_control s1 S ds was false
  have h3 : s3.control = s2.control := foldl_control (fun u w => resumeOutputs_control u S w) _ s2
  rw [State.publishAll_control, h3, h2, h1]

theorem endLosses_of_none {sel : Loss → Bool} {s : State} (h : s.losses = []) (S : Nat) (failed : Bool) :
    endLosses sel S failed s = s := by
  simp [endLosses, h]

/-- With no loss but those of synthesisers, they alone are over. -/
theorem analysisBack_control {t : Nat} {s : State} (h : s.losses = []) :
    (analysisBack t s).control =
      ((s.tick t).setCad (Cad.found (resumable (s.tick t).cad (s.tick t).cad.now) (s.tick t).cad)).control ∧
    (resumable (s.tick t).cad (s.tick t).cad.now = [] → analysisBack t s = s.tick t) := by
  unfold analysisBack
  extract_lets u ks v word
  have hv : v.control = (u.setCad (Cad.found ks u.cad)).control := by
    by_cases hks : ks = []
    · have hvu : v = u := if_pos (List.isEmpty_iff.mpr hks)
      rw [hvu, hks]
      rfl
    · have hvu : v = resumePlls ks _ u := if_neg (by simpa using hks)
      rw [hvu, resumePlls_control]
  have hlosses : v.losses = [] := by
    obtain ⟨-, -, -, -, -, -, -, -, -, -, hkeep⟩ := control_at hv
    exact hkeep.trans h
  rw [endLosses_of_none hlosses]
  exact ⟨hv, fun hks => if_pos (List.isEmpty_iff.mpr hks)⟩

/-- With nothing that waits, what resumes is all that happens. -/
theorem analysisResume_of_nothing {t : Nat} {s : State} (h : s.losses = []) (hw : NothingWaits s) :
    analysisResume t s = analysisBack t s := by
  have hback := (analysisBack_control (t := t) h).1
  obtain ⟨-, hcommitted, hpending, hactions, -⟩ := control_cur hback
  have hnothing : NothingWaits (analysisBack t s) := nothingWaits_of_control hw hpending hactions hcommitted
  unfold analysisResume
  extract_lets lost before hadFpll from' lossAt a u back v
  have hv : v = u := (if_congr Iff.rfl (markLate_of_nothing hnothing.2.1 _) rfl).trans (ite_self _)
  rw [hv]
  have hu : NothingWaits u := hnothing
  rw [lateSchedules_of_nothing hu]
  exact runLate_of_nothing hu _ _

/-! ### The anchor (R43, R46, R539) -/

theorem hkNext_cad (c t : Nat) (s : State) : (hkNext c t s).cad = s.cad := by
  unfold hkNext
  dsimp only
  split_ifs
  · rfl
  all_goals
    split
    · split <;> rfl
    · rfl

theorem scheduleCal_cad (k u e : Nat) (s : State) : (scheduleCal k u e s).cad = s.cad := by
  unfold scheduleCal
  dsimp only
  split_ifs
  · rfl
  · rfl
  · exact (State.post_notes _ _ _ _).field State.cad fun _ _ _ _ => rfl

theorem hkStart_cad (t : Nat) (s : State) : (hkStart t s).cad = s.cad := (hkNext_cad _ _ _).trans (hkNext_cad _ _ _)

theorem applyCalSchedule_cad (b : Block) (s : State) : (applyCalSchedule b s).cad = s.cad := by
  unfold applyCalSchedule
  extract_lets k u c v
  have hv : v.cad = s.cad := rfl
  exact (scheduleCal_cad _ _ _ v).trans hv

theorem foldl_applyCalSchedule_cad (bs : List Block) (s : State) :
    (bs.foldl (fun s b => applyCalSchedule b s) s).cad = s.cad :=
  foldl_unchanged State.cad (fun s b => applyCalSchedule_cad b s) bs s

theorem publishAll_cad (s : State) : s.publishAll.cad = s.cad := (control_at (State.publishAll_control s)).1

/-- What the housekeeping and the calibration windows take up at an anchor. -/
def anchorScans (s : State) : State :=
  let w := if s.pow.domains.testBit 30 then hkStart 0 s else s
  let x : State := { w with trig := tmap w.trig fun _ x => { x with times := [] } }
  (x.view.ofType btCalSchedule).foldl (fun s b => applyCalSchedule b s) x

theorem anchorScans_cad (s : State) : (anchorScans s).cad = s.cad := by
  unfold anchorScans
  extract_lets w x
  have hw : w.cad = s.cad := by
    by_cases h : s.pow.domains.testBit 30 = true
    · exact (congrArg State.cad (if_pos h)).trans (hkStart_cad 0 s)
    · exact congrArg State.cad (if_neg h)
  have hx : x.cad = w.cad := rfl
  clear_value w x
  rw [foldl_applyCalSchedule_cad, hx, hw]

theorem anchorNow_eq {s : State} (h : ¬(!(s.cad.awaitAnchor && allLocked s.cad)) = true) :
    let u := anchor (moveAxis s.cad.now 0 (settleAll s))
    let v := { u with comp := tmap u.comp fun _ x => { x with latch := x.latch.map fun _ => -1, was := none, cleared := -(2 ^ 80) } }
    anchorNow s = (anchorScans v).publishAll := if_neg h

theorem anchorNow_eq_anchor_cad {s : State} (ha : s.cad.awaitAnchor = true) (hl : allLocked s.cad = true) :
    (anchorNow s).cad = (anchor (moveAxis s.cad.now 0 (settleAll s))).cad := by
  have hif : ¬(!(s.cad.awaitAnchor && allLocked s.cad)) = true := by
    rw [ha, hl]
    decide
  rw [anchorNow_eq hif, publishAll_cad, anchorScans_cad]

theorem allLocked_shift (c : Cad) (old S : Nat) : allLocked (c.shift old S) = allLocked c := by
  have hlocked (k : Nat) : (pllOf (c.shift old S) k).locked = (pllOf c k).locked := by
    unfold pllOf tget
    have hplls : (c.shift old S).plls = tmap c.plls (fun _ p => { p with
        winFrom := S, lockAt := shiftAt old S 0 p.lockAt, lossFrom := p.lossFrom.map fun _ => S }) := rfl
    rw [hplls, tfind_tmap]
    cases tfind c.plls k <;> rfl
  simp only [allLocked, hlocked]
  rfl

/-- The cadence that an anchor sets (R43, R46). -/
def Cad.anchorOn (c : Cad) (b : Block) : Cad :=
  { c with now := 0, anchored := true, awaitAnchor := false, keptTurn := none, turnInit := c.keptTurn.getD (b.u 24 6)
           rnum := cadRnum b, spt := cadSpt b, jumpSpan := none, holdFrom := none, holdSpans := [], markRun := 0
           plls := (List.range 5).foldl (fun t k => tset t k { tget {} t k with winFrom := 0, lockAt := 0 }) c.plls }

theorem anchorNow_cad {s : State} (ha : s.cad.awaitAnchor = true) (hl : allLocked s.cad = true) :
    (anchorNow s).cad = (s.cad.shift s.cad.now 0).anchorOn s.cadBlock := by
  have hmoved := moveAxis_control s.cad.now 0 (settleAll s)
  generalize hu : moveAxis s.cad.now 0 (settleAll s) = u at hmoved
  have hcad : u.cad = s.cad.shift s.cad.now 0 := by
    have h := congrArg State.cad hmoved
    exact h
  have hcom : u.cur.committed = s.cur.committed := by
    have h := congrArg (fun z : State => z.cur.committed) hmoved
    exact h
  have hanchor : (anchor u).cad = (s.cad.shift s.cad.now 0).anchorOn s.cadBlock := by
    have hif : ¬(!(u.cad.awaitAnchor && allLocked u.cad)) = true := by
      have haw : u.cad.awaitAnchor = true := by rw [hcad]; exact ha
      rw [haw, hcad, allLocked_shift, hl]
      decide
    have hset : (anchor u).cad = u.cad.anchorOn u.cadBlock := congrArg State.cad (if_neg hif)
    rw [hset, hcad, cadBlock_of_control hcom]
  rw [anchorNow_eq_anchor_cad ha hl, hu]
  exact hanchor

/-- A note and records released leave all but the Stores, and the cadence set before. -/
theorem notes_post_publishAll (u : State) (c : Cad) (code : Nat) (payload : List (Nat × Nat)) :
    (((u.setCad c).post code payload).publishAll).cad = c ∧
      Notes { u with cad := (((u.setCad c).post code payload).publishAll).cad
                     store := (((u.setCad c).post code payload).publishAll).store }
        (((u.setCad c).post code payload).publishAll) := by
  have hpost := (u.setCad c).post_notes code payload 0
  generalize (u.setCad c).post code payload = p at hpost ⊢
  have hcad : p.cad = c := hpost.field State.cad fun _ _ _ _ => rfl
  have hrest := p.publishAll_rest
  have hpub : p.publishAll.cad = c := (publishAll_cad p).trans hcad
  generalize p.publishAll = t at hrest hpub ⊢
  refine ⟨hpub, ?_⟩
  have hall := congrArg (fun z : State => { z with
    cad := t.cad, store := t.store, mbox := u.mbox, sent := u.sent, cur := { z.cur with held := u.cur.held } }) hrest
  have hnote := congrArg (fun z : State => { z with cad := t.cad, store := t.store }) hpost
  exact hall.trans hnote

/-- A synthesiser that declares lock (R69): its state, the others', and the rest. -/
theorem declareLock_publishAll (k : Nat) (u : State) (c : Cad) (p : Pll) :
    let t := (declareLock k (u.setCad (c.setPll k p))).publishAll
    pllOf t.cad k = { p with locked := true, acquiring := false, lockAt := c.now } ∧
      (∀ j, j ≠ k → pllOf t.cad j = pllOf c j) ∧ Notes { u with cad := t.cad, store := t.store } t := by
  have hp : pllOf (u.setCad (c.setPll k p)).cad k = p := pllOf_setPll_self c k p
  unfold declareLock
  dsimp only
  rw [hp]
  obtain ⟨hcad, hnotes⟩ := notes_post_publishAll u
    ((c.setPll k p).setPll k { p with locked := true, acquiring := false, lockAt := c.now }) evPllLock [(1, k)]
  refine ⟨?_, fun j hj => ?_, hnotes⟩
  · exact (congrArg (pllOf · k) hcad).trans (pllOf_setPll_self _ _ _)
  · exact (congrArg (pllOf · j) hcad).trans ((pllOf_setPll_other _ _ hj).trans (pllOf_setPll_other _ _ hj))

/-- Settles O36: each lock window's end sets one synthesiser, and an anchor sets the map. -/
theorem lockAndAnchor : Obligations.LockAndAnchor := by
  refine ⟨fun k diff t s => ⟨fun hco => ?coasting, fun hco hlock hdiff => ?locked, fun hco hlock n hn => ⟨fun hlow => ?counting,
    fun hfour => ?declared⟩, fun hco hlock hdiff => ?lost, fun hoff => ?unlockIdle, fun hco hlock => ?unlock,
    fun hks hloss hw => ?nothing, fun hloss hw => ?resume⟩, fun s => ⟨fun hoff => ?anchorOff, fun ha hl => ?anchor⟩⟩
  case coasting =>
    exact ⟨_, congrArg Host.Outcome.next (lockWindowEnd_coasting hco), eq_publishAll _ _⟩
  case locked =>
    exact ⟨_, congrArg Host.Outcome.next (lockWindowEnd_locked hco hlock hdiff), eq_publishAll _ _⟩
  case counting =>
    have hnot : ¬4 ≤ n := Nat.not_le.mpr hlow
    have hx := lockWindowEnd_acquiring (k := k) hco hlock hn
    dsimp only at hx
    rw [if_neg hnot] at hx
    exact ⟨_, congrArg Host.Outcome.next hx, eq_publishAll _ _⟩
  case declared =>
    have hx := lockWindowEnd_acquiring (k := k) hco hlock hn
    dsimp only at hx
    rw [if_pos hfour] at hx
    exact ⟨_, congrArg Host.Outcome.next hx, declareLock_publishAll k (s.tick t) _ _⟩
  case lost =>
    have h := loss_facts (pllLoss_declareLoss_control k ((s.tick t).setCad { (s.tick t).cad with refPresent := true }))
    exact ⟨_, congrArg Host.Outcome.next (lockWindowEnd_lost hco hlock hdiff), h⟩
  case unlockIdle =>
    have hif : (!(pllOf (s.tick t).cad k).locked || (s.tick t).cad.coasting) = true := by
      rcases hoff with h | h <;> rw [h] <;> simp
    exact congrArg Host.Outcome.next (if_pos hif)
  case unlock =>
    have hif : ¬(!(pllOf (s.tick t).cad k).locked || (s.tick t).cad.coasting) = true := by rw [hlock, hco]; decide
    obtain ⟨hlocked, hgood, hfrom, hother, hcount, -⟩ := loss_facts (pllLoss_declareLoss_control k (s.tick t))
    exact ⟨_, congrArg Host.Outcome.next (if_neg hif), hlocked, hgood, hfrom, hother, hcount⟩
  case nothing =>
    exact congrArg Host.Outcome.next ((analysisResume_of_nothing hloss hw).trans ((analysisBack_control hloss).2 hks))
  case resume =>
    have hcad := (control_at (analysisBack_control (t := t) hloss).1).1
    refine ⟨_, congrArg Host.Outcome.next (analysisResume_of_nothing hloss hw), fun j hj => ?_, fun j hj => ?_⟩
    · rw [hcad, State.setCad_cad, pllOf_found, if_pos hj]
    · rw [hcad, State.setCad_cad, pllOf_found, if_neg hj]
  case anchorOff =>
    have hif : (!(s.cad.awaitAnchor && allLocked s.cad)) = true := by
      rcases hoff with h | h <;> rw [h] <;> simp
    exact congrArg Host.Outcome.next (if_pos hif)
  case anchor =>
    refine ⟨_, rfl, ?_⟩
    dsimp only
    rw [anchorNow_cad ha hl]
    refine ⟨rfl, rfl, rfl, rfl, rfl, rfl, rfl, fun hkept => ?_, fun n hkept => ?_, rfl, rfl, rfl⟩
    · exact congrArg (fun x : Option Nat => x.getD (s.cadBlock.u 24 6)) hkept
    · exact congrArg (fun x : Option Nat => x.getD (s.cadBlock.u 24 6)) hkept

end Sys2Proof.Machine
end

section
/-! PROOF. What blocks do when they take effect (R66, R67, R72, R97, R117, R376, R424). -/
namespace Sys2Proof.Machine

/-- A mount but for what its life has made of it (R114). -/
def Mount.ageless (m : Mount) : Mount := { m with warned := false, expired := false, due := false }

theorem State.mt_setMt_other (s : State) {p q : Nat} (m : Mount) (h : q ≠ p) : (s.setMt p m).mt q = s.mt q :=
  tget_tset_other _ _ _ _ _ (Ne.symm h)

theorem State.post_mt (s : State) (code : Nat) (l : List (Nat × Nat)) (fn q : Nat) : (s.post code l fn).mt q = s.mt q :=
  (s.post_notes code l fn).field (fun z => z.mt q) fun _ _ _ _ => rfl

/-- The life of a mount's relays changes what has been told of it, and what waits for the turn boundary (R114). -/
theorem lifeCheck_mt (p : Nat) (s : State) :
    ((lifeCheck p s).mt p).ageless = (s.mt p).ageless ∧ ((s.mt p).due = true → ((lifeCheck p s).mt p).due = true) ∧
      ∀ q, q ≠ p → (lifeCheck p s).mt q = s.mt q := by
  unfold lifeCheck
  extract_lets m
  split_ifs with hgov
  · exact ⟨rfl, id, fun _ _ => rfl⟩
  · split
    · exact ⟨rfl, id, fun _ _ => rfl⟩
    · next k n l _ =>
      extract_lets u m2
      have hu : (u.mt p).ageless = m.ageless ∧ (u.mt p).due = m.due ∧ ∀ q, q ≠ p → u.mt q = s.mt q := by
        by_cases hwarn : 9 * l ≤ 10 * n ∧ (!m.warned) = true
        · rw [show u = _ from if_pos hwarn]
          simp only [State.post_mt, State.mt_setMt_self]
          exact ⟨rfl, trivial, fun q hq => State.mt_setMt_other _ _ hq⟩
        · rw [show u = _ from if_neg hwarn]
          exact ⟨rfl, rfl, fun _ _ => rfl⟩
      obtain ⟨hage, hdue, hother⟩ := hu
      split_ifs
      · simp only [State.post_mt, State.mt_setMt_self]
        exact ⟨hage, fun _ => trivial, fun q hq => (State.mt_setMt_other _ _ hq).trans (hother q hq)⟩
      · exact ⟨hage, fun h => hdue.trans h, hother⟩

/-- A setting of the same mode of a mount sets its lines and its speed, and counts every line that changes (R103, R117). -/
theorem applyMount_mt {b : Block} {s : State} (h : (s.mt (b.u 0 1)).mode = b.u 1 1) :
    ((applyMount b s).mt (b.u 0 1)).ctl = b.u 2 1 ∧ ((applyMount b s).mt (b.u 0 1)).speed = b.u 3 1 ∧
      ((applyMount b s).mt (b.u 0 1)).relay = (s.mt (b.u 0 1)).relay.zipIdx.map fun q =>
        if ((s.mt (b.u 0 1)).ctl ^^^ b.u 2 1).testBit q.2 then satAdd 32 q.1 1 else q.1 := by
  unfold applyMount
  extract_lets p m ctl relay u
  obtain ⟨hage, -⟩ := lifeCheck_mt p u
  have hu : u.mt p = { m with mode := b.u 1 1, ctl := ctl, speed := b.u 3 1, relay := relay } := State.mt_setMt_self _ _ _
  rw [hu] at hage
  rw [if_pos h]
  generalize (lifeCheck p u).mt p = y at hage ⊢
  exact ⟨congrArg Mount.ctl hage, congrArg Mount.speed hage, congrArg Mount.relay hage⟩

theorem relayCount_get (l : List Nat) (x : Nat) {i n : Nat} (h : l[i]? = some n) :
    (l.zipIdx.map fun q => if x.testBit q.2 then satAdd 32 q.1 1 else q.1)[i]? = some (if x.testBit i then satAdd 32 n 1 else n) := by
  simp [h]

theorem pllOf_acquirePlls {b : Block} {t k : Nat} (h : k < 5) (c : Cad) :
    pllOf { c with plls := acquirePlls b t } k = { fb := dividerOf b, acquiring := true, winFrom := t } := by
  unfold pllOf acquirePlls
  interval_cases k <;> rfl

theorem quInterrupt_of_waiting {q : Nat} {s : State} (h : (s.qu q).waiting = 0) : quInterrupt q s = s := by
  unfold quInterrupt
  simp only [h, bne_self_eq_false, Bool.false_and, Bool.false_eq_true, if_false]

/-- Settles O38, block by block: each sets its own unit. -/
theorem blocksTakeEffect : Obligations.BlocksTakeEffect := by
  refine fun o b s => ⟨fun hsame => ?same, fun hdiff => ?cadence, ?clock, fun hmode => ?mount, fun hgl => ?channel, ?level,
    fun hoff hon => ?enable, fun heq hw => ?queue⟩
  case same => exact if_neg (by rw [hsame]; decide)
  case cadence =>
    rw [show applyCadence o b s = _ from if_pos hdiff]
    exact ⟨rfl, rfl, rfl, rfl, rfl, fun k hk => pllOf_acquirePlls hk s.cad, rfl⟩
  case clock =>
    have hself : tget ({} : ClkOut) (applyClockOutput b s).clkOut (b.u 0 1) = _ := tget_tset_self _ _ _ _
    refine ⟨?_, ?_, fun n hn => tget_tset_other _ _ _ _ _ (Ne.symm hn), rfl⟩
    · rw [hself]
      rfl
    · rw [hself]
      rfl
  case mount =>
    obtain ⟨hctl, hspeed, hrelay⟩ := applyMount_mt hmode
    refine ⟨hctl, hspeed, fun i n hn => ?_⟩
    rw [hrelay]
    exact relayCount_get _ _ hn
  case channel =>
    have hif : (b.u 3 1 == 0) = true := beq_iff_eq.mpr hgl
    unfold applyChannelInput
    extract_lets c S x x1 was is x2 x3
    have hx3 : x3 = { x2 with rotating := false } := if_pos hif
    have hch : (s.setCh c x3).ch c = x3 := tget_tset_self _ _ _ _
    rw [hch, hx3]
  case level => exact ⟨tget_tset_self _ _ _ _, congrArg (s.setLv (b.u 0 1)) (tget_tset_self _ _ _ _).symm⟩
  case enable => exact if_pos ⟨hoff, hon⟩
  case queue =>
    have hon : ¬(o.u 1 1 = 0 ∧ b.u 1 1 = 1) := by omega
    have hoff : ¬(o.u 1 1 = 1 ∧ b.u 1 1 = 0) := by omega
    exact ((if_neg hon).trans (if_neg hoff)).trans (quInterrupt_of_waiting hw)

end Sys2Proof.Machine
end

section
/-! SUPPORT. What a frame leaves (R147 to R191): the cadence, the control plane, and its pipeline's configuration and counts. -/
namespace Sys2Proof.Machine

/-- The part of a pipeline that its streams, planes and masks leave. -/
def Pipe.counts (p : Pipe) : PipeCfg × List PipeCfg × Nat × Nat × Int := (p.cfg, p.waiting, p.next, p.frames, p.lastExp)

/-- What the consumers of a frame of `h` leave. -/
def State.framing (h : Nat) (s : State) : Cad × Cur × PipeCfg × List PipeCfg × Nat × Nat × Int :=
  (s.cad, s.cur, (s.pp h).counts)

section
variable (h : Nat) (s : State)

@[simp] theorem framing_ite (p : Prop) [Decidable p] (a b : State) :
    (if p then a else b).framing h = if p then a.framing h else b.framing h := apply_ite (State.framing h) p a b

theorem foldl_framing {α : Type} {f : State → α → State} (hf : ∀ s a, (f s a).framing h = s.framing h) (l : List α) :
    (l.foldl f s).framing h = s.framing h := foldl_unchanged (State.framing h) hf l s

@[simp] theorem State.produce_framing (r : Rec) : (s.produce r).framing h = s.framing h := by
  have hrest := congrArg (State.framing h) (s.produce_rest r)
  exact hrest

@[simp] theorem State.setPlane_framing (g : Nat) (p : Plane) : (s.setPlane g p).framing h = s.framing h := rfl

@[simp] theorem State.setInterval_framing (g : Nat) (x : Interval) : (s.setInterval g x).framing h = s.framing h := rfl

@[simp] theorem State.pushAll_framing (num den : Nat) (f : Nat → List Byte → Option Push) :
    (s.pushAll num den f).framing h = s.framing h := rfl

theorem State.pp_setPipe (p : Pipe) : (s.setPipe h p).pp h = p := tget_tset_self _ _ _ _

variable {h s} in
/-- A pipeline that keeps its counts. -/
theorem State.setPipe_framing {p : Pipe} (hp : p.counts = (s.pp h).counts) : (s.setPipe h p).framing h = s.framing h := by
  unfold State.framing
  rw [State.pp_setPipe, hp]
  rfl

theorem emptyTraces_framing (st : List Byte) (next stop k : Nat) : (emptyTraces h st next stop k s).framing h = s.framing h := by
  induction k generalizing s with
  | zero => rfl
  | succ k ih =>
    rw [emptyTraces]
    dsimp only
    split
    · rfl
    · split_ifs
      · rfl
      · rw [ih, State.produce_framing]
        exact State.setPipe_framing rfl

theorem traceFrame_framing (j : Nat) (st : List Byte) (powers : List Nat) (clamped : Bool) (q : Nat) :
    (traceFrame h j st powers clamped q s).framing h = s.framing h := by
  unfold traceFrame
  extract_lets p c num e key cadence s1 p1 s2 p2 skip det grp b0 vals fresh t acc t1 nextKey p3 s3
  have h1 : s1.framing h = s.framing h := by simp only [s1, framing_ite, emptyTraces_framing, ite_self]
  have h2 : s2.framing h = s1.framing h := by
    by_cases hc : cadence = true
    · exact (congrArg (State.framing h) (if_pos hc)).trans (State.setPipe_framing rfl)
    · exact congrArg (State.framing h) (if_neg hc)
  have hp3 : p3.counts = (s2.pp h).counts := rfl
  have h3 : s3.framing h = s2.framing h := (State.produce_framing h _ _).trans (State.setPipe_framing hp3)
  have h4 : (s2.setPipe h { p3 with traces := tset p3.traces num t1 }).framing h = s2.framing h := State.setPipe_framing hp3
  clear_value s3 t1 p3
  simp only [framing_ite, h4, emptyTraces_framing, h3, ite_self, h2, h1]

theorem streamFrame_framing (j : Nat) (bins : List Smp) (e : Int) (powers : List Nat) (q : Nat) (st : List Byte) :
    (streamFrame h j bins e powers q st s).framing h = s.framing h := by
  unfold streamFrame
  dsimp only
  simp only [framing_ite, traceFrame_framing, State.produce_framing, ite_self]

theorem swardSnap_framing (j why : Nat) (clear late : Bool) : (swardSnap h j why clear late s).framing h = s.framing h := by
  simp only [swardSnap, framing_ite, State.produce_framing, State.setPlane_framing, ite_self]

theorem swardFrame_framing (j : Nat) (powers : List Nat) (q : Nat) : (swardFrame h j powers q s).framing h = s.framing h := by
  unfold swardFrame
  dsimp only
  simp only [framing_ite, swardSnap_framing, State.pushAll_framing, State.setPlane_framing, ite_self]

theorem maskFrame_framing (j : Nat) (powers : List Nat) (q : Nat) : (maskFrame h j powers q s).framing h = s.framing h := by
  unfold maskFrame
  dsimp only
  rw [State.pushAll_framing]
  exact State.setPipe_framing rfl

theorem feedPorts_framing (j f0 : Nat) (c : PipeCfg) (bins : List Smp) (powers : List Nat) (q : Nat) :
    (feedPorts h j f0 c bins powers q s).framing h = s.framing h := rfl

variable (g : Nat)

theorem concFrame_framing (m j lo : Nat) (bins : List (Int × Int)) (ex : Int) (q : Nat) :
    (concFrame g m j lo bins ex q s).framing h = s.framing h := by
  unfold concFrame
  dsimp only
  split <;> simp

theorem produceInterval_framing (x : Interval) (unset : Bool) (empty : Option Nat) :
    (produceInterval g x unset empty s).framing h = s.framing h := by simp [produceInterval]

theorem emptyIntervals_framing (next stop k : Nat) : (emptyIntervals g next stop k s).framing h = s.framing h := by
  induction k generalizing s with
  | zero => rfl
  | succ k ih => simp [emptyIntervals, ih, produceInterval_framing]

theorem closeInterval_framing : (closeInterval g s).framing h = s.framing h := by
  simp [closeInterval, produceInterval_framing]

theorem adoptInterval_framing (c : ConcCfg) : (adoptInterval g c s).framing h = s.framing h := rfl

theorem concAccumulate_framing (mine : List Part) (j : Nat) : (concAccumulate g mine j s).framing h = s.framing h := by
  simp [concAccumulate, emptyIntervals_framing, produceInterval_framing]

theorem concRun_framing (k : Nat) : (concRun g k s).framing h = s.framing h := by
  induction k generalizing s with
  | zero => rfl
  | succ k ih =>
    rw [concRun]
    dsimp only
    split
    · rw [ih, concAccumulate_framing, State.setInterval_framing]
    · rw [framing_ite, ih, adoptInterval_framing, closeInterval_framing, ite_self]
    · rfl

theorem concAll_framing (m : Nat) : (concAll m s).framing h = s.framing h :=
  foldl_framing h s (fun u _ => concRun_framing h u _ _) _

end

/-! ### The frame itself (R147, R164) -/

theorem snapshotFirst_of_none {s : State} (hacts : ∀ a ∈ s.cur.actions, a.act.kind ≠ 5) (h j : Nat) (c : PipeCfg) :
    snapshotFirst s h j c = false := by
  unfold snapshotFirst
  rw [List.any_eq_false]
  intro a ha
  have hkind := hacts a ha
  split
  next heq =>
    rw [heq] at hkind
    exact absurd rfl hkind
  · decide

/-- A frame that is due and for which nothing waits: what it counts, and what it leaves. -/
theorem fftFrame_framing {h j first : Nat} {codes : List Conv} {s : State}
    (hon : getU (s.pp h).cfg.spec 7 1 = 1) (hgang : s.view.gangMember h = false) (hj : j = (s.pp h).next)
    (hloss : clockLoss s.cad (s.view.deps h) = none) (hacts : ∀ a ∈ s.cur.actions, a.act.kind ≠ 5)
    (hw : (s.pp h).waiting = []) :
    (fftFrame h j first codes s).framing h =
      (s.cad, s.cur, (s.pp h).cfg, [], j + 1, satAdd 64 (s.pp h).frames 1,
        (transform (s.pp h).cfg ((frameSource s h first codes (s.pp h).cfg (frameStart (s.pp h).cfg j)
          (2 ^ getU (s.pp h).cfg.spec 2 1)).1.map fun y => (y.re, y.im))).2) := by
  unfold fftFrame
  extract_lets p c n v e f0 lo hi lost ch path cc unset sumW
  have hlost : lost = false := by
    simp only [lost, v, hloss]
  have hfirst : snapshotFirst s h j c = false := snapshotFirst_of_none hacts h j c
  have hnot : ¬(getU c.spec 7 1 ≠ 1 ∨ v.gangMember h = true ∨ j ≠ p.next ∨ lost = true ∨ snapshotFirst s h j c = true) := by
    rw [hlost, hfirst]
    simp only [Bool.false_eq_true, or_false, not_or, not_not]
    exact ⟨hon, by rw [hgang]; decide, hj⟩
  rw [if_neg hnot]
  split
  next src hits hsrc =>
  extract_lets s1
  split
  next x ex hx =>
  extract_lets x1 clamped q powers s2 s3 s4 s5 s6 p6 s7
  have h1 : s1.framing h = s.framing h := by
    simp only [s1, framing_ite]
    exact ite_self _
  have h2 : s2.framing h = s1.framing h := foldl_framing h s1 (fun u st => streamFrame_framing h u _ _ _ _ _ st) c.strs
  have h3 : s3.framing h = s2.framing h := swardFrame_framing h s2 j powers q
  have h4 : s4.framing h = s3.framing h := maskFrame_framing h s3 j powers q
  have h5 : s5.framing h = s4.framing h := feedPorts_framing h s4 j f0 c x1 powers q
  have h6 : s6.framing h = s5.framing h := by
    clear_value s5
    exact foldl_framing h s5 (fun u a => concFrame_framing h u a.1 _ _ _ _ _ _) s5.conc
  have hall : s6.framing h = s.framing h := h6.trans (h5.trans (h4.trans (h3.trans (h2.trans h1))))
  have hex : (transform c ((frameSource s h first codes c f0 n).1.map fun y => (y.re, y.im))).2 = ex := by
    rw [hsrc]
    exact congrArg Prod.snd hx
  have h7 : s7 = s6.setPipe h { p6 with next := j + 1, frames := satAdd 64 p6.frames 1, ovf := satAdd 32 p6.ovf (b2n clamped), lastExp := ex } := rfl
  have hp6 : p6 = s6.pp h := rfl
  rw [hex]
  clear_value s6 s7 p6
  subst h7 hp6
  obtain ⟨hcad, hcur, hcfg, hwait, -, hframes, -⟩ :
      s6.cad = s.cad ∧ s6.cur = s.cur ∧ (s6.pp h).cfg = (s.pp h).cfg ∧ (s6.pp h).waiting = (s.pp h).waiting ∧
      (s6.pp h).next = (s.pp h).next ∧ (s6.pp h).frames = (s.pp h).frames ∧ (s6.pp h).lastExp = (s.pp h).lastExp := by
    simpa only [State.framing, Pipe.counts, Prod.mk.injEq] using hall
  rw [concAll_framing]
  have hadopt (k : Nat) (u : State) (hu : (u.pp h).waiting = []) : adoptPipe h k u = u := by
    cases k with
    | zero => rfl
    | succ k => rw [adoptPipe, hu]
  have hpp := State.pp_setPipe h s6 { s6.pp h with
    next := j + 1, frames := satAdd 64 (s6.pp h).frames 1, ovf := satAdd 32 (s6.pp h).ovf (b2n clamped), lastExp := ex }
  rw [hadopt _ _ (by rw [hpp]; exact hwait.trans hw), State.framing, hpp]
  simp only [Pipe.counts, Prod.mk.injEq]
  exact ⟨hcad, hcur, hcfg, hwait.trans hw, trivial, congrArg (satAdd 64 · 1) hframes, trivial⟩

end Sys2Proof.Machine
end

section
/-! PROOF. Fades, frames, the trigger table, evaluations and pulses (R138, R147, R200, R216, R220, R227). -/
namespace Sys2Proof.Machine

/-! ### Trigger events (R216 to R223) -/

/-- What a trigger's event leaves: its next grid sample, the order of evaluations, the other triggers, cadence and blocks. -/
def State.evaluating (h : Nat) (s : State) : Nat × (Nat × Nat) × Cad × List Block × (Nat → Option Trig) :=
  ((s.tr h).next, s.lastEval, s.cad, s.cur.committed, fun g => if g = h then none else some (s.tr g))

section
variable (h : Nat) (s : State)

@[simp] theorem evaluating_ite (p : Prop) [Decidable p] (a b : State) :
    (if p then a else b).evaluating h = if p then a.evaluating h else b.evaluating h := apply_ite (State.evaluating h) p a b

theorem foldl_evaluating {α : Type} {f : State → α → State} (hf : ∀ s a, (f s a).evaluating h = s.evaluating h) (l : List α) :
    (l.foldl f s).evaluating h = s.evaluating h := foldl_unchanged (State.evaluating h) hf l s

@[simp] theorem State.tr_setTr_self (x : Trig) : (s.setTr h x).tr h = x := tget_tset_self _ _ _ _

theorem State.tr_setTr_other {g : Nat} (x : Trig) (hg : g ≠ h) : (s.setTr h x).tr g = s.tr g :=
  tget_tset_other _ _ _ _ _ (Ne.symm hg)

variable {h s} in
theorem State.setTr_evaluating {x : Trig} (hx : x.next = (s.tr h).next) : (s.setTr h x).evaluating h = s.evaluating h := by
  have hother : (fun g => if g = h then none else some ((s.setTr h x).tr g)) = fun g => if g = h then none else some (s.tr g) := by
    funext g
    split_ifs with hg
    · rfl
    · rw [State.tr_setTr_other _ _ _ hg]
  unfold State.evaluating
  rw [State.tr_setTr_self, hx, hother]
  rfl

@[simp] theorem State.postEx_evaluating (g code : Nat) (l : List (Nat × Nat)) :
    (s.postEx g code l).evaluating h = s.evaluating h :=
  (s.postEx_notes g code l).field (State.evaluating h) fun _ _ _ _ => rfl

@[simp] theorem State.post_evaluating (code : Nat) (l : List (Nat × Nat)) (fn : Nat) :
    (s.post code l fn).evaluating h = s.evaluating h :=
  (s.post_notes code l fn).field (State.evaluating h) fun _ _ _ _ => rfl

@[simp] theorem State.produce_evaluating (r : Rec) : (s.produce r).evaluating h = s.evaluating h := by
  have hrest := congrArg (State.evaluating h) (s.produce_rest r)
  exact hrest

@[simp] theorem nextAccession_evaluating : (nextAccession s).1.evaluating h = s.evaluating h := by
  unfold nextAccession
  dsimp only
  rw [evaluating_ite, State.post_evaluating, ite_self]
  rfl

@[simp] theorem driveLine_evaluating (l : Nat) (active : Bool) (fc : Nat) :
    (driveLine l active fc s).evaluating h = s.evaluating h := rfl

theorem startLine_evaluating (l fc : Nat) : (startLine l fc s).evaluating h = s.evaluating h := by
  unfold startLine
  dsimp only
  split
  · rw [evaluating_ite, driveLine_evaluating, ite_self]
    rfl
  · rw [evaluating_ite, driveLine_evaluating]
    exact ite_self _
  · rfl

theorem modeLines_rest (i : Nat) : { modeLines h i s with lines := s.lines, sent := s.sent } = s := by
  unfold modeLines
  refine foldl_unchanged (fun u : State => { u with lines := s.lines, sent := s.sent }) (fun u l => ?_) _ s
  dsimp only
  split_ifs <;> rfl

theorem modeLines_evaluating (i : Nat) : (modeLines h i s).evaluating h = s.evaluating h := by
  unfold modeLines
  refine foldl_evaluating h s (fun u l => ?_) (List.range 8)
  dsimp only
  rw [evaluating_ite, driveLine_evaluating]
  exact ite_self _

theorem queueMsg_evaluating (trigger : Bool) (m : BusMsg) : (queueMsg trigger m s).evaluating h = s.evaluating h := by
  unfold queueMsg
  dsimp only
  split_ifs <;> rfl

theorem startCapture_evaluating (i acc n : Nat) : (startCapture h i acc n s).evaluating h = s.evaluating h := by
  unfold startCapture
  extract_lets v x k ks tr stop t u
  have hu : u.evaluating h = s.evaluating h := State.setTr_evaluating rfl
  clear_value u
  have hcaps (l : List CapReq) : ({ u with caps := l } : State).evaluating h = s.evaluating h := hu
  rw [evaluating_ite, hu]
  exact (if_congr Iff.rfl rfl (hcaps _)).trans (ite_self _)

theorem extendCapture_evaluating (n tr acc stop : Nat) : (extendCapture n tr acc stop s).evaluating h = s.evaluating h := by
  have hsto (u : State) (x : Store) : (u.setSto n x).evaluating h = u.evaluating h := by
    have hrest := congrArg (State.evaluating h) (u.setSto_rest n x)
    exact hrest
  unfold extendCapture
  extract_lets u ge x
  exact hsto u _

theorem beginHold_evaluating (i : Nat) : (beginHold h i s).evaluating h = s.evaluating h := by
  unfold beginHold
  dsimp only
  split_ifs
  · exact State.setTr_evaluating rfl
  · exact State.setTr_evaluating rfl

theorem triggerEvent_evaluating (i lead mask : Nat) : (triggerEvent h i lead mask s).evaluating h = s.evaluating h := by
  have hacc : (nextAccession s).1.evaluating h = s.evaluating h := nextAccession_evaluating h s
  unfold triggerEvent
  split
  next s0 acc heq =>
  rw [heq] at hacc
  extract_lets x v bits eff union caps lines code s1 s2 beat s3 cb s4 x4 once s5
  have h1 : s1.evaluating h = s0.evaluating h := by
    simp only [s1, evaluating_ite, State.produce_evaluating, ite_self]
  have h2 : s2.evaluating h = s1.evaluating h := foldl_evaluating h s1 (fun u n => startCapture_evaluating h u i acc n) _
  have h3 : s3.evaluating h = s2.evaluating h := foldl_evaluating h s2 (fun u l => startLine_evaluating h u l _) _
  have h4 : s4.evaluating h = s3.evaluating h := by
    simp only [s4, evaluating_ite, queueMsg_evaluating, ite_self]
  have h5 : s5.evaluating h = s4.evaluating h := (beginHold_evaluating h _ i).trans (State.setTr_evaluating rfl)
  clear_value s5 s4
  rw [evaluating_ite, State.postEx_evaluating, ite_self, h5, h4, h3, h2, h1]
  exact hacc

theorem extendEvent_evaluating (i lead mask : Nat) : (extendEvent h i lead mask s).evaluating h = s.evaluating h := by
  have hacc : (nextAccession s).1.evaluating h = s.evaluating h := nextAccession_evaluating h s
  unfold extendEvent
  split
  next s0 acc heq =>
  rw [heq] at hacc
  extract_lets x v live first caps s1 s2 x2
  have h1 : s1.evaluating h = s0.evaluating h := by
    simp only [s1, evaluating_ite, State.produce_evaluating, ite_self]
  have h2 : s2.evaluating h = s1.evaluating h := by
    refine foldl_evaluating h s1 (fun u r => ?_) live
    rw [extendCapture_evaluating]
  have h3 := (State.setTr_evaluating (h := h) (s := s2) (x := { x2 with
    runs := x2.runs.map fun (r : Run) => if live.contains r then { r with stop := i + r.post } else r,
    hSup := 0, bSup := 0, events := satAdd 64 x2.events 1, lastAcc := acc }) rfl)
  rw [beginHold_evaluating, h3, h2, h1]
  exact hacc

theorem act216_evaluating (i lead mask : Nat) (occ : Bool) : (act216 h i lead mask occ s).evaluating h = s.evaluating h := by
  have hcount (x : Trig) (hx : x.next = (s.tr h).next) : (s.setTr h x).evaluating h = s.evaluating h :=
    State.setTr_evaluating hx
  unfold act216
  extract_lets x busy ext
  have hsup := hcount { x with hSup := satAdd 32 x.hSup 1, hTot := satAdd 32 x.hTot 1, holdLeft := x.holdLeft - 1 } rfl
  have bsup := hcount { x with bSup := satAdd 32 x.bSup 1, bTot := satAdd 32 x.bTot 1 } rfl
  simp only [evaluating_ite, triggerEvent_evaluating, extendEvent_evaluating, hsup, bsup, ite_self]

/-- An evaluation that is due: the trigger's next sample, and what it leaves (R200, R216). -/
theorem triggerEvaluate_evaluating {i : Nat} (vs : List CondIn) (q : Nat) (hdue : evalDue s h i = true) :
    (triggerEvaluate h i vs q s).evaluating h =
      (i + 1, evalKey s.view h i, s.cad, s.cur.committed, fun g => if g = h then none else some (s.tr g)) := by
  have hnot : ¬(!evalDue s h i) = true := by rw [hdue]; decide
  have hset (x : Trig) (hx : x.next = i + 1) : ({ s.setTr h x with lastEval := evalKey s.view h i } : State).evaluating h =
      (i + 1, evalKey s.view h i, s.cad, s.cur.committed, fun g => if g = h then none else some (s.tr g)) := by
    have hother : (fun g => if g = h then none else some ((s.setTr h x).tr g)) = fun g => if g = h then none else some (s.tr g) := by
      funext g
      split_ifs with hg
      · rfl
      · rw [State.tr_setTr_other _ _ _ hg]
    have hself : (s.setTr h x).tr h = x := State.tr_setTr_self _ _ _
    refine Prod.ext ((congrArg Trig.next hself).trans hx) (Prod.ext rfl (Prod.ext rfl (Prod.ext rfl hother)))
  unfold triggerEvaluate
  rw [if_neg hnot]
  extract_lets x x1 x2 before was combine mask
  split
  next conds bits edges _ =>
  extract_lets expr x3 _ s1 lead occ s2
  have h1 := hset x3 rfl
  have h2 : s2.evaluating h = s1.evaluating h := by
    simp only [s2, evaluating_ite, act216_evaluating, ite_self]
  rw [modeLines_evaluating, h2]
  exact h1

end

/-! ### The end of a hold-off (R220) -/

theorem modeLines_tr (h : Nat) (s : State) (i g : Nat) : (modeLines h i s).tr g = s.tr g := by
  unfold modeLines
  refine foldl_unchanged (fun u : State => u.tr g) (fun u l => ?_) _ s
  dsimp only
  split_ifs <;> rfl

theorem holdoffEnd_of_none {h i : Nat} {s : State} (hnone : (s.tr h).holdEnd = none) : holdoffEnd h i s = s := by
  simp only [holdoffEnd, hnone]

theorem holdoffEnd_due {h i e : Nat} {s : State} (he : (s.tr h).holdEnd = some e) (hei : e ≤ i) (hleft : (s.tr h).holdLeft = 0)
    (hnext : (s.tr h).next ≤ i) : holdoffEnd h i s = modeLines h i (s.setTr h { s.tr h with holdEnd := none }) := by
  simp only [holdoffEnd, he]
  exact if_pos ⟨hei, hleft, hnext⟩

/-! ### Fades (R138) -/

theorem pendingFadeStart_of_none {h n : Nat} {s : State} (hw : (tget ({} : Chain) s.chain h).wait = none) :
    pendingFadeStart h n s = s := by
  unfold pendingFadeStart
  dsimp only
  split
  · rw [if_neg]
    rw [hw]
    simp
  · rfl

theorem pendingFadeStart_due {h n : Nat} {s : State} {k : ChainCfg} {p : Nat} {e : ChainEv}
    (hk : (tget ({} : Chain) s.chain h).cfgs.getLast? = some k) (hp : (tget ({} : Chain) s.chain h).wait = some p)
    (he : (tget ({} : Chain) s.chain h).evs.getLast? = some e) (hkind : e.kind = 2) (hn : n = e.at (iqRatio k 1) + 64) :
    let x : Chain := tget {} s.chain h
    pendingFadeStart h n s = { s with chain := tset s.chain h (if p = e.new then
      { x with wait := none, replaced := satAdd 32 x.replaced 1 }
      else { x with wait := none, evs := x.evs ++ [⟨2, n * iqRatio k 1, e.new, p⟩] }) } := by
  intro x
  have hnot : ¬(e.kind ≠ 2 ∨ n < e.at (iqRatio k 1) + 64) := by
    rw [not_or, not_not]
    exact ⟨hkind, by omega⟩
  have hstart : x.startWait (iqRatio k 1) n = if p = e.new then
      { x with wait := none, replaced := satAdd 32 x.replaced 1 }
      else { x with wait := none, evs := x.evs ++ [⟨2, n * iqRatio k 1, e.new, p⟩] } := by
    simp only [Chain.startWait, x, hp, he]
    rw [if_neg hnot, hn]
  have hif : e.kind = 2 ∧ n = e.at (iqRatio k 1) + 64 ∧ x.wait.isSome = true := ⟨hkind, hn, by simp [x, hp]⟩
  rw [← hstart]
  simp only [pendingFadeStart, hk, he]
  exact if_pos hif

/-! ### The table of R216 and the pulses -/

theorem trigOutPulseEnd_of_other {l fc : Nat} {s : State}
    (h : (tget ({} : Line) s.lines l).active = false ∨ (tget ({} : Line) s.lines l).stop ≠ some fc) :
    trigOutPulseEnd l fc s = s := by
  refine if_neg ?_
  rintro ⟨hactive, hstop⟩
  rcases h with h | h
  · rw [h] at hactive
    exact absurd hactive (by decide)
  · exact h hstop

/-- Settles O39: the guard of each arm decides, and what the arm does is framed once. -/
theorem analysisAndTriggerEvents : Obligations.AnalysisAndTriggerEvents := by
  refine ⟨fun h n j first codes s => ⟨fun hw => ?fadeIdle, fun k p e hk hp he hkind hn => ?fade, ?frames⟩,
    fun h i lead mask occ s => ⟨fun harm hno => ?disarmed, fun harm hheld hocc => ?heldOcc, fun harm hheld hocc => ?held,
      fun harm hheld hbusy hno => ?busy, fun harm hheld hbusy => ?event⟩,
    fun h i q vs s => ⟨fun hdue => ?evalIdle, fun hdue => ?eval, fun hnone => ?holdIdle, fun e he hei hleft hnext => ?hold,
      fun l fc => ⟨fun hactive hstop => ?pulse, fun hoff => ?pulseIdle⟩⟩⟩
  case fadeIdle => exact congrArg Host.Outcome.next (pendingFadeStart_of_none hw)
  case fade => exact congrArg Host.Outcome.next (pendingFadeStart_due hk hp he hkind hn)
  case frames =>
    refine ⟨fun hoff => congrArg Host.Outcome.next (if_pos ?_), fun hon hgang hj hloss hacts hw => ⟨_, rfl, ?_⟩⟩
    · rcases hoff with h1 | h2 | h3
      · exact .inl h1
      · exact .inr (.inl h2)
      · exact .inr (.inr (.inl h3))
    · have hall := fftFrame_framing (first := first) (codes := codes) hon hgang hj hloss hacts hw
      generalize fftFrame h j first codes s = t at hall
      simp only [State.framing, Pipe.counts, Prod.mk.injEq] at hall
      obtain ⟨hcad, hcur, hcfg, -, hnext, hframes, hexp⟩ := hall
      exact ⟨hnext, hframes, hcfg, hexp, hcad, hcur⟩
  case disarmed =>
    have hif : ¬((s.tr h).spent && (s.tr h).busy i && !(s.tr h).held i &&
        (getU (s.tr h).cfg.trig 9 1 == 1 && canExtend s h (s.tr h) i)) = true := by
      simp only [Bool.and_eq_true, Bool.not_eq_true', beq_iff_eq, not_and, Bool.not_eq_true]
      rintro ⟨⟨hspent, hbusy⟩, hheld⟩ hext
      simpa [hspent, hbusy, hheld, hext] using hno
    exact (if_pos harm).trans (if_neg hif)
  case heldOcc => exact ((if_neg harm).trans (if_pos hheld)).trans (if_pos hocc)
  case held => exact ((if_neg harm).trans (if_pos hheld)).trans (if_neg (by rw [hocc]; decide))
  case busy =>
    have hext : ¬(getU (s.tr h).cfg.trig 9 1 == 1 && canExtend s h (s.tr h) i) = true := by
      simp only [Bool.and_eq_true, beq_iff_eq, not_and, Bool.not_eq_true]
      exact fun hone => hno.resolve_left (not_not.mpr hone)
    exact ((if_neg harm).trans ((if_neg (by rw [hheld]; decide)).trans (if_pos hbusy))).trans (if_neg hext)
  case event =>
    exact (if_neg harm).trans ((if_neg (by rw [hheld]; decide)).trans (if_neg (by rw [hbusy]; decide)))
  case evalIdle => exact congrArg Host.Outcome.next (if_pos (by rw [hdue]; rfl))
  case eval =>
    have hall := triggerEvaluate_evaluating h s vs q hdue
    refine ⟨_, rfl, ?_⟩
    dsimp only
    generalize triggerEvaluate h i vs q s = t at hall
    simp only [State.evaluating, Prod.mk.injEq] at hall
    obtain ⟨hnext, hlast, hcad, hcom, hother⟩ := hall
    refine ⟨hnext, hlast, hcad, hcom, fun g hg => ?_⟩
    have h' := congrFun hother g
    simpa [hg] using h'
  case holdIdle => exact congrArg Host.Outcome.next (holdoffEnd_of_none hnone)
  case hold =>
    refine ⟨_, congrArg Host.Outcome.next (holdoffEnd_due he hei hleft hnext), ?_⟩
    have htr := modeLines_tr h (s.setTr h { s.tr h with holdEnd := none }) i
    have hrest := modeLines_rest h (s.setTr h { s.tr h with holdEnd := none }) i
    generalize modeLines h i (s.setTr h { s.tr h with holdEnd := none }) = t at htr hrest ⊢
    refine ⟨(htr h).trans (State.tr_setTr_self _ _ _), fun g hg => (htr g).trans (State.tr_setTr_other _ _ _ hg), ?_⟩
    have hall := congrArg (fun u : State => { u with trig := t.trig, lines := t.lines, sent := t.sent }) hrest
    exact hall
  case pulse =>
    have hlevel : (false != ((s.block btTrigOut [l]).u 2 1 == 1)) = ((s.block btTrigOut [l]).u 2 1 == 1) := by simp
    refine congrArg Host.Outcome.next ((if_pos ⟨hactive, hstop⟩).trans ?_)
    exact congrArg (fun y => State.send _ (.trigOut l y fc)) hlevel
  case pulseIdle => exact congrArg Host.Outcome.next (trigOutPulseEnd_of_other hoff)

end Sys2Proof.Machine
end

section
/-! PROOF. Gleaning, retirement of slices, rotation and drift (R79, R82 to R92, R564). -/
namespace Sys2Proof.Machine

/-! ### Channels and their slices -/

@[simp] theorem State.ch_setCh_self (s : State) (c : Nat) (x : Chan) : (s.setCh c x).ch c = x := tget_tset_self _ _ _ _

@[simp] theorem Chan.slice_setSlice_self (x : Chan) (k : Nat) (v : Slice) : (x.setSlice k v).slice k = v :=
  tget_tset_self _ _ _ _

theorem Chan.slice_setSlice_other (x : Chan) {k j : Nat} (v : Slice) (h : j ≠ k) : (x.setSlice k v).slice j = x.slice j :=
  tget_tset_other _ _ _ _ _ (Ne.symm h)

theorem Chan.slice_record (x : Chan) (t p k : Nat) : (x.record t p).slice k = x.slice k := by
  unfold Chan.record
  split <;> rfl

theorem Chan.ended_rest (x : Chan) (f : Option Nat) (q t : Nat) : { x.ended f q t with marks := x.marks } = x := by
  cases f <;> rfl

/-- What a refreshed CAL_STALE leaves of a channel (R88). -/
theorem Chan.refreshStale_rest (x : Chan) (t : Nat) :
    { x.refreshStale t with stale := x.stale, marks := x.marks } = x := by
  unfold Chan.refreshStale
  dsimp only
  split_ifs
  · rfl
  · have hrest := congrArg (fun y : Chan => { y with stale := x.stale }) (x.ended_rest x.stale qCalStale t)
    exact hrest

theorem Chan.slice_refreshStale (x : Chan) (t k : Nat) : (x.refreshStale t).slice k = x.slice k := by
  have hrest := congrArg (fun y : Chan => y.slice k) (x.refreshStale_rest t)
  exact hrest

theorem Chan.pos_of_at {x : Chan} {p l : Nat} (h : x.at p = some l) : (x.slice l).pos = p := by
  have hl := List.find?_some h
  exact beq_iff_eq.mp hl

theorem Chan.ne_of_at {x : Chan} {p l out : Nat} (hp : p < 16) (hl : x.at p = some l) (hout : x.at 16 = some out) : l ≠ out := by
  rintro rfl
  have h1 := Chan.pos_of_at hl
  have h2 := Chan.pos_of_at hout
  omega

theorem Chan.at_congr {x y : Chan} (h : ∀ k, (x.slice k).pos = (y.slice k).pos) (p : Nat) : x.at p = y.at p := by
  unfold Chan.at
  simp only [h]

/-! ### The exchange of two slices (R82) -/

/-- A channel whose slice `out` has entered position `p`, in the place of `l`. -/
def Chan.entered (x : Chan) (p out l t : Nat) : Chan :=
  ({ ((x.setSlice l { x.slice l with pos := 16 }).setSlice out { x.slice out with pos := p }).record t p with
    rotating := true } : Chan).refreshStale t

section
variable {x : Chan} {p out l : Nat} (hne : l ≠ out) (t : Nat)

theorem Chan.entered_slice (k : Nat) : (x.entered p out l t).slice k =
    ((x.setSlice l { x.slice l with pos := 16 }).setSlice out { x.slice out with pos := p }).slice k := by
  refine (Chan.slice_refreshStale _ _ _).trans ?_
  exact Chan.slice_record _ t p k

theorem Chan.entered_out : (x.entered p out l t).slice out = { x.slice out with pos := p } :=
  (Chan.entered_slice t out).trans (Chan.slice_setSlice_self _ _ _)

include hne in
theorem Chan.entered_left : (x.entered p out l t).slice l = { x.slice l with pos := 16 } := by
  rw [Chan.entered_slice, Chan.slice_setSlice_other _ _ hne, Chan.slice_setSlice_self]

theorem Chan.entered_other {k : Nat} (hl : k ≠ l) (ho : k ≠ out) : (x.entered p out l t).slice k = x.slice k := by
  rw [Chan.entered_slice, Chan.slice_setSlice_other _ _ ho, Chan.slice_setSlice_other _ _ hl]

theorem Chan.entered_rotating : (x.entered p out l t).rotating = true := congrArg Chan.rotating (Chan.refreshStale_rest _ t)

theorem Chan.entered_rotations : (x.entered p out l t).rotations = x.rotations := by
  refine (congrArg Chan.rotations (Chan.refreshStale_rest _ t)).trans ?_
  simp only [Chan.record]
  split <;> rfl

end

/-! ### Retirement (R89) -/

theorem State.setHealth_ch (s : State) (h : Health) (c : Nat) : (s.setHealth h).ch c = s.ch c := rfl

theorem logEntry_ch (kind unit sub detail : Nat) (s : State) (c : Nat) : (logEntry kind unit sub detail s).ch c = s.ch c := by
  unfold logEntry
  exact State.setHealth_ch _ _ _

/-- An entry of the log leaves the failures of slices, and counts (R566). -/
theorem logEntry_counts (kind unit sub detail : Nat) (s : State) :
    (logEntry kind unit sub detail s).health.slices = s.health.slices ∧
      (logEntry kind unit sub detail s).health.seconds = s.health.seconds ∧
      (logEntry kind unit sub detail s).health.total = s.health.total + 1 := by
  unfold logEntry
  rw [State.setHealth_health]
  exact ⟨rfl, rfl, rfl⟩

/-- What a deaccession notice leaves of the wings and of their failures (R565). -/
theorem deaccession_ch_seconds (cause : Nat) (s : State) :
    (∀ c, (deaccession cause s).ch c = s.ch c) ∧ (deaccession cause s).health.seconds = s.health.seconds := by
  unfold deaccession
  split_ifs
  · exact ⟨fun _ => rfl, rfl⟩
  · extract_lets c
    refine ⟨fun k => (logEntry_ch _ _ _ _ _ k).trans ?_, (logEntry_counts _ _ _ _ _).2.1.trans ?_⟩
    · exact (State.postAll_notes _ _ _).field (fun z => z.ch k) fun _ _ _ _ => rfl
    · exact (State.postAll_notes _ _ _).field (fun z => z.health.seconds) fun _ _ _ _ => rfl

/-- A retired slice's channel and the health log. -/
theorem retireSlice_spec (ch k : Nat) (s : State) :
    let t := retireSlice ch k s
    (t.ch ch).retired = some k ∧ (t.ch ch).rotating = false ∧ (t.ch ch).slice k = { (s.ch ch).slice k with pos := 0x11 } ∧
      tfind t.health.slices ch = some k ∧ t.health.total = s.health.total + 1 ∧ t.health.causes = s.health.causes := by
  unfold retireSlice
  extract_lets x _ x1 _ x2 u _ v
  have hpost := ((logEntry 1 ch k 0 v).postEx_notes (v.view.handle ch) evSliceRetired [(1, ch), (1, k), (1, 0)]).field
    (fun z : State => z.ch ch) fun _ _ _ _ => rfl
  have hu : u.ch ch = x2 := State.ch_setCh_self s ch x2
  have hvu : v.ch ch = u.ch ch := rfl
  have hlog : (logEntry 1 ch k 0 v).ch ch = v.ch ch := logEntry_ch _ _ _ _ _ _
  have hch : (((logEntry 1 ch k 0 v).postEx (v.view.handle ch) evSliceRetired [(1, ch), (1, k), (1, 0)]).ch ch) = x2 :=
    hpost.trans (hlog.trans (hvu.trans hu))
  have hslice : x2.slice k = { (s.ch ch).slice k with pos := 0x11 } :=
    (x1.slice_refreshStale _ k).trans (Chan.slice_setSlice_self _ _ _)
  have hv : v.health = { s.health with slices := tset s.health.slices ch k } := rfl
  obtain ⟨hslices, -, htotal⟩ := logEntry_counts 1 ch k 0 v
  rw [hch, State.postEx_health]
  clear_value v
  refine ⟨rfl, rfl, hslice, ?_, ?_, ?_⟩
  · rw [hslices, hv, tfind_tset, if_pos rfl]
  · rw [htotal, hv]
  · rw [logEntry_causes, hv]

/-- Retirement after an event: as without it. -/
theorem retireSlice_postEx (u : State) (ch k : Nat) (y : Chan) (h code : Nat) (l : List (Nat × Nat)) :
    let t := retireSlice ch k ((u.setCh ch y).postEx h code l)
    (t.ch ch).retired = some k ∧ (t.ch ch).rotating = false ∧ (t.ch ch).slice k = { y.slice k with pos := 0x11 } ∧
      tfind t.health.slices ch = some k ∧ t.health.total = u.health.total + 1 ∧ t.health.causes = u.health.causes := by
  have hch := ((u.setCh ch y).postEx_notes h code l).field (fun z => z.ch ch) fun _ _ _ _ => rfl
  have hhealth : ((u.setCh ch y).postEx h code l).health = u.health := State.postEx_health _ _ _ _
  rw [State.ch_setCh_self] at hch
  generalize (u.setCh ch y).postEx h code l = v at hch hhealth
  rw [← hch, ← hhealth]
  exact retireSlice_spec ch k v

/-! ### Liveness (R90, R91) -/

theorem livenessFail_off {ch k t : Nat} {s : State} (h : 17 ≤ ((s.ch ch).slice k).pos ∨ ((s.ch ch).slice k).dead = true) :
    livenessFail ch k t s = s.tick t := by
  refine if_pos ?_
  rcases h with h | h
  · rw [Bool.or_eq_true]
    exact .inl (decide_eq_true h)
  · rw [Bool.or_eq_true]
    exact .inr h

section
variable {ch k t : Nat} {s : State} (hpos : ((s.ch ch).slice k).pos ≤ 16) (hdead : ((s.ch ch).slice k).dead = false)
include hpos hdead

theorem livenessFail_go : ¬(decide (17 ≤ ((s.tick t).ch ch |>.slice k).pos) || ((s.tick t).ch ch |>.slice k).dead) = true := by
  have hpos' : (((s.tick t).ch ch).slice k).pos ≤ 16 := hpos
  have hdead' : (((s.tick t).ch ch).slice k).dead = false := hdead
  rw [decide_eq_false (by omega), hdead']
  decide

/-- A first failure: the slice is retired, in the place of the one out of service (R90). -/
theorem livenessFail_first (hret : (s.ch ch).retired = none) :
    ∃ u, u.health = s.health ∧ livenessFail ch k t s = retireSlice ch k u := by
  have hgo := livenessFail_go (t := t) hpos hdead
  have hnone : ¬((s.tick t).ch ch).retired.isSome = true := by
    have hret' : ((s.tick t).ch ch).retired = none := hret
    rw [hret']
    decide
  unfold livenessFail
  extract_lets u x v now w
  have hw : w.health = s.health := State.postEx_health _ _ _ _
  rw [if_neg hgo, if_neg hnone]
  split_ifs
  · exact ⟨w, hw, rfl⟩
  · exact ⟨w.setCh ch _, hw, rfl⟩

/-- A second failure: the position has no slice, and the device is to be deaccessioned (R91, R564). -/
theorem livenessFail_second (hret : (s.ch ch).retired.isSome = true) :
    ∃ u, livenessFail ch k t s = deaccession hcSlice u ∧ (u.ch ch).slice k = { (s.ch ch).slice k with dead := true } ∧
      (u.ch ch).second = true ∧ (ch, k) ∈ u.health.seconds := by
  have hgo := livenessFail_go (t := t) hpos hdead
  have hret' : ((s.tick t).ch ch).retired.isSome = true := hret
  unfold livenessFail
  extract_lets u x v now w y y1 w1 _ w2 w3
  rw [if_neg hgo, if_pos hret']
  have hy : y1.slice k = { (s.ch ch).slice k with dead := true } := by
    have hmark (z : Chan) : (z.mark 2 qCalStale (now - 240) none).slice k = z.slice k := rfl
    have hself : y.slice k = { v with dead := true } := x.slice_setSlice_self k _
    simp only [y1]
    rw [hmark]
    split_ifs
    · exact (Chan.slice_record _ _ _ _).trans hself
    · exact hself
  have hch : w1.ch ch = { y1 with second := true, rotating := false } := w.ch_setCh_self ch _
  have hw2 : w2.ch ch = w1.ch ch := rfl
  have hseconds : w2.health.seconds = ((ch, k) :: w1.health.seconds).eraseDups := rfl
  have hpost : ∀ (f : State → Chan × List (Nat × Nat)), (∀ z m x l, f { z with mbox := m, sent := x, cur := { z.cur with held := l } } = f z) →
      f w3 = f (logEntry 2 ch k 0 w2) := fun f hf => (State.postEx_notes _ _ _ _).field f hf
  have h3 := hpost (fun z => (z.ch ch, z.health.seconds)) fun _ _ _ _ => rfl
  rw [Prod.mk.injEq, logEntry_ch, (logEntry_counts _ _ _ _ _).2.1, hw2, hch, hseconds] at h3
  obtain ⟨h3ch, h3sec⟩ := h3
  refine ⟨w3, rfl, ?_, ?_, ?_⟩
  · rw [h3ch]
    exact hy
  · rw [h3ch]
  · rw [h3sec]
    exact List.mem_eraseDups.mpr (List.mem_cons_self ..)

end

/-! ### A gleaning step (R82 to R88) -/

/-- The channel once slice `out` has been measured. -/
def Chan.measured (x : Chan) (n out : Nat) (m : Meas) (t : Nat) (temp : Int) : Chan :=
  ({ x.setSlice out ((x.slice out).judge m t temp) with measTemp := temp, steps := x.steps + 1 } : Chan).turned n

/-- The channel once slice `out` has entered the position of step `n`. -/
def Chan.enter (x : Chan) (n out t : Nat) : Chan :=
  match x.at (n % 16) with
  | some l => x.entered (n % 16) out l t
  | none => ({ x with rotating := true } : Chan).refreshStale t

theorem Chan.enter_of_at {x : Chan} {n l : Nat} (h : x.at (n % 16) = some l) (out t : Nat) :
    x.enter n out t = x.entered (n % 16) out l t := by
  simp only [Chan.enter, h]

theorem Chan.slice_turned (x : Chan) (n k : Nat) : (x.turned n).slice k = x.slice k := by
  unfold Chan.turned
  split_ifs <;> rfl

section
variable (x : Chan) (n out : Nat) (m : Meas) (t : Nat) (temp : Int)

theorem Chan.measured_out : (x.measured n out m t temp).slice out = (x.slice out).judge m t temp :=
  (Chan.slice_turned _ n out).trans (Chan.slice_setSlice_self x out _)

theorem Chan.measured_other {k : Nat} (h : k ≠ out) : (x.measured n out m t temp).slice k = x.slice k :=
  (Chan.slice_turned _ n k).trans (Chan.slice_setSlice_other x _ h)

theorem Slice.judge_pos (y : Slice) : (y.judge m t temp).pos = y.pos := by
  unfold Slice.judge
  dsimp only
  split_ifs <;> rfl

theorem Slice.judge_passes {y : Slice} (h : measFails y m = 0) : (y.judge m t temp).fails = 0 ∧
    (y.judge m t temp).off = m.newOff ∧ (y.judge m t temp).gc = m.newGc ∧ (y.judge m t temp).trim = m.newTrim := by
  have hj : y.judge m t temp = _ := if_pos h
  rw [hj]
  exact ⟨rfl, rfl, rfl, rfl⟩

theorem Slice.judge_fails {y : Slice} (h : measFails y m ≠ 0) :
    (y.judge m t temp).fails = y.fails + 1 ∧ (y.judge m t temp).off = y.off := by
  have hj : y.judge m t temp = _ := if_neg h
  rw [hj]
  exact ⟨rfl, rfl⟩

theorem Chan.at_measured (p : Nat) : (x.measured n out m t temp).at p = x.at p := by
  refine Chan.at_congr (fun k => ?_) p
  by_cases h : k = out
  · rw [h, Chan.measured_out, Slice.judge_pos]
  · rw [Chan.measured_other _ _ _ _ _ _ h]

theorem Chan.measured_rotations : (x.measured n out m t temp).rotations =
    if n % 17 = 0 ∧ 17 ≤ x.steps + 1 then satAdd 32 x.rotations 1 else x.rotations := by
  unfold Chan.measured Chan.turned
  dsimp only
  by_cases h : n % 17 = 0
  · rw [if_neg (not_not.mpr h)]
    simp only [h, true_and]
    rfl
  · rw [if_pos h, if_neg fun hand => h hand.1]
    rfl

end

section
variable {ch n : Nat} {m : Meas} {temp : Int} {s : State}

theorem State.setWingTemp_cad (s : State) (w : Nat) (temp : Int) : (s.setWingTemp w temp).cad = s.cad := by
  unfold State.setWingTemp State.noteTemp
  split_ifs <;> rfl

theorem State.setWingTemp_pow (s : State) (w : Nat) (temp : Int) : (s.setWingTemp w temp).pow = s.pow := by
  unfold State.setWingTemp State.noteTemp
  split_ifs <;> rfl

theorem State.setWingTemp_ch (s : State) (w : Nat) (temp : Int) (c : Nat) : (s.setWingTemp w temp).ch c = s.ch c := by
  unfold State.setWingTemp State.noteTemp
  split_ifs <;> rfl

theorem chanClockLost_of_cad {s u : State} (h : u.cad = s.cad) (c : Nat) : chanClockLost u c = chanClockLost s c := by
  unfold chanClockLost
  rw [h]

theorem gleanStep_off (h : s.pow.domains.testBit (5 + ch / 12) = false ∨ chanClockLost s ch = true) :
    gleanStep ch n m temp s = (s.tick (n * stepLen ((s.inputBlock ch).u 4 1))).setWingTemp (ch / 12) temp := by
  unfold gleanStep
  extract_lets b v u x t
  have hpow : u.pow = s.pow := v.setWingTemp_pow _ _
  have hclk : chanClockLost u ch = chanClockLost s ch := chanClockLost_of_cad (v.setWingTemp_cad _ _) ch
  refine if_pos ?_
  rw [hpow, hclk]
  rcases h with h | h <;> rw [h] <;> simp

variable (hpow : s.pow.domains.testBit (5 + ch / 12) = true) (hclk : chanClockLost s ch = false)
include hpow hclk

theorem gleanStep_halted (h : (s.inputBlock ch).u 3 1 = 0 ∨ (s.ch ch).retired.isSome = true) :
    gleanStep ch n m temp s = ((s.tick (n * stepLen ((s.inputBlock ch).u 4 1))).setWingTemp (ch / 12) temp).setCh ch
      { s.ch ch with rotating := false } := by
  unfold gleanStep
  extract_lets b v u x t
  have hpow' : u.pow = s.pow := v.setWingTemp_pow _ _
  have hclk' : chanClockLost u ch = chanClockLost s ch := chanClockLost_of_cad (v.setWingTemp_cad _ _) ch
  have hx : x = s.ch ch := v.setWingTemp_ch _ _ ch
  have hgo : ¬(!u.pow.domains.testBit (5 + ch / 12) || chanClockLost u ch) = true := by
    rw [hpow', hclk', hpow, hclk]
    decide
  have hif : (b.u 3 1 == 0 || x.retired.isSome) = true := by
    rw [hx]
    rcases h with h | h
    · simp only [b, h, beq_self_eq_true, Bool.true_or]
    · rw [h, Bool.or_true]
  clear_value x
  rw [if_neg hgo, if_pos hif, hx]

theorem gleanStep_eq (hon : (s.inputBlock ch).u 3 1 ≠ 0) (hret : (s.ch ch).retired = none) {out : Nat}
    (hout : (s.ch ch).at 16 = some out) :
    let b := s.inputBlock ch
    let u := (s.tick (n * stepLen (b.u 4 1))).setWingTemp (ch / 12) temp
    let x := s.ch ch
    let y := x.measured n out m u.cad.now temp
    let v := (u.setCh ch y).postEx ((u.setCh ch y).view.handle ch) evSliceFail
      [(1, ch), (1, out), (1, ((x.slice out).judge m u.cad.now temp).fails), (1, measFails (y.slice out) m)]
    gleanStep ch n m temp s =
      if !x.rotating then u.setCh ch (({ x with steps := 0 } : Chan).enter n out u.cad.now)
      else if ((x.slice out).judge m u.cad.now temp).fails = 0 then u.setCh ch (y.enter n out u.cad.now)
      else if b.u 5 1 ≤ ((x.slice out).judge m u.cad.now temp).fails then retireSlice ch out v
      else v.setCh ch (y.enter n out u.cad.now) := by
  intro b u x y v
  have hx : u.ch ch = x := State.setWingTemp_ch _ _ _ ch
  have hgo : ¬(!u.pow.domains.testBit (5 + ch / 12) || chanClockLost u ch) = true := by
    have hpow' : u.pow = s.pow := State.setWingTemp_pow _ _ _
    have hclk' : chanClockLost u ch = chanClockLost s ch := chanClockLost_of_cad (State.setWingTemp_cad _ _ _) ch
    rw [hpow', hclk', hpow, hclk]
    decide
  have hnot : ¬(b.u 3 1 == 0 || x.retired.isSome) = true := by
    rw [hret]
    simpa using hon
  have henter (z : Chan) (w : State) : w.setCh ch (({ (match z.at (n % 16) with
      | some l => ((z.setSlice l { z.slice l with pos := 16 }).setSlice out { z.slice out with pos := n % 16 }).record u.cad.now (n % 16)
      | none => z) with rotating := true } : Chan).refreshStale u.cad.now) = w.setCh ch (z.enter n out u.cad.now) := by
    unfold Chan.enter Chan.entered
    cases z.at (n % 16) <;> rfl
  unfold gleanStep
  refine (if_neg hgo).trans ?_
  change (if (b.u 3 1 == 0 || (u.ch ch).retired.isSome) = true then _ else match (u.ch ch).at 16 with | none => _ | some out => _) = _
  rw [hx, if_neg hnot, hout]
  by_cases hrot : (!x.rotating) = true
  · exact ((if_pos hrot).trans (henter _ u)).trans (if_pos hrot).symm
  · refine Eq.trans ?_ (if_neg hrot).symm
    refine (if_neg hrot).trans ?_
    by_cases hf : ((x.slice out).judge m u.cad.now temp).fails = 0
    · exact ((if_pos hf).trans (henter y u)).trans (if_pos hf).symm
    · refine Eq.trans ?_ (if_neg hf).symm
      refine (if_neg hf).trans ?_
      by_cases hlim : b.u 5 1 ≤ ((x.slice out).judge m u.cad.now temp).fails
      · exact (if_pos hlim).trans (if_pos hlim).symm
      · exact ((if_neg hlim).trans (henter y v)).trans (if_neg hlim).symm

end

/-! ### Rotations and drift (R86, R92) -/

theorem State.setCh_chan_eq (u : State) (c : Nat) (x : Chan) : u.setCh c x = u.setCh c ((u.setCh c x).ch c) :=
  congrArg (u.setCh c) (u.ch_setCh_self c x).symm

theorem mem_produce {s : State} {r q : Rec} (h : q ∈ (s.produce r).produced) (hnot : q ∉ s.produced) : q = s.number r := by
  have hcases : (s.produce r).produced = s.produced ∨ (s.produce r).produced = s.produced ++ [s.number r] := by
    unfold State.produce
    dsimp only
    split_ifs
    · exact .inl rfl
    · exact .inr rfl
  rcases hcases with heq | heq
  · rw [heq] at h
    exact absurd h hnot
  · rw [heq, List.mem_append, List.mem_singleton] at h
    exact h.resolve_left hnot

/-- A channel set after an event is told changes nothing else but what is told. -/
theorem notes_postEx_setCh (u : State) (c : Nat) (y z : Chan) (h code : Nat) (l : List (Nat × Nat)) :
    Notes { u with chan := (((u.setCh c y).postEx h code l).setCh c z).chan } (((u.setCh c y).postEx h code l).setCh c z) := by
  have hnotes := (u.setCh c y).postEx_notes h code l
  generalize (u.setCh c y).postEx h code l = v at hnotes
  have hall := congrArg (fun w : State => { w with chan := (v.setCh c z).chan }) hnotes
  exact hall

theorem State.setWingTemp_inputBlock (s : State) (w : Nat) (temp : Int) (c : Nat) :
    (s.setWingTemp w temp).inputBlock c = s.inputBlock c := by
  unfold State.setWingTemp State.noteTemp
  split_ifs <;> rfl

theorem driftCheck_eq (ch t : Nat) (temp : Int) (s : State) :
    let v := (s.tick t).setWingTemp (ch / 12) temp
    let x := s.ch ch
    let b := s.inputBlock ch
    let dev := (temp - driftRef x).natAbs
    driftCheck ch t temp s =
      if 50 * b.u 6 1 < dev then v.setCh ch { x with drift := some (x.drift.getD v.cad.now) }
      else if dev + 100 ≤ 50 * b.u 6 1 then v.setCh ch { x.ended x.drift qCalStale v.cad.now with drift := none }
      else v := by
  intro v x b dev
  have hx : v.ch ch = x := State.setWingTemp_ch _ _ _ ch
  have hb : v.inputBlock ch = b := State.setWingTemp_inputBlock _ _ _ ch
  rw [Nat.mul_comm 50, ← hb, ← hx]
  simp only [dev]
  rw [← hx]
  rfl

theorem rotationBoundary_produces {ch t : Nat} {s : State}
    (hmod : (s.tick t).cad.now % (17 * stepLen ((s.inputBlock ch).u 4 1)) = 0) (hstr : (s.inputBlock ch).u 7 1 ≠ 0xFF) :
    ∃ r : Rec, rotationBoundary ch t s = (s.tick t).produce r ∧ r.typ = rtSliceQuality ∧ r.sample = (s.tick t).cad.now ∧
      r.stream = (s.inputBlock ch).u 7 1 :=
  ⟨_, (if_neg (not_not.mpr hmod)).trans (if_neg hstr), rfl, rfl, rfl⟩

/-- Settles O41: by the outcome of the measurement, and by whether a slice has been retired before. -/
theorem wingEvents : Obligations.WingEvents := by
  refine fun ch n t m temp s => ⟨fun hoff => ?off, fun hpow hclk => ⟨fun hhalt => ?halted, fun out hon hret hout =>
    ⟨fun l hrot hl => ?first, fun l hrot hpass hl => ?pass, fun l hrot hfail hlow hl => ?fail, fun hrot hfail hlim => ?retire⟩⟩,
    fun k hk => ?deadSlice, fun k hpos hdead => ⟨fun hret => ?lost, fun hret => ?second⟩,
    ⟨fun hoff => ?noBoundary, fun hmod hstr => ?boundary⟩, ⟨fun hfar => ?drifts, fun hnear => ?settles, fun hle hlt => ?between⟩⟩
  case off => exact congrArg Host.Outcome.next (gleanStep_off hoff)
  case halted => exact congrArg Host.Outcome.next (gleanStep_halted hpow hclk hhalt)
  case first =>
    have hif : (!(s.ch ch).rotating) = true := by rw [hrot]; rfl
    have hstep := (gleanStep_eq (n := n) (m := m) (temp := temp) hpow hclk hon hret hout).trans (if_pos hif)
    have hat : ({ s.ch ch with steps := 0 } : Chan).at (n % 16) = some l := hl
    rw [Chan.enter_of_at hat] at hstep
    refine ⟨_, congrArg Host.Outcome.next hstep, ?_⟩
    dsimp only
    rw [State.ch_setCh_self]
    refine ⟨?_, ?_, Chan.entered_rotating _, fun k hkl hko => ?_, rfl⟩
    · rw [Chan.entered_left (Chan.ne_of_at (Nat.mod_lt _ (by decide)) hl hout)]
    · rw [Chan.entered_out]
    · exact Chan.entered_other _ hkl hko
  case pass =>
    have hif : ¬(!(s.ch ch).rotating) = true := by rw [hrot]; decide
    have hj (w : Nat) := Slice.judge_passes m w temp hpass
    have hstep := (gleanStep_eq (n := n) (m := m) (temp := temp) hpow hclk hon hret hout).trans
      ((if_neg hif).trans (if_pos (hj _).1))
    generalize hu : (s.tick (n * stepLen ((s.inputBlock ch).u 4 1))).setWingTemp (ch / 12) temp = u at hstep
    rw [Chan.enter_of_at ((Chan.at_measured _ _ _ _ _ _ _).trans hl)] at hstep
    refine ⟨_, congrArg Host.Outcome.next hstep, ?_⟩
    obtain ⟨hfails, hoff, hgc, htrim⟩ := hj u.cad.now
    rw [State.ch_setCh_self, Chan.entered_left (Chan.ne_of_at (Nat.mod_lt _ (by decide)) hl hout), Chan.entered_out, Chan.measured_out]
    refine ⟨rfl, rfl, hfails, hoff, hgc, htrim, Chan.entered_rotating _, ?_, rfl⟩
    rw [Chan.entered_rotations, Chan.measured_rotations]
  case fail =>
    have hif : ¬(!(s.ch ch).rotating) = true := by rw [hrot]; decide
    have hj (w : Nat) := Slice.judge_fails m w temp hfail
    have hne0 (w : Nat) : ¬(((s.ch ch).slice out).judge m w temp).fails = 0 := by rw [(hj w).1]; omega
    have hlim (w : Nat) : ¬(s.inputBlock ch).u 5 1 ≤ (((s.ch ch).slice out).judge m w temp).fails := by
      rw [(hj w).1]
      omega
    have hstep := (gleanStep_eq (n := n) (m := m) (temp := temp) hpow hclk hon hret hout).trans
      ((if_neg hif).trans ((if_neg (hne0 _)).trans (if_neg (hlim _))))
    generalize hu : (s.tick (n * stepLen ((s.inputBlock ch).u 4 1))).setWingTemp (ch / 12) temp = u at hstep
    rw [Chan.enter_of_at ((Chan.at_measured _ _ _ _ _ _ _).trans hl)] at hstep
    refine ⟨_, congrArg Host.Outcome.next hstep, ?_⟩
    obtain ⟨hfails, hoff⟩ := hj u.cad.now
    rw [State.ch_setCh_self, Chan.entered_left (Chan.ne_of_at (Nat.mod_lt _ (by decide)) hl hout), Chan.entered_out, Chan.measured_out]
    exact ⟨rfl, rfl, hfails, hoff, notes_postEx_setCh u ch _ _ _ _ _⟩
  case retire =>
    have hif : ¬(!(s.ch ch).rotating) = true := by rw [hrot]; decide
    have hj (w : Nat) := Slice.judge_fails m w temp hfail
    have hne0 (w : Nat) : ¬(((s.ch ch).slice out).judge m w temp).fails = 0 := by rw [(hj w).1]; omega
    have hlim' (w : Nat) : (s.inputBlock ch).u 5 1 ≤ (((s.ch ch).slice out).judge m w temp).fails := by
      rw [(hj w).1]
      omega
    have hstep := (gleanStep_eq (n := n) (m := m) (temp := temp) hpow hclk hon hret hout).trans
      ((if_neg hif).trans ((if_neg (hne0 _)).trans (if_pos (hlim' _))))
    have hhealth : ((s.tick (n * stepLen ((s.inputBlock ch).u 4 1))).setWingTemp (ch / 12) temp).health = s.health :=
      State.setWingTemp_health _ _ _
    generalize hu : (s.tick (n * stepLen ((s.inputBlock ch).u 4 1))).setWingTemp (ch / 12) temp = u at hstep hhealth
    obtain ⟨h1, h2, h3, h4, h5, h6⟩ := retireSlice_postEx u ch out ((s.ch ch).measured n out m u.cad.now temp) _ _ _
    rw [← hstep] at h1 h2 h3 h4 h5 h6
    refine ⟨_, rfl, h1, h2, ?_, ?_, h4, by rw [h5, hhealth], by rw [h6, hhealth]⟩
    · rw [h3]
    · rw [h3, Chan.measured_out]
      exact (hj _).1
  case deadSlice => exact congrArg Host.Outcome.next (livenessFail_off hk)
  case lost =>
    obtain ⟨u, hu, ht⟩ := livenessFail_first (t := t) hpos hdead hret
    obtain ⟨h1, h2, h3, h4, -, h6⟩ := retireSlice_spec ch k u
    rw [← ht] at h1 h2 h3 h4 h6
    exact ⟨_, rfl, h1, by rw [h3], h2, h4, by rw [h6, hu]⟩
  case second =>
    obtain ⟨u, ht, hslice, hsecond, hsec⟩ := livenessFail_second (t := t) hpos hdead hret
    obtain ⟨hch, hseconds⟩ := deaccession_ch_seconds hcSlice u
    have hcauses := deaccession_causes hcSlice u
    rw [← ht] at hch hseconds hcauses
    refine ⟨_, rfl, ?_, ?_, ?_, ?_, ?_⟩
    · rw [hch, hslice]
    · rw [hch, hslice]
    · rw [hch, hsecond]
    · rw [hseconds]
      exact hsec
    · rw [hcauses, Nat.testBit_or, Nat.testBit_two_pow_self, Bool.or_true]
  case noBoundary =>
    refine congrArg Host.Outcome.next ?_
    by_cases hmod : (s.tick t).cad.now % (17 * stepLen ((s.inputBlock ch).u 4 1)) ≠ 0
    · exact if_pos hmod
    · exact (if_neg hmod).trans (if_pos (hoff.resolve_left hmod))
  case boundary =>
    obtain ⟨r, hrun, htyp, hsample, hstream⟩ := rotationBoundary_produces hmod hstr
    refine ⟨_, congrArg Host.Outcome.next hrun, ?_, fun q hq hnot => ?_⟩
    · have hrest := (s.tick t).produce_rest r
      generalize (s.tick t).produce r = u at hrest
      have hall := congrArg (fun w : State => { w with streams := u.streams, produced := u.produced }) hrest
      exact hall
    · rw [mem_produce hq hnot]
      exact ⟨htyp, hsample, hstream⟩
  case drifts => exact ⟨_, congrArg Host.Outcome.next ((driftCheck_eq ch t temp s).trans (if_pos hfar)), rfl⟩
  case settles =>
    have hnot : ¬50 * (s.inputBlock ch).u 6 1 < (temp - driftRef (s.ch ch)).natAbs := by omega
    refine ⟨_, congrArg Host.Outcome.next ((driftCheck_eq ch t temp s).trans ((if_neg hnot).trans (if_pos hnear))), ?_,
      State.setCh_chan_eq _ _ _⟩
    rw [State.ch_setCh_self]
  case between =>
    have hnot : ¬50 * (s.inputBlock ch).u 6 1 < (temp - driftRef (s.ch ch)).natAbs := by omega
    have hnear : ¬(temp - driftRef (s.ch ch)).natAbs + 100 ≤ 50 * (s.inputBlock ch).u 6 1 := by omega
    exact congrArg Host.Outcome.next ((driftCheck_eq ch t temp s).trans ((if_neg hnot).trans (if_neg hnear)))

end Sys2Proof.Machine
end

section
/-! PROOF. Mounts: presence, records, corrections, overdrive and write-back (R102, R105 to R116). -/
namespace Sys2Proof.Machine

/-! ### What goes out on the mount bus -/

/-- Things sent, each made from the same state but for what has been sent before. -/
theorem foldl_send {α : Type} {f : State → α → State} {g : α → List Sent} {s : State}
    (hf : ∀ (l : List Sent) a, f { s with sent := l } a = { s with sent := l ++ g a }) (xs : List α) :
    xs.foldl f s = { s with sent := s.sent ++ xs.flatMap g } := by
  suffices h : ∀ l, xs.foldl f { s with sent := l } = { s with sent := l ++ xs.flatMap g } from h s.sent
  induction xs with
  | nil => simp
  | cons a xs ih =>
    intro l
    rw [List.foldl_cons, hf, ih, List.flatMap_cons, List.append_assoc]

theorem fetchMounts_eq (s : State) (p n : Nat) : ∃ l, (List.range n).foldl (fun (s : State) _ => s.fetchMount p) s =
    { s with sent := l } :=
  ⟨_, foldl_send (g := fun _ => [.mountFetch (p / 3) (mountAddr p) (s.busSlow (p / 3))]) (fun _ _ => rfl) _⟩

/-- The page writes of a copy. -/
def copyPages (s : State) (p off : Nat) (b : List Byte) : List Sent := (List.range 5).map fun i =>
  .mountPage (p / 3) (mountAddr p) (s.busSlow (p / 3)) (off + 16 * i) (slice b (16 * i) 16)

theorem sendCopies_eq (s : State) (p off n : Nat) (b : List Byte) :
    (List.range n).foldl (fun (s : State) _ => s.sendCopy p off b) s =
      { s with sent := s.sent ++ (List.range n).flatMap fun _ => copyPages s p off b } := by
  refine foldl_send (fun l _ => ?_) _
  have hpages := foldl_send (f := fun (s : State) i => s.send (.mountPage (p / 3) (mountAddr p) (s.busSlow (p / 3))
      (off + 16 * i) (slice b (16 * i) 16)))
    (g := fun i => [.mountPage (p / 3) (mountAddr p) (s.busSlow (p / 3)) (off + 16 * i) (slice b (16 * i) 16)])
    (s := { s with sent := l }) (fun _ _ => rfl) (List.range 5)
  rw [← List.map_eq_flatMap] at hpages
  exact hpages

/-! ### Presence (R102, R110, R111) -/

theorem setMt_sent_eq (u : State) (p : Nat) (m : Mount) (l : List Sent) :
    ({ u.setMt p m with sent := l } : State) = { u.setMt p (({ u.setMt p m with sent := l } : State).mt p) with sent := l } :=
  congrArg (fun m' => ({ u.setMt p m' with sent := l } : State)) (u.mt_setMt_self p m).symm

theorem notes_setMt_mt {u t : State} {p : Nat} {m : Mount} (h : Notes (u.setMt p m) t) :
    t.mt p = m ∧ Notes (u.setMt p (t.mt p)) t := by
  have hmt : t.mt p = m := (h.field (fun z => z.mt p) fun _ _ _ _ => rfl).trans (u.mt_setMt_self p m)
  exact ⟨hmt, by rw [hmt]; exact h⟩

theorem notes_of_sent {u t : State} {l : List Sent} (h : Notes { u with sent := l } t) : Notes u t := by
  have hall := congrArg (fun z : State => { z with sent := u.sent }) h
  exact hall

/-- A mount that goes: its counts start again, and its removal is told where it was not asked for (R111). -/
theorem mountPresence_removed {p t : Nat} {s : State} (hmode : (s.mt p).mode ≠ 1) (hpres : (s.mt p).present = true) :
    ∃ t', mountPresence p false t s = t' ∧
      t'.mt p = { (s.mt p).restart with present := false, valid := false, released := false, due := true, xfer := none,
                                        warned := false, expired := false, failing := false } ∧
      ((s.mt p).released = true → t' = (s.tick t).setMt p (t'.mt p)) ∧ Notes ((s.tick t).setMt p (t'.mt p)) t' := by
  have hne : ¬false = ((s.tick t).mt p).present := by
    have hpres' : ((s.tick t).mt p).present = true := hpres
    rw [hpres']
    decide
  have hrun : mountPresence p false t s = _ := (if_neg hne).trans ((if_neg hmode).trans (if_neg (by decide)))
  rw [hrun]
  by_cases hrel : ((s.tick t).mt p).released = true
  · refine ⟨_, if_pos hrel, State.mt_setMt_self _ _ _, fun _ => ?_, ?_⟩
    · rw [State.mt_setMt_self]
    · rw [State.mt_setMt_self]
  · obtain ⟨hmt, hnotes⟩ := notes_setMt_mt (State.post_notes ((s.tick t).setMt p { (s.mt p).restart with
      present := false, valid := false, released := false, due := true, xfer := none, warned := false, expired := false
      failing := false }) evMountRemoved _ 0)
    exact ⟨_, if_neg hrel, hmt, fun h => absurd h hrel, hnotes⟩

/-! ### Corrections at a turn boundary (R110, R111, R114) -/

theorem foldl_marks_chan (t p : Nat) (s : State) :
    let v := (mountChannels p).foldl (fun s c => s.setCh c ((s.ch c).mark 3 qUnsettled t (some (t + 1)))) s
    v = { s with chan := v.chan } ∧ ∀ c, c / 4 ≠ p → v.ch c = s.ch c := by
  have hother (u : State) (k : Nat) (x : Chan) {c : Nat} (h : c ≠ k) : (u.setCh k x).ch c = u.ch c :=
    tget_tset_other _ _ _ _ _ (Ne.symm h)
  refine ⟨rfl, fun c hc => ?_⟩
  have hne (i : Nat) (hi : i < 4) : c ≠ 4 * p + i := by omega
  simp only [mountChannels, List.foldl_cons, List.foldl_nil]
  rw [hother _ _ _ (hne 3 (by decide)), hother _ _ _ (hne 2 (by decide)), hother _ _ _ (hne 1 (by decide))]
  exact hother _ _ _ (hne 0 (by decide))

theorem mountSettle_spec (p t : Nat) (unsettled : Bool) (s : State) :
    let v := mountSettle p t unsettled s
    (v.mt p).due = false ∧ (v.mt p).applied = (if (s.mt p).governs then some (s.mt p).record else none) ∧
      (unsettled = false → ∀ c, v.ch c = s.ch c) ∧ v = { s with mount := v.mount, chan := v.chan } ∧
      ∀ c, c / 4 ≠ p → v.ch c = s.ch c := by
  unfold mountSettle
  extract_lets m unknown exp ended now u
  obtain ⟨hrest, hch⟩ := foldl_marks_chan t p s
  have hu : u = { s with chan := u.chan } ∧ ∀ c, c / 4 ≠ p → u.ch c = s.ch c := by
    cases unsettled
    · exact ⟨rfl, fun _ _ => rfl⟩
    · exact ⟨hrest, hch⟩
  have hset (m' : Mount) : (u.setMt p m').mt p = m' := u.mt_setMt_self p m'
  rw [hset]
  refine ⟨rfl, rfl, fun hu0 c => ?_, ?_, hu.2⟩
  · subst hu0
    rfl
  · have hkeep (m' : Mount) : u.setMt p m' = { s with mount := (u.setMt p m').mount, chan := (u.setMt p m').chan } :=
      congrArg (fun z : State => ({ z with mount := tset u.mount p m' } : State)) hu.1
    exact hkeep _

/-! ### Write-back (R105, R107, R113) -/

theorem writeBack_idle {p t : Nat} {tries : List MountTry} {s : State}
    (h : ((s.mt p).relay = (s.mt p).wRelay ∧ (s.mt p).events = (s.mt p).wEvents ∧ (s.mt p).timeUs = (s.mt p).wTime) ∨
      (∃ w, (s.mt p).wroteAt = some w ∧ (s.tick t).cad.now < w + tenMinutes) ∨ (s.mt p).governs = false) :
    writeBack p tries t s = s.tick t := by
  unfold writeBack
  extract_lets u m changed late
  rcases h with ⟨hr, he, ht⟩ | ⟨w, hw, hlt⟩ | hgov
  · have hch : changed = false := by
      have h1 : m.relay = m.wRelay := hr
      have h2 : m.events = m.wEvents := he
      have h3 : m.timeUs = m.wTime := ht
      simp only [changed, h1, h2, h3, bne_self_eq_false, Bool.or_self]
    rw [hch]
    exact if_neg (by simp)
  · have hl : late = false := by
      have h1 : m.wroteAt = some w := hw
      simp only [late, h1]
      exact decide_eq_false (Nat.not_le.mpr hlt)
    rw [hl]
    exact if_neg (by simp)
  · have hcounts : writeCounts p tries u = u := by
      have hgov' : (u.mt p).governs = false := hgov
      unfold writeCounts
      dsimp only
      rw [hgov']
      exact if_pos rfl
    rw [hcounts, ite_self]

theorem writeBack_due {p t : Nat} {tries : List MountTry} {s : State}
    (h : (s.mt p).relay ≠ (s.mt p).wRelay ∨ (s.mt p).events ≠ (s.mt p).wEvents ∨ (s.mt p).timeUs ≠ (s.mt p).wTime)
    (hlate : ∀ w, (s.mt p).wroteAt = some w → w + tenMinutes ≤ (s.tick t).cad.now) :
    writeBack p tries t s = writeCounts p tries (s.tick t) := by
  unfold writeBack
  extract_lets u m changed late
  have hch : changed = true := by
    have h' : m.relay ≠ m.wRelay ∨ m.events ≠ m.wEvents ∨ m.timeUs ≠ m.wTime := h
    simpa only [changed, Bool.or_eq_true, bne_iff_ne, or_assoc] using h'
  have hl : late = true := by
    have h' : ∀ w, m.wroteAt = some w → w + tenMinutes ≤ u.cad.now := hlate
    cases hw : m.wroteAt with
    | none => simp only [late, hw]
    | some w =>
      simp only [late, hw]
      exact decide_eq_true (h' w hw)
  rw [hch, hl]
  exact if_pos rfl

/-- What a write-back of the counts sends: the page writes of each attempt. -/
def writeBackPages (s : State) (p : Nat) (x : MountXfer) : List Sent := (List.range x.made).flatMap fun _ =>
  copyPages s p (if (s.mt p).copyB then 352 else 432) (copyBytes (s.mt p) (((s.mt p).gen + 1) % 2 ^ 32))

/-- A write-back of the counts: the mount, and what is sent. -/
theorem writeCounts_spec {p : Nat} {tries : List MountTry} {s : State} (hgov : (s.mt p).governs = true) :
    let x := mountXfer tries
    let t := writeCounts p tries s
    t.mt p = (s.mt p).writtenBack x s.cad.now ∧ Notes (s.setMt p (t.mt p)) t ∧
      (x.done.isSome → t = { s.setMt p (t.mt p) with sent := s.sent ++ writeBackPages s p x }) := by
  intro x
  have hnot : ¬(!(s.mt p).governs) = true := by rw [hgov]; decide
  have hw : (s.mt p).writtenBack x s.cad.now = _ := if_neg hnot
  have hsends : (List.range x.made).foldl (fun (s' : State) _ => s'.sendCopy p (if (s.mt p).copyB then 352 else 432)
      (copyBytes (s.mt p) (((s.mt p).gen + 1) % 2 ^ 32))) s = { s with sent := s.sent ++ writeBackPages s p x } :=
    sendCopies_eq _ _ _ _ _
  unfold writeCounts
  dsimp only
  rw [if_neg hnot, hsends, hw]
  generalize s.sent ++ writeBackPages s p x = l
  split_ifs with hdone hgone
  · refine ⟨State.mt_setMt_self _ _ _, ?_, fun _ => ?_⟩
    · rw [State.mt_setMt_self]
      rfl
    · rw [State.mt_setMt_self]
      rfl
  · refine ⟨State.mt_setMt_self _ _ _, ?_, fun h => absurd h hdone⟩
    rw [State.mt_setMt_self]
    rfl
  · have hpost := State.post_notes (({ s with sent := l } : State).setMt p
      { s.mt p with wroteAt := some s.cad.now, failing := true }) evMountWriteFail [(1, p)] 0
    have hall := notes_of_sent (u := s.setMt p { s.mt p with wroteAt := some s.cad.now, failing := true }) hpost
    obtain ⟨hmt, hnotes⟩ := notes_setMt_mt hall
    exact ⟨hmt, hnotes, fun h => absurd h hdone⟩

/-! ### The read of a record (R105, R108, R110) -/

/-- The mount once its read has ended. -/
def Mount.readBy (m : Mount) (x : MountXfer) : Mount :=
  let m : Mount := { m with xfer := none }
  let m := match x.done with
    | some a => { m with record := padTo 512 a.bytes }
    | none => m
  let ok := x.done.isSome && recordOk m.record
  let r := m.record
  let m := { m with valid := ok, due := true, fresh := true }
  match ok, currentCopy r with
  | true, some o =>
    let c := slice r o 80
    let re := counters c 4 4
    let ev := counters c 20 4
    let ti := counters c 36 8
    { m with gen := getU c 0 4, copyB := o == 432, relay := re, events := ev, timeUs := ti, frac := [0, 0, 0, 0],
             wRelay := re, wEvents := ev, wTime := ti }
  | _, _ => m

theorem Mount.readBy_spec (m : Mount) (x : MountXfer) :
    let bytes := match x.done with | some a => padTo 512 a.bytes | none => m.record
    (m.readBy x).record = bytes ∧ (m.readBy x).due = true ∧ (m.readBy x).xfer = none ∧
      (m.readBy x).valid = (x.done.isSome && recordOk bytes) ∧
      ∀ o, (m.readBy x).valid = true → currentCopy bytes = some o →
        (m.readBy x).gen = getU (slice bytes o 80) 0 4 ∧ (m.readBy x).copyB = (o == 432) ∧
        (m.readBy x).relay = (m.readBy x).wRelay ∧ (m.readBy x).events = (m.readBy x).wEvents := by
  unfold Mount.readBy
  cases hdone : x.done with
  | none => simp
  | some a =>
    dsimp only
    cases hok : recordOk (padTo 512 a.bytes)
    · simp
    · cases hcur : currentCopy (padTo 512 a.bytes) <;> simp

theorem mountReadDone_eq {p t : Nat} {tries : List MountTry} {s : State} (hx : (s.mt p).xfer.isSome = true)
    (hmode : (s.mt p).mode ≠ 1) (hrel : (s.mt p).released = false) :
    ∃ (l : List Sent) (payload : List (Nat × Nat)), mountReadDone p tries t s =
      lifeCheck p ((({ s.tick t with sent := l } : State).setMt p ((s.mt p).readBy (mountXfer tries))).post evMountInserted payload) := by
  obtain ⟨l, hl⟩ := fetchMounts_eq (s.tick t) p ((mountXfer tries).made - 1)
  have hnone : ¬((s.tick t).mt p).xfer.isNone = true := by
    have hx' : ((s.tick t).mt p).xfer.isSome = true := hx
    simp [Option.isNone_iff_eq_none, Option.isSome_iff_ne_none.mp hx']
  have hgo : ¬(((s.tick t).mt p).mode = 1 ∨ ((s.tick t).mt p).released = true) := by
    rintro (h | h)
    · exact hmode h
    · have hrel' : ((s.tick t).mt p).released = false := hrel
      rw [hrel'] at h
      exact absurd h (by decide)
  unfold mountReadDone
  dsimp only
  rw [if_neg hnone, hl, if_neg hgo]
  exact ⟨l, _, rfl⟩

theorem mountReadDone_ignored {p t : Nat} {tries : List MountTry} {s : State} (hx : (s.mt p).xfer.isSome = true)
    (h : (s.mt p).mode = 1 ∨ (s.mt p).released = true) : ∃ l, mountReadDone p tries t s =
      { (s.tick t).setMt p { s.mt p with xfer := none } with sent := l } := by
  obtain ⟨l, hl⟩ := fetchMounts_eq (s.tick t) p ((mountXfer tries).made - 1)
  have hnone : ¬((s.tick t).mt p).xfer.isNone = true := by
    have hx' : ((s.tick t).mt p).xfer.isSome = true := hx
    simp [Option.isNone_iff_eq_none, Option.isSome_iff_ne_none.mp hx']
  have hgo : ((s.tick t).mt p).mode = 1 ∨ ((s.tick t).mt p).released = true := h
  refine ⟨l, ?_⟩
  unfold mountReadDone
  dsimp only
  rw [if_neg hnone, hl, if_pos hgo]
  rfl

/-! ### Overdrive (R112) -/

theorem overdrive_idle {c mv k t p : Nat} {s : State} (hp : c / 4 = p)
    (h : (s.mt p).overLevel = none ∨ ∃ level, (s.mt p).overLevel = some level ∧ mv < level) : overdrive c mv k t s = s.tick t := by
  subst hp
  unfold overdrive
  extract_lets u p m i
  rcases h with h | ⟨level, h, hlt⟩
  · have hm : m.overLevel = none := h
    rw [hm]
  · have hm : m.overLevel = some level := h
    rw [hm]
    exact if_pos hlt

/-- An input above the threshold: its time counts, and an event where it had stayed below for 1 us. -/
theorem overdrive_counts {c mv k t p level : Nat} {s : State} (hp : c / 4 = p) (hm : (s.mt p).overLevel = some level)
    (hlt : level < mv) :
    ∃ m', overdrive c mv k t s = lifeCheck p ((s.tick t).setMt p m') ∧
      m'.events = (if (match (s.mt p).below.getD (c % 4) none with
          | some b => decide (b + microsecond ≤ (s.tick t).cad.now) | none => true) = true then
        (s.mt p).events.set (c % 4) (satAdd 32 ((s.mt p).events.getD (c % 4) 0) 1) else (s.mt p).events) ∧
      m'.timeUs = (s.mt p).timeUs.set (c % 4)
        (satAdd 64 ((s.mt p).timeUs.getD (c % 4) 0) (((s.mt p).frac.getD (c % 4) 0 + k) / 1280)) ∧
      m'.frac = (s.mt p).frac.set (c % 4) (((s.mt p).frac.getD (c % 4) 0 + k) % 1280) := by
  subst hp
  have hle : ¬mv < level := by omega
  have hne : ¬mv = level := by omega
  unfold overdrive
  extract_lets u p m i
  have hm' : m.overLevel = some level := hm
  rw [hm']
  dsimp only
  rw [if_neg hle, if_neg hne]
  exact ⟨_, rfl, rfl, rfl, rfl⟩

/-- Settles O42: the guard of each row decides, and the row sets one mount. -/
theorem mountEvents : Obligations.MountEvents := by
  refine fun p t s => ⟨fun on hon => ?same, fun on hmode hne => ?direct, fun hmode hpres => ?inserted, fun hmode hpres => ?removed,
    fun tries hx => ?noRead, fun tries hx h => ?ignored, fun tries hx hmode hrel => ?read, fun h => ?notDue, fun hdue hturn => ?apply,
    fun c mv k hp h => ?quiet, fun c mv k level hp hm hlt => ?driven, fun tries h => ?idle, fun h hlate hgov tries => ?write⟩
  case same => exact congrArg Host.Outcome.next (if_pos hon.symm)
  case direct =>
    exact congrArg Host.Outcome.next ((if_neg (Ne.symm hne)).trans (if_pos hmode))
  case inserted =>
    have hne : ¬true = ((s.tick t).mt p).present := by
      have hpres' : ((s.tick t).mt p).present = false := hpres
      rw [hpres']
      decide
    have hrun : mountPresence p true t s = mountInsert p (s.tick t) := (if_neg hne).trans ((if_neg hmode).trans (if_pos rfl))
    exact ⟨_, congrArg Host.Outcome.next hrun, State.mt_setMt_self _ _ _, setMt_sent_eq _ _ _ _⟩
  case removed =>
    obtain ⟨t', hrun, hmt, hsame, hnotes⟩ := mountPresence_removed (t := t) hmode hpres
    refine ⟨t', congrArg Host.Outcome.next hrun, ?_⟩
    rw [hmt] at hsame hnotes ⊢
    exact ⟨rfl, rfl, rfl, rfl, rfl, rfl, rfl, rfl, rfl, hsame, hnotes⟩
  case noRead =>
    have hx' : ((s.tick t).mt p).xfer.isNone = true := by
      have hx' : ((s.tick t).mt p).xfer = none := hx
      rw [hx']
      rfl
    exact congrArg Host.Outcome.next (if_pos hx')
  case ignored =>
    obtain ⟨l, hl⟩ := mountReadDone_ignored (t := t) (tries := tries) hx h
    refine ⟨_, congrArg Host.Outcome.next hl, State.mt_setMt_self _ _ _, setMt_sent_eq _ _ _ _⟩
  case read =>
    obtain ⟨l, payload, hrun⟩ := mountReadDone_eq (t := t) (tries := tries) hx hmode hrel
    obtain ⟨hrecord, hdue, hxfer, hvalid, hcounts⟩ := (s.mt p).readBy_spec (mountXfer tries)
    have hmt : ((({ s.tick t with sent := l } : State).setMt p ((s.mt p).readBy (mountXfer tries))).post evMountInserted payload).mt p =
        (s.mt p).readBy (mountXfer tries) := (State.post_mt _ _ _ _ _).trans (State.mt_setMt_self _ _ _)
    have hother (q : Nat) (hq : q ≠ p) : ((({ s.tick t with sent := l } : State).setMt p
        ((s.mt p).readBy (mountXfer tries))).post evMountInserted payload).mt q = s.mt q :=
      (State.post_mt _ _ _ _ _).trans (State.mt_setMt_other _ _ hq)
    generalize (({ s.tick t with sent := l } : State).setMt p ((s.mt p).readBy (mountXfer tries))).post evMountInserted payload = v
      at hrun hmt hother
    obtain ⟨hage, hkeep, hq⟩ := lifeCheck_mt p v
    rw [hmt] at hage hkeep
    refine ⟨_, congrArg Host.Outcome.next hrun, ?_⟩
    refine ⟨(congrArg Mount.record hage).trans hrecord, hkeep hdue, (congrArg Mount.xfer hage).trans hxfer,
      (congrArg Mount.valid hage).trans hvalid, fun q hqp => (hq q hqp).trans (hother q hqp), fun o hv ho => ?_⟩
    obtain ⟨hgen, hcopy, hrelay, hevents⟩ := hcounts o ((congrArg Mount.valid hage).symm.trans hv) ho
    exact ⟨(congrArg Mount.gen hage).trans hgen, (congrArg Mount.copyB hage).trans hcopy,
      (congrArg Mount.relay hage).trans (hrelay.trans (congrArg Mount.wRelay hage).symm),
      (congrArg Mount.events hage).trans (hevents.trans (congrArg Mount.wEvents hage).symm)⟩
  case notDue =>
    refine congrArg Host.Outcome.next (if_neg ?_)
    simp only [Bool.and_eq_true, beq_iff_eq, not_and]
    rintro hdue
    exact h.resolve_left (by rw [show (s.mt p).due = true from hdue]; decide)
  case apply =>
    have hif : ((s.tick t).mt p).due && turnAtOrAfter (s.tick t).cad (s.tick t).cad.now == (s.tick t).cad.now := by
      rw [hturn, beq_self_eq_true, Bool.and_true]
      exact hdue
    obtain ⟨h1, h2, h3, h4, h5⟩ := mountSettle_spec p (s.tick t).cad.now (s.mt p).fresh (s.tick t)
    exact ⟨_, congrArg Host.Outcome.next (if_pos hif), h1, h2, h3, h4, h5⟩
  case quiet => exact congrArg Host.Outcome.next (overdrive_idle hp h)
  case driven =>
    obtain ⟨m', hrun, hevents, htime, hfrac⟩ := overdrive_counts (t := t) (k := k) hp hm hlt
    obtain ⟨hage, -, hother⟩ := lifeCheck_mt p ((s.tick t).setMt p m')
    rw [State.mt_setMt_self] at hage
    refine ⟨_, congrArg Host.Outcome.next hrun, fun b hb hlow => ?_, fun hnone => ?_, ?_, ?_, fun q hq => ?_⟩
    · refine (congrArg Mount.events hage).trans (hevents.trans (if_neg ?_))
      rw [hb]
      dsimp only
      rw [decide_eq_true_iff]
      exact Nat.not_le.mpr hlow
    · refine (congrArg Mount.events hage).trans (hevents.trans (if_pos ?_))
      rw [hnone]
    · exact (congrArg Mount.timeUs hage).trans htime
    · exact (congrArg Mount.frac hage).trans hfrac
    · exact (hother q hq).trans (State.mt_setMt_other _ _ hq)
  case idle => exact congrArg Host.Outcome.next (writeBack_idle h)
  case write =>
    obtain ⟨hmt, hnotes, hsent⟩ := writeCounts_spec (tries := tries) (s := s.tick t) (p := p) hgov
    have hrun := writeBack_due (t := t) (tries := tries) h hlate
    obtain ⟨hdone, hfailed, -, hwrote, -⟩ := Mount.writtenBack_fields (mountXfer tries) (s.tick t).cad.now (s.mt p)
    refine ⟨_, congrArg Host.Outcome.next hrun, ?_, fun hd => ?_, fun hd => ?_⟩
    · rw [hmt]
      exact hwrote hgov
    · obtain ⟨hgen, hcopy, hrelay, hevents, htime, -⟩ := hdone hgov hd
      have hall := hsent hd
      have hlist := congrArg State.sent hall
      refine ⟨?_, ?_, ?_, ?_, ?_, ?_, ?_⟩
      · rw [hmt]; exact hgen
      · rw [hmt]; exact hcopy
      · rw [hmt]; exact hrelay
      · rw [hmt]; exact hevents
      · rw [hmt]; exact htime
      · generalize writeCounts p tries (s.tick t) = w at hall hlist ⊢
        rw [hlist]
        exact hall
      · exact hlist
    · obtain ⟨hfailing, hgen, -⟩ := hfailed hgov hd
      refine ⟨?_, ?_, hnotes⟩
      · rw [hmt]; exact hgen
      · rw [hmt]; exact hfailing

end Sys2Proof.Machine
end

section
/-! PROOF. Scrubbing, training, rebuilds and relocations of the stacks (R404, R406 to R408, R411). -/
namespace Sys2Proof.Machine

/-! ### Stacks and pseudo-channels -/

@[simp] theorem Stack.pc_setPc_self (x : Stack) (p : Nat) (y : PseudoCh) : (x.setPc p y).pc p = y := tget_tset_self _ _ _ _

@[simp] theorem Stack.setPc_setPc (x : Stack) (p : Nat) (y z : PseudoCh) : (x.setPc p y).setPc p z = x.setPc p z := by
  simp only [Stack.setPc, tset_tset]

theorem State.setStk_setStk (s : State) (k : Nat) (x y : Stack) : (s.setStk k x).setStk k y = s.setStk k y := by
  simp only [State.setStk, tset_tset]

theorem State.post_stk (s : State) (code : Nat) (l : List (Nat × Nat)) (fn k : Nat) : (s.post code l fn).stk k = s.stk k :=
  (s.post_notes code l fn).field (fun z => z.stk k) fun _ _ _ _ => rfl

theorem State.setHealth_stk (s : State) (h : Health) (k : Nat) : (s.setHealth h).stk k = s.stk k := rfl

theorem logEntry_stk (kind unit sub detail : Nat) (s : State) (k : Nat) : (logEntry kind unit sub detail s).stk k = s.stk k := by
  unfold logEntry
  exact State.setHealth_stk _ _ _

theorem logEntry_lanes (kind unit sub detail : Nat) (s : State) :
    (logEntry kind unit sub detail s).health.lanes = s.health.lanes := by
  unfold logEntry
  rw [State.setHealth_health]

theorem notes_setStk {u t : State} (h : Notes u t) (k : Nat) (x : Stack) : Notes (u.setStk k x) (t.setStk k x) :=
  congrArg (fun z : State => z.setStk k x) h

/-! ### Scrub reads (R404, R405) -/

theorem readCodeword_of_none {k p : Nat} {beats : List (BitVec 36)} {s : State} (h : ((s.stk k).pc p).rebuild = none) :
    readCodeword k p beats s = (burstWord beats, s) := by
  simp only [readCodeword, h]

section
variable {k p : Nat} {beats : List (BitVec 36)} {holds : Option (Nat × Nat)} {rows : List (Nat × Nat)} {s : State}

theorem scrubRead_idle (h : (s.stk k).st ≠ 0 ∨ beats.length ≠ 8 ∨ (s.service k)[(s.stk k).word / 8 % (s.service k).length]? ≠ some p) :
    scrubRead k p beats holds rows s = s := if_pos h

variable (hst : (s.stk k).st = 0) (hlen : beats.length = 8)
    (hnext : (s.service k)[(s.stk k).word / 8 % (s.service k).length]? = some p)
include hst hlen hnext

theorem scrubRead_eq :
    let w := (readCodeword k p beats (activateAll reqOwn rows s)).1
    let v := (readCodeword k p beats (activateAll reqOwn rows s)).2
    let granule := (s.stk k).word / 8 / (s.service k).length
    let u := match zxDecode w with
      | .ok => v
      | .fixed _ _ => v.setStk k { v.stk k with corr := satAdd 64 (v.stk k).corr 1 }
      | .bad => badWord k p granule v
    let t := match zxDecode w, holds with | .bad, some (n, pos) => spoilRecord n pos k u | _, _ => u
    scrubRead k p beats holds rows s =
      t.setStk k (if decide (passWords s k ≤ (s.stk k).word + 1) then { t.stk k with
        word := 0, passes := satAdd 32 (t.stk k).passes 1, pcs := tmap (t.stk k).pcs fun _ y => { y with uncorr := 0 } }
        else { t.stk k with word := (t.stk k).word + 1 }) := by
  intro w v granule u t
  have hgo : ¬((s.stk k).st ≠ 0 ∨ beats.length ≠ 8 ∨ (s.service k)[(s.stk k).word / 8 % (s.service k).length]? ≠ some p) := by
    simp only [not_or, not_not]
    exact ⟨hst, hlen, hnext⟩
  unfold scrubRead
  refine (if_neg hgo).trans ?_
  rfl

end

/-- An uncorrectable word of a pseudo-channel with fewer than 16 of them in the pass: counted and told (R410). -/
theorem badWord_counts {k p g : Nat} {s : State} (h : ((s.stk k).pc p).uncorr < 16) :
    ∃ x, badWord k p g s = (s.setStk k x).post evMemUncorrectable [(1, 3), (1, k), (1, p), (1, 0), (4, g)] ∧
      x.word = (s.stk k).word ∧ x.uncorr = satAdd 64 (s.stk k).uncorr 1 ∧ x.corr = (s.stk k).corr ∧
      (x.pc p).uncorr = ((s.stk k).pc p).uncorr + 1 := by
  have hif : ¬16 < ((s.stk k).pc p).uncorr + 1 := by omega
  refine ⟨_, if_neg hif, rfl, rfl, rfl, ?_⟩
  refine (congrArg PseudoCh.uncorr (Stack.pc_setPc_self (s.stk k) p _)).trans ?_
  dsimp only [satAdd]
  omega

theorem uncorr_of_cleared (x : Stack) (n : Nat) (w m : Nat) :
    (({ x with word := w, passes := m, pcs := tmap x.pcs fun _ y => { y with uncorr := 0 } } : Stack).pc n).uncorr = 0 := by
  unfold Stack.pc tget
  dsimp only
  rw [tfind_tmap]
  cases tfind x.pcs n <;> rfl

/-! ### Training (R406, R407) and failing lanes (R408) -/

theorem retrainStart_due {k p : Nat} {temp : Int} {s : State} (hst : (s.stk k).st = 0) (hp : p ∈ s.service k)
    (htrain : ((s.stk k).pc p).train = none) (hlim : 50 * s.memBlock.u 2 1 < (temp - ((s.stk k).pc p).temp).natAbs) :
    retrainStart k p temp s =
      s.setStk k (({ s.stk k with temp := temp } : Stack).setPc p { (s.stk k).pc p with train := some temp }) :=
  if_pos ⟨hst, by simpa using hp, (congrArg Option.isNone htrain).trans rfl, hlim⟩

theorem retrainStart_idle {k p : Nat} {temp : Int} {s : State} (h : (s.stk k).st ≠ 0 ∨ p ∉ s.service k ∨
    ((s.stk k).pc p).train ≠ none ∨ (temp - ((s.stk k).pc p).temp).natAbs ≤ 50 * s.memBlock.u 2 1) : retrainStart k p temp s = s := by
  refine if_neg ?_
  rintro ⟨hst, hp, htrain, hlim⟩
  have hp' : p ∈ s.service k := by simpa using hp
  have htrain' : ((s.stk k).pc p).train = none := Option.isNone_iff_eq_none.mp htrain
  have hlim' : 50 * s.memBlock.u 2 1 < (temp - ((s.stk k).pc p).temp).natAbs := hlim
  rcases h with h | h | h | h
  · exact h hst
  · exact h hp'
  · exact h htrain'
  · omega

/-- An entry and an event leave the lanes, the causes and the stacks. -/
theorem logEntry_post_rest (kind unit sub detail code k : Nat) (l : List (Nat × Nat)) (s : State) :
    (logEntry kind unit sub detail (s.post code l)).health.lanes = s.health.lanes ∧
      (logEntry kind unit sub detail (s.post code l)).health.causes = s.health.causes ∧
      (logEntry kind unit sub detail (s.post code l)).stk k = s.stk k := by
  rw [logEntry_lanes, logEntry_causes, logEntry_stk, State.post_health, State.post_stk]
  exact ⟨rfl, rfl, rfl⟩

theorem addLane_rest (u : State) (e : Nat × Nat × Nat × Option Nat) (k : Nat) :
    let v := u.setHealth { u.health with lanes := u.health.lanes ++ [e] }
    v.health.lanes = u.health.lanes ++ [e] ∧ v.health.causes = u.health.causes ∧ v.stk k = u.stk k := ⟨rfl, rfl, rfl⟩

/-- A lane of a pseudo-channel with no spare in use and none being rebuilt fails: spare 0 takes its place (R408). -/
theorem laneFailed_eq {k p lane : Nat} {s : State} (hdead : lane ∉ s.deadLanes k p) (hspares : s.spares k p = [])
    (hbusy : ((s.stk k).pc p).rebuild = none) :
    ∃ v : State, laneFailed k p lane false s = v.setStk k ((v.stk k).setPc p { (v.stk k).pc p with rebuild := some lane }) ∧
      v.health.lanes = s.health.lanes ++ [(k, p, lane, some 0)] ∧ v.health.causes = s.health.causes ∧ v.stk k = s.stk k := by
  have hnot : ¬s.health.lanes.any (fun l => l.1 == k && l.2.1 == p && l.2.2.1 == lane) = true := by
    intro hany
    rw [List.any_eq_true] at hany
    obtain ⟨l, hl, hkp⟩ := hany
    simp only [Bool.and_eq_true, beq_iff_eq] at hkp
    obtain ⟨⟨hk, hp⟩, hlane⟩ := hkp
    refine hdead (List.mem_map.mpr ⟨l, List.mem_filter.mpr ⟨hl, ?_⟩, hlane⟩)
    simp [hk, hp]
  unfold laneFailed
  rw [if_neg hnot]
  extract_lets used busy spare u _ v
  have hspare : spare = some 0 := by
    simp only [spare, used, busy, hspares, hbusy]
    decide
  obtain ⟨hl, hc, hs⟩ : u.health.lanes = s.health.lanes ∧ u.health.causes = s.health.causes ∧ u.stk k = s.stk k :=
    logEntry_post_rest _ _ _ _ _ _ _ _
  clear_value u
  have hv : v.health.lanes = u.health.lanes ++ [(k, p, lane, spare)] ∧ v.health.causes = u.health.causes ∧ v.stk k = u.stk k :=
    addLane_rest u _ k
  rw [hl, hc, hs] at hv
  clear_value v
  rw [hspare] at hv ⊢
  have h01 : ¬(0 : Nat) = 1 := by decide
  exact ⟨v, (if_neg h01).trans (if_neg Bool.false_ne_true), hv⟩

theorem laneFailed_first {k p lane : Nat} {s : State} (hdead : lane ∉ s.deadLanes k p) (hspares : s.spares k p = [])
    (hbusy : ((s.stk k).pc p).rebuild = none) :
    let t := laneFailed k p lane false s
    (k, p, lane, some 0) ∈ t.health.lanes ∧ t.stk k = (s.stk k).setPc p { (s.stk k).pc p with rebuild := some lane } ∧
      t.health.causes = s.health.causes := by
  obtain ⟨v, hrun, hl, hc, hs⟩ := laneFailed_eq hdead hspares hbusy
  rw [hrun]
  dsimp only
  rw [State.stk_setStk_self, hs]
  have hmem : (k, p, lane, some 0) ∈ v.health.lanes := by
    rw [hl]
    exact List.mem_append_right _ (List.mem_singleton.mpr rfl)
  exact ⟨hmem, rfl, hc⟩

theorem judged_trainLane {k p : Nat} {r : LaneRun} {lane tap : Nat} {s : State} (hr : r.lane ≤ 4)
    (hj : judgeLane r (s.deadLanes k p) = ([lane], some tap)) :
    trainLane k p false r s = laneFailed k p lane false (s.setStk k ((s.stk k).setPc p { (s.stk k).pc p with
      taps := tset ((s.stk k).pc p).taps (2 * r.lane + b2n r.write) tap })) := by
  have hnot : ¬4 < r.lane := Nat.not_lt.mpr hr
  unfold trainLane
  rw [if_neg hnot, hj]
  rfl

/-! ### Rebuilds that end (R408) -/

theorem rebuildDone_idle {k p : Nat} {s : State} (h : ((s.stk k).pc p).rebuild = none ∨ ((s.stk k).pc p).train.isSome = true) :
    rebuildDone k p s = s := by
  unfold rebuildDone
  dsimp only
  split
  · rfl
  · next lane hlane =>
    refine if_pos (h.resolve_left ?_)
    rw [hlane]
    exact Option.some_ne_none _

theorem rebuildDone_due {k p lane : Nat} {s : State} (hlane : ((s.stk k).pc p).rebuild = some lane)
    (htrain : ((s.stk k).pc p).train = none) :
    ∃ u, rebuildDone k p s = logEntry 4 k (256 * p + lane) (((s.spares k p).find? fun q => q.2 == lane).elim 0 (·.1)) u ∧
      u.stk k = (s.stk k).setPc p { (s.stk k).pc p with rebuild := none } ∧ u.health = s.health := by
  have hnot : ¬((s.stk k).pc p).train.isSome = true := by rw [htrain]; decide
  unfold rebuildDone
  dsimp only
  rw [hlane]
  dsimp only
  rw [if_neg hnot]
  exact ⟨_, rfl, (State.post_stk _ _ _ _ _).trans (State.stk_setStk_self _ _ _), State.post_health _ _ _ _⟩

/-- Settles O47: the guard of each row decides, and the row sets one stack. -/
theorem stackEvents : Obligations.StackEvents := by
  refine fun k p beats temp s => ⟨fun hold rows h => ?scrubIdle, fun h => ?codeword, fun hold rows hst hlen hnext => ⟨fun hlow =>
    ⟨fun hok => ?clean, fun i e hfix => ?fixed, fun hbad hfew => ?bad⟩, fun hend hok => ?pass⟩, fun hst hp htrain hlim => ?retrain,
    fun h => ?noRetrain, fun runs h => ?noRun, fun z hz => ⟨?noLanes, fun r lane tap hr hj hdead hspares hbusy => ?lane⟩,
    fun h => ?noRebuild, fun lane hlane htrain => ?rebuilt, fun h => ?noMove, fun q qs h => ?moved⟩
  case scrubIdle => exact congrArg Host.Outcome.next (scrubRead_idle h)
  case codeword => exact readCodeword_of_none h
  case clean =>
    have hrun := scrubRead_eq (holds := hold) (rows := rows) hst hlen hnext
    dsimp only at hrun
    rw [hok, decide_eq_false (Nat.not_le.mpr hlow)] at hrun
    exact congrArg Host.Outcome.next hrun
  case fixed =>
    have hrun := scrubRead_eq (holds := hold) (rows := rows) hst hlen hnext
    dsimp only at hrun
    rw [hfix, decide_eq_false (Nat.not_le.mpr hlow)] at hrun
    dsimp only at hrun
    rw [State.stk_setStk_self, State.setStk_setStk, if_neg Bool.false_ne_true] at hrun
    refine ⟨_, congrArg Host.Outcome.next hrun, State.stk_setStk_self _ _ _, ?_⟩
    dsimp only
    rw [State.stk_setStk_self]
  case bad =>
    have hrun := scrubRead_eq (holds := none) (rows := rows) hst hlen hnext
    dsimp only at hrun
    rw [hbad, decide_eq_false (Nat.not_le.mpr hlow)] at hrun
    dsimp only at hrun
    obtain ⟨x, hx, hword, huncorr, hcorr, hpc⟩ := badWord_counts (g := (s.stk k).word / 8 / (s.service k).length) hfew
    rw [hx, State.post_stk, State.stk_setStk_self, if_neg Bool.false_ne_true] at hrun
    refine ⟨_, congrArg Host.Outcome.next hrun, ?_⟩
    dsimp only
    rw [State.stk_setStk_self]
    refine ⟨congrArg (· + 1) hword, huncorr, hcorr, hpc, ?_⟩
    have hnotes := notes_setStk (State.post_notes ((readCodeword k p beats (activateAll reqOwn rows s)).2.setStk k x) evMemUncorrectable
      [(1, 3), (1, k), (1, p), (1, 0), (4, (s.stk k).word / 8 / (s.service k).length)] 0) k { x with word := x.word + 1 }
    rw [State.setStk_setStk] at hnotes
    exact hnotes
  case pass =>
    have hrun := scrubRead_eq (holds := hold) (rows := rows) hst hlen hnext
    dsimp only at hrun
    rw [hok, decide_eq_true hend] at hrun
    refine ⟨_, congrArg Host.Outcome.next (hrun.trans (congrArg (State.setStk _ k) (if_pos rfl))), ?_⟩
    dsimp only
    rw [State.stk_setStk_self]
    exact ⟨rfl, rfl, fun n => uncorr_of_cleared _ n _ _, rfl⟩
  case retrain => exact congrArg Host.Outcome.next (retrainStart_due hst hp htrain hlim)
  case noRetrain => exact congrArg Host.Outcome.next (retrainStart_idle h)
  case noRun =>
    refine congrArg Host.Outcome.next ?_
    simp only [retrainDone, h]
  case noLanes =>
    refine congrArg Host.Outcome.next ?_
    simp only [retrainDone, hz, List.foldl_nil]
  case lane =>
    have hrun : retrainDone k p [r] s = trainLane k p false r (s.setStk k ((s.stk k).setPc p { (s.stk k).pc p with
        train := none, temp := z })) := by
      simp only [retrainDone, hz, List.foldl_cons, List.foldl_nil]
    rw [judged_trainLane (s := s.setStk k ((s.stk k).setPc p { (s.stk k).pc p with train := none, temp := z })) hr hj,
      State.stk_setStk_self, State.setStk_setStk, Stack.pc_setPc_self, Stack.setPc_setPc] at hrun
    obtain ⟨hmem, hstk, hcauses⟩ := laneFailed_first (k := k) (p := p) (lane := lane) (s := s.setStk k ((s.stk k).setPc p
      { (s.stk k).pc p with
        train := none, temp := z, taps := tset ((s.stk k).pc p).taps (2 * r.lane + b2n r.write) tap })) hdead hspares (by
      rw [State.stk_setStk_self, Stack.pc_setPc_self]
      exact hbusy)
    rw [State.stk_setStk_self, Stack.pc_setPc_self, Stack.setPc_setPc] at hstk
    refine ⟨_, congrArg Host.Outcome.next hrun, hmem, ?_⟩
    rw [hstk, Stack.pc_setPc_self]
    exact ⟨rfl, rfl, by rw [tfind_tset, if_pos rfl], hcauses⟩
  case noRebuild =>
    refine congrArg Host.Outcome.next ?_
    exact rebuildDone_idle h
  case rebuilt =>
    obtain ⟨u, hrun, hstk, hhealth⟩ := rebuildDone_due hlane htrain
    refine ⟨_, congrArg Host.Outcome.next hrun, (logEntry_stk _ _ _ _ _ _).trans hstk, ?_, ?_⟩
    · rw [(logEntry_counts _ _ _ _ _).2.2, hhealth]
    · rw [logEntry_lanes, hhealth]
  case noMove =>
    refine congrArg Host.Outcome.next ?_
    simp only [relocationDone, h]
  case moved =>
    refine congrArg Host.Outcome.next ?_
    simp only [relocationDone, h]

end Sys2Proof.Machine
end

section
/-! SUPPORT. What completing, halting and fetching leave of the Courier queues (R424 to R437). -/
namespace Sys2Proof.Machine

theorem State.post_qu (s : State) (code : Nat) (l : List (Nat × Nat)) (fn q : Nat) : (s.post code l fn).qu q = s.qu q :=
  (s.post_notes code l fn).field (fun z => z.qu q) fun _ _ _ _ => rfl

/-! ### What has been sent stays -/

theorem State.msix_sent (s : State) (fn v : Nat) : s.sent <+: (s.msix fn v).sent := by
  unfold State.msix
  dsimp only
  split_ifs
  · exact List.prefix_refl _
  · exact List.prefix_refl _
  · exact List.prefix_append _ _

theorem quInterrupt_sent (q : Nat) (s : State) : s.sent <+: (quInterrupt q s).sent := by
  unfold quInterrupt
  dsimp only
  split_ifs
  · exact State.msix_sent (s.setQu q { s.qu q with waiting := 0 }) _ _
  · exact List.prefix_refl _

theorem quFetch_sent (q : Nat) (s : State) : s.sent <+: (quFetch q s).sent := by
  unfold quFetch
  dsimp only
  split_ifs
  · exact List.prefix_append _ _
  · exact List.prefix_refl _

theorem quComplete_sent (q code kind : Nat) (last : Bool) (f : Fill) (n : Nat) (s : State) :
    s.sent <+: (quComplete q code kind last f n s).sent := by
  unfold quComplete
  dsimp only
  split
  · exact List.prefix_refl _
  · refine List.IsPrefix.trans ?_ (quInterrupt_sent q _)
    exact (List.prefix_append _ _).trans (List.prefix_append _ _)

/-! ### Completions (R426, R431, R435) -/

/-- A descriptor that completes: the queue's counts and status, and nothing of the other queues. -/
theorem quComplete_spec {q : Nat} {s : State} {d : Desc} (hd : (s.qu q).desc = some d) (code kind : Nat) (last : Bool) (f : Fill)
    (n : Nat) :
    QueueAlone q s (quComplete q code kind last f n s) ∧
      ∃ w, (quComplete q code kind last f n s).qu q = { s.qu q with
        desc := none, reads := [], next := 0, lastSt := code, descs := satAdd 64 (s.qu q).descs 1,
        bytes := satAdd 64 (s.qu q).bytes n, waiting := w } := by
  unfold quComplete
  dsimp only
  rw [hd]
  dsimp only
  generalize hu : State.send _ _ = u
  have hleaves : Leaves s u := by
    rw [← hu]
    rfl
  generalize hx : ({ s.qu q with
      desc := none, reads := [], next := 0, lastSt := code, descs := satAdd 64 (s.qu q).descs 1
      bytes := satAdd 64 (s.qu q).bytes n, waiting := (s.qu q).waiting + d.ctrl % 2 } : Queue) = x
  obtain ⟨hint, w, -, hw, -⟩ := quInterrupt_qu q (u.setQu q x)
  refine ⟨queueAlone_trans (queueAlone_of_leaves hleaves) (queueAlone_trans (queueAlone_setQu q u x) hint), w, ?_⟩
  rw [hw, State.qu_setQu_self, ← hx]

theorem quHalt_qu (q code kind : Nat) (s : State) : (quHalt q code kind s).qu q = { s.qu q with st := 2 } ∧
    ∀ p, p ≠ q → (quHalt q code kind s).qu p = s.qu p := by
  unfold quHalt
  refine ⟨(State.post_qu _ _ _ _ _).trans (State.qu_setQu_self _ _ _), fun p hp => ?_⟩
  exact (State.post_qu _ _ _ _ _).trans (State.qu_setQu_other _ _ hp)

/-! ### Reads of a load queue (R437) -/

/-- A queue but for its outstanding reads. -/
def Queue.settled (x : Queue) : Queue := { x with reads := [], next := 0 }

theorem Queue.fields_of_settled {x y : Queue} (h : x.settled = y.settled) :
    x.desc = y.desc ∧ x.sample = y.sample ∧ x.lastSt = y.lastSt ∧ x.bytes = y.bytes := by
  simp only [settled, Queue.mk.injEq] at h
  tauto

theorem asked_settled (p q : Nat) (s : State) (l : List (Nat × Nat)) (n : Nat) (x : Sent) :
    (((s.setQu p { s.qu p with reads := l, next := n }).send x).qu q).settled = (s.qu q).settled := by
  by_cases hq : q = p
  · subst hq
    have hself := congrArg Queue.settled (State.qu_setQu_self s q { s.qu q with reads := l, next := n })
    exact hself
  · exact congrArg Queue.settled (State.qu_setQu_other s _ hq)

theorem issueReads_settled (p k : Nat) (s : State) :
    (issueReads p k s).store = s.store ∧ ∀ q, ((issueReads p k s).qu q).settled = (s.qu q).settled := by
  induction k generalizing s with
  | zero => exact ⟨rfl, fun _ => rfl⟩
  | succ k ih =>
    rw [issueReads]
    dsimp only
    split
    · exact ⟨rfl, fun _ => rfl⟩
    · split_ifs
      · exact ⟨rfl, fun _ => rfl⟩
      · refine ⟨(ih _).1, fun q => ((ih _).2 q).trans ?_⟩
        exact asked_settled p q s _ _ _

theorem issueAll_settled (fn p : Nat) (s : State) :
    (issueAll fn p s).store = s.store ∧ ∀ q, ((issueAll fn p s).qu q).settled = (s.qu q).settled :=
  ⟨foldl_unchanged State.store (fun u i => (issueReads_settled i 1024 u).1) _ s,
    fun q => foldl_unchanged (fun u : State => (u.qu q).settled) (fun u i => (issueReads_settled i 1024 u).2 q) _ s⟩

/-! ### Buffers (R428, R429) -/

theorem fillBuffer_rest (ns : List Nat) (swap size cap : Nat) (fixed : List (Nat × Nat)) (k : Nat) (s : State) (f : Fill) :
    { (fillBuffer ns swap size cap fixed k s f).1 with store := s.store, free := s.free } = s := by
  suffices h : ∀ S n, ({ (fillBuffer ns swap size cap fixed k s f).1 with store := S, free := n } : State) =
      { s with store := S, free := n } from h s.store s.free
  intro S n
  have hset (u : State) (i : Nat) (x : Store) : ({ u.setSto i x with store := S, free := n } : State) = { u with store := S, free := n } := by
    have hrest := congrArg (fun z : State => { z with store := S, free := n }) (u.setSto_rest i x)
    exact hrest
  induction k generalizing s f with
  | zero => rfl
  | succ k ih =>
    rw [fillBuffer]
    dsimp only
    generalize hdr : @ite (Nat × State) (_ ≤ 1) (Nat.decLe _ _) (0, s) s.freeNat = draw
    have hdraw : ({ draw.2 with store := S, free := n } : State) = { s with store := S, free := n } := by
      rw [← hdr]
      split_ifs <;> rfl
    split
    · exact hdraw
    · split
      · exact hdraw
      · split_ifs
        · exact hdraw
        · exact (ih _ _).trans ((hset _ _ _).trans hdraw)
        · exact (hset _ _ _).trans hdraw
        · exact hdraw

theorem State.sendBuffer_eq (s : State) (fn addr : Nat) (bytes : List Byte) :
    s.sendBuffer fn addr bytes = { s with sent := s.sent ++ (bufferWrites s addr bytes).map fun w => .hostWrite fn w.1 w.2 } := by
  have h := foldl_send (f := fun (s : State) (w : Nat × List Byte) => s.send (.hostWrite fn w.1 w.2))
    (g := fun w => [.hostWrite fn w.1 w.2]) (s := s) (fun _ _ => rfl) (bufferWrites s addr bytes)
  rw [← List.map_eq_flatMap] at h
  exact h

end Sys2Proof.Machine
end

section
/-! PROOF. Courier descriptors, buffers, loads and drains (R426 to R437). -/
namespace Sys2Proof.Machine

/-! ### Descriptors (R424, R427, R435) -/

theorem descriptorFetch_idle {q : Nat} {s : State} (h : (s.qu q).asked = false) (d : HostRead) : descriptorFetch q d s = s :=
  if_pos (by rw [h]; rfl)

section
variable {q : Nat} {s : State} (h : (s.qu q).asked = true)
include h

theorem descriptorFetch_asked : ¬(!(s.qu q).asked) = true := by
  rw [h]
  decide

theorem descriptorFetch_fail (kind : Nat) (bs : List Byte) (lst : Bool) : ∃ u code, descriptorFetch q (.fail kind bs lst) s =
    quHalt q code kind u ∧ u.qu q = { s.qu q with asked := false, fetch := kind } ∧ ∀ p, p ≠ q → u.qu p = s.qu p := by
  refine ⟨_, _, if_neg (descriptorFetch_asked h), State.qu_setQu_self _ _ _, fun p hp => ?_⟩
  exact State.qu_setQu_other _ _ hp

theorem descriptorFetch_bad {raw : List Byte} (hbad : badDesc (padTo 32 raw) ((s.quBlock q).u 2 1 == 1) = true) :
    ∃ x d, descriptorFetch q (.data raw) s = quBad q (s.setQu q x) ∧ x.desc = some d ∧ x.asked = false :=
  ⟨_, _, (if_neg (descriptorFetch_asked h)).trans (if_pos hbad), rfl, rfl⟩

theorem descriptorFetch_taken {raw : List Byte} (hok : badDesc (padTo 32 raw) ((s.quBlock q).u 2 1 == 1) = false)
    (hkind : (s.quBlock q).u 2 1 = 0) :
    descriptorFetch q (.data raw) s = s.setQu q { s.qu q with
      asked := false, fetch := 0, head := ((s.qu q).head + 1) % (s.quBlock q).u 4 4, reads := [], next := 0
      desc := some { index := (s.qu q).head, addr := getU (padTo 32 raw) 0 8, len := getU (padTo 32 raw) 8 4
                     swap := getU (padTo 32 raw) 12 1, ctrl := getU (padTo 32 raw) 13 1 } } := by
  have hload : ¬((s.quBlock q).u 2 1 == 1) = true := by rw [hkind]; decide
  have hnot : ¬badDesc (padTo 32 raw) ((s.quBlock q).u 2 1 == 1) = true := by rw [hok]; decide
  exact (if_neg (descriptorFetch_asked h)).trans ((if_neg hnot).trans (if_neg hload))

end

/-- A queue stops on a bad descriptor (R427, R434). -/
theorem quBad_qu {q : Nat} {s : State} {d : Desc} (hd : (s.qu q).desc = some d) :
    ((quBad q s).qu q).st = 2 ∧ ((quBad q s).qu q).lastSt = 4 ∧ ((quBad q s).qu q).desc = none ∧
      ((quBad q s).qu q).asked = (s.qu q).asked ∧ ∀ p, p ≠ q → (quBad q s).qu p = s.qu p := by
  obtain ⟨⟨-, hother⟩, w, hqu⟩ := quComplete_spec hd 4 0 false {} 0
  obtain ⟨hself, hrest⟩ := quHalt_qu q 4 0 (quComplete q 4 0 false {} 0 s)
  unfold quBad
  rw [hself, hqu]
  exact ⟨rfl, rfl, rfl, rfl, fun p hp => (hrest p hp).trans (hother p hp)⟩

/-! ### Buffers (R428, R429, R431) -/

theorem handBack_idle {q : Nat} {s : State} (h : (s.qu q).desc = none ∨ (s.quBlock q).u 2 1 = 1 ∨ (s.qu q).st ≠ 1)
    (rows : List (Nat × Nat)) (bad : List BadWord) (flush : Bool) : handBack q rows bad flush s = s := by
  unfold handBack
  dsimp only
  split
  · rfl
  · next d hd =>
    refine if_pos (h.resolve_left ?_)
    rw [hd]
    exact Option.some_ne_none _

section
variable {q : Nat} {s s' : State} {d : Desc} {f : Fill} {flush : Bool} (hd : (s.qu q).desc = some d)
    (hkind : (s.quBlock q).u 2 1 ≠ 1) (hst : (s.qu q).st = 1)
    (hfill : fillBuffer (quStores (s.quBlock q)) d.swap d.len (d.len + 1) [] (fillFuel d.len) s {} = (s', f))
include hd hkind hst hfill

theorem handBack_eq : handBack q [] [] flush s = if f.bytes.isEmpty ∨ f.full = flush then s
    else quFetch q (quComplete q 0 0 false f f.bytes.length (s'.sendBuffer (s.qu q).fn d.addr f.bytes)) := by
  have hgo : ¬((s.quBlock q).u 2 1 = 1 ∨ (s.qu q).st ≠ 1) := by
    rw [not_or, not_not]
    exact ⟨hkind, hst⟩
  have hwords : quWords [] (activateAll (16 + q) [] s) = (s, []) := rfl
  unfold handBack
  dsimp only
  rw [hd]
  dsimp only
  rw [if_neg hgo, hwords, hfill]

/-- A buffer that goes back: its bytes are written, and its descriptor is done. -/
theorem handBack_done (hbytes : f.bytes ≠ []) (hfull : f.full ≠ flush) :
    let t := handBack q [] [] flush s
    (∀ w ∈ bufferWrites s d.addr f.bytes, Sent.hostWrite (s.qu q).fn w.1 w.2 ∈ t.sent) ∧ (t.qu q).desc = none ∧ (t.qu q).lastSt = 0 ∧
      (t.qu q).bytes = satAdd 64 (s.qu q).bytes f.bytes.length ∧ (t.qu q).descs = satAdd 64 (s.qu q).descs 1 := by
  have hgo : ¬(f.bytes.isEmpty = true ∨ f.full = flush) := by
    rw [not_or, List.isEmpty_iff]
    exact ⟨hbytes, hfull⟩
  have hrest := fillBuffer_rest (quStores (s.quBlock q)) d.swap d.len (d.len + 1) [] (fillFuel d.len) s {}
  rw [hfill] at hrest
  obtain ⟨hboot, hq⟩ : s'.boot = s.boot ∧ s'.qu q = s.qu q := by
    have hpair := congrArg (fun z : State => (z.boot, z.qu q)) hrest
    exact Prod.mk.inj hpair
  generalize hu : s'.sendBuffer (s.qu q).fn d.addr f.bytes = u
  have hsent : ∀ w ∈ bufferWrites s d.addr f.bytes, Sent.hostWrite (s.qu q).fn w.1 w.2 ∈ u.sent := by
    intro w hw
    rw [← hu, State.sendBuffer_eq]
    refine List.mem_append_right _ (List.mem_map.mpr ⟨w, ?_, rfl⟩)
    unfold bufferWrites at hw ⊢
    rw [hboot]
    exact hw
  have hqu : u.qu q = s.qu q := by
    rw [← hu, State.sendBuffer_eq]
    exact hq
  obtain ⟨-, w, hdone⟩ := quComplete_spec (hqu ▸ hd) 0 0 false f f.bytes.length
  obtain ⟨-, asked, hfetched, -⟩ := quFetch_qu q (quComplete q 0 0 false f f.bytes.length u)
  have hprefix := (quComplete_sent q 0 0 false f f.bytes.length u).trans (quFetch_sent q _)
  intro t
  have ht : t = quFetch q (quComplete q 0 0 false f f.bytes.length u) := by
    rw [← hu]
    exact (handBack_eq hd hkind hst hfill).trans (if_neg hgo)
  rw [ht, hfetched, hdone, hqu]
  exact ⟨fun w hw => hprefix.subset (hsent w hw), rfl, rfl, rfl, rfl⟩

end

/-! ### Loads (R437) -/

section
variable {q : Nat} {s : State} {d : Desc}

theorem loadReadCompletion_idle (h : (s.qu q).desc = none ∨ (s.qu q).st ≠ 1 ∨ ((s.quBlock q).u 2 1 = 1 ∧ (s.qu q).reads = []))
    (r : HostRead) : loadReadCompletion q r s = s := by
  unfold loadReadCompletion
  dsimp only
  split
  · rfl
  · next d hd =>
    by_cases hst : (s.qu q).st ≠ 1
    · exact if_pos hst
    · rw [if_neg hst]
      obtain ⟨hkind, hreads⟩ := (h.resolve_left (by rw [hd]; exact Option.some_ne_none _)).resolve_left hst
      rw [if_neg (by omega), hreads]

variable (hd : (s.qu q).desc = some d) (hst : (s.qu q).st = 1) (hkind : (s.quBlock q).u 2 1 = 1)
include hd hst hkind

theorem loadReadCompletion_data {bs : List Byte} {off : Nat} {rest : List (Nat × Nat)}
    (hreads : (s.qu q).reads = (off, bs.length) :: rest) :
    let n := (s.quBlock q).u 32 2
    let x := s.qu q
    let v := s.setSto n { s.sto n with samples := csetAll sampleDefault (s.sto n).samples (x.sample + off / 2) (samplesOfBytes bs) }
    loadReadCompletion q (.data bs) s =
      if rest.isEmpty && decide (d.len ≤ x.next) then
        issueAll x.fn q (quFetch q (quComplete q 0 0 false {} d.len (v.setQu q { x with sample := x.sample + d.len / 2 })))
      else issueAll x.fn q (v.setQu q { x with reads := rest }) := by
  intro n x v
  unfold loadReadCompletion
  dsimp only
  rw [hd]
  dsimp only
  rw [if_neg (not_not.mpr hst), if_neg (by omega), hreads]
  dsimp only
  rw [if_neg (not_not.mpr rfl)]

theorem loadReadCompletion_fail (hreads : (s.qu q).reads ≠ []) (kind : Nat) (bs : List Byte) (lst : Bool) :
    ∃ (u : State) (x : Queue) (last : Bool) (taken : Nat), loadReadCompletion q (.fail kind bs lst) s = quHalt q 1 kind (quComplete q 1 kind last {} taken (u.setQu q x)) ∧
      x.desc = some d := by
  unfold loadReadCompletion
  dsimp only
  rw [hd]
  dsimp only
  rw [if_neg (not_not.mpr hst), if_neg (by omega)]
  split
  · next hnil => exact absurd hnil hreads
  · exact ⟨_, _, _, _, rfl, rfl⟩

end

/-! ### Drains (R436) -/

theorem fallowRest_pow (mode : Nat) (s : State) : (fallowRest mode s).pow.entering = none ∧
    (fallowRest mode s).pow.fallow = (if mode = 0 then 1 else 2) ∧ (fallowRest mode s).pow.domains = 1 := by
  refine ⟨rfl, ?_, rfl⟩
  have hcold : (fallowRest mode s).pow.fallow = if (mode == 0) = true then 1 else 2 := rfl
  simpa only [beq_iff_eq] using hcold

theorem domainOff_link {d : Nat} (hd : d = 24 ∨ d = 25) (s : State) : domainOff d s = s.powerOff d := by
  rcases hd with rfl | rfl <;> rfl

theorem isUp_powerOff {d : Nat} {s : State} (h : s.isUp d = true) : (s.powerOff d).isUp d = false := by
  have hset : (s.powerOff d).isUp d = (s.pow.domains - 2 ^ d).testBit d := congrArg (fun z : State => z.isUp d) (if_pos h)
  have hbit : s.pow.domains.testBit d = true := h
  have hdiv : (s.pow.domains - 2 ^ d) / 2 ^ d = s.pow.domains / 2 ^ d - 1 := by
    have := Nat.sub_mul_div s.pow.domains (2 ^ d) 1
    rwa [Nat.mul_one] at this
  rw [Nat.testBit_eq_decide_div_mod_eq, decide_eq_true_eq] at hbit
  rw [hset, Nat.testBit_eq_decide_div_mod_eq, hdiv, decide_eq_false_iff_not]
  omega

theorem mem_of_tfind {α : Type} {t : Table α} {k : Nat} {v : α} (h : tfind t k = some v) : (k, v) ∈ t := by
  induction t with
  | nil => exact absurd h (by simp [tfind])
  | cons e t ih =>
    obtain ⟨a, w⟩ := e
    rw [tfind] at h
    split_ifs at h with ha
    · obtain rfl := Option.some.inj h
      exact ha ▸ List.mem_cons_self ..
    · exact List.mem_cons_of_mem _ (ih h)

theorem mem_queuesOn {q : Nat} {s : State} (h : (s.qu q).st ≠ 0) : q ∈ s.queuesOn := by
  have hfind : tfind s.queue q = some (s.qu q) := by
    unfold State.qu tget at h ⊢
    cases hq : tfind s.queue q with
    | none =>
      rw [hq] at h
      exact absurd rfl h
    | some x => rfl
  exact List.mem_map.mpr ⟨(q, s.qu q), List.mem_filter.mpr ⟨mem_of_tfind hfind, by simpa using h⟩, rfl⟩

theorem quStop_qu (q : Nat) (s : State) (left : Bool) :
    (quStop q left s).pow = s.pow ∧ (∀ p, p ≠ q → (quStop q left s).qu p = s.qu p) ∧
      ((s.qu q).st ≠ 0 → (quStop q left s).qu q = { s.qu q with
        st := 3, desc := none, reads := [], next := 0, asked := false, drain := false
        lastSt := if left then 2 else (s.qu q).lastSt }) := by
  unfold quStop
  dsimp only
  by_cases hst : (s.qu q).st = 0
  · rw [if_pos hst]
    exact ⟨rfl, fun _ _ => rfl, fun h => absurd hst h⟩
  · rw [if_neg hst]
    exact ⟨rfl, fun p hp => State.qu_setQu_other _ _ hp, fun _ => State.qu_setQu_self _ _ _⟩

/-- A queue whose descriptor is in flight on the link stops; one without stays as it is (R436). -/
def dropDescriptor (s : State) (q : Nat) : State := if (s.qu q).desc.isSome then quStop q true s else s

theorem abortDrain_link {d : Nat} (hd : d = 24 ∨ d = 25) (s : State) : abortDrain d s = s.queuesOn.foldl dropDescriptor s := by
  have hall : drainers s d = s.queuesOn := by
    unfold drainers
    rcases hd with rfl | rfl <;> simp
  unfold abortDrain
  rw [hall]
  have hf : (fun (s : State) q => if d = 24 ∨ d = 25 then (if (s.qu q).desc.isSome then quStop q true s else s) else quAbort q 2 s) =
      dropDescriptor := by
    funext s q
    exact if_pos hd
  rw [hf]

theorem dropDescriptors_pow (l : List Nat) (s : State) : (l.foldl dropDescriptor s).pow = s.pow := by
  refine foldl_unchanged State.pow (fun u q => ?_) l s
  unfold dropDescriptor
  split_ifs
  · exact (quStop_qu q u true).1
  · rfl

/-- A queue that has stopped so, or has not been reached. -/
theorem dropDescriptors_qu {q : Nat} (l : List Nat) (s : State) (h : (s.qu q).desc.isSome = true) (hst : (s.qu q).st ≠ 0)
    (hq : q ∈ l) :
    ((l.foldl dropDescriptor s).qu q).st = 3 ∧ ((l.foldl dropDescriptor s).qu q).desc = none ∧
      ((l.foldl dropDescriptor s).qu q).lastSt = 2 := by
  have hstay (l : List Nat) (u : State) (hu : (u.qu q).desc = none) : (l.foldl dropDescriptor u).qu q = u.qu q := by
    induction l generalizing u with
    | nil => rfl
    | cons p l ih =>
      have hp : (dropDescriptor u p).qu q = u.qu q := by
        unfold dropDescriptor
        split_ifs with hsome
        · refine (quStop_qu p u true).2.1 q ?_
          rintro rfl
          rw [hu] at hsome
          exact absurd hsome (by decide)
        · rfl
      rw [List.foldl_cons, ih _ (by rw [hp]; exact hu), hp]
  induction l generalizing s with
  | nil => exact absurd hq (List.not_mem_nil)
  | cons p l ih =>
    rw [List.foldl_cons]
    by_cases hp : p = q
    · subst hp
      have hstop : dropDescriptor s p = quStop p true s := if_pos h
      have hqu := (quStop_qu p s true).2.2 hst
      rw [hstop, hstay l _ (by rw [hqu]), hqu]
      exact ⟨rfl, rfl, rfl⟩
    · have hsame : (dropDescriptor s p).qu q = s.qu q := by
        unfold dropDescriptor
        split_ifs
        · exact (quStop_qu p s true).2.1 q (Ne.symm hp)
        · rfl
      refine ih _ (by rw [hsame]; exact h) (by rw [hsame]; exact hst) ?_
      exact (List.mem_cons.mp hq).resolve_left (Ne.symm hp)

theorem drainTimeout_idle {d : Nat} {s : State} (hent : s.pow.entering = none) (h : d < 22 ∨ 25 < d ∨ s.isUp d = false) :
    drainTimeout d s = s := by
  unfold drainTimeout
  rw [hent]
  refine if_pos ?_
  rcases h with h | h | h
  · exact .inl h
  · exact .inr (.inl h)
  · exact .inr (.inr (.inl (by rw [h]; rfl)))

theorem drainTimeout_link {d q : Nat} {s : State} (hent : s.pow.entering = none) (hd : d = 24 ∨ d = 25) (hup : s.isUp d = true)
    (hst : (s.qu q).st ≠ 0) (hdrain : (s.qu q).drain = true) :
    drainTimeout d s = (s.queuesOn.foldl dropDescriptor s).powerOff d := by
  have hany : (drainers s d).any (fun q => (s.qu q).drain) = true := by
    refine List.any_eq_true.mpr ⟨q, List.mem_filter.mpr ⟨mem_queuesOn hst, ?_⟩, hdrain⟩
    rcases hd with rfl | rfl <;> simp
  have hgo : ¬(d < 22 ∨ 25 < d ∨ (!s.isUp d) = true ∨ (!(drainers s d).any fun q => (s.qu q).drain) = true) := by
    rw [hup, hany]
    rcases hd with rfl | rfl <;> decide
  unfold drainTimeout
  rw [hent]
  dsimp only
  rw [if_neg hgo, abortDrain_link hd, domainOff_link hd]

theorem queueAlone_store {q : Nat} {s t : State} (h : QueueAlone q s t) : t.store = s.store := by
  have hstore := congrArg State.store h.1
  exact hstore

/-- Settles O49: by the guard of each row, and by what the completed descriptor leaves. -/
theorem courierEvents : Obligations.CourierEvents := by
  refine fun q s => ⟨fun d h => ?notAsked, fun kind bs lst h => ?fails, fun raw h hok hkind e he => ?taken, fun raw h hbad => ?bad,
    fun rows bad h => ?noBuffer, fun d s' f hd hkind hst hfill => ⟨fun hnil => ?empty, fun hne hfull => ?full, fun hne hpart => ?partly⟩,
    fun h => ?quiet, fun hw hb => ?irq, fun d h => ?noLoad, fun d bs off rest hd hst hkind hreads => ?data,
    fun d kind bs lst hd hst hkind hreads => ?loadFails, fun d mode hent => ?fallow, fun d hent h => ?noDrain,
    fun d hent hd hup hst hdrain hdesc => ?drain⟩
  case notAsked => exact congrArg Host.Outcome.next (descriptorFetch_idle h d)
  case fails =>
    obtain ⟨u, code, hrun, hself, hother⟩ := descriptorFetch_fail h kind bs lst
    obtain ⟨hq, hrest⟩ := quHalt_qu q code kind u
    refine ⟨_, congrArg Host.Outcome.next hrun, ?_⟩
    dsimp only
    rw [hq, hself]
    exact ⟨rfl, rfl, rfl, rfl, fun p hp => (hrest p hp).trans (hother p hp)⟩
  case taken =>
    subst he
    exact congrArg Host.Outcome.next (descriptorFetch_taken h hok hkind)
  case bad =>
    obtain ⟨x, d, hrun, hd, hasked⟩ := descriptorFetch_bad h hbad
    have hqu := State.qu_setQu_self s q x
    obtain ⟨h1, h2, h3, h4, h5⟩ := quBad_qu (q := q) (s := s.setQu q x) (d := d) (by rw [hqu]; exact hd)
    refine ⟨_, congrArg Host.Outcome.next hrun, h1, h2, h3, ?_, fun p hp => (h5 p hp).trans (State.qu_setQu_other _ _ hp)⟩
    rw [h4, hqu, hasked]
  case noBuffer =>
    exact ⟨congrArg Host.Outcome.next (handBack_idle h rows bad false), congrArg Host.Outcome.next (handBack_idle h [] [] true)⟩
  case empty =>
    have hif : f.bytes.isEmpty = true := List.isEmpty_iff.mpr hnil
    exact ⟨congrArg Host.Outcome.next ((handBack_eq hd hkind hst hfill).trans (if_pos (.inl hif))),
      congrArg Host.Outcome.next ((handBack_eq hd hkind hst hfill).trans (if_pos (.inl hif)))⟩
  case full =>
    refine ⟨congrArg Host.Outcome.next ((handBack_eq hd hkind hst hfill).trans (if_pos (.inr hfull))), _, rfl, ?_⟩
    exact handBack_done hd hkind hst hfill hne (by rw [hfull]; decide)
  case partly =>
    refine ⟨congrArg Host.Outcome.next ((handBack_eq hd hkind hst hfill).trans (if_pos (.inr hpart))), _, rfl, ?_⟩
    exact handBack_done hd hkind hst hfill hne (by rw [hpart]; decide)
  case quiet =>
    refine congrArg Host.Outcome.next (if_neg ?_)
    rcases h with h | h
    · simp only [h, bne_self_eq_false, Bool.false_and, Bool.false_eq_true, not_false_eq_true]
    · simp only [h, bne_self_eq_false, Bool.and_false, Bool.false_eq_true, not_false_eq_true]
  case irq =>
    refine congrArg Host.Outcome.next (if_pos ?_)
    simp [hw, hb]
  case noLoad => exact congrArg Host.Outcome.next (loadReadCompletion_idle h d)
  case data =>
    have hrun := loadReadCompletion_data hd hst hkind hreads
    dsimp only at hrun
    generalize hv : s.setSto ((s.quBlock q).u 32 2) _ = v at hrun
    have hsamples : (v.sto ((s.quBlock q).u 32 2)).samples = csetAll sampleDefault (s.sto ((s.quBlock q).u 32 2)).samples
        ((s.qu q).sample + off / 2) (samplesOfBytes bs) := by
      rw [← hv]
      exact congrArg Store.samples (State.sto_setSto_self s _ _)
    have hsto {t : State} (ht : t.store = v.store) : (t.sto ((s.quBlock q).u 32 2)).samples =
        csetAll sampleDefault (s.sto ((s.quBlock q).u 32 2)).samples ((s.qu q).sample + off / 2) (samplesOfBytes bs) :=
      (congrArg (fun z => (tget ({} : Store) z ((s.quBlock q).u 32 2)).samples) ht).trans hsamples
    by_cases hlast : rest = [] ∧ d.len ≤ (s.qu q).next
    · have hif : (rest.isEmpty && decide (d.len ≤ (s.qu q).next)) = true := by simpa using hlast
      rw [if_pos hif] at hrun
      generalize hy : ({ s.qu q with sample := (s.qu q).sample + d.len / 2 } : Queue) = y at hrun
      have hqu := State.qu_setQu_self v q y
      obtain ⟨hrest, w, hdone⟩ := quComplete_spec (q := q) (s := v.setQu q y) (d := d) (by rw [hqu, ← hy]; exact hd) 0 0 false {} d.len
      obtain ⟨hrest', asked, hfetched, -⟩ := quFetch_qu q (quComplete q 0 0 false {} d.len (v.setQu q y))
      obtain ⟨hstore, hsettled⟩ := issueAll_settled (s.qu q).fn q (quFetch q (quComplete q 0 0 false {} d.len (v.setQu q y)))
      have hstore' := hstore.trans ((queueAlone_store hrest').trans (queueAlone_store hrest))
      obtain ⟨hdesc, hsample, hlastSt, hbytes⟩ := Queue.fields_of_settled (hsettled q)
      rw [hfetched, hdone, hqu] at hdesc hsample hlastSt hbytes
      refine ⟨_, congrArg Host.Outcome.next hrun, hsto hstore', fun _ _ => ⟨hdesc, ?_, hlastSt, ?_⟩, fun h => ?_⟩
      · exact hsample.trans (congrArg Queue.sample hy).symm
      · exact hbytes.trans (congrArg (fun z : Queue => satAdd 64 z.bytes d.len) hy).symm
      · rcases h with h | h
        · exact absurd hlast.1 h
        · omega
    · have hif : ¬(rest.isEmpty && decide (d.len ≤ (s.qu q).next)) = true := by simpa using hlast
      rw [if_neg hif] at hrun
      obtain ⟨hstore, hsettled⟩ := issueAll_settled (s.qu q).fn q (v.setQu q { s.qu q with reads := rest })
      obtain ⟨hdesc, hsample, -, hbytes⟩ := Queue.fields_of_settled (hsettled q)
      rw [State.qu_setQu_self] at hdesc hsample hbytes
      exact ⟨_, congrArg Host.Outcome.next hrun, hsto hstore, fun h1 h2 => absurd ⟨h1, h2⟩ hlast, fun _ =>
        ⟨hdesc.trans hd, hsample, hbytes⟩⟩
  case loadFails =>
    obtain ⟨u, x, last, taken, hrun, hx⟩ := loadReadCompletion_fail hd hst hkind hreads kind bs lst
    have hqu := State.qu_setQu_self u q x
    obtain ⟨-, w, hdone⟩ := quComplete_spec (q := q) (s := u.setQu q x) (d := d) (by rw [hqu]; exact hx) 1 kind last {} taken
    obtain ⟨hq, -⟩ := quHalt_qu q 1 kind (quComplete q 1 kind last {} taken (u.setQu q x))
    refine ⟨_, congrArg Host.Outcome.next hrun, ?_⟩
    dsimp only
    rw [hq, hdone]
    exact ⟨rfl, rfl, rfl⟩
  case fallow =>
    have hrun : drainTimeout d s = fallowNow mode s := by
      unfold drainTimeout
      rw [hent]
    obtain ⟨h1, h2, h3⟩ := fallowRest_pow mode ([22, 23, 24, 25].foldl (fun s d => abortDrain d s) s)
    exact ⟨_, congrArg Host.Outcome.next hrun, h1, h2, h3⟩
  case noDrain => exact congrArg Host.Outcome.next (drainTimeout_idle hent h)
  case drain =>
    have hrun := drainTimeout_link hent hd hup hst hdrain
    obtain ⟨h1, h2, h3⟩ := dropDescriptors_qu s.queuesOn s hdesc hst (mem_queuesOn hst)
    have hpow := dropDescriptors_pow s.queuesOn s
    have hqu (u : State) : (u.powerOff d).qu q = u.qu q := by
      unfold State.powerOff
      split_ifs <;> rfl
    refine ⟨_, congrArg Host.Outcome.next hrun, isUp_powerOff ?_, ?_⟩
    · unfold State.isUp
      rw [hpow]
      exact hup
    · rw [hqu]
      exact ⟨h1, h2, h3⟩

end Sys2Proof.Machine
end

section
/-! PROOF. The archive: chunks, completions and the health of its drives (R443 to R449). -/
namespace Sys2Proof.Machine

/-! ### Events leave what has been sent before them -/

theorem State.post_sent (s : State) (code : Nat) (l : List (Nat × Nat)) (fn : Nat) : s.sent <+: (s.post code l fn).sent := by
  have hflush (fn : Nat) : s.sent <+: (s.flushLost fn).sent := by
    unfold State.flushLost
    dsimp only
    split_ifs
    · exact State.writeEvent_sent (s.setMb fn _) _
    · exact List.prefix_refl _
  have hdeliver (e : Held) : s.sent <+: (s.deliverEvent e).sent := by
    refine (hflush e.fn).trans ?_
    unfold State.deliverEvent
    dsimp only
    split_ifs
    · exact State.writeEvent_sent _ e
    · exact List.prefix_refl _
  unfold State.post State.postTo
  split_ifs
  · exact List.prefix_refl _
  · exact List.prefix_refl _
  · exact hdeliver _

/-! ### Drives and chunks -/

@[simp] theorem State.drv_setDrv_self (s : State) (d : Nat) (x : Drive) : (s.setDrv d x).drv d = x := tget_tset_self _ _ _ _

theorem State.drv_setDrv_other (s : State) {d e : Nat} (x : Drive) (h : e ≠ d) : (s.setDrv d x).drv e = s.drv e :=
  tget_tset_other _ _ _ _ _ (Ne.symm h)

theorem fillChunk_rest (ns : List Nat) (fixed : List (Nat × Nat)) (k : Nat) (s : State) (f : Filling) :
    { (fillChunk ns fixed k s f).1 with store := s.store, free := s.free } = s := by
  suffices h : ∀ S n, ({ (fillChunk ns fixed k s f).1 with store := S, free := n } : State) =
      { s with store := S, free := n } from h s.store s.free
  intro S n
  have hset (u : State) (i : Nat) (x : Store) : ({ u.setSto i x with store := S, free := n } : State) = { u with store := S, free := n } := by
    have hrest := congrArg (fun z : State => { z with store := S, free := n }) (u.setSto_rest i x)
    exact hrest
  induction k generalizing s f with
  | zero => rfl
  | succ k ih =>
    rw [fillChunk]
    by_cases hfull : chunkRoom ≤ f.bytes.length
    · rw [if_pos hfull]
    · rw [if_neg hfull]
      dsimp only
      generalize hdr : @ite (Nat × State) (_ ≤ 1) (Nat.decLe _ _) (0, s) s.freeNat = draw
      have hdraw : ({ draw.2 with store := S, free := n } : State) = { s with store := S, free := n } := by
        rw [← hdr]
        split_ifs <;> rfl
      split
      · exact hdraw
      · split
        · exact hdraw
        · exact (ih _ _).trans ((hset _ _ _).trans hdraw)

/-- An archive that is full stops, and tells of it (R448). -/
theorem arcFull_spec (s : State) : s.sent <+: (arcFull s).sent ∧ (arcFull s).archive.next = s.archive.next ∧
    (arcFull s).archive.flying = s.archive.flying := by
  unfold arcFull
  split_ifs
  · extract_lets u
    have hflush (l : List Nat) (v : State) : v.sent <+: (l.foldl (fun s d => if (s.drv d).failed then s else s.send (.nvmeFlush d)) v).sent := by
      induction l generalizing v with
      | nil => exact List.prefix_refl _
      | cons d l ih =>
        refine List.IsPrefix.trans ?_ (ih _)
        dsimp only
        split_ifs
        · exact List.prefix_refl _
        · exact List.prefix_append _ _
    have harc : u.archive = s.archive := by
      refine foldl_unchanged State.archive (fun v d => ?_) _ s
      split_ifs <;> rfl
    have hsent : s.sent <+: u.sent := hflush _ s
    clear_value u
    have hpost := State.post_sent ({ u with archive := { u.archive with st := 2 } } : State) evArchiveFull [(8, u.archive.next)] 0
    have hkeep := (State.post_notes ({ u with archive := { u.archive with st := 2 } } : State) evArchiveFull
      [(8, u.archive.next)] 0).field State.archive fun _ _ _ _ => rfl
    refine ⟨hsent.trans hpost, ?_, ?_⟩
    · have hnext : u.archive.next = s.archive.next := congrArg Archive.next harc
      exact (congrArg Archive.next hkeep).trans hnext
    · have hflying : u.archive.flying = s.archive.flying := congrArg Archive.flying harc
      exact (congrArg Archive.flying hkeep).trans hflying
  · exact ⟨List.prefix_refl _, rfl, rfl⟩

/-! ### Writing a chunk (R445, R446) -/

theorem writeChunk_off {s : State} (h : s.archive.st ≠ 1) (rows : List (Nat × Nat)) (bad : List BadWord) (flush : Bool) :
    writeChunk rows bad flush s = s := if_pos h

section
variable {s s' : State} {f : Filling} {flush : Bool} (hst : s.archive.st = 1) (hrest : s.archive.rest = []) (hlost : s.archive.lost = [])
    (hroom : s.archive.flying.length ≤ Config.archiveStaging)
    (hfill : fillChunk (arcStores s.arcBlock) [] (chunkRoom / 64 + 1) s {} = (s', f))
include hst hrest hlost hroom hfill

theorem writeChunk_eq :
    let c := nextChunk s (s.arcD + 1) s.archive.next
    let d := c % s.arcD
    let bytes := chunkBytes s c f.first f.bytes
    let x : Chunk := { drive := d, num := c, bytes := bytes, recs := f.recs }
    writeChunk [] [] flush s =
      if f.bytes.isEmpty ∨ (decide (chunkRoom ≤ f.bytes.length)) = flush ∨ (s.drv d).failed then s
      else arcFull (({ s' with archive := { s'.archive with
        next := c + 1, rest := f.rest, lost := [], flying := s'.archive.flying ++ [x] } } : State).send
          (.nvmeWrite d (s.chunkLba c) c bytes)) := by
  intro c d bytes x
  have hfull : ¬stagingFull s.archive = true := by
    unfold stagingFull
    rw [decide_eq_true_iff]
    exact Nat.not_lt.mpr hroom
  have hwords : quWords [] (activateAll 80 [] s) = (s, []) := rfl
  have hnone : lostLacunae s.cad [] = [] := rfl
  unfold writeChunk
  dsimp only
  rw [if_neg (not_not.mpr hst), hwords]
  dsimp only
  rw [if_neg hfull, hrest, hlost, hnone]
  simp only [List.filter_nil, List.foldl_nil, hfill]
  rfl

end

/-- A chunk that is written: its number, the write, and what is in flight. -/
theorem writeChunk_writes {s s' : State} {f : Filling} {flush : Bool} (hst : s.archive.st = 1) (hrest : s.archive.rest = [])
    (hlost : s.archive.lost = []) (hroom : s.archive.flying.length ≤ Config.archiveStaging)
    (hfill : fillChunk (arcStores s.arcBlock) [] (chunkRoom / 64 + 1) s {} = (s', f)) (hbytes : f.bytes ≠ [])
    (hdrive : (s.drv (nextChunk s (s.arcD + 1) s.archive.next % s.arcD)).failed = false)
    (hflush : decide (chunkRoom ≤ f.bytes.length) ≠ flush) :
    let num := nextChunk s (s.arcD + 1) s.archive.next
    let t := writeChunk [] [] flush s
    t.archive.next = num + 1 ∧ ∃ y ∈ t.archive.flying, y.num = num ∧ y.drive = num % s.arcD ∧ y.again = false ∧
      .nvmeWrite (num % s.arcD) (s.chunkLba num) num y.bytes ∈ t.sent := by
  intro num t
  have hgo : ¬(f.bytes.isEmpty = true ∨ decide (chunkRoom ≤ f.bytes.length) = flush ∨ (s.drv (num % s.arcD)).failed = true) := by
    rw [not_or, not_or, List.isEmpty_iff]
    exact ⟨hbytes, hflush, by rw [hdrive]; decide⟩
  have ht : t = _ := (writeChunk_eq hst hrest hlost hroom hfill).trans (if_neg hgo)
  obtain ⟨hsent, hnext, hflying⟩ := arcFull_spec (({ s' with archive := { s'.archive with
    next := num + 1, rest := f.rest, lost := []
    flying := s'.archive.flying ++ [{ drive := num % s.arcD, num := num, bytes := chunkBytes s num f.first f.bytes, recs := f.recs }] } } : State).send
      (.nvmeWrite (num % s.arcD) (s.chunkLba num) num (chunkBytes s num f.first f.bytes)))
  rw [ht]
  refine ⟨hnext, { drive := num % s.arcD, num := num, bytes := chunkBytes s num f.first f.bytes, recs := f.recs }, ?_, rfl, rfl, rfl, ?_⟩
  · rw [hflying]
    exact List.mem_append_right _ (List.mem_singleton.mpr rfl)
  · exact hsent.subset (List.mem_append_right _ (List.mem_singleton.mpr rfl))

/-! ### Completions and retries (R447) -/

section
variable {d c : Nat} {s : State}

theorem writeFails_of_none (h : ∀ y ∈ s.archive.flying, ¬(y.drive = d ∧ y.num = c)) (status : Nat) : writeFails d c status s = s := by
  have hnone : (s.archive.flying.find? fun x => x.drive == d && x.num == c) = none := by
    rw [List.find?_eq_none]
    intro y hy
    simpa using h y hy
  unfold writeFails
  rw [hnone]

theorem writeCompletion_of_none (h : ∀ y ∈ s.archive.flying, ¬(y.drive = d ∧ y.num = c)) (status : Nat) :
    writeCompletion d c status s = s := by
  unfold writeCompletion
  split_ifs with hst hany
  · exact writeFails_of_none h status
  · obtain ⟨y, hy, hdc⟩ := List.any_eq_true.mp hany
    exact absurd (by simpa using hdc) (h y hy)
  · rfl

theorem writeCompletion_counts (h : ∃ y ∈ s.archive.flying, y.drive = d ∧ y.num = c) :
    let t := writeCompletion d c 0 s
    (∀ y, y ∈ t.archive.flying ↔ y ∈ s.archive.flying ∧ ¬(y.drive = d ∧ y.num = c)) ∧
      (t.drv d).chunks = satAdd 64 (s.drv d).chunks 1 ∧ (∀ e, e ≠ d → t.drv e = s.drv e) ∧ t.sent = s.sent := by
  have hany : (s.archive.flying.any fun x => x.drive == d && x.num == c) = true := by
    obtain ⟨y, hy, hdc⟩ := h
    exact List.any_eq_true.mpr ⟨y, hy, by simpa using hdc⟩
  have hrun : writeCompletion d c 0 s = _ := (if_neg (not_not.mpr rfl)).trans (if_pos hany)
  rw [hrun]
  refine ⟨fun y => ?_, ?_, fun e he => State.drv_setDrv_other _ _ he, rfl⟩
  · refine (List.mem_filter (p := fun x : Chunk => !(x.drive == d && x.num == c)) (as := s.archive.flying) (x := y)).trans ?_
    rw [Bool.not_eq_true', Bool.and_eq_false_iff, beq_eq_false_iff_ne, beq_eq_false_iff_ne, not_and_or]
  · exact congrArg Drive.chunks (State.drv_setDrv_self _ _ _)

theorem writeFails_retries {y : Chunk} (h : s.archive.flying.find? (fun y => y.drive == d && y.num == c) = some y) (hagain : y.again = false)
    (status : Nat) :
    let t := writeFails d c status s
    (t.drv d).retries = satAdd 32 (s.drv d).retries 1 ∧ (t.drv d).failed = (s.drv d).failed ∧
      t.sent = s.sent ++ [.nvmeWrite d (s.chunkLba c) c y.bytes] := by
  have hnot : ¬y.again = true := by rw [hagain]; decide
  unfold writeFails
  rw [h]
  dsimp only
  rw [if_neg hnot]
  have hcount (u : State) (e : Sent) (hdrv : u.drv d = s.drv d) (hsent : u.sent = s.sent) :
      let t := (u.setDrv d { u.drv d with retries := satAdd 32 (u.drv d).retries 1 }).send e
      (t.drv d).retries = satAdd 32 (s.drv d).retries 1 ∧ (t.drv d).failed = (s.drv d).failed ∧ t.sent = s.sent ++ [e] := by
    have hself := u.drv_setDrv_self d { u.drv d with retries := satAdd 32 (u.drv d).retries 1 }
    rw [hdrv] at hself ⊢
    have hretries := congrArg Drive.retries hself
    have hfailed := congrArg Drive.failed hself
    exact ⟨hretries, hfailed, congrArg (· ++ [e]) hsent⟩
  exact hcount _ _ rfl rfl

/-- What a drive reports of itself (R449). -/
def Drive.reported (x : Drive) (warn pct spare temp units media : Nat) : Drive :=
  { x with warn := warn, pct := pct, spare := spare, temp := temp, units := units, media := media,
           warned := x.warned || (decide (90 ≤ pct) || warn != 0) }

theorem smartRead_tells (hst : s.archive.st ≠ 0) (hd : d < s.arcD) (warn pct spare temp units media : Nat) :
    let t := smartRead d warn pct spare temp units media s
    t.drv d = (s.drv d).reported warn pct spare temp units media ∧ (∀ e, e ≠ d → t.drv e = s.drv e) ∧
      Notes { s with archive := t.archive } t ∧ ((s.drv d).warned = true ∨ (pct < 90 ∧ warn = 0) → t.sent = s.sent) := by
  have hgo : ¬(s.archive.st = 0 ∨ s.arcD ≤ d) := by
    rw [not_or, Nat.not_le]
    exact ⟨hst, hd⟩
  have hrun : smartRead d warn pct spare temp units media s =
      if (decide (90 ≤ pct) || warn != 0) && !(s.drv d).warned then
        (s.setDrv d ((s.drv d).reported warn pct spare temp units media)).post evDriveWarn [(1, d), (1, warn), (1, pct)]
      else s.setDrv d ((s.drv d).reported warn pct spare temp units media) := if_neg hgo
  have hother (e : Nat) (he : e ≠ d) := State.drv_setDrv_other s ((s.drv d).reported warn pct spare temp units media) he
  have hself := State.drv_setDrv_self s d ((s.drv d).reported warn pct spare temp units media)
  have hnotes : ({ s with archive := (s.setDrv d ((s.drv d).reported warn pct spare temp units media)).archive } : State) =
      s.setDrv d ((s.drv d).reported warn pct spare temp units media) := rfl
  have hquiet : (s.setDrv d ((s.drv d).reported warn pct spare temp units media)).sent = s.sent := rfl
  dsimp only
  rw [hrun]
  generalize s.setDrv d ((s.drv d).reported warn pct spare temp units media) = u at hother hself hnotes hquiet
  split_ifs with hwarn
  · have hpost := u.post_notes evDriveWarn [(1, d), (1, warn), (1, pct)] 0
    have harc := hpost.field State.archive fun _ _ _ _ => rfl
    have hdrv (e : Nat) : (u.post evDriveWarn [(1, d), (1, warn), (1, pct)]).drv e = u.drv e :=
      congrArg (fun a : Archive => tget ({} : Drive) a.drives e) harc
    refine ⟨(hdrv d).trans hself, fun e he => (hdrv e).trans (hother e he), ?_, fun h => ?_⟩
    · rw [harc]
      rw [hnotes]
      exact hpost
    · rw [Bool.and_eq_true, Bool.or_eq_true, decide_eq_true_iff, bne_iff_ne, Bool.not_eq_true'] at hwarn
      rcases h with h | ⟨hpct, hw⟩
      · rw [h] at hwarn
        exact absurd hwarn.2 (by decide)
      · omega
  · refine ⟨hself, hother, ?_, fun _ => hquiet⟩
    rw [hnotes]

end

/-- Settles O50: what fills the chunk, and where it goes, decide. -/
theorem archiveEvents : Obligations.ArchiveEvents := by
  refine fun d c status s => ⟨fun rows bad h => ?off, fun s' f hst hrest hlost hroom hfill => ⟨fun h => ?nothing, fun hbytes hdrive cmd hcmd =>
    ?writes⟩, fun h => ?unknown, fun h => ?completes, fun y hy hagain => ⟨fun hstatus => ?retry, ?timeout⟩,
    fun warn pct spare temp units media => ⟨fun h => ?noDrive, fun hst hd => ?smart⟩⟩
  case off =>
    exact ⟨congrArg Host.Outcome.next (writeChunk_off h rows bad false), congrArg Host.Outcome.next (writeChunk_off h [] [] true)⟩
  case nothing =>
    have hif (flush : Bool) : f.bytes.isEmpty = true ∨ decide (chunkRoom ≤ f.bytes.length) = flush ∨
        (s.drv (nextChunk s (s.arcD + 1) s.archive.next % s.arcD)).failed = true := by
      rcases h with h | h
      · exact .inl (List.isEmpty_iff.mpr h)
      · exact .inr (.inr h)
    exact ⟨congrArg Host.Outcome.next ((writeChunk_eq hst hrest hlost hroom hfill).trans (if_pos (hif false))),
      congrArg Host.Outcome.next ((writeChunk_eq hst hrest hlost hroom hfill).trans (if_pos (hif true)))⟩
  case writes =>
    subst hcmd
    by_cases hfull : chunkRoom ≤ f.bytes.length
    · rw [if_pos hfull]
      exact ⟨_, rfl, writeChunk_writes hst hrest hlost hroom hfill hbytes hdrive (by rw [decide_eq_true hfull]; decide)⟩
    · rw [if_neg hfull]
      exact ⟨_, rfl, writeChunk_writes hst hrest hlost hroom hfill hbytes hdrive (by rw [decide_eq_false hfull]; decide)⟩
  case unknown =>
    exact ⟨congrArg Host.Outcome.next (writeCompletion_of_none h 0), fun _ => congrArg Host.Outcome.next (writeCompletion_of_none h status)⟩
  case completes => exact ⟨_, rfl, writeCompletion_counts h⟩
  case retry =>
    exact ⟨_, congrArg Host.Outcome.next (if_pos hstatus), writeFails_retries hy hagain status⟩
  case timeout => exact ⟨_, rfl, writeFails_retries (s := s.freeNat.2) hy hagain (s.freeNat.1 % 65536)⟩
  case noDrive => exact congrArg Host.Outcome.next (if_pos h)
  case smart =>
    obtain ⟨hself, hother, hnotes, hquiet⟩ := smartRead_tells hst hd warn pct spare temp units media
    refine ⟨_, rfl, hself.trans ?_, hother, hnotes, hquiet⟩
    rw [Drive.reported, ← Bool.or_assoc]

end Sys2Proof.Machine
end

section
/-! PROOF. Resets of a function, of the link and of the device, and a link that retrains (R422, R450, R573). -/
namespace Sys2Proof.Machine

/-! ### Queues that stop -/

/-- A queue that has stopped and serves no descriptor (R422). -/
def Queue.Stopped (x : Queue) : Prop := x.st = 3 ∧ x.desc = none

theorem quStop_rest (q : Nat) (left : Bool) (s : State) : ({ quStop q left s with queue := s.queue } : State) = s := by
  unfold quStop
  dsimp only
  split_ifs <;> rfl

theorem quStop_stopped {q p : Nat} {left : Bool} {s : State} (h : (s.qu q).Stopped) : ((quStop p left s).qu q).Stopped := by
  by_cases hp : q = p
  · subst hp
    have hst : (s.qu q).st ≠ 0 := by rw [h.1]; decide
    rw [(quStop_qu q s left).2.2 hst]
    exact ⟨rfl, rfl⟩
  · rw [(quStop_qu p s left).2.1 q hp]
    exact h

section
variable (left : Bool) (l : List Nat) (s : State)

theorem quStops_rest : ({ l.foldl (fun s q => quStop q left s) s with queue := s.queue } : State) = s := by
  suffices h : ∀ Q, ({ l.foldl (fun s q => quStop q left s) s with queue := Q } : State) = { s with queue := Q } from h s.queue
  intro Q
  induction l generalizing s with
  | nil => rfl
  | cons q l ih =>
    have hone := congrArg (fun z : State => { z with queue := Q }) (quStop_rest q left s)
    exact (ih _).trans hone

theorem quStops_other {q : Nat} (h : q ∉ l) : (l.foldl (fun s q => quStop q left s) s).qu q = s.qu q := by
  induction l generalizing s with
  | nil => rfl
  | cons p l ih =>
    exact (ih _ (List.not_mem_of_not_mem_cons h)).trans ((quStop_qu p s left).2.1 q (List.ne_of_not_mem_cons h))

theorem quStops_stopped {q : Nat} (h : (s.qu q).Stopped ∨ (q ∈ l ∧ (s.qu q).st ≠ 0)) :
    ((l.foldl (fun s q => quStop q left s) s).qu q).Stopped := by
  induction l generalizing s with
  | nil => exact h.resolve_right fun h => List.not_mem_nil h.1
  | cons p l ih =>
    refine ih _ ?_
    rcases h with h | ⟨hq, hst⟩
    · exact .inl (quStop_stopped h)
    · by_cases hp : q = p
      · subst hp
        refine .inl ?_
        rw [(quStop_qu q s left).2.2 hst]
        exact ⟨rfl, rfl⟩
      · refine .inr ⟨(List.mem_cons.mp hq).resolve_left hp, ?_⟩
        rw [(quStop_qu p s left).2.1 q hp]
        exact hst

end

/-! ### Resets of the link -/

/-- Every queue that is enabled stops, the archive is disabled, and nothing else changes (R422). -/
theorem couriersStop_spec (left : Bool) (s : State) :
    let t := couriersStop left s
    (∀ q, (s.qu q).st ≠ 0 → (t.qu q).Stopped) ∧ t.archive = { s.archive with st := 0, flying := [] } ∧
      t = { s with queue := t.queue, archive := t.archive } := by
  have hrest := quStops_rest left s.queuesOn s
  have hstop (q : Nat) (hq : (s.qu q).st ≠ 0) := quStops_stopped left s.queuesOn s (.inr ⟨mem_queuesOn hq, hq⟩)
  unfold couriersStop
  generalize s.queuesOn.foldl (fun s q => quStop q left s) s = u at hrest hstop
  have harc := congrArg State.archive hrest
  refine ⟨hstop, congrArg (fun a : Archive => { a with st := 0, flying := [] }) harc, ?_⟩
  have hall := congrArg (fun z : State => { z with queue := u.queue, archive := (arcStop u).archive }) hrest
  exact hall

/-! ### Function-level reset (R422, R483) -/

section
variable {fn : Nat} {s u : State} (hqueue : ({ u with queue := s.queue } : State) = s)
include hqueue

theorem queuesStopped_fields : u.cur = s.cur ∧ u.health = s.health ∧ u.boot = s.boot := by
  have hcur := congrArg State.cur hqueue
  have hhealth := congrArg State.health hqueue
  have hboot := congrArg State.boot hqueue
  exact ⟨hcur, hhealth, hboot⟩

/-- What a reset of the function discards besides its queues. -/
theorem discard_after_stop :
    let t := (discardStaged fn u).postAll evStageDiscarded [(1, 0)]
    t.queue = u.queue ∧ t.cur.staged = s.cur.staged.filter (·.fn != fn) ∧ t.cur.committed = s.cur.committed ∧
      t.cur.pending = s.cur.pending ∧ t.health = s.health := by
  obtain ⟨hcur, hhealth, hboot⟩ := queuesStopped_fields hqueue
  have hnotes := (discardStaged fn u).postAll_notes evStageDiscarded [(1, 0)]
  have hdiscard := discardStaged_eq fn u
  rw [hcur] at hdiscard
  generalize discardStaged fn u = x at hnotes hdiscard
  have hxcur := congrArg State.cur hdiscard
  have hxqueue := congrArg State.queue hdiscard
  have hxhealth := congrArg State.health hdiscard
  refine ⟨(hnotes.field State.queue fun _ _ _ _ => rfl).trans hxqueue, ?_, ?_, ?_,
    ((hnotes.field State.health fun _ _ _ _ => rfl).trans hxhealth).trans hhealth⟩
  · exact (hnotes.field (·.cur.staged) fun _ _ _ _ => rfl).trans (congrArg Cur.staged hxcur)
  · have hcommitted := congrArg Cur.committed hxcur
    exact (hnotes.field (·.cur.committed) fun _ _ _ _ => rfl).trans hcommitted
  · have hpending := congrArg Cur.pending hxcur
    exact (hnotes.field (·.cur.pending) fun _ _ _ _ => rfl).trans hpending

end

theorem functionLevelReset_spec {fn : Nat} {s : State} (t : Nat) (h : fn ≤ s.boot.numVfs) :
    let t' := functionLevelReset fn t s
    (∀ q, (s.qu q).st ≠ 0 → (s.qu q).fn = fn → (t'.qu q).Stopped) ∧ (∀ q, (s.qu q).fn ≠ fn → t'.qu q = s.qu q) ∧
      (s.boot.st = 1 → t'.cur.staged = s.cur.staged.filter (·.fn != fn)) ∧ t'.cur.committed = s.cur.committed ∧
      t'.cur.pending = s.cur.pending ∧ t'.health = s.health := by
  intro t'
  let own := (s.tick t).queuesOn.filter fun q => ((s.tick t).qu q).fn == fn
  have hrest := quStops_rest false own (s.tick t)
  have hstop (q : Nat) (hst : (s.qu q).st ≠ 0) (hfn : (s.qu q).fn = fn) :=
    quStops_stopped false own (s.tick t) (q := q) (.inr ⟨List.mem_filter.mpr ⟨mem_queuesOn (s := s.tick t) hst, beq_iff_eq.mpr hfn⟩, hst⟩)
  have hother (q : Nat) (hfn : (s.qu q).fn ≠ fn) := quStops_other false own (s.tick t) (q := q) fun hq =>
    hfn (beq_iff_eq.mp (List.mem_filter.mp hq).2)
  have hrun : t' = _ := if_neg (Nat.not_lt.mpr h)
  generalize own.foldl (fun s q => quStop q false s) (s.tick t) = u at hrest hstop hother hrun
  obtain ⟨hcur, hhealth, hboot⟩ := queuesStopped_fields hrest
  have hst : u.boot.st = s.boot.st := congrArg Boot.st hboot
  have hrun : t' = if u.boot.st = 0 ∨ u.boot.st = 4 then u else (discardStaged fn u).postAll evStageDiscarded [(1, 0)] := hrun
  clear_value t'
  subst hrun
  rw [hst]
  split_ifs with hoff
  · exact ⟨hstop, hother, fun hone => by omega, congrArg Cur.committed hcur, congrArg Cur.pending hcur, hhealth⟩
  · obtain ⟨hqueue, hstaged, hcommitted, hpending, hkeep⟩ := discard_after_stop (fn := fn) hrest
    have hqu (q : Nat) : ((discardStaged fn u).postAll evStageDiscarded [(1, 0)]).qu q = u.qu q :=
      congrArg (fun Q => tget ({} : Queue) Q q) hqueue
    exact ⟨fun q hq hfn => by rw [hqu]; exact hstop q hq hfn, fun q hfn => (hqu q).trans (hother q hfn), fun _ => hstaged, hcommitted,
      hpending, hkeep⟩

/-! ### PERST# (R573) -/

section
variable {s : State} (t : Nat)

theorem perst_unchanged : perst s.boot.perst t s = s.tick t := if_pos rfl

theorem perst_link (hstrap : s.boot.strapPerst = false) (hlow : s.boot.perst = false) :
    perst true t s = couriersStop false ((s.tick t).setBoot { s.boot with perst := true }) := by
  have hne : ¬(true : Bool) = (s.tick t).boot.perst := fun h => absurd (h.trans hlow) (by decide)
  have hcold : ¬s.boot.strapPerst = true := by rw [hstrap]; decide
  exact (if_neg hne).trans ((if_neg hcold).trans (if_pos rfl))

theorem perst_ends (hstrap : s.boot.strapPerst = false) (hhigh : s.boot.perst = true) :
    perst false t s = if s.pow.fallow ≠ 0 then
      { s.tick t with boot := { s.boot with perst := false }, pow := { s.pow with rung := true } }
    else (s.tick t).setBoot { s.boot with perst := false } := by
  have hne : ¬(false : Bool) = (s.tick t).boot.perst := fun h => absurd (h.trans hhigh) (by decide)
  have hcold : ¬s.boot.strapPerst = true := by rw [hstrap]; decide
  exact (if_neg hne).trans ((if_neg hcold).trans (if_neg (by decide)))

theorem perst_cold (hstrap : s.boot.strapPerst = true) (hlow : s.boot.perst = false) :
    perst true t s = afterCold ((s.tick t).setBoot { s.boot with perst := true, supplies := false }) := by
  have hne : ¬(true : Bool) = (s.tick t).boot.perst := fun h => absurd (h.trans hlow) (by decide)
  exact (if_neg hne).trans ((if_pos hstrap).trans (if_pos rfl))

end

/-- Settles O51: each reset is a fold that stops queues, and what a function loses besides. -/
theorem linkEvents : Obligations.LinkEvents := by
  refine fun fn t s => ⟨fun h => congrArg Host.Outcome.next (if_pos h), fun h => ?flr, ?hot, fun rate width hr hw => ?retrained,
    congrArg Host.Outcome.next (perst_unchanged t), fun p hp hstrap => ⟨fun htrue => ?low, fun hfalse hrun => ?high, fun hfalse hfallow => ?rung⟩,
    fun hstrap hlow => ?cold⟩
  case flr =>
    obtain ⟨hstop, hother, hstaged, hcommitted, hpending, hhealth⟩ := functionLevelReset_spec t h
    refine ⟨_, rfl, hstop, hother, fun hst x => ?_, hcommitted, hpending, hhealth⟩
    rw [hstaged hst, List.mem_filter, bne_iff_ne]
  case hot =>
    obtain ⟨hstop, harc, hrest⟩ := couriersStop_spec false (s.tick t)
    exact ⟨_, rfl, hstop, harc, hrest⟩
  case retrained =>
    have hgo : [64, 32, 16, 8, 5, 2].contains rate = true ∧ [16, 8, 4, 1].contains width = true :=
      ⟨List.contains_iff_mem.mpr hr, List.contains_iff_mem.mpr hw⟩
    exact congrArg Host.Outcome.next (if_pos hgo)
  case low =>
    have hlow : s.boot.perst = false := by rw [hp] at htrue; simpa using htrue
    obtain ⟨hstop, harc, hrest⟩ := couriersStop_spec false ((s.tick t).setBoot { s.boot with perst := true })
    refine ⟨_, congrArg Host.Outcome.next ((congrArg (fun p => perst p t s) htrue).trans (perst_link t hstrap hlow)), ?_⟩
    generalize couriersStop false ((s.tick t).setBoot { s.boot with perst := true }) = t' at hstop harc hrest
    have hboot := congrArg State.boot hrest
    have hcur := congrArg State.cur hrest
    have hhealth := congrArg State.health hrest
    have hst := congrArg Archive.st harc
    exact ⟨hboot, fun q hq => (hstop q hq).1, hst, hcur, hhealth⟩
  case high =>
    have hhigh : s.boot.perst = true := by rw [hp] at hfalse; simpa using hfalse
    exact congrArg Host.Outcome.next ((congrArg (fun p => perst p t s) hfalse).trans
      ((perst_ends t hstrap hhigh).trans (if_neg (not_not.mpr hrun))))
  case rung =>
    have hhigh : s.boot.perst = true := by rw [hp] at hfalse; simpa using hfalse
    exact congrArg Host.Outcome.next ((congrArg (fun p => perst p t s) hfalse).trans
      ((perst_ends t hstrap hhigh).trans (if_pos hfallow)))
  case cold =>
    exact ⟨_, congrArg Host.Outcome.next (perst_cold t hstrap hlow), rfl, rfl, rfl, rfl, rfl⟩

end Sys2Proof.Machine
end

section
/-! SUPPORT. Messages of the chain: their arrival, the control queue and the answer of a waiting command (R507, R519). -/
namespace Sys2Proof.Machine

/-! ### Arrival -/

/-- A message of the chain has arrived: it is counted, and forwarded unless the chain ends here (R508). -/
def State.arrived (w0 w1 : BitVec 64) (v : Nat) (s : State) : State :=
  { s.tick (linkStart (holdSlot s (busMsgOf w0 w1 v).sender v)) with
    coll := { s.coll with received := satAdd 64 s.coll.received 1 }
    sent := s.sent ++ if (if s.fromUp (busMsgOf w0 w1 v).sender then s.busPos + 1 < s.busD else 0 < s.busPos) then [.bus w0 w1] else [] }

theorem busArrive_eq (w0 w1 : BitVec 64) (v : Nat) (s : State) :
    busArrive w0 w1 v (s.fromUp (busMsgOf w0 w1 v).sender) s = s.arrived w0 w1 v := by
  have hsend (u : State) (x : Sent) (P Q : Prop) [Decidable P] [Decidable Q] (b : Bool) :
      (if (b && decide P) || (!b && decide Q) then u.send x else u) =
        { u with sent := u.sent ++ if (if b then P else Q) then [x] else [] } := by
    cases b
    all_goals
      by_cases hp : P <;> by_cases hq : Q <;> simp [hp, hq, State.send]
  exact hsend _ _ _ _ _

/-! ### The control queue (R507) -/

/-- A control message as it is queued: with its sender and its clock. -/
def BusMsg.stamped (m : BusMsg) (s : State) : BusMsg := { m with sender := s.view.index, clock := s.cad.now / 8 }

theorem queueControl_rest (m : BusMsg) (s : State) : ({ queueControl m s with coll := s.coll } : State) = s := by
  unfold queueControl queueMsg
  dsimp only
  split_ifs <;> rfl

theorem queueControl_coll (m : BusMsg) (s : State) :
    ({ (queueControl m s).coll with ctlQ := s.coll.ctlQ, dropped := s.coll.dropped } : Coll) = s.coll := by
  unfold queueControl queueMsg
  simp only [Bool.false_eq_true, if_false]
  split_ifs <;> rfl

theorem mem_queueControl {m : BusMsg} {s : State} (h : s.coll.ctlQ.length < 64) : m.stamped s ∈ (queueControl m s).coll.ctlQ := by
  have hnot : ¬64 ≤ s.coll.ctlQ.length := Nat.not_le.mpr h
  have hrun : queueControl m s = _ := if_neg hnot
  rw [hrun]
  exact List.mem_append_left _ (List.mem_append_right _ (List.mem_singleton.mpr rfl))

theorem queueControl_dropped {m : BusMsg} {s : State} (h : s.coll.ctlQ.length < 64) :
    (queueControl m s).coll.dropped = s.coll.dropped := by
  have hnot : ¬64 ≤ s.coll.ctlQ.length := Nat.not_le.mpr h
  have hrun : queueControl m s = _ := if_neg hnot
  rw [hrun]
  rfl

/-! ### Answers to a command that waits -/

theorem answerAction_spec (x : Txn) (e : Err) (res : List Byte) (s : State) :
    let t := answerAction x e res s
    (t.mb x.fn).respValid = true ∧
      (∃ p, (t.mb x.fn).stored = some p ∧ p.error = e.code ∧ p.seq = x.seq ∧ p.opcode = x.op ∧ p.result = res) ∧
      ({ t with mbox := s.mbox, sent := s.sent } : State) = s := by
  obtain ⟨hrest, -, hstored, -, -, hvalid, -⟩ := s.complete_frame x.fn
    { opcode := x.op, seq := x.seq, error := e.code, detail := e.detail, time := s.time, result := res } false x.seq
    (some { opcode := x.op, seq := x.seq, error := e.code, detail := e.detail, time := s.time, result := res })
  exact ⟨hvalid, ⟨_, hstored, rfl, rfl, rfl, rfl⟩, hrest⟩

/-! ### Messages of an action (R519) -/

theorem actionMsg_rest (x : Txn) (phase arg : Nat) (s : State) : ({ actionMsg x phase arg s with coll := s.coll } : State) = s :=
  queueControl_rest _ s

theorem actionMsg_coll (x : Txn) (phase arg : Nat) (s : State) :
    ({ (actionMsg x phase arg s).coll with ctlQ := s.coll.ctlQ, dropped := s.coll.dropped } : Coll) = s.coll :=
  queueControl_coll _ s

theorem actionMsg_txns (x : Txn) (phase arg : Nat) (s : State) : (actionMsg x phase arg s).coll.txns = s.coll.txns := by
  have h := congrArg Coll.txns (actionMsg_coll x phase arg s)
  exact h

theorem actionMsg_cur (x : Txn) (phase arg : Nat) (s : State) : (actionMsg x phase arg s).cur = s.cur := by
  have h := congrArg State.cur (actionMsg_rest x phase arg s)
  exact h

end Sys2Proof.Machine
end

section
/-! PROOF. Collection-wide actions: votes, GO, ABORT and time-outs (R519). -/
namespace Sys2Proof.Machine

/-! ### Votes -/

/-- A device of the chain has not answered the action yet. -/
def State.Missing (s : State) (x : Txn) (d : Nat) : Prop :=
  d ∈ s.chainOrder ∧ d ≠ s.view.index ∧ d ∉ x.votes ∧ ∀ e ∈ x.refused, e.1 ≠ d

theorem unanswered_iff (x : Txn) (d : Nat) :
    (!x.votes.contains d && !x.refused.any (·.1 == d)) = true ↔ d ∉ x.votes ∧ ∀ e ∈ x.refused, e.1 ≠ d := by
  simp

theorem missing_any (s : State) (x : Txn) :
    ((s.chainOrder.filter (· != s.view.index)).any fun d => !x.votes.contains d && !x.refused.any (·.1 == d)) = true ↔
      ∃ d, s.Missing x d := by
  rw [List.any_eq_true]
  refine exists_congr fun d => ?_
  rw [unanswered_iff, List.mem_filter, bne_iff_ne, and_assoc]
  rfl

theorem answered_all (s : State) (x : Txn) :
    ((s.chainOrder.filter (· != s.view.index)).all fun d => x.votes.contains d || x.refused.any (·.1 == d)) = true ↔
      ¬∃ d, s.Missing x d := by
  rw [← missing_any, List.all_eq_not_any_not, Bool.not_eq_true', Bool.not_eq_true]
  refine Eq.congr (congrArg _ ?_) rfl
  funext d
  rw [Bool.not_or]

/-! ### The end of an action -/

/-- The action is over: it leaves the list, and a free value is drawn for its message. -/
def Txn.ended (x : Txn) (s : State) : State :=
  { s with coll := { s.coll with txns := s.coll.txns.filter fun y => !(y.lead && y.id == x.id && y.kind == x.kind) }, free := s.free + 1 }

section
variable {x : Txn} {s : State}

theorem settleAction_go (hall : ¬∃ d, s.Missing x d) (hno : x.refused = []) (hplan : x.plan = none) :
    settleAction x s = answerAction x ⟨eOk, 0, []⟩ (if x.action = 3 then fields (ctFields x.time) else [])
      ((actionMsg x 3 (Config.freeNat s.free) (x.ended s)).schedule x.fn x.time (some x.handle)
        (if x.action = 3 then .force else .arm x.action) (some x.id)) := by
  have hmissing := Bool.eq_false_iff.mpr (mt (missing_any s x).mp hall)
  unfold settleAction
  dsimp only
  rw [hmissing, hno, if_pos (by rfl)]
  unfold makePending
  rw [hplan]
  rfl

theorem settleAction_late (hmiss : ∃ d, s.Missing x d) :
    settleAction x s = answerAction x ⟨eCollectionState, 0, []⟩ [] (actionMsg x 4 (Config.freeNat s.free) (x.ended s)) := by
  have hmissing := (missing_any s x).mpr hmiss
  unfold settleAction
  dsimp only
  rw [hmissing, if_neg (by simp), if_pos rfl]
  rfl

theorem settleAction_refused (hall : ¬∃ d, s.Missing x d) {e : Nat × Nat × Nat} (hone : x.refused = [e])
    (hin : e.1 ∈ s.chainOrder) (hother : e.1 ≠ s.view.index) :
    settleAction x s = answerAction x ⟨e.2.1, 0, []⟩ (zeros 16 ++ leBytes 2 e.2.2) (actionMsg x 4 (Config.freeNat s.free) (x.ended s)) := by
  have hmissing := Bool.eq_false_iff.mpr (mt (missing_any s x).mp hall)
  have hfirst : ((s.chainOrder.filter (· != s.view.index)).findSome? fun d => x.refused.find? (·.1 == d)) = some e := by
    rw [hone]
    have hsome : ((s.chainOrder.filter (· != s.view.index)).findSome? fun d => [e].find? (·.1 == d)).isSome = true := by
      rw [List.findSome?_isSome_iff]
      exact ⟨e.1, List.mem_filter.mpr ⟨hin, bne_iff_ne.mpr hother⟩, by simp⟩
    obtain ⟨e', he⟩ := Option.isSome_iff_exists.mp hsome
    obtain ⟨d, -, hd⟩ := List.exists_of_findSome?_eq_some he
    rw [he, List.mem_singleton.mp (List.mem_of_find?_eq_some hd)]
  have hgo : ¬(!false && x.refused.isEmpty) = true := by simp [hone]
  unfold settleAction
  dsimp only
  rw [hmissing, if_neg hgo, if_neg (by decide)]
  have hfirst' : (((x.ended s).chainOrder.filter (· != (x.ended s).view.index)).findSome? fun d => x.refused.find? (·.1 == d)) = some e :=
    hfirst
  obtain ⟨d, code, h⟩ := e
  rw [hfirst]
  rfl

theorem ended_txns_singleton (hlead : x.lead = true) {y : Txn} (h : s.coll.txns = [x]) (hid : y.id = x.id) (hkind : y.kind = x.kind) :
    (y.ended s).coll.txns = [] := by
  have hfilter : (y.ended s).coll.txns = s.coll.txns.filter fun z => !(z.lead && z.id == y.id && z.kind == y.kind) := rfl
  rw [hfilter, h]
  simp [hlead, hid, hkind]

theorem not_mem_ended (hlead : x.lead = true) : x ∉ (x.ended s).coll.txns := by
  intro h
  have h2 := (List.mem_filter.mp h).2
  simp [hlead] at h2

/-- What GO leaves on the lead. -/
theorem settleAction_goes (hall : ¬∃ d, s.Missing x d) (hno : x.refused = []) (hplan : x.plan = none) :
    let t := settleAction x s
    t.coll.txns = (x.ended s).coll.txns ∧ (t.mb x.fn).respValid = true ∧
      (∃ p, (t.mb x.fn).stored = some p ∧ p.error = eOk ∧ p.seq = x.seq ∧ p.opcode = x.op) ∧
      ∃ z ∈ t.cur.actions, z.time = x.time ∧ z.handle = some x.handle := by
  intro t
  have hrun : t = _ := settleAction_go hall hno hplan
  have htxns := actionMsg_txns x 3 (Config.freeNat s.free) (x.ended s)
  generalize actionMsg x 3 (Config.freeNat s.free) (x.ended s) = u at hrun htxns
  obtain ⟨hvalid, ⟨p, hstored, herror, hseq, hop, -⟩, hrest⟩ := answerAction_spec x ⟨eOk, 0, []⟩
    (if x.action = 3 then fields (ctFields x.time) else [])
    (u.schedule x.fn x.time (some x.handle) (if x.action = 3 then .force else .arm x.action) (some x.id))
  rw [← hrun] at hvalid hstored hrest
  have hcoll := congrArg (fun z : State => z.coll.txns) hrest
  have hcur := congrArg (fun z : State => z.cur.actions) hrest
  have hcur : t.cur.actions = u.cur.actions ++ _ := hcur
  refine ⟨hcoll.trans htxns, hvalid, ⟨p, hstored, herror, hseq, hop⟩, ?_⟩
  rw [hcur]
  exact ⟨_, List.mem_append_right _ (List.mem_singleton.mpr rfl), rfl, rfl⟩

/-- What ABORT leaves on the lead. -/
theorem settleAction_aborts {e : Err} {res : List Byte}
    (hrun : settleAction x s = answerAction x e res (actionMsg x 4 (Config.freeNat s.free) (x.ended s))) :
    let t := settleAction x s
    t.coll.txns = (x.ended s).coll.txns ∧ (t.mb x.fn).respValid = true ∧ t.cur = s.cur ∧
      ∃ p, (t.mb x.fn).stored = some p ∧ p.error = e.code ∧ p.seq = x.seq ∧ p.result = res := by
  intro t
  have hrun : t = _ := hrun
  have htxns := actionMsg_txns x 4 (Config.freeNat s.free) (x.ended s)
  have hmsg := actionMsg_cur x 4 (Config.freeNat s.free) (x.ended s)
  generalize actionMsg x 4 (Config.freeNat s.free) (x.ended s) = u at hrun htxns hmsg
  obtain ⟨hvalid, ⟨p, hstored, herror, hseq, -, hres⟩, hrest⟩ := answerAction_spec x e res u
  rw [← hrun] at hvalid hstored hrest
  have hcoll := congrArg (fun z : State => z.coll.txns) hrest
  have hcur := congrArg State.cur hrest
  exact ⟨hcoll.trans htxns, hvalid, hcur.trans hmsg, p, hstored, herror, hseq, hres⟩

end

/-! ### Votes at the lead -/

section
variable {w0 w1 : BitVec 64} {v : Nat} {s : State}

theorem busFrom_sender {kinds : List Nat} {phase : Option Nat} (h : busFrom s (busMsgOf w0 w1 v) kinds phase = true) :
    (busMsgOf w0 w1 v).sender ∈ s.chainOrder ∧ (busMsgOf w0 w1 v).sender ≠ s.view.index := by
  unfold busFrom at h
  simp only [Bool.and_eq_true, bne_iff_ne, List.contains_iff_mem] at h
  obtain ⟨⟨⟨-, hother⟩, hin⟩, -⟩ := h
  exact ⟨hin, hother⟩

theorem acceptVote_eq (h : busFrom s (busMsgOf w0 w1 v) [2, 3] (some 1) = true) (hin : s.inColl = true) :
    acceptVote w0 w1 v s = if s.isLead then
      takeVote (busMsgOf w0 w1 v) (fun x => { x with votes := x.votes ++ [(busMsgOf w0 w1 v).sender] }) (s.arrived w0 w1 v)
    else s.arrived w0 w1 v := by
  unfold acceptVote
  dsimp only
  rw [h, hin, if_neg (by decide), busArrive_eq]
  rfl

theorem refuseVote_eq (h : busFrom s (busMsgOf w0 w1 v) [2, 3] (some 2) = true) (hin : s.inColl = true) :
    refuseVote w0 w1 v s = if s.isLead then
      takeVote (busMsgOf w0 w1 v) (fun x => { x with refused := x.refused ++
        [((busMsgOf w0 w1 v).sender, bitsOf (busMsgOf w0 w1 v).arg 32 16, bitsOf (busMsgOf w0 w1 v).arg 16 16)] }) (s.arrived w0 w1 v)
    else s.arrived w0 w1 v := by
  unfold refuseVote
  dsimp only
  rw [h, hin, if_neg (by decide), busArrive_eq]
  rfl

/-- A vote on the one action under way. -/
theorem takeVote_eq {m : BusMsg} {x : Txn} (vote : Txn → Txn) (htxns : s.coll.txns = [x]) (hlead : x.lead = true) (hkind : x.kind = m.kind)
    (hhandle : x.handle = m.handle) (hid : x.id % 2 ^ 16 = m.arg % 2 ^ 16) (hvote : m.sender ∉ x.votes)
    (hrefused : ∀ e ∈ x.refused, e.1 ≠ m.sender) :
    let u := s.setColl { s.coll with txns := [vote x] }
    ((∃ d, s.Missing (vote x) d) → takeVote m vote s = u) ∧ ((¬∃ d, s.Missing (vote x) d) → takeVote m vote s = settleAction (vote x) u) := by
  have hfind : (s.coll.txns.find? fun x => x.lead && x.kind == m.kind && x.handle == m.handle && x.id % 2 ^ 16 == m.arg % 2 ^ 16) =
      some x := by
    rw [htxns]
    have hsame := beq_iff_eq.mpr hid
    simp only [List.find?_cons, hlead, hkind, hhandle, hsame, beq_self_eq_true, Bool.and_self]
  have hnew : ¬(x.votes.contains m.sender || x.refused.any (·.1 == m.sender)) = true := by
    rw [Bool.or_eq_true, not_or, List.contains_iff_mem, List.any_eq_true]
    exact ⟨hvote, fun ⟨e, he, hs⟩ => hrefused e he (beq_iff_eq.mp hs)⟩
  have hmap : (s.coll.txns.map fun z => if z == x then vote x else z) = [vote x] := by
    rw [htxns]
    simp
  have hrun : takeVote m vote s = if ((s.chainOrder.filter (· != s.view.index)).all fun d =>
        (vote x).votes.contains d || (vote x).refused.any (·.1 == d)) = true then
      settleAction (vote x) (s.setColl { s.coll with txns := [vote x] }) else s.setColl { s.coll with txns := [vote x] } := by
    unfold takeVote
    rw [hfind]
    dsimp only
    rw [if_neg hnew, hmap]
    rfl
  rw [hrun]
  exact ⟨fun h => if_neg fun hall => (answered_all s (vote x)).mp hall h, fun h => if_pos ((answered_all s (vote x)).mpr h)⟩

end

/-! ### PREPARE, GO and ABORT at a member -/

section
variable {w0 w1 : BitVec 64} {v : Nat} {s : State}

theorem goMsg_eq (h : busFrom s (busMsgOf w0 w1 v) [2, 3] (some 3) = true) (hin : s.inColl = true)
    (hlead : (busMsgOf w0 w1 v).sender = s.view.lead) :
    goMsg w0 w1 v s = match tentative (busMsgOf w0 w1 v) s with
      | some x => makePending x (dropTxn x (s.arrived w0 w1 v))
      | none => s.arrived w0 w1 v := by
  unfold goMsg
  dsimp only
  rw [h, hin, beq_iff_eq.mpr hlead, if_neg (by decide), busArrive_eq]
  rfl

theorem abortMsg_eq (h : busFrom s (busMsgOf w0 w1 v) [2, 3] (some 4) = true) (hin : s.inColl = true)
    (hlead : (busMsgOf w0 w1 v).sender = s.view.lead) :
    abortMsg w0 w1 v s = match tentative (busMsgOf w0 w1 v) s with
      | some x => discardAction x (s.arrived w0 w1 v)
      | none => s.arrived w0 w1 v := by
  unfold abortMsg
  dsimp only
  rw [h, hin, beq_iff_eq.mpr hlead, if_neg (by decide), busArrive_eq]
  rfl

theorem mem_dropTxn {x y : Txn} : y ∈ (dropTxn x s).coll.txns ↔ y ∈ s.coll.txns ∧ y ≠ x := by
  have h : (dropTxn x s).coll.txns = s.coll.txns.filter fun y => !(y == x) := rfl
  rw [h, List.mem_filter]
  simp

/-- The blocks of a tentative action, as they go back to the staged set. -/
def Txn.back (x : Txn) : List Staged :=
  match x.plan with | some p => p.items.map fun i => ⟨0, i⟩ | none => []

theorem discardAction_spec (x : Txn) (s : State) :
    let t := discardAction x s
    (∀ y, y ∈ t.coll.txns ↔ y ∈ s.coll.txns ∧ y ≠ x) ∧ t.cur.actions = s.cur.actions ∧ t.cur.staged = s.cur.staged ++ x.back ∧
      t.cur.committed = s.cur.committed ∧ t.cur.pending = s.cur.pending :=
  ⟨fun _ => mem_dropTxn, rfl, rfl, rfl, rfl⟩

theorem checkAction_undefined {m : BusMsg} {t : CT} (h : s.view.find m.handle = none) :
    checkAction m t s = .error ⟨eUndefined, 0, []⟩ := by
  unfold checkAction
  dsimp only
  rw [h]
  rfl

/-- What a member checks changes its staged set alone, and the collection and the sent messages stay. -/
theorem checkAction_rest {m : BusMsg} {t : CT} {x : Txn} {u : State} (h : checkAction m t s = .ok (x, u)) :
    ({ u with cur := s.cur } : State) = s ∧ u.cur.committed = s.cur.committed ∧ u.cur.pending = s.cur.pending := by
  unfold checkAction at h
  dsimp only at h
  split at h
  · cases h
  · split_ifs at h
    · cases hs : schedCheck s t 4 6 (s.view.triggerReach m.handle) with
      | error e =>
        rw [hs] at h
        cases h
      | ok w =>
        rw [hs] at h
        cases h
        exact ⟨rfl, rfl, rfl⟩
    · cases hs : planCommit s 0 false m.handle t [] leadSamples (some (m.arg % 2 ^ 16)) with
      | error e =>
        rw [hs] at h
        cases h
      | ok a =>
        rw [hs] at h
        cases h
        exact ⟨rfl, rfl, rfl⟩

/-- The tentative action that PREPARE asks for. -/
def BusMsg.asked (m : BusMsg) (t : CT) : Txn :=
  { id := m.arg % 2 ^ 16, lead := false, kind := m.kind, action := m.code % 16, handle := m.handle, time := t }

/-- A message of an action as a device writes it (R518). -/
def Txn.message (x : Txn) (phase arg : Nat) (s : State) : BusMsg :=
  { kind := x.kind, sender := 0, code := phase * 16 + x.action, arg := arg * 2 ^ 16 + x.id % 2 ^ 16
    handle := x.handle, tag := s.tagOf x.handle, q := 4 * sampleOf s.cad x.time }

/-- PREPARE has arrived and its epoch tag is kept (R518). -/
def State.prepared (s : State) (w0 w1 : BitVec 64) (v t : Nat) : State :=
  let u := (s.arrived w0 w1 v).tick t
  u.setColl { u.coll with tags := tset u.coll.tags (busMsgOf w0 w1 v).handle (busMsgOf w0 w1 v).tag }

/-- The vote of a member: its phase and argument, and what it holds from then on. -/
structure Voted (m : BusMsg) (s : State) (phase arg : Nat) (w : State) : Prop where
  phases : phase = 1 ∨ phase = 2
  rest : ({ w with cur := s.cur, coll := s.coll, free := s.free } : State) = s
  committed : w.cur.committed = s.cur.committed
  pending : w.cur.pending = s.cur.pending
  coll : ({ w.coll with txns := s.coll.txns } : Coll) = s.coll
  holds : phase = 1 ↔ w.coll.txns ≠ s.coll.txns
  undefined : s.view.find m.handle = none → phase = 2 ∧ arg = eUndefined * 2 ^ 16 + m.handle

theorem Voted.view {m : BusMsg} {u w : State} {phase arg : Nat} (h : Voted m u phase arg w) : w.view = u.view := by
  have hexh := congrArg State.exh h.rest
  have hranges := congrArg State.storeRanges h.rest
  have hexh : w.exh = u.exh := hexh
  have hranges : w.storeRanges = u.storeRanges := hranges
  unfold State.view
  rw [h.committed, hexh, hranges]

theorem Voted.messages {m : BusMsg} {u w : State} {phase arg : Nat} (h : Voted m u phase arg w) :
    w.coll.tags = u.coll.tags ∧ w.coll.ctlQ = u.coll.ctlQ ∧ w.coll.received = u.coll.received := by
  have htags := congrArg Coll.tags h.coll
  have hctl := congrArg Coll.ctlQ h.coll
  have hreceived := congrArg Coll.received h.coll
  exact ⟨htags, hctl, hreceived⟩

theorem prepareMsg_votes (h : busFrom s (busMsgOf w0 w1 v) [2, 3] (some 0) = true) (hin : s.inColl = true)
    (hlead : (busMsgOf w0 w1 v).sender = s.view.lead) (t : Nat) :
    ∃ phase arg time w, prepareMsg w0 w1 v t s = actionMsg ((busMsgOf w0 w1 v).asked time) phase arg w ∧
      Voted (busMsgOf w0 w1 v) (s.prepared w0 w1 v t) phase arg w := by
  unfold prepareMsg
  dsimp only
  rw [h, hin, beq_iff_eq.mpr hlead, if_neg (by decide), busArrive_eq]
  have hu : s.prepared w0 w1 v t = ((s.arrived w0 w1 v).tick t).setColl { ((s.arrived w0 w1 v).tick t).coll with
    tags := tset ((s.arrived w0 w1 v).tick t).coll.tags (busMsgOf w0 w1 v).handle (busMsgOf w0 w1 v).tag } := rfl
  rw [← hu]
  generalize s.prepared w0 w1 v t = u
  generalize busMsgOf w0 w1 v = m
  split
  next x w hcheck =>
    split_ifs at hcheck with hgo
    · have hknown : u.view.find m.handle ≠ none := fun hnone => by
        have herror : checkAction m (ctOf u.cad (ceilDiv m.q 4)) u.freeNat.2 = .error ⟨eUndefined, 0, []⟩ := checkAction_undefined hnone
        rw [herror] at hcheck
        cases hcheck
      obtain ⟨hrest, hcommitted, hpending⟩ := checkAction_rest hcheck
      have hcoll := congrArg State.coll hrest
      refine ⟨1, _, _, _, rfl, .inl rfl, ?_, hcommitted, hpending, ?_, ?_, fun hnone => absurd hnone hknown⟩
      · have hall := congrArg (fun z : State => { z with cur := u.cur, coll := u.coll, free := u.free }) hrest
        exact hall
      · have hall := congrArg (fun c : Coll => { c with txns := u.coll.txns }) hcoll
        exact hall
      · have htxns := congrArg Coll.txns hcoll
        have hlonger : (w.setColl { w.coll with txns := w.coll.txns ++ [x] }).coll.txns = u.coll.txns ++ [x] := congrArg (· ++ [x]) htxns
        rw [hlonger]
        exact ⟨fun _ hsame => List.cons_ne_nil _ _ (List.append_right_eq_self.mp hsame), fun _ => rfl⟩
    · cases hcheck
  next e hcheck =>
    refine ⟨2, _, _, _, rfl, .inr rfl, rfl, rfl, rfl, rfl, ⟨fun h => absurd h (by decide), fun h => absurd rfl h⟩, fun hnone => ⟨rfl, ?_⟩⟩
    have hfree : u.freeNat.2.view.find m.handle = none := hnone
    have hasked : (actionMembers m (ctOf u.cad (ceilDiv m.q 4)) u == bitsOf m.arg 16 32 || (u.freeNat.2.view.find m.handle).isNone) =
        true := by
      rw [hfree]
      exact Bool.or_true _
    rw [if_pos hasked] at hcheck
    have herror : checkAction m (ctOf u.cad (ceilDiv m.q 4)) u.freeNat.2 = .error ⟨eUndefined, 0, []⟩ := checkAction_undefined hnone
    rw [herror] at hcheck
    cases hcheck
    rfl

end

/-- Settles O53: a vote is a message of the action, and the last one ends it. -/
theorem collectionActions : Obligations.CollectionActions := by
  refine fun w0 w1 v t id s => ⟨fun h => ?outside, fun hfrom hin hlead hroom => ?prepare,
    fun hfrom hin hlead => ⟨fun hx => ?goNone, fun x hx hplan => ?go⟩, fun hfrom hin hlead => ⟨fun hx => ?abortNone, fun x hx => ?abort⟩,
    fun hfrom hin => ⟨fun hlead => ?acceptMember, fun hlead x htxns hxlead hkind hhandle hid hvote hrefused =>
      ⟨fun hmiss => ?acceptWaits, fun hall hno hplan => ?acceptAll⟩⟩,
    fun hfrom hin => ⟨fun hlead => ?refuseMember, fun hlead x htxns hxlead hkind hhandle hid hvote hrefused hall hno => ?refuseAll⟩,
    fun h => ?noVote, fun x hx hmiss => ?voteLate, fun h => ?noTentative, fun x hx => ⟨fun h => ?early, fun h => ?tentativeLate⟩⟩
  case outside =>
    have hnot (kinds : List Nat) (p : Option Nat) (b : Bool) :
        (!(busFrom s (busMsgOf w0 w1 v) kinds p && s.inColl)) = true ∧ (!(busFrom s (busMsgOf w0 w1 v) kinds p && s.inColl && b)) = true := by
      rcases h with h | h
      · have hone : busFrom s (busMsgOf w0 w1 v) kinds p = false := by
          unfold busFrom
          rw [h]
          rfl
        rw [hone]
        exact ⟨rfl, rfl⟩
      · rw [h, Bool.and_false]
        exact ⟨rfl, rfl⟩
    exact ⟨congrArg Host.Outcome.next (if_pos (hnot _ _ _).2), congrArg Host.Outcome.next (if_pos (hnot _ _ true).1),
      congrArg Host.Outcome.next (if_pos (hnot _ _ true).1), congrArg Host.Outcome.next (if_pos (hnot _ _ _).2),
      congrArg Host.Outcome.next (if_pos (hnot _ _ _).2)⟩
  case prepare =>
    obtain ⟨phase, arg, time, w, hrun, hv⟩ := prepareMsg_votes hfrom hin hlead t
    have hid (a : Nat) : (a * 2 ^ 16 + (busMsgOf w0 w1 v).arg % 2 ^ 16 % 2 ^ 16) % 2 ^ 16 = (busMsgOf w0 w1 v).arg % 2 ^ 16 := by omega
    have hhandle : (busMsgOf w0 w1 v).handle < 2 ^ 16 := Nat.mod_lt _ (by decide)
    have hhigh : ((eUndefined * 2 ^ 16 + (busMsgOf w0 w1 v).handle) * 2 ^ 16 + (busMsgOf w0 w1 v).arg % 2 ^ 16 % 2 ^ 16) / 2 ^ 32 =
        eUndefined := by omega
    have hroom' : w.coll.ctlQ.length < 64 := by
      rw [hv.messages.2.1]
      exact hroom
    have hcode : (phase * 16 + (busMsgOf w0 w1 v).code % 16) / 16 = phase ∧
        (phase * 16 + (busMsgOf w0 w1 v).code % 16) % 16 = (busMsgOf w0 w1 v).code % 16 := by omega
    have htag : w.tagOf (busMsgOf w0 w1 v).handle = (busMsgOf w0 w1 v).tag := by
      unfold State.tagOf
      rw [hv.messages.1]
      exact congrArg (fun o => Option.getD o _) ((tfind_tset _ _ _ _).trans (if_pos rfl))
    have hrest := actionMsg_rest ((busMsgOf w0 w1 v).asked time) phase arg w
    have hcoll := actionMsg_coll ((busMsgOf w0 w1 v).asked time) phase arg w
    have hmem := mem_queueControl (m := ((busMsgOf w0 w1 v).asked time).message phase arg w) hroom'
    have hcoll := actionMsg_coll ((busMsgOf w0 w1 v).asked time) phase arg w
    have htags := congrArg (fun c : Coll => tfind c.tags (busMsgOf w0 w1 v).handle) hcoll
    have hreceived := congrArg Coll.received hcoll
    have hcur := actionMsg_cur ((busMsgOf w0 w1 v).asked time) phase arg w
    have htxns := actionMsg_txns ((busMsgOf w0 w1 v).asked time) phase arg w
    have hsent := congrArg State.sent hrest
    have hexh := congrArg State.exh hrest
    have hwsent := congrArg State.sent hv.rest
    have hwexh := congrArg State.exh hv.rest
    refine ⟨_, congrArg Host.Outcome.next hrun, ?_, ?_, ?_, ⟨_, hmem, rfl, ?_, rfl, htag, ?_, ?_, ?_, ?_, ?_⟩, ?_, ?_, ?_⟩
    · refine htags.trans ((congrArg (fun g => tfind g (busMsgOf w0 w1 v).handle) hv.messages.1).trans ?_)
      exact (tfind_tset _ _ _ _).trans (if_pos rfl)
    · exact hreceived.trans hv.messages.2.2
    · exact hsent.trans hwsent
    · exact congrArg View.index hv.view
    · exact hid _
    · rcases hv.phases with rfl | rfl
      · exact .inl hcode.1
      · exact .inr hcode.1
    · exact hcode.2
    · rw [htxns]
      refine Iff.trans ?_ hv.holds
      exact Eq.congr hcode.1 rfl
    · intro hnone
      obtain ⟨hphase, harg⟩ := hv.undefined hnone
      refine ⟨hcode.1.trans hphase, ?_⟩
      rw [harg]
      exact hhigh
    · exact (congrArg Cur.committed hcur).trans hv.committed
    · exact (congrArg Cur.pending hcur).trans hv.pending
    · exact hexh.trans hwexh
  case goNone =>
    have hrun := goMsg_eq hfrom hin hlead
    rw [hx] at hrun
    exact congrArg Host.Outcome.next hrun
  case go =>
    have hrun := goMsg_eq hfrom hin hlead
    rw [hx] at hrun
    dsimp only at hrun
    unfold makePending at hrun
    rw [hplan] at hrun
    exact ⟨_, congrArg Host.Outcome.next hrun, fun y => mem_dropTxn,
      ⟨_, List.mem_append_right _ (List.mem_singleton.mpr rfl), rfl, rfl, rfl⟩, rfl⟩
  case abortNone =>
    have hrun := abortMsg_eq hfrom hin hlead
    rw [hx] at hrun
    exact congrArg Host.Outcome.next hrun
  case abort =>
    have hrun := abortMsg_eq hfrom hin hlead
    rw [hx] at hrun
    exact ⟨_, congrArg Host.Outcome.next hrun, discardAction_spec x _⟩
  case acceptMember =>
    exact congrArg Host.Outcome.next ((acceptVote_eq hfrom hin).trans (if_neg (by rw [hlead]; decide)))
  case acceptWaits =>
    obtain ⟨hwaits, -⟩ := takeVote_eq (s := s.arrived w0 w1 v) (fun x => { x with votes := x.votes ++ [(busMsgOf w0 w1 v).sender] }) htxns hxlead
      hkind hhandle hid hvote hrefused
    have hmissing : ∃ d, (s.arrived w0 w1 v).Missing { x with votes := x.votes ++ [(busMsgOf w0 w1 v).sender] } d := by
      obtain ⟨d, hd, hself, hsender, hnot, hno⟩ := hmiss
      refine ⟨d, hd, hself, fun h => ?_, hno⟩
      rcases List.mem_append.mp h with h | h
      · exact hnot h
      · exact hsender (List.mem_singleton.mp h)
    exact congrArg Host.Outcome.next ((acceptVote_eq hfrom hin).trans ((if_pos hlead).trans (hwaits hmissing)))
  case acceptAll =>
    obtain ⟨-, hends⟩ := takeVote_eq (s := s.arrived w0 w1 v) (fun x => { x with votes := x.votes ++ [(busMsgOf w0 w1 v).sender] }) htxns hxlead
      hkind hhandle hid hvote hrefused
    have hnone : ¬∃ d, (s.arrived w0 w1 v).Missing { x with votes := x.votes ++ [(busMsgOf w0 w1 v).sender] } d := by
      rintro ⟨d, hd, hself, hnot, -⟩
      by_cases hsender : d = (busMsgOf w0 w1 v).sender
      · exact hnot (List.mem_append_right _ (List.mem_singleton.mpr hsender))
      · exact hnot (List.mem_append_left _ (hall d hd hself hsender))
    have hrun := (acceptVote_eq hfrom hin).trans ((if_pos hlead).trans (hends hnone))
    obtain ⟨htx, hvalid, hstored, hact⟩ := settleAction_goes (x := { x with votes := x.votes ++ [(busMsgOf w0 w1 v).sender] })
      (s := (s.arrived w0 w1 v).setColl { (s.arrived w0 w1 v).coll with txns := [{ x with votes := x.votes ++ [(busMsgOf w0 w1 v).sender] }] })
      hnone hno hplan
    refine ⟨_, congrArg Host.Outcome.next hrun, htx.trans ?_, hvalid, hstored, hact⟩
    exact ended_txns_singleton (x := { x with votes := x.votes ++ [(busMsgOf w0 w1 v).sender] }) hxlead rfl rfl rfl
  case refuseMember =>
    exact congrArg Host.Outcome.next ((refuseVote_eq hfrom hin).trans (if_neg (by rw [hlead]; decide)))
  case refuseAll =>
    let no : Nat × Nat × Nat := ((busMsgOf w0 w1 v).sender, bitsOf (busMsgOf w0 w1 v).arg 32 16, bitsOf (busMsgOf w0 w1 v).arg 16 16)
    let y : Txn := { x with refused := x.refused ++ [no] }
    obtain ⟨-, hends⟩ := takeVote_eq (s := s.arrived w0 w1 v) (fun x => { x with refused := x.refused ++ [no] }) htxns hxlead
      hkind hhandle hid hvote hrefused
    have hnone : ¬∃ d, (s.arrived w0 w1 v).Missing y d := by
      rintro ⟨d, hd, hself, hnot, hsaid⟩
      by_cases hsender : d = (busMsgOf w0 w1 v).sender
      · exact hsaid no (List.mem_append_right _ (List.mem_singleton.mpr rfl)) hsender.symm
      · exact hnot (hall d hd hself hsender)
    have hrun := (refuseVote_eq hfrom hin).trans ((if_pos hlead).trans (hends hnone))
    obtain ⟨hin', hother⟩ := busFrom_sender hfrom
    have hone : y.refused = [no] := congrArg (· ++ [no]) hno
    have habort := settleAction_refused (x := y) (s := (s.arrived w0 w1 v).setColl { (s.arrived w0 w1 v).coll with txns := [y] })
      hnone hone hin' hother
    obtain ⟨htx, -, hcur, p, hstored, herror, hseq, hres⟩ := settleAction_aborts habort
    refine ⟨_, congrArg Host.Outcome.next hrun, htx.trans ?_, congrArg Cur.actions hcur, congrArg Cur.pending hcur, p, hstored, herror,
      hseq, hres⟩
    exact ended_txns_singleton (x := y) hxlead rfl rfl rfl
  case noVote =>
    have hnone : (s.coll.txns.find? fun x => x.lead && x.id == id) = none := by
      rw [List.find?_eq_none]
      intro x hx
      simpa using h x hx
    have hrun : voteTimeout id s = s := by
      unfold voteTimeout
      rw [hnone]
    exact congrArg Host.Outcome.next hrun
  case voteLate =>
    have hrun : voteTimeout id s = settleAction x (s.tick (x.sent + 20480000)) := by
      unfold voteTimeout
      rw [hx]
    have hxlead : x.lead = true := by
      have h := List.find?_some hx
      exact (Bool.and_eq_true_iff.mp h).1
    obtain ⟨htx, hvalid, hcur, p, hstored, herror, hseq, -⟩ := settleAction_aborts
      (settleAction_late (x := x) (s := s.tick (x.sent + 20480000)) hmiss)
    refine ⟨_, congrArg Host.Outcome.next hrun, ?_, congrArg Cur.actions hcur, congrArg Cur.pending hcur, hvalid, p, hstored, herror, hseq⟩
    rw [htx]
    exact not_mem_ended hxlead
  case noTentative =>
    have hnone : (s.coll.txns.find? fun x => !x.lead && x.id == id) = none := by
      rw [List.find?_eq_none]
      intro x hx
      simpa using h x hx
    have hrun : tentativeTimeout id t s = s := by
      unfold tentativeTimeout
      rw [hnone]
    exact congrArg Host.Outcome.next hrun
  case early =>
    have hrun : tentativeTimeout id t s = s := by
      unfold tentativeTimeout
      rw [hx]
      exact if_pos h
    exact congrArg Host.Outcome.next hrun
  case tentativeLate =>
    have hrun : tentativeTimeout id t s = (discardAction x (s.tick t)).post evMemberLost [(1, s.view.lead)] := by
      unfold tentativeTimeout
      rw [hx]
      exact if_neg (Nat.not_lt.mpr h)
    obtain ⟨htxns, hact, hstaged, -, -⟩ := discardAction_spec x (s.tick t)
    have hnotes := (discardAction x (s.tick t)).post_notes evMemberLost [(1, s.view.lead)] 0
    have hcoll := hnotes.field State.coll fun _ _ _ _ => rfl
    refine ⟨_, congrArg Host.Outcome.next hrun, fun y => ?_, ?_, ?_⟩
    · rw [hcoll]
      exact htxns y
    · exact (hnotes.field (·.cur.actions) fun _ _ _ _ => rfl).trans hact
    · exact (hnotes.field (·.cur.staged) fun _ _ _ _ => rfl).trans hstaged

end Sys2Proof.Machine
end

section
/-! PROOF. Lanes, alignment and probes of a collection (R502, R512 to R514). -/
namespace Sys2Proof.Machine

/-! ### Lanes (R502, R514) -/

section
variable {lane t : Nat} {s : State}

theorem laneLock_unchanged (h : s.collD ≤ 1 ∨ lane ∉ s.ownLanes ∨ lane ∈ s.coll.lanes) : laneLock lane t s = s.tick t := by
  have hno : s.collD ≤ 1 ∨ (!s.ownLanes.contains lane) = true ∨ s.coll.lanes.contains lane = true := by simpa using h
  exact if_pos hno

/-- A lane that locks is listed, and the state forms at least. -/
def State.lockedLane (s : State) (lane t : Nat) : State :=
  (s.tick t).setColl { s.coll with lanes := lane :: s.coll.lanes, st := max 1 s.coll.st }

theorem laneLock_eq (hd : 1 < s.collD) (hown : lane ∈ s.ownLanes) (hnew : lane ∉ s.coll.lanes) :
    laneLock lane t s = if (s.lockedLane lane t).lanesUp then reform (sendAlign (s.lockedLane lane t)) else s.lockedLane lane t := by
  refine if_neg ?_
  show ¬(s.collD ≤ 1 ∨ (!s.ownLanes.contains lane) = true ∨ s.coll.lanes.contains lane = true)
  simp [hd, hown, hnew]

theorem lockedLane_up : (s.lockedLane lane t).lanesUp = true ↔ ∀ l ∈ s.ownLanes, l ≠ lane → l ∈ s.coll.lanes := by
  have hall : (s.lockedLane lane t).lanesUp = s.ownLanes.all (lane :: s.coll.lanes).contains := rfl
  rw [hall, List.all_eq_true]
  refine forall₂_congr fun l _ => ?_
  rw [List.contains_iff_mem, List.mem_cons, or_iff_not_imp_left]

theorem reform_unchanged (h : s.coll.st ≠ 3) : reform s = s := if_neg fun hall => h hall.1

/-- ALIGN of this device (R512). -/
def State.alignMessage (s : State) : BusMsg :=
  { kind := 8, sender := 0, code := s.major, arg := cadenceCrc s % 2 ^ 32 * 2 ^ 16, handle := 0xFFFF, tag := 0, q := 4 * nextTurn s.cad s.cad.now }

theorem sendAlign_eq : sendAlign s = queueControl s.alignMessage s := rfl

theorem laneLock_last (hd : 1 < s.collD) (hown : lane ∈ s.ownLanes) (hnew : lane ∉ s.coll.lanes)
    (hall : ∀ l ∈ s.ownLanes, l ≠ lane → l ∈ s.coll.lanes) (hst : s.coll.st ≠ 3) :
    laneLock lane t s = queueControl (s.lockedLane lane t).alignMessage (s.lockedLane lane t) := by
  have hforming : (sendAlign (s.lockedLane lane t)).coll.st ≠ 3 := by
    have hkeep := congrArg Coll.st (queueControl_coll (s.lockedLane lane t).alignMessage (s.lockedLane lane t))
    have hkeep : (sendAlign (s.lockedLane lane t)).coll.st = max 1 s.coll.st := hkeep
    rw [hkeep]
    omega
  rw [laneLock_eq hd hown hnew, if_pos (lockedLane_up.mpr hall), reform_unchanged hforming]
  rfl

theorem laneLoss_unchanged {lost : List Nat} (h : lane ∉ s.coll.lanes) : laneLoss lane lost t s = s.tick t := by
  refine if_pos ?_
  simpa using h

/-- The devices that are lost with a lane and were not before. -/
def State.newlyLost (s : State) (lost : List Nat) : List Nat :=
  (s.chainOrder.filter lost.contains).filter fun d => d != s.view.index && !s.coll.lost.contains d

/-- A formed collection is broken (R514). -/
def State.brokenAt (s : State) (lane : Nat) (lost : List Nat) (t : Nat) : State :=
  (s.tick t).setColl { s.coll with
    lanes := s.coll.lanes.filter (· != lane), st := 3, lost := s.coll.lost ++ s.newlyLost lost, aligns := [] }

theorem laneLoss_forming {lost : List Nat} (h : lane ∈ s.coll.lanes) (hin : s.inColl = false) :
    ∃ st, laneLoss lane lost t s =
      (s.tick t).setColl { s.coll with lanes := s.coll.lanes.filter (· != lane), st := st, aligns := [] } := by
  have hlisted : ¬(!(s.tick t).coll.lanes.contains lane) = true := by
    rw [Bool.not_eq_true', Bool.not_eq_false]
    exact List.contains_iff_mem.mpr h
  have hout : (!(s.tick t).inColl) = true := by
    have hsame : (s.tick t).inColl = s.inColl := rfl
    rw [hsame, hin]
    rfl
  exact ⟨_, (if_neg hlisted).trans (if_pos hout)⟩

theorem laneLoss_breaks {lost : List Nat} (h : lane ∈ s.coll.lanes) (hin : s.inColl = true) :
    Notes (s.brokenAt lane lost t) (laneLoss lane lost t s) := by
  have hlisted : ¬(!(s.tick t).coll.lanes.contains lane) = true := by
    rw [Bool.not_eq_true', Bool.not_eq_false]
    exact List.contains_iff_mem.mpr h
  have hout : ¬(!(s.tick t).inColl) = true := by
    have hsame : (s.tick t).inColl = s.inColl := rfl
    rw [hsame, hin]
    decide
  have hrun : laneLoss lane lost t s = if (s.coll.lost ++ s.newlyLost lost).contains (s.brokenAt lane lost t).view.lead then
      s.brokenAt lane lost t
    else (s.newlyLost lost).foldl (fun s d => s.post evMemberLost [(1, d)]) (s.brokenAt lane lost t) :=
    (if_neg hlisted).trans (if_neg hout)
  rw [hrun]
  split_ifs
  · exact notes_refl _
  · exact notes_foldl (fun s d => s.post_notes _ _ 0) _ _

theorem mem_lost {lost : List Nat} {d : Nat} : d ∈ (s.brokenAt lane lost t).coll.lost ↔
    d ∈ s.coll.lost ∨ (d ∈ s.chainOrder ∧ d ∈ lost ∧ d ≠ s.view.index) := by
  have hall : (s.brokenAt lane lost t).coll.lost = s.coll.lost ++ s.newlyLost lost := rfl
  rw [hall, List.mem_append, State.newlyLost, List.mem_filter, List.mem_filter, List.contains_iff_mem, Bool.and_eq_true, bne_iff_ne]
  by_cases hd : d ∈ s.coll.lost
  · simp [hd]
  · simp [hd, and_assoc]

theorem mem_lanes_without {l : Nat} : l ∈ s.coll.lanes.filter (· != lane) ↔ l ∈ s.coll.lanes ∧ l ≠ lane := by
  rw [List.mem_filter, bne_iff_ne]

end

/-! ### PROBE and ECHO (R513) -/

section
variable {s : State}

theorem probeMsg_unchanged {v : Nat} {z : Int} (h : s.collD ≤ 1 ∨ s.lanesUp = false) : probeMsg v z s = s := by
  refine if_pos ?_
  simpa using h

/-- The ECHO of a PROBE. -/
def State.echoMessage (s : State) (v : Nat) (z : Int) : BusMsg :=
  { kind := 7, sender := s.view.index, code := 0, arg := ofInt 48 (z - 327680 * (v + 2)), handle := 0xFFFF, tag := 0, q := 0 }

theorem probeMsg_eq {v : Nat} {z : Int} (hd : 1 < s.collD) (hup : s.lanesUp = true) :
    probeMsg v z s = { s.tick (linkStart (v + 2)) with
      free := s.free + 1, sent := s.sent ++
        [.bus (s.echoMessage v z).word0 (BitVec.ofNat 64 (0xFFFF * 2 ^ 48 + Config.freeNat s.free % 2 ^ 48))] } := by
  refine if_neg ?_
  simp [hd, hup]

theorem ofInt_lt (w : Nat) (z : Int) : ofInt w z < 2 ^ w := by
  unfold ofInt
  have hpos : (0 : Int) < ((2 ^ w : Nat) : Int) := by positivity
  have hlow := Int.emod_nonneg z hpos.ne'
  have hhigh := Int.emod_lt_of_pos z hpos
  omega

/-- What the two words of an ECHO say. -/
theorem echoMessage_reads (m : BusMsg) (f : Nat) (hkind : m.kind = 7) (hcode : m.code = 0) (harg : m.arg < 2 ^ 48) :
    let r := busMsgOf m.word0 (BitVec.ofNat 64 (0xFFFF * 2 ^ 48 + f % 2 ^ 48)) 0
    r.kind = 7 ∧ r.sender = m.sender % 16 ∧ r.handle = 0xFFFF ∧ r.arg = m.arg := by
  have hw0 : m.word0.toNat = 7 * 2 ^ 60 + m.sender % 16 * 2 ^ 56 + m.arg := by
    unfold BusMsg.word0
    rw [BitVec.toNat_ofNat, hkind, hcode, Nat.mod_eq_of_lt harg]
    omega
  have hw1 : (BitVec.ofNat 64 (0xFFFF * 2 ^ 48 + f % 2 ^ 48)).toNat = 0xFFFF * 2 ^ 48 + f % 2 ^ 48 := by
    rw [BitVec.toNat_ofNat]
    omega
  unfold busMsgOf bitsOf
  dsimp only
  rw [hw0, hw1]
  refine ⟨?_, ?_, ?_, ?_⟩ <;> omega

theorem echoMsg_unchanged {w0 w1 : BitVec 64} {hop v : Nat} {z : Int}
    (h : s.collD ≤ 1 ∨ (busMsgOf w0 w1 v).kind ≠ 7 ∨ hop ≠ s.posOf s.view.index ∨ s.collD ≤ hop + 1) : echoMsg w0 w1 hop v z s = s :=
  if_pos h

theorem echoMsg_measures {w0 w1 : BitVec 64} {hop v : Nat} {z : Int} (hd : 1 < s.collD) (hkind : (busMsgOf w0 w1 v).kind = 7)
    (hhop : hop = s.posOf s.view.index) (hnext : hop + 1 < s.collD) (hroom : s.coll.offsets.length < 1024) :
    echoMsg w0 w1 hop v z s = s.setColl { s.coll with offsets := s.coll.offsets ++
      [toInt 48 (busMsgOf w0 w1 v).arg + 655360 - (z - (327680 * (v : Int) + 655360))] } := by
  have hgo : ¬(s.collD ≤ 1 ∨ (busMsgOf w0 w1 v).kind ≠ 7 ∨ hop ≠ s.posOf s.view.index ∨ s.collD ≤ hop + 1) := by
    omega
  refine (if_neg hgo).trans ?_
  have hdrop (d : Int) : (s.coll.offsets ++ [d]).drop ((s.coll.offsets ++ [d]).length - 1024) = s.coll.offsets ++ [d] := by
    have hshort : (s.coll.offsets ++ [d]).length - 1024 = 0 := by
      rw [List.length_append, List.length_singleton]
      omega
    rw [hshort, List.drop_zero]
  rw [hdrop]

end

/-! ### ALIGN (R512) -/

section
variable {w0 w1 : BitVec 64} {v : Nat} {s : State}

/-- ALIGN of another device has arrived. -/
def State.aligned (s : State) (w0 w1 : BitVec 64) (v : Nat) : State :=
  let m := busMsgOf w0 w1 v
  let u := s.arrived w0 w1 v
  u.setColl { u.coll with aligns := tset u.coll.aligns m.sender (m.code, bitsOf m.arg 16 32, m.q) }

theorem alignMsg_other (h : busFrom s (busMsgOf w0 w1 v) [8] none = false) : alignMsg w0 w1 v s = s := by
  refine if_pos ?_
  rw [h]
  rfl

theorem alignMsg_eq (h : busFrom s (busMsgOf w0 w1 v) [8] none = true) (hst : s.coll.st ≠ 3) :
    alignMsg w0 w1 v s =
      if s.coll.st = 1 ∧ (!s.isLead) = true ∧ s.lanesUp = true ∧ alignsAgree (s.aligned w0 w1 v) = true ∧ s.cad.synced = true then
        formed (16 * Config.freeInt s.free) (ctOf (s.aligned w0 w1 v).cad
          (ceilDiv ((tfind (s.aligned w0 w1 v).coll.aligns s.view.lead).getD (0, 0, 0)).2.2 4)).turn
          { s.aligned w0 w1 v with free := s.free + 1 }
      else s.aligned w0 w1 v := by
  unfold alignMsg
  dsimp only
  rw [h, if_neg (by decide), busArrive_eq]
  exact if_neg hst

theorem aligned_sender : tfind (s.aligned w0 w1 v).coll.aligns (busMsgOf w0 w1 v).sender =
    some ((busMsgOf w0 w1 v).code, bitsOf (busMsgOf w0 w1 v).arg 16 32, (busMsgOf w0 w1 v).q) :=
  (tfind_tset _ _ _ _).trans (if_pos rfl)

theorem aligned_other {d : Nat} (h : d ≠ (busMsgOf w0 w1 v).sender) :
    tfind (s.aligned w0 w1 v).coll.aligns d = tfind s.coll.aligns d := (tfind_tset _ _ _ _).trans (if_neg (Ne.symm h))

theorem alignsAgree_last
    (hother : ∀ d ∈ s.chainOrder, d ≠ s.view.index → d ≠ (busMsgOf w0 w1 v).sender →
      ∃ q, tfind s.coll.aligns d = some (s.major, cadenceCrc s, q))
    (hcode : (busMsgOf w0 w1 v).code = s.major) (hcrc : bitsOf (busMsgOf w0 w1 v).arg 16 32 = cadenceCrc s) :
    alignsAgree (s.aligned w0 w1 v) = true := by
  refine List.all_eq_true.mpr fun d hd => ?_
  obtain ⟨hin, hself⟩ := List.mem_filter.mp hd
  have hfind : ∃ q, tfind (s.aligned w0 w1 v).coll.aligns d = some (s.major, cadenceCrc s, q) := by
    by_cases hsender : d = (busMsgOf w0 w1 v).sender
    · refine ⟨(busMsgOf w0 w1 v).q, ?_⟩
      rw [hsender, aligned_sender, hcode, hcrc]
    · rw [aligned_other hsender]
      exact hother d hin (bne_iff_ne.mp hself) hsender
  obtain ⟨q, hq⟩ := hfind
  rw [hq]
  have hmajor : (s.major == (s.aligned w0 w1 v).major) = true := beq_self_eq_true _
  have hcad : (cadenceCrc s == cadenceCrc (s.aligned w0 w1 v)) = true := beq_self_eq_true _
  exact Bool.and_eq_true_iff.mpr ⟨hmajor, hcad⟩

/-- The state that names the common anchor, before it is told of (R512). -/
def State.formedWith (s : State) (corr : Int) (turn : Nat) : State :=
  { s with
    cad := { s.cad with awaitAnchor := true, keptTurn := some turn }
    coll := { s.coll with st := 2, corr := corr, formed := s.coll.aligns, lost := [], nextTrg := 0, nextCtl := 0 } }

theorem formed_spec (corr : Int) (turn : Nat) :
    let t := formed corr turn s
    t.coll.st = 2 ∧ t.coll.lost = [] ∧ t.cad.awaitAnchor = true ∧ t.coll.formed = s.coll.aligns := by
  have hnotes := (s.formedWith corr turn).post_notes evFormed [(1, s.collD), (1, s.view.lead)] 0
  have hcoll := hnotes.field State.coll fun _ _ _ _ => rfl
  have hcad := hnotes.field State.cad fun _ _ _ _ => rfl
  have hst := congrArg Coll.st hcoll
  have hlost := congrArg Coll.lost hcoll
  have hwait := congrArg Cad.awaitAnchor hcad
  have hformed := congrArg Coll.formed hcoll
  exact ⟨hst, hlost, hwait, hformed⟩

end

/-- Settles O54: a lane is listed once, and the last one sends ALIGN. -/
theorem collectionLanes : Obligations.CollectionLanes := by
  refine fun w0 w1 v lane t hop z lost s => ⟨fun h => congrArg Host.Outcome.next (laneLock_unchanged h),
    fun hd hown hnew => ⟨fun hmore => ?lock, fun hall hroom hst => ?last⟩,
    fun h => congrArg Host.Outcome.next (laneLoss_unchanged h),
    fun h => ⟨fun hin => ?forming, fun hin => ?breaks⟩,
    fun h => congrArg Host.Outcome.next (probeMsg_unchanged h), fun hd hup => ?probe,
    fun h => congrArg Host.Outcome.next (echoMsg_unchanged h),
    fun hd hkind hhop hnext hroom => congrArg Host.Outcome.next (echoMsg_measures hd hkind hhop hnext hroom),
    fun h => congrArg Host.Outcome.next (alignMsg_other h), fun h hst hno => ?align,
    fun h hst hlead hup hsync hother hcode hcrc => ?forms⟩
  case lock =>
    have hnot : ¬(s.lockedLane lane t).lanesUp = true := fun hup => by
      obtain ⟨l, hl, hne, hout⟩ := hmore
      exact hout (lockedLane_up.mp hup l hl hne)
    exact congrArg Host.Outcome.next ((laneLock_eq hd hown hnew).trans (if_neg hnot))
  case last =>
    have hcoll := queueControl_coll (s.lockedLane lane t).alignMessage (s.lockedLane lane t)
    have hst' := congrArg Coll.st hcoll
    have hlanes := congrArg Coll.lanes hcoll
    have hmem := mem_queueControl (m := (s.lockedLane lane t).alignMessage) (s := s.lockedLane lane t) hroom
    have hrest := congrArg (fun z : State => { z with coll := s.coll })
      (queueControl_rest (s.lockedLane lane t).alignMessage (s.lockedLane lane t))
    exact ⟨_, congrArg Host.Outcome.next (laneLock_last hd hown hnew hall hst), hst', hlanes, ⟨_, hmem, rfl, rfl, rfl, rfl⟩, hrest⟩
  case forming =>
    obtain ⟨st, hrun⟩ := laneLoss_forming (lost := lost) (t := t) h hin
    exact ⟨_, congrArg Host.Outcome.next hrun, rfl, fun l => mem_lanes_without, rfl⟩
  case breaks =>
    have hnotes := laneLoss_breaks (lost := lost) (t := t) h hin
    have hcoll := hnotes.field State.coll fun _ _ _ _ => rfl
    refine ⟨_, rfl, ?_, fun l => ?_, fun d => ?_, ?_⟩
    · exact congrArg Coll.st hcoll
    · have hlanes := congrArg Coll.lanes hcoll
      rw [hlanes]
      exact mem_lanes_without
    · have hlost := congrArg Coll.lost hcoll
      rw [hlost]
      exact mem_lost
    · rw [hcoll]
      exact hnotes
  case probe =>
    obtain ⟨hkind, hsender, hhandle, harg⟩ := echoMessage_reads (s.echoMessage v z) (Config.freeNat s.free) rfl rfl (ofInt_lt 48 _)
    exact ⟨_, congrArg Host.Outcome.next (probeMsg_eq hd hup), ⟨_, _, rfl, hkind, hsender, hhandle, harg⟩, rfl⟩
  case align =>
    have hnot : ¬(s.coll.st = 1 ∧ (!s.isLead) = true ∧ s.lanesUp = true ∧ alignsAgree (s.aligned w0 w1 v) = true ∧ s.cad.synced = true) := by
      rintro ⟨hone, hlead, hup, -⟩
      rcases hno with h | h | h
      · exact h hone
      · rw [h] at hlead
        exact absurd hlead (by decide)
      · rw [h] at hup
        exact absurd hup (by decide)
    exact ⟨_, congrArg Host.Outcome.next ((alignMsg_eq h hst).trans (if_neg hnot)), aligned_sender, rfl, rfl, rfl⟩
  case forms =>
    have hgo : s.coll.st = 1 ∧ (!s.isLead) = true ∧ s.lanesUp = true ∧ alignsAgree (s.aligned w0 w1 v) = true ∧ s.cad.synced = true :=
      ⟨hst, by rw [hlead]; rfl, hup, alignsAgree_last hother hcode hcrc, hsync⟩
    have hnot : s.coll.st ≠ 3 := by omega
    obtain ⟨hst', hlost, hwait, hformed⟩ := formed_spec (s := { s.aligned w0 w1 v with free := s.free + 1 }) (16 * Config.freeInt s.free)
      (ctOf (s.aligned w0 w1 v).cad (ceilDiv ((tfind (s.aligned w0 w1 v).coll.aligns s.view.lead).getD (0, 0, 0)).2.2 4)).turn
    refine ⟨_, congrArg Host.Outcome.next ((alignMsg_eq h hnot).trans (if_pos hgo)), hst', hlost, hwait, ?_⟩
    rw [hformed]
    exact aligned_sender

end Sys2Proof.Machine
end

section
/-! REFUTATION. A thermal trip spills the Stores of both stacks; in a table of Stores whose keys do not rise, the Store that
is written back goes in front of its old entry, and the ranges of the view gain an entry (R536, R589). -/
namespace Sys2Proof.Machine

/-- A table of Stores whose keys do not rise. -/
def misfiledTable (x : Store) : Table Store := [(5, {}), (3, x)]

/-- A Store that is written back goes in front of a greater key, and its old entry stays behind. -/
theorem State.setSto_misfiled {s : State} {x y : Store} (h : s.store = misfiledTable x) (hne : y ≠ x) :
    (s.setSto 3 y).store = [(3, { y with gen := y.gen + 2 }), (5, {}), (3, x)] := by
  have hsto : s.sto 3 = x := congrArg (fun t => tget ({} : Store) t 3) h
  rw [State.setSto, hsto, if_neg hne, h]
  rfl

/-- A defined Store with a record that a consumer has taken in part. -/
def misfiledStore : Store := { part := 1, blk := zeros 16 }

/-- The same Store once its stack has lost its contents. -/
def spiltStore : Store := { misfiledStore with part := 0, gen := 2 }

/-- The state of reset with that Store in such a table. -/
def misfiled : State := { State.reset with store := misfiledTable misfiledStore }

/-- The table of Stores once Store 3 has been written back. -/
def refiled : Table Store := [(3, spiltStore), (5, {}), (3, misfiledStore)]

theorem State.noteTemp_hot (s : State) {temp : Int} (h : 10000 ≤ temp) : s.noteTemp temp = s.alert alThermal := by
  refine if_neg ?_
  split_ifs <;> omega

/-- What a Store loses with stack `k` (R273, R536). -/
def spillStore (k : Nat) (s : State) (e : Nat × Store) : State :=
  if e.2.on && e.2.mode != 2 then s.setSto e.1 ((s.sto e.1).spill s.cad (s.view.gridExp e.2.handle) (22 + k)) else s

/-- What the Stores lose with stack `k`. -/
def spillStack (s : State) (k : Nat) : State :=
  let u := s.setStk k { s.stk k with st := 3 }
  u.store.foldl (spillStore k) u

theorem thermalTrip_store {s : State} (sensor t : Nat) (temp : Int) (hhot : 11500 ≤ temp) (htrip : s.pow.tripped = false)
    (hlow : 1 ≤ sensor) (hhigh : sensor ≤ 8) :
    (thermalTrip sensor temp t s).store = ([0, 1].foldl spillStack (outputsOff (hkStop (couriersStop true
      (((s.tick t).alert alThermal).post evThermal [(1, sensor), (1, 0), (2, ofInt 16 temp)]))))).store := by
  have hgo : ¬(temp < 11500 ∨ (s.tick t).pow.tripped = true ∨ 8 < sensor ∨ sensor = 0) := by
    have hsame : (s.tick t).pow.tripped = false := htrip
    rw [hsame]
    rintro (h | h | h | h)
    · omega
    · exact absurd h (by decide)
    · omega
    · omega
  unfold thermalTrip
  dsimp only
  rw [if_neg hgo, State.noteTemp_hot _ (by omega)]
  generalize outputsOff _ = u
  rfl

section
variable {s : State} {k : Nat}

theorem spillStore_first (h : s.store = misfiled.store) : (spillStore k s (3, misfiledStore)).store = refiled := by
  have hsto : s.sto 3 = misfiledStore := congrArg (fun t => tget ({} : Store) t 3) h
  have hspill (c : Cad) (ge : Int) (unit : Nat) : misfiledStore.spill c ge unit = { misfiledStore with part := 0 } := rfl
  unfold spillStore
  rw [if_pos (by decide), hsto, hspill]
  exact State.setSto_misfiled h (by decide)

theorem spillStore_again (h : s.store = refiled) (x : Store) : spillStore k s (3, x) = s := by
  have hsto : s.sto 3 = spiltStore := congrArg (fun t => tget ({} : Store) t 3) h
  have hspill (c : Cad) (ge : Int) (unit : Nat) : spiltStore.spill c ge unit = spiltStore := rfl
  unfold spillStore
  rw [hsto, hspill, State.setSto, if_pos hsto.symm, ite_self]

theorem spillStack_first (h : s.store = misfiled.store) : (spillStack s k).store = refiled := by
  have hlist : (s.setStk k { s.stk k with st := 3 }).store = [(5, {}), (3, misfiledStore)] := h
  unfold spillStack
  dsimp only
  rw [hlist]
  exact spillStore_first hlist

theorem spillStack_again (h : s.store = refiled) : (spillStack s k).store = refiled := by
  have hlist : (s.setStk k { s.stk k with st := 3 }).store = [(3, spiltStore), (5, {}), (3, misfiledStore)] := h
  have hskip (u : State) : spillStore k u (5, {}) = u := rfl
  unfold spillStack
  dsimp only
  rw [hlist, List.foldl_cons, List.foldl_cons, List.foldl_cons, spillStore_again hlist, hskip, spillStore_again hlist]
  exact hlist

end

theorem thermalTrip_misfiled : (thermalTrip 1 11500 0 misfiled).store = refiled := by
  rw [thermalTrip_store 1 0 11500 (by decide) rfl (by decide) (by decide)]
  have hbefore : (outputsOff (hkStop (couriersStop true
      (((misfiled.tick 0).alert alThermal).post evThermal [(1, 1), (1, 0), (2, ofInt 16 11500)])))).store = misfiled.store := by decide
  rw [List.foldl_cons, List.foldl_cons, List.foldl_nil]
  exact spillStack_again (spillStack_first hbefore)

/-- Refutes O55: a thermal trip changes the view of a state whose table of Stores has keys that do not rise. -/
theorem not_domainEvents : ¬Obligations.DomainEvents := by
  intro h
  obtain ⟨-, -, -, -, -, -, -, -, -, htrip⟩ := h 0 0 0 1 0 11500 [] misfiled
  obtain ⟨t, hrun, -, -, -, -, -, -, hview⟩ := htrip (by decide) rfl (by decide) (by decide)
  have ht : thermalTrip 1 11500 0 misfiled = t := Host.Outcome.next.inj hrun
  have hranges : t.storeRanges.length = misfiled.storeRanges.length := congrArg (fun v : View => v.ranges.length) hview
  unfold State.storeRanges at hranges
  rw [← ht, thermalTrip_misfiled] at hranges
  exact absurd hranges (by decide)

end Sys2Proof.Machine
end

section
/-! REFUTATION. An uncorrectable word that takes a finished record writes its Store back; in a table of Stores whose keys do
not rise the Store goes in front of its old entry, and the ranges of the view gain an entry (R277, R403). -/
namespace Sys2Proof.Machine

/-- A finished record of stream 0 of handle 0. -/
def finishedRec : Rec := {}

/-- A Store that this stream feeds, with the record beyond WRITE. -/
def fedStore : Store := { blk := zeros 16, ahead := [finishedRec] }

/-- The state of reset with that Store in a table of Stores whose keys do not rise. -/
def misfed : State := { State.reset with store := misfiledTable fedStore }

/-- The record as the lacuna that takes its place (R403). -/
def State.spoilt (s : State) : Rec := lacunaFrom s.cad caDomain 26 finishedRec []

section
variable {s : State} (hstore : s.store = misfiledTable fedStore) (htrip : s.pow.tripped = false) (hnone : s.produced = [])
include hstore htrip hnone

theorem spoilOldest_fed : spoilOldest 0 s = s.setSto 3 { fedStore with ahead := [s.spoilt] } := by
  have hsto : s.sto 3 = fedStore := congrArg (fun t => tget ({} : Store) t 3) hstore
  have hfed : s.fed 0 0 = [3] := by
    unfold State.fed
    rw [htrip, hstore]
    rfl
  have hfound : ([3].findSome? fun n => ((s.sto n).ahead.find? fun r => r.key == 0 && r.typ != rtLacuna).map fun r => (n, r)) =
      some (3, finishedRec) := by
    rw [List.findSome?_cons, hsto]
    rfl
  have hself : (finishedRec == finishedRec) = true := beq_self_eq_true _
  unfold spoilOldest
  dsimp only
  rw [hnone]
  dsimp only [takeFirst]
  rw [hfed, hfound]
  dsimp only
  rw [hsto]
  show s.setSto 3 { fedStore with ahead := [finishedRec].map fun x => if x == finishedRec then s.spoilt else x } = _
  rw [List.map_singleton, hself, if_pos rfl]

theorem spoilOldest_ranges : (spoilOldest 0 s).storeRanges.length = 2 := by
  have hne : ({ fedStore with ahead := [s.spoilt] } : Store) ≠ fedStore := by
    intro h
    have hahead : [s.spoilt] = [finishedRec] := congrArg Store.ahead h
    have htyp : rtLacuna = 0 := congrArg Rec.typ (List.cons.inj hahead).1
    exact absurd htyp (by decide)
  rw [spoilOldest_fed hstore htrip hnone, State.storeRanges, State.setSto_misfiled hstore hne]
  rfl

end

/-- Refutes O56: a record of a stream is lost from a Store whose table has keys that do not rise. -/
theorem not_galleryEvents : ¬Obligations.GalleryEvents := by
  intro h
  obtain ⟨-, -, -, -, -, -, -, -, -, hlost, -⟩ := h 0 0 2 0 0 0 misfed
  obtain ⟨t, hrun, -, hview, -⟩ := hlost (.inl rfl)
  have ht : spoilOldest 0 ((misfed.tick 0).post evMemUncorrectable [(1, 2), (1, 0), (1, 0), (1, 0), (4, 0)]) = t :=
    Host.Outcome.next.inj hrun
  have hnotes := (misfed.tick 0).post_notes evMemUncorrectable [(1, 2), (1, 0), (1, 0), (1, 0), (4, 0)] 0
  have hranges : t.storeRanges.length = misfed.storeRanges.length := congrArg (fun v : View => v.ranges.length) hview
  rw [← ht, spoilOldest_ranges (hnotes.field State.store fun _ _ _ _ => rfl) (hnotes.field (·.pow.tripped) fun _ _ _ _ => rfl)
    (hnotes.field State.produced fun _ _ _ _ => rfl)] at hranges
  exact absurd hranges (by decide)

end Sys2Proof.Machine
end

section
/-! PROOF. Restarts of the Curator, roll-back of an activation, and the heartbeat (R459, R497, R498, R552). -/
namespace Sys2Proof.Machine

/-! ### What a Curator that does not run ignores -/

section
variable {s : State} (t : Nat)

theorem curatorRuns_iff : s.curatorRuns = true ↔ s.boot.st = 1 ∧ s.pow.fallow = 0 := by
  unfold State.curatorRuns
  rw [Bool.and_eq_true, beq_iff_eq, beq_iff_eq]

theorem watchdogExpiry_eq : watchdogExpiry t s = if s.curatorRuns then restartBegins 1 (s.tick t) else s.tick t := rfl

theorem heartbeat_eq : heartbeat t s = if !s.curatorRuns then s.tick t else
    ((s.tick t).setBoot { s.boot with heartbeat := (s.boot.heartbeat + 1) % 2 ^ 32 }).setHealth
      { s.health with onMs := s.health.onMs + 1 } := rfl

theorem lockstepMismatch_eq : lockstepMismatch t s = if s.curatorRuns then restartBegins 0 (countMismatch (s.tick t))
    else if s.boot.st = 3 then rollBack 1 (countMismatch (s.tick t)) else s.tick t := rfl

end

/-! ### Mismatches (R552, R564) -/

/-- A deaccession notice changes health, the alert and what events change. -/
theorem deaccession_notes (cause : Nat) (s : State) :
    ∃ a h, Notes ({ s with cur := { s.cur with alert := a }, health := h } : State) (deaccession cause s) := by
  by_cases hold : s.health.causes.testBit cause = true
  · have hsame : deaccession cause s = s := if_pos hold
    rw [hsame]
    exact ⟨s.cur.alert, s.health, rfl⟩
  · have hrest := deaccession_rest (Bool.not_eq_true _ ▸ hold)
    have hnotes := (s.alert alHealth).postAll_notes evDeaccession [(4, s.health.causes ||| 2 ^ cause)]
    generalize deaccession cause s = t at hrest
    refine ⟨s.cur.alert ||| alHealth, t.health, ?_⟩
    have hall := congrArg (fun z : State =>
      { z with health := t.health, mbox := s.mbox, sent := s.sent, cur := { z.cur with held := s.cur.held } }) hrest
    have hend := congrArg (fun z : State => { z with health := t.health }) hnotes
    exact hall.trans hend

/-- Mismatches of the last 720 hours of powered time (R564). -/
def Health.recent (h : Health) : List Nat := h.mismatches.filter fun x => decide (h.onMs ≤ x + 720 * 3600000)

/-- A mismatch as it is counted, before the entry of the log. -/
def State.mismatched (s : State) : State :=
  ({ s with cur := { s.cur with mismatches := satAdd 32 s.cur.mismatches 1 } } : State).setHealth
    { s.health with mismatches := s.health.recent ++ [s.health.onMs] }

theorem countMismatch_eq (s : State) : countMismatch s =
    if 4 ≤ (s.health.recent ++ [s.health.onMs]).length then deaccession hcLockstep (logEntry 7 0xFF 0 0 s.mismatched)
    else logEntry 7 0xFF 0 0 s.mismatched := rfl

theorem countMismatch_health (s : State) :
    (s.health.recent.length < 3 → (countMismatch s).health.causes = s.health.causes ∧ (countMismatch s).health.total = s.health.total + 1) ∧
      (3 ≤ s.health.recent.length → (countMismatch s).health.causes = s.health.causes ||| 2 ^ hcLockstep) := by
  have hlen : (s.health.recent ++ [s.health.onMs]).length = s.health.recent.length + 1 := List.length_append
  have hkeep : s.mismatched.health.causes = s.health.causes ∧ s.mismatched.health.total = s.health.total := by
    unfold State.mismatched
    rw [State.setHealth_health]
    exact ⟨rfl, rfl⟩
  rw [countMismatch_eq, hlen]
  constructor
  · intro h
    rw [if_neg (by omega), logEntry_causes, (logEntry_counts _ _ _ _ _).2.2, hkeep.1, hkeep.2]
    exact ⟨rfl, rfl⟩
  · intro h
    rw [if_pos (by omega), deaccession_causes, logEntry_causes, hkeep.1]

section
variable {s u : State} (hlog : ∀ h, ({ u with health := h } : State) = s.mismatched.setHealth h)
include hlog

/-- A mismatch that the log holds changes the count and health. -/
theorem mismatched_logged :
    u = { s with cur := { s.cur with mismatches := satAdd 32 s.cur.mismatches 1 }, health := u.health } := hlog u.health

theorem mismatched_notes : ∃ a h, Notes ({ s with
    cur := { s.cur with mismatches := satAdd 32 s.cur.mismatches 1, alert := a }, health := h } : State) u := by
  refine ⟨s.cur.alert, u.health, ?_⟩
  rw [mismatched_logged hlog]

theorem mismatched_deaccession_notes (cause : Nat) : ∃ a h, Notes ({ s with
    cur := { s.cur with mismatches := satAdd 32 s.cur.mismatches 1, alert := a }, health := h } : State) (deaccession cause u) := by
  obtain ⟨a, h, hnotes⟩ := deaccession_notes cause u
  refine ⟨a, h, notes_trans ?_ hnotes⟩
  rw [mismatched_logged hlog]

end

/-- What a mismatch changes besides health. -/
theorem countMismatch_notes (s : State) : ∃ a h, Notes ({ s with
    cur := { s.cur with mismatches := satAdd 32 s.cur.mismatches 1, alert := a }, health := h } : State) (countMismatch s) := by
  rw [countMismatch_eq]
  split_ifs
  · exact mismatched_deaccession_notes (logEntry_rest 7 0xFF 0 0 s.mismatched) hcLockstep
  · exact mismatched_notes (logEntry_rest 7 0xFF 0 0 s.mismatched)

theorem countMismatch_fields (s : State) :
    let c := countMismatch s
    c.boot = s.boot ∧ c.cad = s.cad ∧ c.view = s.view ∧ c.cur.restarts = s.cur.restarts ∧
      c.cur.mismatches = satAdd 32 s.cur.mismatches 1 := by
  obtain ⟨a, h, hnotes⟩ := countMismatch_notes s
  exact ⟨hnotes.field State.boot fun _ _ _ _ => rfl, hnotes.field State.cad fun _ _ _ _ => rfl, hnotes.field State.view fun _ _ _ _ => rfl,
    hnotes.field (·.cur.restarts) fun _ _ _ _ => rfl, hnotes.field (·.cur.mismatches) fun _ _ _ _ => rfl⟩

/-! ### Roll-back (R498) -/

/-- The start-up state once an activation has been rolled back. -/
def Boot.rolledBack (b : Boot) : Boot := { b.setImg (1 - b.image) { b.img (1 - b.image) with st := 2 } with st := 2 }

theorem Boot.setImg_image (b : Boot) (i : Nat) (x : Image) : (b.setImg i x).image = b.image := by
  unfold Boot.setImg
  split_ifs <;> rfl

theorem rollBack_notes (reason : Nat) (s : State) : Notes (s.setBoot s.boot.rolledBack) (rollBack reason s) :=
  State.postAll_notes _ _ _

theorem rollBack_boot (reason : Nat) (s : State) : (rollBack reason s).boot = s.boot.rolledBack :=
  (rollBack_notes reason s).field State.boot fun _ _ _ _ => rfl

/-! ### The end of a restart (R483, R497, R498) -/

/-- What of a mailbox tells whether its command has been answered. -/
def Mbox.answer (m : Mbox) : Bool × Bool := (m.busy, m.respValid)

section
variable (s : State)

theorem State.setMb_answer {f : Nat} {m : Mbox} (h : m.answer = (s.mb f).answer) (g : Nat) :
    ((s.setMb f m).mb g).answer = (s.mb g).answer := by
  by_cases hg : f = g
  · subst hg
    rw [State.mb_setMb_self, h]
  · rw [State.mb_setMb_other _ _ _ _ hg]

theorem State.msix_answer (f v g : Nat) : ((s.msix f v).mb g).answer = (s.mb g).answer := by
  obtain ⟨-, -, hself, hother⟩ := s.msix_frame f v
  by_cases hg : g = f
  · subst hg
    have hanswer := congrArg Mbox.answer hself
    exact hanswer
  · rw [hother g hg]

theorem State.writeEvent_answer (e : Held) (g : Nat) : ((s.writeEvent e).mb g).answer = (s.mb g).answer := by
  unfold State.writeEvent
  rw [State.msix_answer]
  exact State.setMb_answer _ (by rfl) g

theorem State.loseEvent_answer (f code g : Nat) : ((s.loseEvent f code).mb g).answer = (s.mb g).answer := by
  unfold State.loseEvent
  exact s.setMb_answer (by rfl) g

theorem State.flushLost_answer (f g : Nat) : ((s.flushLost f).mb g).answer = (s.mb g).answer := by
  unfold State.flushLost
  dsimp only
  split_ifs
  · rw [State.writeEvent_answer]
    exact s.setMb_answer (by rfl) g
  · rfl

theorem State.deliverEvent_answer (e : Held) (g : Nat) : ((s.deliverEvent e).mb g).answer = (s.mb g).answer := by
  unfold State.deliverEvent
  dsimp only
  split_ifs
  · rw [State.writeEvent_answer, State.flushLost_answer]
  · rw [State.loseEvent_answer, State.flushLost_answer]

theorem State.postTo_answer (e : Held) (g : Nat) : ((s.postTo e).mb g).answer = (s.mb g).answer := by
  unfold State.postTo
  split_ifs
  · rfl
  · exact s.loseEvent_answer _ _ g
  · exact s.deliverEvent_answer e g

theorem State.postAll_answer (code : Nat) (payload : List (Nat × Nat)) (g : Nat) :
    ((s.postAll code payload).mb g).answer = (s.mb g).answer :=
  foldl_unchanged (fun u : State => (u.mb g).answer) (fun u _ => u.postTo_answer _ g) _ s

end

/-- Answering the command that the restart caught changes its mailbox and what has been sent. -/
theorem answerCaught_leaves (s : State) (fn : Nat) : Leaves s (answerCaught fn s) := by
  unfold answerCaught
  dsimp only
  split_ifs
  · exact leaves_refl s
  · exact (s.complete_frame fn _ false _ _).1

theorem answerCaught_other {s : State} {fn g : Nat} (h : g ≠ fn) : (answerCaught fn s).mb g = s.mb g := by
  unfold answerCaught
  dsimp only
  split_ifs
  · rfl
  · exact (s.complete_frame fn _ false _ _).2.2.2.2.2.2 g h

theorem answerCaught_self {s : State} {fn : Nat} (h : (s.mb fn).busy = true) : ((answerCaught fn s).mb fn).answer = (false, true) := by
  have hbusy : ¬(!(s.mb fn).busy) = true := by rw [h]; decide
  unfold answerCaught
  dsimp only
  rw [if_neg hbusy]
  obtain ⟨-, -, -, -, hfree, hvalid, -⟩ := s.complete_frame fn
    { opcode := getU (cgetAll (fun _ => 0#8) (s.mb fn).req 0 8) 0 2, seq := getU (cgetAll (fun _ => 0#8) (s.mb fn).req 0 8) 4 4
      error := eRestarted, time := s.time } false (s.mb fn).lastSeq (s.mb fn).stored
  exact Prod.ext hfree hvalid

/-- Every command that a restart caught is answered once the list has been gone through. -/
theorem answerAll_answer {g : Nat} (l : List Nat) (s : State) (h : (s.mb g).answer = (false, true) ∨ (g ∈ l ∧ (s.mb g).busy = true)) :
    ((l.foldl (fun s fn => answerCaught fn s) s).mb g).answer = (false, true) := by
  induction l generalizing s with
  | nil => exact h.resolve_right fun h => List.not_mem_nil h.1
  | cons fn l ih =>
    refine ih _ ?_
    dsimp only
    by_cases hg : g = fn
    · subst hg
      rcases h with h | ⟨-, hbusy⟩
      · have hidle : answerCaught g s = s := by
          have hfree : (!(s.mb g).busy) = true := by
            have hbusy : (s.mb g).busy = false := congrArg Prod.fst h
            rw [hbusy]
            rfl
          exact if_pos hfree
        rw [hidle]
        exact .inl h
      · exact .inl (answerCaught_self hbusy)
    · rw [answerCaught_other hg]
      exact h.imp_right fun ⟨hmem, hbusy⟩ => ⟨(List.mem_cons.mp hmem).resolve_left hg, hbusy⟩

/-- The staged sets of the functions of a list are discarded (R483). -/
theorem discardAll_spec (l : List Nat) (s : State) :
    let t := l.foldl (fun s fn => discardStaged fn s) s
    ({ t with exh := s.exh, cur := { t.cur with staged := s.cur.staged } } : State) = s ∧
      ∀ x, x ∈ t.cur.staged ↔ x ∈ s.cur.staged ∧ x.fn ∉ l := by
  induction l generalizing s with
  | nil => exact ⟨rfl, fun x => ⟨fun h => ⟨h, List.not_mem_nil⟩, fun h => h.1⟩⟩
  | cons fn l ih =>
    obtain ⟨hrest, hmem⟩ := ih (discardStaged fn s)
    have hone := discardStaged_eq fn s
    constructor
    · have hall := congrArg (fun z : State => { z with exh := s.exh, cur := { z.cur with staged := s.cur.staged } }) hrest
      have hstep := congrArg (fun z : State => { z with exh := s.exh, cur := { z.cur with staged := s.cur.staged } }) hone
      exact hall.trans hstep
    · intro x
      have hstaged : (discardStaged fn s).cur.staged = s.cur.staged.filter (·.fn != fn) := congrArg (fun z : State => z.cur.staged) hone
      refine (hmem x).trans ?_
      rw [hstaged, List.mem_filter, bne_iff_ne, List.mem_cons, not_or, and_assoc]

/-- STATE is 1 again, and nothing is held or waits (R497). -/
def State.restarted (s : State) : State :=
  ({ s with cur := { s.cur with restart := none, held := [] } } : State).setBoot { s.boot with st := 1 }

/-- The events that were held have been written. -/
def State.toldHeld (s : State) : State := s.cur.held.foldl (fun s e => s.deliverEvent e) s.restarted

/-- A damaged journal costs every function its staged set (R483). -/
def State.replayed (s : State) (damaged : Bool) : State :=
  if damaged then ((List.range (s.toldHeld.boot.numVfs + 1)).foldl (fun s fn => discardStaged fn s) s.toldHeld).postAll evStageDiscarded [(1, 1)]
  else s.toldHeld

/-- The commands that the restart caught have been answered, and every function is told of the restart. -/
def State.answered (s : State) (cause us : Nat) (damaged : Bool) : State :=
  ((List.range ((s.replayed damaged).boot.numVfs + 1)).foldl (fun s fn => answerCaught fn s) (s.replayed damaged)).postAll evRestart
    [(1, cause), (3, 0), (4, us)]

theorem restartDone_eq {s : State} {cause at0 : Nat} (h : s.cur.restart = some (cause, at0)) (us : Nat) (damaged : Bool) (t : Nat) :
    restartDone us damaged t s =
      if s.boot.st == 3 then activated ((s.tick t).answered cause us damaged) else (s.tick t).answered cause us damaged := by
  have htick : (s.tick t).cur.restart = some (cause, at0) := h
  unfold restartDone
  dsimp only
  rw [htick]
  rfl

section
variable (s : State) (cause us : Nat) (damaged : Bool)

theorem toldHeld_leaves : Leaves s.restarted s.toldHeld := leaves_foldl (fun u e => u.deliverEvent_frame e) _ _

theorem toldHeld_answer (g : Nat) : (s.toldHeld.mb g).answer = (s.mb g).answer :=
  foldl_unchanged (fun u : State => (u.mb g).answer) (fun u e => u.deliverEvent_answer e g) _ _

/-- What the journal leaves: all but the staged set and the exhibits of damaged ones stands as it was. -/
theorem replayed_spec :
    let w := s.replayed damaged
    Leaves s.restarted { w with exh := s.exh, cur := { w.cur with staged := s.cur.staged } } ∧
      (damaged = false → w.cur.staged = s.cur.staged ∧ w.exh = s.exh) ∧
      (damaged = true → ∀ x, x ∈ w.cur.staged ↔ x ∈ s.cur.staged ∧ s.boot.numVfs < x.fn) ∧
      ∀ g, (w.mb g).answer = (s.mb g).answer := by
  have htold := toldHeld_leaves s
  have hanswer := toldHeld_answer s
  obtain ⟨hboot, hcur, hexh, -, -, -⟩ := leaves_at htold
  have hvfs : s.toldHeld.boot.numVfs = s.boot.numVfs := (congrArg Boot.numVfs hboot).trans rfl
  have hstaged : s.toldHeld.cur.staged = s.cur.staged := (congrArg Cur.staged hcur).trans rfl
  unfold State.replayed
  generalize s.toldHeld = u at htold hanswer hboot hcur hexh hvfs hstaged
  cases damaged with
  | false =>
    rw [if_neg (by decide)]
    refine ⟨?_, fun _ => ⟨hstaged, hexh⟩, fun h => absurd h (by decide), hanswer⟩
    have hall := congrArg (fun z : State => { z with exh := s.exh, cur := { z.cur with staged := s.cur.staged } }) htold
    exact hall
  | true =>
    rw [if_pos rfl]
    obtain ⟨hrest, hmem⟩ := discardAll_spec (List.range (u.boot.numVfs + 1)) u
    have hmbox := congrArg State.mbox hrest
    have hst := congrArg (fun z : State => z.boot.st) hrest
    generalize (List.range (u.boot.numVfs + 1)).foldl (fun s fn => discardStaged fn s) u = v at hrest hmem hmbox hst
    have hone : v.boot.st = 1 := hst.trans (congrArg Boot.st hboot)
    have hpost := v.postAll_frame evStageDiscarded [(1, 1)] hone
    obtain ⟨-, hpcur, -⟩ := leaves_at hpost
    refine ⟨?_, fun h => absurd h (by decide), fun _ x => ?_, fun g => ?_⟩
    · have h1 := congrArg (fun z : State => { z with
        exh := s.exh, cur := { z.cur with staged := s.cur.staged }, mbox := s.restarted.mbox, sent := s.restarted.sent }) hpost
      have h2 := congrArg (fun z : State => { z with
        exh := s.exh, cur := { z.cur with staged := s.cur.staged }, mbox := s.restarted.mbox, sent := s.restarted.sent }) hrest
      have h3 := congrArg (fun z : State => { z with exh := s.exh, cur := { z.cur with staged := s.cur.staged } }) htold
      exact h1.trans (h2.trans h3)
    · have hpstaged : (v.postAll evStageDiscarded [(1, 1)]).cur.staged = v.cur.staged := congrArg Cur.staged hpcur
      rw [hpstaged, hmem x, hstaged, hvfs, List.mem_range, Nat.not_lt, Nat.succ_le_iff]
    · have hmb : (v.mb g).answer = (u.mb g).answer := congrArg (fun t => (tget ({} : Mbox) t g).answer) hmbox
      rw [State.postAll_answer, hmb, hanswer]

/-- The end of a restart of the running image. -/
theorem answered_spec :
    let w := s.answered cause us damaged
    Leaves s.restarted { w with exh := s.exh, cur := { w.cur with staged := s.cur.staged } } ∧
      (damaged = false → w.cur.staged = s.cur.staged ∧ w.exh = s.exh) ∧
      (damaged = true → ∀ x, x ∈ w.cur.staged ↔ x ∈ s.cur.staged ∧ s.boot.numVfs < x.fn) ∧
      ∀ fn, fn ≤ s.boot.numVfs → (s.mb fn).busy = true → (w.mb fn).answer = (false, true) := by
  obtain ⟨hrest, hsame, hdamaged, hanswer⟩ := replayed_spec s damaged
  have hboot : (s.replayed damaged).boot = { s.boot with st := 1 } := (leaves_at hrest).1
  unfold State.answered
  generalize s.replayed damaged = u at hrest hsame hdamaged hanswer hboot
  have hvfs : u.boot.numVfs = s.boot.numVfs := (congrArg Boot.numVfs hboot).trans rfl
  have hcaught : Leaves u ((List.range (u.boot.numVfs + 1)).foldl (fun s fn => answerCaught fn s) u) :=
    leaves_foldl (fun v fn => answerCaught_leaves v fn) _ u
  have hall (fn : Nat) (hfn : fn ≤ s.boot.numVfs) (hbusy : (s.mb fn).busy = true) :=
    answerAll_answer (g := fn) (List.range (u.boot.numVfs + 1)) u
      (.inr ⟨List.mem_range.mpr (by omega), (congrArg Prod.fst (hanswer fn)).trans hbusy⟩)
  generalize (List.range (u.boot.numVfs + 1)).foldl (fun s fn => answerCaught fn s) u = v at hcaught hall
  have hone : v.boot.st = 1 := (congrArg Boot.st (leaves_at hcaught).1).trans (congrArg Boot.st hboot)
  have hleaves := leaves_trans hcaught (v.postAll_frame evRestart [(1, cause), (3, 0), (4, us)] hone)
  obtain ⟨-, hcur, hexh, -⟩ := leaves_at hleaves
  have hstaged := congrArg Cur.staged hcur
  refine ⟨?_, fun h => ⟨hstaged.trans (hsame h).1, hexh.trans (hsame h).2⟩, fun h x => ?_, fun fn hfn hbusy => ?_⟩
  · have hstep :=
      congrArg (fun z : State => { z with exh := s.exh, cur := { z.cur with staged := s.cur.staged } }) hleaves
    exact leaves_trans hrest hstep
  · rw [hstaged]
    exact hdamaged h x
  · rw [State.postAll_answer]
    exact hall fn hfn hbusy

end

theorem Boot.setImg_st (b : Boot) (i : Nat) (x : Image) : (b.setImg i x).st = b.st := by
  unfold Boot.setImg
  split_ifs <;> rfl

/-- The start-up state in which the other image runs (R498). -/
def Boot.swapped (b : Boot) : Boot :=
  let n := 1 - b.image
  { (b.setImg n { b.img n with st := 0, erase := true }).setImg b.image { b.img b.image with st := 0, erase := true } with image := n }

theorem activated_eq (w : State) :
    let v := markActive (1 - w.boot.image) (w.setBoot w.boot.swapped)
    activated w = v.postAll evFwActivated [(4, v.boot.version (1 - w.boot.image))] := rfl

theorem Boot.swapped_st (b : Boot) : b.swapped.st = b.st := (Boot.setImg_st _ _ _).trans (Boot.setImg_st _ _ _)

/-- What an image that marks itself active leaves in the start-up state (R498). -/
def Boot.marked (b : Boot) (i : Nat) : Boot :=
  { b with select := i, tryFirst := none, gen := (b.gen + 1) % 2 ^ 32, minSvn := max b.minSvn (b.img i).svn }

theorem markActive_eq (i : Nat) (v : State) :
    markActive i v = logEntry 10 i 0 (v.boot.version i) (v.setBoot (v.boot.marked i)) := rfl

theorem markActive_total (i : Nat) (v : State) : (markActive i v).health.total = v.health.total + 1 := by
  rw [markActive_eq, (logEntry_counts _ _ _ _ _).2.2]
  rfl

theorem logEntry_control_of (kind unit sub detail : Nat) (v : State) :
    (logEntry kind unit sub detail v).boot = v.boot ∧ (logEntry kind unit sub detail v).cur = v.cur ∧
      (logEntry kind unit sub detail v).exh = v.exh ∧ (logEntry kind unit sub detail v).mbox = v.mbox := by
  have hrest := logEntry_rest kind unit sub detail v v.health
  generalize logEntry kind unit sub detail v = u at hrest
  have hboot := congrArg State.boot hrest
  have hcur := congrArg State.cur hrest
  have hexh := congrArg State.exh hrest
  have hmbox := congrArg State.mbox hrest
  exact ⟨hboot, hcur, hexh, hmbox⟩

/-- What the activation of the other image changes (R498). -/
theorem activated_spec (w : State) (hst : w.boot.st = 1) :
    let t := activated w
    t.boot = w.boot.swapped.marked (1 - w.boot.image) ∧ t.health.total = w.health.total + 1 ∧ t.cur = w.cur ∧ t.exh = w.exh ∧
      ∀ g, (t.mb g).answer = (w.mb g).answer := by
  have htotal := markActive_total (1 - w.boot.image) (w.setBoot w.boot.swapped)
  obtain ⟨hboot, hcur, hexh, hmbox⟩ := logEntry_control_of 10 (1 - w.boot.image) 0 ((w.setBoot w.boot.swapped).boot.version (1 - w.boot.image))
    ((w.setBoot w.boot.swapped).setBoot ((w.setBoot w.boot.swapped).boot.marked (1 - w.boot.image)))
  rw [← markActive_eq] at hboot hcur hexh hmbox
  dsimp only
  rw [activated_eq]
  generalize markActive (1 - w.boot.image) (w.setBoot w.boot.swapped) = v at htotal hboot hcur hexh hmbox
  have hone : v.boot.st = 1 := (congrArg Boot.st hboot).trans ((Boot.swapped_st w.boot).trans hst)
  obtain ⟨hpboot, hpcur, hpexh, -⟩ := leaves_at (v.postAll_frame evFwActivated [(4, v.boot.version (1 - w.boot.image))] hone)
  have hhealth := State.postAll_health v evFwActivated [(4, v.boot.version (1 - w.boot.image))]
  refine ⟨hpboot.trans hboot, (congrArg Health.total hhealth).trans htotal, hpcur.trans hcur, hpexh.trans hexh, fun g => ?_⟩
  rw [State.postAll_answer]
  exact congrArg (fun t => (tget ({} : Mbox) t g).answer) hmbox

/-- Settles O57: a restart is a list of steps of which each changes little. -/
theorem curatorEvents : Obligations.CuratorEvents := by
  refine fun us reason t damaged s => ⟨fun h => ?idle, fun h c hc => ?watchdog, fun h => ?heartbeat, fun h => ?mismatch, fun h => ?failsTest,
    fun h => ?noActivation, fun hst hreason => ?rollBack, fun h => ?noRestart, fun cause at0 h => ?restart⟩
  case idle =>
    have hoff : s.curatorRuns = false := Bool.eq_false_iff.mpr (mt curatorRuns_iff.mp h)
    refine ⟨congrArg Host.Outcome.next ?_, congrArg Host.Outcome.next ?_, fun hst => congrArg Host.Outcome.next ?_⟩
    · rw [watchdogExpiry_eq, hoff, if_neg (by decide)]
    · rw [heartbeat_eq, hoff]
      rfl
    · rw [lockstepMismatch_eq, hoff, if_neg (by decide), if_neg hst]
  case watchdog =>
    subst hc
    exact congrArg Host.Outcome.next ((watchdogExpiry_eq t).trans (if_pos (curatorRuns_iff.mpr h)))
  case heartbeat =>
    have hon : ¬(!s.curatorRuns) = true := by
      rw [curatorRuns_iff.mpr h]
      decide
    exact congrArg Host.Outcome.next ((heartbeat_eq t).trans (if_neg hon))
  case mismatch =>
    obtain ⟨hboot, hcad, hview, hrestarts, hcount⟩ := countMismatch_fields (s.tick t)
    obtain ⟨hfew, hmany⟩ := countMismatch_health (s.tick t)
    have hrun : lockstepMismatch t s = restartBegins 0 (countMismatch (s.tick t)) :=
      (lockstepMismatch_eq t).trans (if_pos (curatorRuns_iff.mpr h))
    refine ⟨_, congrArg Host.Outcome.next hrun, ?_⟩
    generalize countMismatch (s.tick t) = c at hboot hcad hview hrestarts hcount hfew hmany
    refine ⟨congrArg (fun b : Boot => { b with st := 2 }) hboot, congrArg (fun c : Cad => some (0, c.now)) hcad,
      congrArg (fun n => satAdd 32 n 1) hrestarts, hcount, hview, hfew, hmany⟩
  case failsTest =>
    obtain ⟨hboot, -, -, -, hcount⟩ := countMismatch_fields (s.tick t)
    have hoff : ¬s.curatorRuns = true := fun hon => by
      have hone := (curatorRuns_iff.mp hon).1
      omega
    have hrun : lockstepMismatch t s = rollBack 1 (countMismatch (s.tick t)) :=
      (lockstepMismatch_eq t).trans ((if_neg hoff).trans (if_pos h))
    have hback := rollBack_boot 1 (countMismatch (s.tick t))
    have hmism := (rollBack_notes 1 (countMismatch (s.tick t))).field (·.cur.mismatches) fun _ _ _ _ => rfl
    rw [hboot] at hback
    refine ⟨_, congrArg Host.Outcome.next hrun, (congrArg Boot.st hback).trans rfl, ?_, hmism.trans hcount⟩
    exact (congrArg Boot.image hback).trans (Boot.setImg_image _ _ _)
  case noActivation =>
    have hno : ¬((s.tick t).boot.st = 3 ∧ reason ≤ 1) := fun hboth => by
      rcases h with h | h
      · exact h hboth.1
      · omega
    exact congrArg Host.Outcome.next (if_neg hno)
  case rollBack =>
    have hrun : activationTimeout reason t s = rollBack reason (s.tick t) := if_pos ⟨hst, hreason⟩
    refine ⟨_, congrArg Host.Outcome.next hrun, rollBack_boot reason (s.tick t), ?_⟩
    rw [rollBack_boot]
    exact rollBack_notes reason (s.tick t)
  case noRestart =>
    have htick : (s.tick t).cur.restart = none := h
    have hrun : restartDone us damaged t s = s.tick t := by
      unfold restartDone
      dsimp only
      rw [htick]
    exact congrArg Host.Outcome.next hrun
  case restart =>
    have hcauses := restartDone_causes us damaged t s
    have hreply := lastRun_restartDone us damaged t s
    have hlast (fn : Nat) : ((restartDone us damaged t s).mb fn).lastSeq = (s.mb fn).lastSeq ∧
        ((restartDone us damaged t s).mb fn).stored = (s.mb fn).stored := Prod.mk.inj (congrFun hreply fn)
    have hrun := restartDone_eq h us damaged t
    refine ⟨_, rfl, ?_⟩
    generalize restartDone us damaged t s = t' at hcauses hlast hrun
    obtain ⟨hrest, hsame, hdamaged, hanswer⟩ := answered_spec (s.tick t) cause us damaged
    generalize (s.tick t).answered cause us damaged = w at hrest hsame hdamaged hanswer hrun
    obtain ⟨hboot, hcur, -⟩ := leaves_at hrest
    have hboot : w.boot = { s.boot with st := 1 } := hboot
    have hhealth := congrArg State.health hrest
    have hhealth : w.health = s.health := hhealth
    have hrestart := congrArg Cur.restart hcur
    have hheld := congrArg Cur.held hcur
    have hcommitted := congrArg Cur.committed hcur
    have hpending := congrArg Cur.pending hcur
    by_cases hst : s.boot.st = 3
    · have hone : w.boot.st = 1 := congrArg Boot.st hboot
      obtain ⟨hb, htotal, hc, he, ha⟩ := activated_spec w hone
      have hrun : t' = activated w := hrun.trans (if_pos (beq_iff_eq.mpr hst))
      rw [← hrun] at hb htotal hc he ha
      have himage : w.boot.image = s.boot.image := (congrArg Boot.image hboot).trans rfl
      rw [himage] at hb
      rw [hc, he]
      refine ⟨?_, hrestart, hheld, hcommitted, hpending, hcauses, hsame, hdamaged, fun fn hfn hbusy => ?_, fun hno => absurd hst hno,
        fun _ => ⟨?_, ?_, ?_, ?_⟩⟩
      · exact (congrArg Boot.st hb).trans ((Boot.swapped_st w.boot).trans hone)
      · obtain ⟨hfree, hvalid⟩ := Prod.mk.inj ((ha fn).trans (hanswer fn hfn hbusy))
        exact ⟨hfree, hvalid, (hlast fn).1, (hlast fn).2⟩
      · exact (congrArg Boot.image hb).trans (congrArg (1 - ·) himage)
      · exact congrArg Boot.select hb
      · exact congrArg Boot.tryFirst hb
      · rw [htotal, hhealth]
    · have hrun : t' = w := hrun.trans (if_neg (mt beq_iff_eq.mp hst))
      rw [hrun] at hcauses hlast ⊢
      refine ⟨congrArg Boot.st hboot, hrestart, hheld, hcommitted, hpending, hcauses, hsame, hdamaged, fun fn hfn hbusy => ?_,
        fun _ => ⟨hboot, hhealth⟩, fun h => absurd h hst⟩
      obtain ⟨hfree, hvalid⟩ := Prod.mk.inj (hanswer fn hfn hbusy)
      exact ⟨hfree, hvalid, (hlast fn).1, (hlast fn).2⟩

end Sys2Proof.Machine
end

section
/-! SUPPORT. What comes up with the device: domains, stacks and their lanes (R406 to R411, R522, R580). -/
namespace Sys2Proof.Machine

/-! ### Domains that get power (R522) -/

theorem State.powerUp_rest (s : State) (d : Nat) :
    ({ s.powerUp d with pow := { (s.powerUp d).pow with domains := s.pow.domains } } : State) = s := by
  unfold State.powerUp
  split_ifs <;> rfl

theorem State.isUp_powerUp (s : State) (d e : Nat) : (s.powerUp d).isUp e = true ↔ s.isUp e = true ∨ (e = d ∧ d ∉ s.pow.down) := by
  unfold State.powerUp
  split_ifs with hdown
  · have hin := List.contains_iff_mem.mp hdown
    exact ⟨.inl, fun h => h.resolve_right fun h => h.2 hin⟩
  · have hout : d ∉ s.pow.down := fun h => hdown (List.contains_iff_mem.mpr h)
    have hbit : ({ s with pow := { s.pow with domains := s.pow.domains ||| 2 ^ d } } : State).isUp e =
        (s.pow.domains ||| 2 ^ d).testBit e := rfl
    rw [hbit, Nat.testBit_or, Bool.or_eq_true, Nat.testBit_two_pow, decide_eq_true_iff]
    exact or_congr Iff.rfl ⟨fun h => ⟨h.symm, hout⟩, fun h => h.1.symm⟩

section
variable (l : List Nat) (s : State)

theorem powerUps_rest : ({ l.foldl (fun s d => s.powerUp d) s with
    pow := { (l.foldl (fun s d => s.powerUp d) s).pow with domains := s.pow.domains } } : State) = s := by
  induction l generalizing s with
  | nil => rfl
  | cons d l ih =>
    have hone := s.powerUp_rest d
    have hall := congrArg (fun z : State => { z with pow := { z.pow with domains := s.pow.domains } }) (ih (s.powerUp d))
    exact hall.trans hone

theorem powerUps_isUp (e : Nat) : (l.foldl (fun s d => s.powerUp d) s).isUp e = true ↔ s.isUp e = true ∨ (e ∈ l ∧ e ∉ s.pow.down) := by
  induction l generalizing s with
  | nil => exact ⟨.inl, fun h => h.resolve_right fun h => List.not_mem_nil h.1⟩
  | cons d l ih =>
    have hdown : (s.powerUp d).pow.down = s.pow.down := by
      have hrest := congrArg (fun z : State => z.pow.down) (s.powerUp_rest d)
      exact hrest
    refine (ih (s.powerUp d)).trans ?_
    rw [State.isUp_powerUp, hdown, List.mem_cons]
    constructor
    · rintro ((h | ⟨rfl, h⟩) | ⟨h, hn⟩)
      · exact .inl h
      · exact .inr ⟨.inl rfl, h⟩
      · exact .inr ⟨.inr h, hn⟩
    · rintro (h | ⟨rfl | h, hn⟩)
      · exact .inl (.inl h)
      · exact .inl (.inr ⟨rfl, hn⟩)
      · exact .inr ⟨h, hn⟩

end

section
variable (ds : List Nat) (s : State)

/-- Domains change nothing but which of them have power. -/
theorem powerUpAll_rest : ({ powerUpAll ds s with pow := { (powerUpAll ds s).pow with domains := s.pow.domains } } : State) = s :=
  powerUps_rest _ s

theorem powerUpAll_isUp {d : Nat} (hd : d < 31) :
    (powerUpAll ds s).isUp d = true ↔ s.isUp d = true ∨ (d ∈ ds ∧ d ∉ s.pow.down) := by
  refine (powerUps_isUp _ s d).trans (or_congr Iff.rfl (and_congr ?_ Iff.rfl))
  rw [List.mem_filter, List.contains_iff_mem]
  exact ⟨fun h => h.2, fun h => ⟨List.mem_append_right _ (List.mem_range.mpr hd), h⟩⟩

end

/-! ### Power, start-up, queues and the states of the stacks -/

/-- What start-up sets and no lane, calibration or event changes. -/
def State.standing (s : State) : Pow × Boot × Table Queue × Nat × Nat := (s.pow, s.boot, s.queue, (s.stk 0).st, (s.stk 1).st)

theorem standing_fields {s t : State} (h : t.standing = s.standing) :
    t.pow = s.pow ∧ t.boot = s.boot ∧ t.queue = s.queue ∧ (t.stk 0).st = (s.stk 0).st ∧ (t.stk 1).st = (s.stk 1).st := by
  obtain ⟨hpow, hrest⟩ := Prod.mk.inj h
  obtain ⟨hboot, hrest⟩ := Prod.mk.inj hrest
  obtain ⟨hqueue, hstacks⟩ := Prod.mk.inj hrest
  obtain ⟨h0, h1⟩ := Prod.mk.inj hstacks
  exact ⟨hpow, hboot, hqueue, h0, h1⟩

theorem standing_of_control {s t : State} (h : t.control = s.control) : t.standing = s.standing := by
  have hall := congrArg State.standing h
  exact hall

theorem State.post_standing (s : State) (code : Nat) (l : List (Nat × Nat)) (fn : Nat) : (s.post code l fn).standing = s.standing :=
  standing_of_control (State.post_control s code l fn)

theorem State.setHealth_standing (s : State) (h : Health) : (s.setHealth h).standing = s.standing := rfl

theorem logEntry_standing (kind unit sub detail : Nat) (s : State) : (logEntry kind unit sub detail s).standing = s.standing := by
  unfold logEntry
  exact State.setHealth_standing _ _

theorem deaccession_standing (cause : Nat) (s : State) : (deaccession cause s).standing = s.standing := by
  unfold deaccession
  split_ifs
  · rfl
  · extract_lets c
    rw [logEntry_standing]
    exact (standing_of_control (State.postAll_control _ _ _)).trans rfl

theorem State.stk_setStk_other (s : State) {k j : Nat} (x : Stack) (h : j ≠ k) : (s.setStk k x).stk j = s.stk j :=
  tget_tset_other _ _ _ _ _ (Ne.symm h)

theorem State.setStk_standing {s : State} {k : Nat} {x : Stack} (h : x.st = (s.stk k).st) : (s.setStk k x).standing = s.standing := by
  have hst (j : Nat) : ((s.setStk k x).stk j).st = (s.stk j).st := by
    by_cases hj : j = k
    · subst hj
      rw [State.stk_setStk_self, h]
    · rw [State.stk_setStk_other _ _ hj]
  exact congrArg₂ (fun a b => (s.pow, s.boot, s.queue, a, b)) (hst 0) (hst 1)

/-! ### Lanes (R406 to R411) -/

theorem freeStore_standing (n k : Nat) (s : State) : (freeStore n k s).standing = s.standing := by
  unfold freeStore
  dsimp only
  rw [State.post_standing]
  generalize hu : ({ s with cur := { s.cur with committed := _ } } : State) = u
  have hkeep : u.standing = s.standing := by
    rw [← hu]
    rfl
  exact (standing_of_control (u.setSto_control n _)).trans hkeep

theorem shedStores_standing (k cap : Nat) (l : List Nat) (s : State) : (shedStores k cap l s).standing = s.standing := by
  induction l generalizing s with
  | nil => rfl
  | cons n l ih =>
    unfold shedStores
    split_ifs
    · rfl
    · rw [ih, freeStore_standing]

theorem retirePc_standing (k p : Nat) (boot : Bool) (s : State) : (retirePc k p boot s).standing = s.standing := by
  unfold retirePc
  by_cases hold : s.health.pcs.contains (k, p) = true
  · rw [if_pos hold]
  · rw [if_neg hold]
    extract_lets _ u v ns w x
    have hv : v.standing = s.standing := by
      unfold v
      rw [deaccession_standing, logEntry_standing]
      exact State.setHealth_standing _ _
    clear_value v
    have hw : w.standing = v.standing := by
      unfold w
      split_ifs
      · rfl
      · exact shedStores_standing _ _ _ _
    clear_value w
    refine (State.setStk_standing ?_).trans (hw.trans hv)
    rfl

theorem laneFailed_standing (k p lane : Nat) (boot : Bool) (s : State) : (laneFailed k p lane boot s).standing = s.standing := by
  unfold laneFailed
  by_cases hold : s.health.lanes.any (fun l => l.1 == k && l.2.1 == p && l.2.2.1 == lane) = true
  · rw [if_pos hold]
  · rw [if_neg hold]
    extract_lets used busy spare u _ v x _ w
    have hv : v.standing = s.standing := by
      unfold v u
      rw [State.setHealth_standing, logEntry_standing, State.post_standing]
    have hw : w.standing = v.standing := by
      unfold w
      split_ifs
      · rfl
      · exact State.setStk_standing rfl
    clear_value w v
    cases spare with
    | none => exact (retirePc_standing _ _ _ _).trans hv
    | some sp =>
      dsimp only
      split_ifs
      · rw [deaccession_standing, hw, hv]
      · rw [hw, hv]

theorem trainLane_standing (k p : Nat) (boot : Bool) (r : LaneRun) (s : State) : (trainLane k p boot r s).standing = s.standing := by
  unfold trainLane
  generalize (if 4 < r.lane then ([], none) else judgeLane r (s.deadLanes k p)) = found
  obtain ⟨bad, tap⟩ := found
  dsimp only
  rw [foldl_unchanged State.standing (fun u lane => laneFailed_standing k p lane boot u)]
  cases tap with
  | none => rfl
  | some t => exact State.setStk_standing rfl

/-! ### Stacks that return to service (R406, R415) -/

/-- A pseudo-channel trains at a temperature that nothing states. -/
def wakePc (k : Nat) (s : State) (p : Nat) : State :=
  let u := s.freeInt.2
  u.setStk k ((u.stk k).setPc p { (u.stk k).pc p with temp := s.freeInt.1 })

theorem wakeStack_train (k : Nat) (s : State) :
    let u := s.setStk k { s.stk k with st := 0 }
    wakeStack true k s = (u.service k).foldl (wakePc k) u := rfl

/-- A stack wakes: it is in service, and nothing else that start-up sets changes. -/
theorem wakeStack_spec (train : Bool) (k : Nat) (s : State) :
    let t := wakeStack train k s
    t.pow = s.pow ∧ t.boot = s.boot ∧ t.queue = s.queue ∧ (t.stk k).st = 0 ∧ ∀ j, j ≠ k → (t.stk j).st = (s.stk j).st := by
  have hst (u : State) (x : Stack) (hx : x.st = (u.stk k).st) (j : Nat) : ((u.setStk k x).stk j).st = (u.stk j).st := by
    by_cases hj : j = k
    · subst hj
      rw [State.stk_setStk_self, hx]
    · rw [State.stk_setStk_other _ _ hj]
  obtain ⟨hpow, hboot, hqueue, hself, hother⟩ : let u := s.setStk k { s.stk k with st := 0 }
      u.pow = s.pow ∧ u.boot = s.boot ∧ u.queue = s.queue ∧ (u.stk k).st = 0 ∧ ∀ j, j ≠ k → (u.stk j).st = (s.stk j).st :=
    ⟨rfl, rfl, rfl, congrArg Stack.st (State.stk_setStk_self _ _ _), fun j hj => congrArg Stack.st (State.stk_setStk_other _ _ hj)⟩
  cases train with
  | false => exact ⟨hpow, hboot, hqueue, hself, hother⟩
  | true =>
    rw [wakeStack_train]
    generalize s.setStk k { s.stk k with st := 0 } = u at hpow hboot hqueue hself hother
    have hpc (v : State) (p : Nat) : (wakePc k v p).pow = v.pow ∧ (wakePc k v p).boot = v.boot ∧ (wakePc k v p).queue = v.queue ∧
        ∀ j, ((wakePc k v p).stk j).st = (v.stk j).st := ⟨rfl, rfl, rfl, hst v.freeInt.2 _ rfl⟩
    refine ⟨?_, ?_, ?_, ?_, fun j hj => ?_⟩
    · exact (foldl_unchanged State.pow (fun v p => (hpc v p).1) _ u).trans hpow
    · exact (foldl_unchanged State.boot (fun v p => (hpc v p).2.1) _ u).trans hboot
    · exact (foldl_unchanged State.queue (fun v p => (hpc v p).2.2.1) _ u).trans hqueue
    · exact (foldl_unchanged (fun v : State => (v.stk k).st) (fun v p => (hpc v p).2.2.2 k) _ u).trans hself
    · exact (foldl_unchanged (fun v : State => (v.stk j).st) (fun v p => (hpc v p).2.2.2 j) _ u).trans (hother j hj)

end Sys2Proof.Machine
end

section
/-! PROOF. Start-up, its attempts, cold reset and boundary scan (R566 to R584). -/
namespace Sys2Proof.Machine

/-! ### Calibrations and galleries leave what start-up has set -/

section
variable (s : State)

theorem refMismatch_standing : (refMismatch s).2.standing = s.standing := by
  unfold refMismatch
  split <;> rfl

theorem crossCheck_standing : (crossCheck s).standing = s.standing := by
  unfold crossCheck
  split
  · rfl
  · extract_lets lim bad _ u v
    have hv : v.standing = s.standing := by
      unfold v State.staleFrom
      split_ifs <;> rfl
    clear_value v
    split_ifs
    · have hdraw := refMismatch_standing v
      generalize refMismatch v = draw at hdraw
      exact (State.post_standing _ _ _ _).trans (hdraw.trans hv)
    · exact hv

theorem takeRef_standing (c : Nat) (code : Int) : (takeRef c code s).standing = s.standing := by
  unfold takeRef
  rw [crossCheck_standing]
  rfl

theorem takeRefs_standing (r : CalReading) : (takeRefs r s).standing = s.standing := by
  unfold takeRefs
  dsimp only
  rw [foldl_unchanged State.standing (fun u z => takeRef_standing u 1 z), foldl_unchanged State.standing fun u p => ?_]
  rw [takeRef_standing, takeRef_standing]

theorem hkClose_standing (h st lo : Nat) : (hkClose h st lo s).standing = s.standing := by
  unfold hkClose
  split_ifs
  · exact standing_of_control (s.closeGap_control h st lo)
  · rfl

theorem calReport_standing (k u res : Nat) (sched late : Bool) (r : CalResult) (old new : Int) (lo hi : Nat) :
    (calReport k u res sched late r old new lo hi s).standing = s.standing := by
  unfold calReport
  have hdraw := refMismatch_standing s
  generalize refMismatch s = draw at hdraw
  obtain ⟨m, v⟩ := draw
  have hset (h : Hk) : (v.setHk h).standing = s.standing := hdraw
  dsimp only
  by_cases hnone : v.hkBlock.u 3 1 = 0xFF
  · rw [if_pos hnone]
    exact hset _
  · rw [if_neg hnone, standing_of_control (State.produce_control _ _), hkClose_standing, hset]

theorem judgeWindow_standing (w : CalWin) (x : CalReading) (t : Nat) : (judgeWindow w x t s).standing = s.standing := by
  have hmarks (l : List Nat) (u : State) : (l.foldl (fun (s : State) c => s.setCh c ((s.ch c).mark 5 qUnsettled t (some (t + 1024)))) u).standing =
      u.standing := by
    refine foldl_unchanged State.standing (fun u c => ?_) l u
    rfl
  unfold judgeWindow
  extract_lets k u tag v r bad old u'
  have hv : v.standing = s.standing := takeRefs_standing s x
  have hu' : u'.standing = s.standing := hv
  have hstale (u : State) (tag t : Nat) : (u.staleFrom tag t).standing = u.standing := by
    unfold State.staleFrom
    split_ifs <;> rfl
  clear_value u' v
  by_cases hgood : bad.isEmpty = true
  · rw [if_pos hgood]
    have hdraw (c : Prop) [Decidable c] (z : Int) : (if c then u'.freeInt else (z, u')).2.standing = s.standing := by
      split_ifs <;> exact hu'
    have hdraw := hdraw (k = 5 ∨ r.error % 100 ≠ 0) (old - r.error / 100)
    generalize (if k = 5 ∨ r.error % 100 ≠ 0 then u'.freeInt else (old - r.error / 100, u')) = draw at hdraw
    obtain ⟨new, w⟩ := draw
    dsimp only
    rw [hmarks, calReport_standing]
    exact hdraw
  · rw [if_neg hgood]
    have hdraw (c : Prop) [Decidable c] : (if c then (0, v) else v.freeNat).2.standing = s.standing := by
      split_ifs <;> exact hv
    have hdraw := hdraw (bad.length = 1)
    generalize (if bad.length = 1 then (0, v) else v.freeNat) = draw at hdraw
    obtain ⟨f, y⟩ := draw
    dsimp only
    rw [State.post_standing, hstale, calReport_standing]
    exact hdraw

theorem bootGalleryFails_standing (g : Nat) : (bootGalleryFails g s).standing = s.standing := by
  unfold bootGalleryFails
  split_ifs
  · rfl
  · dsimp only
    rw [State.post_standing, deaccession_standing, logEntry_standing]
    rfl

theorem takeStream_standing (d : StreamDef) (cause unit lo : Nat) : (takeStream d cause unit lo s).standing = s.standing :=
  standing_of_control (takeStream_control s d cause unit lo)

theorem openLoss_standing (l : Loss) : (openLoss l s).standing = s.standing := by
  unfold openLoss
  extract_lets same old ls u
  have hu : u.standing = s.standing := rfl
  clear_value u
  refine (foldl_unchanged State.standing (fun v d => ?_) _ u).trans hu
  by_cases htakes : l.takes d = true
  · rw [if_pos htakes]
    exact takeStream_standing v _ _ _ _
  · rw [if_neg htakes]

theorem outOfService_standing (p g lo : Nat) : (outOfService p g lo s).standing = s.standing := by
  unfold outOfService
  extract_lets _ u hs v w
  have hv : v.standing = s.standing := rfl
  have hw : w.standing = v.standing := by
    refine foldl_unchanged State.standing (fun x d => ?_) _ v
    dsimp only
    split
    · split_ifs <;> rfl
    · rfl
  rw [openLoss_standing, hw, hv]

theorem setBootMap_standing : (setBootMap s).standing = s.standing := by
  unfold setBootMap
  extract_lets m blocks _ u
  have hu : u.standing = s.standing := rfl
  clear_value u
  exact (foldl_unchanged State.standing (fun v p => outOfService_standing v p p 0) _ u).trans hu

end

/-! ### The start of an image (R580) -/

/-- An image replaces another and leaves the rest of the start-up state. -/
theorem Boot.setImg_rest (b : Boot) (i : Nat) (x : Image) : ({ b.setImg i x with imgA := b.imgA, imgB := b.imgB } : Boot) = b := by
  unfold Boot.setImg
  split_ifs <;> rfl

/-- The leave of start-up, before its stacks get power (R525, R580). -/
def State.granted (s : State) : State := { s with pow := { s.pow with ledger := baseGrants 0 } }

/-- Domains, stacks, lanes and calibrations of start-up are done (R580). -/
def State.woken (s : State) (rep : BootReport) : State :=
  let s := [0, 1].foldl (fun s k => wakeStack true k s) (powerUpAll [22, 23] s.granted)
  let s := rep.training.foldl (fun s l => if l.1 < 2 ∧ l.2.1 < 32 then trainLane l.1 l.2.1 true l.2.2 s else s) s
  ([(5, 0xFF), (0, 0xFF), (3, 4)].zip rep.cals).foldl (fun s e => judgeWindow { at0 := 0, kind := e.1.1, unit := e.1.2 } e.2 0 s) s

/-- Galleries are mapped, and the image may start. -/
def State.readied (s : State) (rep : BootReport) : State :=
  setBootMap (rep.failedGals.foldl (fun s g => bootGalleryFails g s) (s.woken rep))

/-- The start-up state of a device whose image `i` runs, as try number `n`. -/
def Boot.started (b : Boot) (rep : BootReport) (i n : Nat) : Boot :=
  ({ b with
    st := 1, image := i, report := none, tries := n
    rollback := if n = 0 then none else some (if b.usable (b.order.headD i) && rep.attempts.headD 0 == 2 then 1 else 0) } : Boot).setImg i
      { b.img i with st := 0, erase := true }

theorem bootRest_eq (rep : BootReport) (i n : Nat) (s : State) : bootRest rep i n s =
    if (s.readied rep).boot.select = i then (s.readied rep).setBoot ((s.readied rep).boot.started rep i n)
    else markActive i ((s.readied rep).setBoot ((s.readied rep).boot.started rep i n)) := rfl

section
variable (rep : BootReport) (s : State)

/-- What steps 4 to 7 of R580 leave: power as the domains of the stacks have it, and both stacks in service. -/
theorem readied_spec :
    let r := s.readied rep
    r.pow = (powerUpAll [22, 23] s.granted).pow ∧ r.boot = s.boot ∧ (r.stk 0).st = 0 ∧ (r.stk 1).st = 0 := by
  have hrest := powerUpAll_rest [22, 23] s.granted
  have hboot := congrArg State.boot hrest
  have hboot : (powerUpAll [22, 23] s.granted).boot = s.boot := hboot
  unfold State.readied State.woken
  generalize powerUpAll [22, 23] s.granted = u at hboot
  obtain ⟨hpow0, hboot0, -, h0, -⟩ := wakeStack_spec true 0 u
  obtain ⟨hpow1, hboot1, -, h1, hkeep⟩ := wakeStack_spec true 1 (wakeStack true 0 u)
  have hfold : [0, 1].foldl (fun s k => wakeStack true k s) u = wakeStack true 1 (wakeStack true 0 u) := rfl
  rw [hfold]
  have hkeep := (hkeep 0 (by decide)).trans h0
  have hpow := hpow1.trans hpow0
  have hboot' := (hboot1.trans hboot0).trans hboot
  generalize wakeStack true 1 (wakeStack true 0 u) = v at h1 hkeep hpow hboot'
  dsimp only
  generalize hw : setBootMap _ = w
  have hstanding : w.standing = v.standing := by
    rw [← hw, setBootMap_standing, foldl_unchanged State.standing (fun u g => bootGalleryFails_standing u g),
      foldl_unchanged State.standing (fun u e => judgeWindow_standing u _ _ _)]
    refine foldl_unchanged State.standing (fun u l => ?_) _ v
    split_ifs
    · exact trainLane_standing _ _ _ _ u
    · rfl
  obtain ⟨hp, hb, -, hs0, hs1⟩ := standing_fields hstanding
  exact ⟨hp.trans hpow, hb.trans hboot', hs0.trans hkeep, hs1.trans h1⟩

theorem readied_health (htrain : rep.training = []) (hgals : rep.failedGals = []) : (s.readied rep).health = s.health := by
  unfold State.readied State.woken
  rw [hgals, htrain]
  dsimp only [List.foldl_nil]
  rw [setBootMap_health, foldl_health fun u e => judgeWindow_health _ _ _ u, foldl_health fun u k => wakeStack_health true k u,
    powerUpAll_health]
  rfl

end

theorem Boot.started_spec (b : Boot) (rep : BootReport) (i n : Nat) :
    let t := b.started rep i n
    t.st = 1 ∧ t.image = i ∧ t.report = none ∧ t.select = b.select ∧ (t.rollback = none ↔ n = 0) := by
  have hrest := Boot.setImg_rest ({ b with
    st := 1, image := i, report := none, tries := n
    rollback := if n = 0 then none else some (if b.usable (b.order.headD i) && rep.attempts.headD 0 == 2 then 1 else 0) } : Boot) i
      { b.img i with st := 0, erase := true }
  have hst := congrArg Boot.st hrest
  have himage := congrArg Boot.image hrest
  have hreport := congrArg Boot.report hrest
  have hselect := congrArg Boot.select hrest
  have hback := congrArg Boot.rollback hrest
  have hback : (b.started rep i n).rollback = if n = 0 then none else some _ := hback
  refine ⟨hst, himage, hreport, hselect, ?_⟩
  rw [hback]
  split_ifs with h
  · exact ⟨fun _ => h, fun _ => rfl⟩
  · exact ⟨fun hnone => absurd hnone (by simp), fun hzero => absurd hzero h⟩

/-- The start of image `i` (R580). -/
theorem bootRest_spec (rep : BootReport) (i n : Nat) (s : State) :
    let t := bootRest rep i n s
    t.boot.st = 1 ∧ t.boot.image = i ∧ t.boot.report = none ∧ t.boot.select = i ∧ (t.boot.rollback = none ↔ n = 0) ∧
      t.pow = (powerUpAll [22, 23] s.granted).pow ∧ (t.stk 0).st = 0 ∧ (t.stk 1).st = 0 ∧
      (s.boot.select = i → rep.training = [] → rep.failedGals = [] → t.health = s.health) := by
  obtain ⟨hpow, hboot, h0, h1⟩ := readied_spec rep s
  have hhealth := readied_health rep s
  have heq := bootRest_eq rep i n s
  rw [hboot] at heq
  obtain ⟨hst, himage, hreport, hselect, hback⟩ := s.boot.started_spec rep i n
  dsimp only
  rw [heq]
  generalize s.readied rep = r at hpow h0 h1 hhealth
  generalize s.boot.started rep i n = b at hst himage hreport hselect hback
  by_cases hsel : s.boot.select = i
  · rw [if_pos hsel]
    exact ⟨hst, himage, hreport, hselect.trans hsel, hback, hpow, h0, h1, fun _ => hhealth⟩
  · rw [if_neg hsel, markActive_eq]
    obtain ⟨hlog, -⟩ := logEntry_control_of 10 i 0 ((r.setBoot b).boot.version i) ((r.setBoot b).setBoot ((r.setBoot b).boot.marked i))
    have hstand := logEntry_standing 10 i 0 ((r.setBoot b).boot.version i) ((r.setBoot b).setBoot ((r.setBoot b).boot.marked i))
    obtain ⟨hp, -, -, hs0, hs1⟩ := standing_fields hstand
    rw [hlog]
    exact ⟨hst, himage, hreport, rfl, hback, hp.trans hpow, hs0.trans h0, hs1.trans h1, fun h => absurd h hsel⟩

/-! ### Attempts (R578, R580) -/

section
variable {s : State} {rep : BootReport}

theorem bootTry_none (k : Nat) (hrep : s.boot.report = some rep) (horder : s.boot.order[s.boot.tries]? = none) :
    bootTry (k + 1) s = s.setBoot { s.boot with st := 4, recovery := true, report := none } := by
  rw [bootTry, hrep]
  dsimp only
  rw [horder]

theorem attempts_of_ne {l : List Nat} {n r : Nat} (h : l.getD n 2 = r) (hr : r ≠ 2) : l.getD n 0 = r := by
  rw [List.getD_eq_getElem?_getD] at h ⊢
  cases hn : l[n]? with
  | none =>
    rw [hn] at h
    exact absurd h.symm hr
  | some x =>
    rw [hn] at h
    exact h

theorem bootTry_some (k : Nat) {i r : Nat} (hrep : s.boot.report = some rep) (horder : s.boot.order[s.boot.tries]? = some i)
    (huse : s.boot.usable i = true) (hres : rep.attempts.getD s.boot.tries 2 = r) (hr : r ≠ 2) :
    bootTry (k + 1) s = if r = 0 then bootRest rep i s.boot.tries s else if r = 1 then s
      else bootTry k (s.setBoot { s.boot with tries := s.boot.tries + 1 }) := by
  rw [bootTry, hrep]
  dsimp only
  rw [horder]
  dsimp only
  rw [if_pos huse, attempts_of_ne hres hr]

theorem bootRun_eq (hst : s.boot.st = 0) (hsup : s.boot.supplies = true) (hperst : s.boot.strapPerst = false ∨ s.boot.perst = false)
    (hrep : s.boot.report = some rep) : bootRun s = bootTry 3 (if s.pow.ledger.isEmpty then bootDomains s else s) := by
  refine if_neg ?_
  rw [hst, hsup, hrep]
  rcases hperst with h | h <;> simp [h]

/-- BASE is granted (R580). -/
def State.based (s : State) : State := { s with pow := { s.pow with ledger := [⟨0, 0, 26000, 0, none, 0⟩] } }

theorem alignClocks_fields (s : State) :
    (alignClocks s).boot = s.boot ∧ (alignClocks s).cur = s.cur ∧ (alignClocks s).pow = s.pow := by
  have h := alignClocks_frame s
  generalize alignClocks s = t at h
  have hboot := congrArg State.boot h
  have hcur := congrArg State.cur h
  have hpow := congrArg State.pow h
  exact ⟨hboot, hcur, hpow⟩

theorem bootDomains_spec (s : State) :
    let t := bootDomains s
    t.boot = s.boot ∧ t.cur = s.cur ∧ t.pow.down = s.pow.down ∧
      ∀ d, d < 31 → (t.isUp d = true ↔ s.isUp d = true ∨ (d ∈ [27, 26, 24, 25, 28, 30] ∧ d ∉ s.pow.down)) := by
  have hrest := powerUpAll_rest [27, 26, 24, 25, 28, 30] s.based
  have hup (d : Nat) (hd : d < 31) := powerUpAll_isUp [27, 26, 24, 25, 28, 30] s.based hd
  have halign : bootDomains s = alignClocks (powerUpAll [27, 26, 24, 25, 28, 30] s.based) := rfl
  dsimp only
  rw [halign]
  generalize powerUpAll [27, 26, 24, 25, 28, 30] s.based = v at hrest hup
  have hboot := congrArg State.boot hrest
  have hcur := congrArg State.cur hrest
  have hdown := congrArg (fun z : State => z.pow.down) hrest
  obtain ⟨haboot, hacur, hapow⟩ := alignClocks_fields v
  generalize alignClocks v = t at haboot hacur hapow
  refine ⟨haboot.trans hboot, hacur.trans hcur, (congrArg Pow.down hapow).trans hdown, fun d hd => ?_⟩
  have hsame : t.isUp d = v.isUp d := congrArg (fun p : Pow => p.domains.testBit d) hapow
  rw [hsame]
  exact hup d hd

end

/-- An attempt that starts an image, with its domains and what its leave grants. -/
theorem bootRest_power (rep : BootReport) (i n : Nat) (s : State) :
    let t := bootRest rep i n s
    t.pow.ledger = baseGrants 0 ∧
      ∀ d, d < 31 → (t.isUp d = true ↔ s.isUp d = true ∨ (d ∈ [22, 23] ∧ d ∉ s.pow.down)) := by
  obtain ⟨-, -, -, -, -, hpow, -⟩ := bootRest_spec rep i n s
  have hrest := powerUpAll_rest [22, 23] s.granted
  have hup (d : Nat) (hd : d < 31) := powerUpAll_isUp [22, 23] s.granted hd
  dsimp only
  generalize bootRest rep i n s = t at hpow
  generalize powerUpAll [22, 23] s.granted = u at hpow hrest hup
  have hledger := congrArg (fun z : State => z.pow.ledger) hrest
  refine ⟨(congrArg Pow.ledger hpow).trans hledger, fun d hd => ?_⟩
  have hsame : t.isUp d = u.isUp d := congrArg (fun p : Pow => p.domains.testBit d) hpow
  rw [hsame]
  exact hup d hd

/-- Supplies have come good, with what the attempts will find. -/
def State.supplied (s : State) (rep : BootReport) : State := s.setBoot { s.boot with supplies := true, report := some rep }

section
variable {s : State} {rep : BootReport} (hst : s.boot.st = 0) (hperst : s.boot.strapPerst = false ∨ s.boot.perst = false)
    (hreport : s.boot.report = none) (htries : s.boot.tries = 0) (hledger : s.pow.ledger = [])
include hst hperst hreport hledger

theorem suppliesGood_eq : suppliesGood rep s = bootTry 3 (bootDomains (s.supplied rep)) := by
  have hgood : suppliesGood rep s = bootRun (s.setBoot { s.boot with supplies := true, report := some (s.boot.report.getD rep) }) :=
    if_neg (not_not.mpr hst)
  have hsupplied : s.setBoot { s.boot with supplies := true, report := some (s.boot.report.getD rep) } = s.supplied rep := by
    rw [hreport]
    rfl
  have hempty : (s.supplied rep).pow.ledger.isEmpty = true := List.isEmpty_iff.mpr hledger
  rw [hgood, hsupplied, bootRun_eq (s := s.supplied rep) (rep := rep) hst rfl hperst rfl, if_pos hempty]

include htries

theorem suppliesGood_recovery (horder : s.boot.order[0]? = none) :
    let t := suppliesGood rep s
    t.boot.st = 4 ∧ t.boot.recovery = true ∧ t.health = s.health ∧ t.cur.committed = s.cur.committed := by
  obtain ⟨hboot, hcur, -, -⟩ := bootDomains_spec (s.supplied rep)
  have hhealth := bootDomains_health (s.supplied rep)
  dsimp only
  rw [suppliesGood_eq hst hperst hreport hledger]
  generalize bootDomains (s.supplied rep) = u at hboot hcur hhealth
  have hrep : u.boot.report = some rep := congrArg Boot.report hboot
  have hnone : u.boot.order[u.boot.tries]? = none := by
    rw [hboot]
    show s.boot.order[s.boot.tries]? = none
    rw [htries]
    exact horder
  rw [bootTry_none 2 hrep hnone]
  exact ⟨rfl, rfl, hhealth, congrArg Cur.committed hcur⟩

theorem suppliesGood_starts {i : Nat} (horder : s.boot.order[0]? = some i) (huse : s.boot.usable i = true)
    (hres : rep.attempts.getD 0 2 = 0) :
    let t := suppliesGood rep s
    t.boot.st = 1 ∧ t.boot.image = i ∧ t.boot.rollback = none ∧ t.boot.report = none ∧ t.boot.select = i ∧
      t.pow.ledger = baseGrants 0 ∧ (t.stk 0).st = 0 ∧ (t.stk 1).st = 0 ∧
      (∀ d ∈ [27, 26, 24, 25, 28, 30, 22, 23], d ∉ s.pow.down → t.isUp d = true) ∧
      (s.boot.select = i → rep.training = [] → rep.failedGals = [] → t.health = s.health) := by
  obtain ⟨hboot, -, hdown, hup⟩ := bootDomains_spec (s.supplied rep)
  have hhealth := bootDomains_health (s.supplied rep)
  dsimp only
  rw [suppliesGood_eq hst hperst hreport hledger]
  generalize bootDomains (s.supplied rep) = u at hboot hdown hup hhealth
  have hrep : u.boot.report = some rep := congrArg Boot.report hboot
  have hzero : u.boot.tries = 0 := (congrArg Boot.tries hboot).trans htries
  have hsome : u.boot.order[u.boot.tries]? = some i := by
    rw [hboot]
    show s.boot.order[s.boot.tries]? = some i
    rw [htries]
    exact horder
  have huse' : u.boot.usable i = true := by
    rw [hboot]
    exact huse
  have hfirst : rep.attempts.getD u.boot.tries 2 = 0 := by
    rw [hzero]
    exact hres
  rw [bootTry_some 2 hrep hsome huse' hfirst (by decide), if_pos rfl]
  obtain ⟨h1, h2, h3, h4, h5, -, h7, h8, h9⟩ := bootRest_spec rep i u.boot.tries u
  obtain ⟨hgrants, hdomains⟩ := bootRest_power rep i u.boot.tries u
  refine ⟨h1, h2, h5.mpr hzero, h3, h4, hgrants, h7, h8, fun d hd hnot => ?_, fun hsel ht hg => ?_⟩
  · have hall : ∀ d ∈ [27, 26, 24, 25, 28, 30, 22, 23], d < 31 := by decide
    have hlt := hall d hd
    have hudown : u.pow.down = s.pow.down := hdown
    rw [hdomains d hlt, hup d hlt, hudown]
    rcases List.mem_append.mp (show d ∈ [27, 26, 24, 25, 28, 30] ++ [22, 23] from hd) with h | h
    · exact .inl (.inr ⟨h, hnot⟩)
    · exact .inr ⟨h, hnot⟩
  · exact (h9 ((congrArg Boot.select hboot).trans hsel) ht hg).trans hhealth

theorem suppliesGood_hangs {i : Nat} (horder : s.boot.order[0]? = some i) (huse : s.boot.usable i = true)
    (hres : rep.attempts.getD 0 2 = 1) :
    let t := suppliesGood rep s
    t.boot = { s.boot with supplies := true, report := some rep } ∧ t.health = s.health ∧ t.cur = s.cur := by
  obtain ⟨hboot, hcur, -, -⟩ := bootDomains_spec (s.supplied rep)
  have hhealth := bootDomains_health (s.supplied rep)
  dsimp only
  rw [suppliesGood_eq hst hperst hreport hledger]
  generalize bootDomains (s.supplied rep) = u at hboot hcur hhealth
  have hrep : u.boot.report = some rep := congrArg Boot.report hboot
  have hzero : u.boot.tries = 0 := (congrArg Boot.tries hboot).trans htries
  have hsome : u.boot.order[u.boot.tries]? = some i := by
    rw [hboot]
    show s.boot.order[s.boot.tries]? = some i
    rw [htries]
    exact horder
  have huse' : u.boot.usable i = true := by
    rw [hboot]
    exact huse
  have hfirst : rep.attempts.getD u.boot.tries 2 = 1 := by
    rw [hzero]
    exact hres
  rw [bootTry_some 2 hrep hsome huse' hfirst (by decide), if_neg (by decide), if_pos rfl]
  exact ⟨hboot, hhealth, hcur⟩

end

/-! ### A time limit that passes (R578) -/

section
variable {s : State} {r : BootReport} (hst : s.boot.st = 0) (hreport : s.boot.report = some r) (hsup : s.boot.supplies = true)
    (hperst : s.boot.strapPerst = false ∨ s.boot.perst = false) (hledger : s.pow.ledger ≠ [])
include hst hreport hsup hperst hledger

theorem bootAttemptTimeout_eq : bootAttemptTimeout s = bootTry 3 (s.setBoot { s.boot with tries := s.boot.tries + 1 }) := by
  have hempty : ¬s.pow.ledger.isEmpty = true := fun h => hledger (List.isEmpty_iff.mp h)
  have hgo : ¬(s.boot.st ≠ 0 ∨ s.boot.report.isNone = true ∨ (!s.boot.supplies) = true ∨ (s.boot.strapPerst = true ∧ s.boot.perst = true) ∨
      s.pow.ledger.isEmpty = true) := by
    rw [hst, hreport, hsup]
    rcases hperst with h | h <;> simp [h, hledger]
  have hrun : bootAttemptTimeout s = bootRun (s.setBoot { s.boot with tries := s.boot.tries + 1 }) := if_neg hgo
  rw [hrun, bootRun_eq (s := s.setBoot { s.boot with tries := s.boot.tries + 1 }) (rep := r) hst hsup hperst hreport]
  exact congrArg (bootTry 3) (if_neg hempty)

theorem bootAttemptTimeout_recovery (horder : s.boot.order[s.boot.tries + 1]? = none) :
    let t := bootAttemptTimeout s
    t.boot.st = 4 ∧ t.boot.recovery = true ∧ t.health = s.health := by
  dsimp only
  rw [bootAttemptTimeout_eq hst hreport hsup hperst hledger,
    bootTry_none (s := s.setBoot { s.boot with tries := s.boot.tries + 1 }) 2 hreport horder]
  exact ⟨rfl, rfl, rfl⟩

theorem bootAttemptTimeout_starts {i : Nat} (horder : s.boot.order[s.boot.tries + 1]? = some i) (huse : s.boot.usable i = true)
    (hres : r.attempts.getD (s.boot.tries + 1) 2 = 0) :
    let t := bootAttemptTimeout s
    t.boot.st = 1 ∧ t.boot.image = i ∧ t.boot.rollback.isSome = true := by
  obtain ⟨h1, h2, -, -, h5, -⟩ := bootRest_spec r i (s.boot.tries + 1) (s.setBoot { s.boot with tries := s.boot.tries + 1 })
  dsimp only
  rw [bootAttemptTimeout_eq hst hreport hsup hperst hledger,
    bootTry_some (s := s.setBoot { s.boot with tries := s.boot.tries + 1 }) 2 hreport horder huse hres (by decide), if_pos rfl]
  refine ⟨h1, h2, Option.isSome_iff_ne_none.mpr fun hnone => ?_⟩
  have hzero := h5.mp hnone
  omega

end

theorem bootAttemptTimeout_holds {s : State} (h : s.boot.st ≠ 0 ∨ s.boot.report = none ∨ s.boot.supplies = false ∨ s.pow.ledger = []) :
    bootAttemptTimeout s = s := by
  refine if_pos ?_
  rcases h with h | h | h | h
  · exact .inl h
  · exact .inr (.inl (by rw [h]; rfl))
  · exact .inr (.inr (.inl (by rw [h]; rfl)))
  · exact .inr (.inr (.inr (.inr (by rw [h]; rfl))))

/-- Settles O58: start-up is one attempt after another, and each attempt's outcome is its own lemma. -/
theorem startUpEvents : Obligations.StartUpEvents := by
  refine fun rep straps sup i sp drives s => ⟨fun h => ⟨congrArg Host.Outcome.next (if_pos h),
      congrArg Host.Outcome.next (bootAttemptTimeout_holds (.inl h)), congrArg Host.Outcome.next (if_pos (.inl h))⟩,
    fun hst hstrap hperst => ?held, fun hst hperst hreport htries hledger => ⟨fun horder => ?none, fun horder huse hres => ?starts,
      fun horder huse hres => ?hangs⟩,
    fun r hst hreport hsup hperst hledger => ⟨fun horder => ?lateNone, fun horder huse hres => ?lateStarts⟩,
    fun h => congrArg Host.Outcome.next (bootAttemptTimeout_holds (.inr h)), fun hst hsup => ?supply,
    congrArg Host.Outcome.next (if_pos (.inr rfl)), ⟨_, rfl, rfl, rfl, rfl, rfl, rfl⟩, rfl⟩
  case held =>
    have hgood : suppliesGood rep s = bootRun (s.setBoot { s.boot with supplies := true, report := some (s.boot.report.getD rep) }) :=
      if_neg (not_not.mpr hst)
    exact congrArg Host.Outcome.next (hgood.trans (if_pos (.inr (.inr (.inl ⟨hstrap, hperst⟩)))))
  case none => exact ⟨_, rfl, suppliesGood_recovery hst hperst hreport htries hledger horder⟩
  case starts => exact ⟨_, rfl, suppliesGood_starts hst hperst hreport htries hledger horder huse hres⟩
  case hangs => exact ⟨_, rfl, suppliesGood_hangs hst hperst hreport htries hledger horder huse hres⟩
  case lateNone => exact ⟨_, rfl, bootAttemptTimeout_recovery hst hreport hsup hperst hledger horder⟩
  case lateStarts => exact ⟨_, rfl, bootAttemptTimeout_starts hst hreport hsup hperst hledger horder huse hres⟩
  case supply =>
    have hgo : ¬(s.boot.st ≠ 0 ∨ sup = 0) := by omega
    exact congrArg Host.Outcome.next (if_neg hgo)

end Sys2Proof.Machine
end

section
/-! PROOF. Fallow mode: its entry, its link and its end (R436, R537 to R542). -/
namespace Sys2Proof.Machine

/-! ### Entry (R537, R538) -/

theorem writeCounts_control (p : Nat) (tries : List MountTry) (s : State) : (writeCounts p tries s).control = s.control := by
  have hcopies (k off : Nat) (b : List Byte) : ((List.range k).foldl (fun (s : State) _ => s.sendCopy p off b) s).control = s.control :=
    foldl_control (fun u _ => (notes_of_leaves (u.sendCopy_leaves p off b)).control) _ s
  unfold writeCounts
  by_cases hgov : (!(s.mt p).governs) = true
  · exact congrArg State.control (if_pos hgov)
  · dsimp only
    rw [if_neg hgov]
    split_ifs
    all_goals
      simp only [State.post_control, State.setMt_control]
      exact hcopies _ _ _

/-- The counters of every mount are written back (R538). -/
def State.counted (s : State) (env : List Nat) : State := (List.range 12).foldl (fun s p => writeCounts p (fallowTries env p) s) s

theorem counted_control (s : State) (env : List Nat) : (s.counted env).control = s.control :=
  foldl_control (fun u p => writeCounts_control p (fallowTries env p) u) _ s

theorem fallowBegin_eq (r : Req) (s : State) : fallowBegin r s =
    if ((s.counted r.env).queuesOn.any fun q => ((s.counted r.env).qu q).desc.isSome) = true then
      beginDrain 24 { s.counted r.env with pow := { (s.counted r.env).pow with entering := some (r.u 0 1) } }
    else fallowNow (r.u 0 1) (s.counted r.env) := by
  unfold fallowBegin State.counted
  generalize (List.range 12).foldl (fun s p => writeCounts p (fallowTries r.env p) s) s = u
  rfl

/-- What a FALLOW_ENTER that passes its checks is, and the mode that it asks for. -/
theorem fallowEnterBody_ok {r : Req} {s : State} (h : Passes (fallowEnterBody r s)) :
    fallowEnterBody r s = .ok (s, []) ∧ r.u 0 1 ≤ 1 := by
  obtain ⟨out, hout⟩ := exists_ok_of_passes h
  have hbody := hout
  unfold fallowEnterBody at hbody
  obtain ⟨_, -, hbody⟩ := bind_ok hbody
  obtain ⟨_, -, hbody⟩ := bind_ok hbody
  obtain ⟨_, hmode, hbody⟩ := bind_ok hbody
  obtain ⟨_, -, hbody⟩ := bind_ok hbody
  obtain ⟨_, -, hbody⟩ := bind_ok hbody
  obtain ⟨_, -, hbody⟩ := bind_ok hbody
  obtain ⟨_, -, hbody⟩ := bind_ok hbody
  obtain ⟨_, -, hbody⟩ := bind_ok hbody
  have hsame : (s, []) = out := Except.ok.inj hbody
  exact ⟨hout.trans (congrArg Except.ok hsame.symm), of_decide_eq_true (ensure_ok hmode)⟩

/-- FALLOW_ENTER goes on from a state that its answer leaves, and that stands as before. -/
theorem completes_fallowEnter {r : Req} {s : State} (h : Fresh r s) (hfn : r.fn = 0) (hp : Passes (fallowEnterBody r (s.tick r.t))) :
    ∃ w : State, exec (.fallowEnter r) s = .next (fallowBegin r w) ∧ w.control = (s.tick r.t).control := by
  obtain ⟨hbody, -⟩ := fallowEnterBody_ok hp
  obtain ⟨t, hrun, w, ht, -, hleaves⟩ := completes_runThen (i := .fallowEnter r) (op := 0xA9) (pf := true)
    (body := fun s => fallowEnterBody r s) (after := fallowBegin r) rfl h (fun _ => hfn) hbody (.inl (by decide))
  exact ⟨w, hrun.trans (congrArg Host.Outcome.next ht), (notes_of_leaves hleaves).control⟩

/-- What entry leaves of power, cadence and housekeeping (R538). -/
theorem fallowRest_spec (mode : Nat) (s : State) :
    let t := fallowRest mode s
    t.pow.fallow = (if mode = 0 then 1 else 2) ∧ t.pow.entering = none ∧ t.pow.domains = 1 ∧ t.pow.link = false ∧ t.pow.ledger = [] ∧
      t.cad.anchored = false ∧ t.cad.awaitAnchor = true ∧ t.hk.due = [] :=
  ⟨(fallowRest_pow mode s).2.1, rfl, rfl, rfl, rfl, rfl, rfl, rfl⟩

theorem fallowBegin_now {r : Req} {w : State} (h : ∀ q, (w.qu q).desc = none) :
    fallowBegin r w = fallowNow (r.u 0 1) (w.counted r.env) := by
  have hqueue := (control_at (counted_control w r.env)).2.2.2.2.2.2.1
  refine (fallowBegin_eq r w).trans (if_neg fun hany => ?_)
  obtain ⟨q, -, hq⟩ := List.any_eq_true.mp hany
  have hsame : (w.counted r.env).qu q = w.qu q := congrArg (fun t => tget ({} : Queue) t q) hqueue
  rw [hsame, h q] at hq
  exact absurd hq (by decide)

/-- Entry that waits for the Couriers (R436). -/
theorem fallowBegin_drains {r : Req} {w : State} {q : Nat} (hst : (w.qu q).st ≠ 0) (hdesc : (w.qu q).desc.isSome = true) :
    let t := fallowBegin r w
    t.pow = { w.pow with entering := some (r.u 0 1) } ∧ t.health = w.health ∧ t.boot = w.boot := by
  obtain ⟨-, hboot, -, hpow, hhealth, -, hqueue, -⟩ := control_at (counted_control w r.env)
  have heq := fallowBegin_eq r w
  generalize w.counted r.env = u at hboot hpow hhealth hqueue heq
  have hsame : u.qu q = w.qu q := congrArg (fun t => tget ({} : Queue) t q) hqueue
  rw [← hsame] at hst hdesc
  have hany : (u.queuesOn.any fun q => (u.qu q).desc.isSome) = true := List.any_eq_true.mpr ⟨q, mem_queuesOn hst, hdesc⟩
  dsimp only
  rw [heq, if_pos hany]
  have hdrain (v : State) : (beginDrain 24 v).pow = v.pow ∧ (beginDrain 24 v).health = v.health ∧ (beginDrain 24 v).boot = v.boot := by
    unfold beginDrain
    refine ⟨?_, ?_, ?_⟩
    · refine foldl_unchanged State.pow (fun u q => ?_) _ v
      rfl
    · refine foldl_unchanged State.health (fun u q => ?_) _ v
      rfl
    · refine foldl_unchanged State.boot (fun u q => ?_) _ v
      rfl
  obtain ⟨hp, hh, hb⟩ := hdrain { u with pow := { u.pow with entering := some (r.u 0 1) } }
  rw [hp, hh, hb]
  exact ⟨congrArg (fun p : Pow => { p with entering := some (r.u 0 1) }) hpow, hhealth, hboot⟩

/-! ### The link in fallow mode (R540) -/

theorem linkL1Exit_spec {s : State} (hfallow : s.pow.fallow ≠ 0) (hlink : s.pow.link = false) :
    let t := linkL1Exit s
    t.pow.link = true ∧ (24 ∉ s.pow.down → t.isUp 24 = true) ∧ (∀ d, d ≠ 24 → t.isUp d = s.isUp d) ∧ t = { s with pow := t.pow } := by
  have hgo : ¬(s.pow.fallow = 0 ∨ s.pow.link = true) := by
    rw [hlink]
    simpa using hfallow
  have hrun : linkL1Exit s = ({ s with pow := { s.pow with link := true } } : State).powerUp 24 := if_neg hgo
  have hrest := ({ s with pow := { s.pow with link := true } } : State).powerUp_rest 24
  have hup := ({ s with pow := { s.pow with link := true } } : State).isUp_powerUp 24
  dsimp only
  rw [hrun]
  generalize ({ s with pow := { s.pow with link := true } } : State).powerUp 24 = t at hrest hup
  have hlinked := congrArg (fun z : State => z.pow.link) hrest
  have hall := congrArg (fun z : State => { z with pow := t.pow }) hrest
  refine ⟨hlinked, fun hnot => (hup 24).mpr (.inr ⟨rfl, hnot⟩), fun d hd => ?_, hall⟩
  rw [Bool.eq_iff_iff]
  exact (hup d).trans ⟨fun h => h.resolve_right fun h => hd h.1, .inl⟩

theorem isUp_powerOff_other {s : State} {d e : Nat} (h : e ≠ d) : (s.powerOff d).isUp e = s.isUp e := by
  by_cases hup : s.isUp d = true
  · have hset : (s.powerOff d).isUp e = (s.pow.domains - 2 ^ d).testBit e := congrArg (fun z : State => z.isUp e) (if_pos hup)
    have hbit : s.pow.domains / 2 ^ d % 2 = 1 := by
      have hbit : s.pow.domains.testBit d = true := hup
      simpa [Nat.testBit_eq_decide_div_mod_eq] using hbit
    have hup : s.isUp e = s.pow.domains.testBit e := rfl
    rw [hset, hup]
    generalize s.pow.domains = n at hbit
    have hlow : n % 2 ^ d < 2 ^ d := Nat.mod_lt _ (Nat.two_pow_pos d)
    have hn : n = 2 ^ d * (2 * (n / 2 ^ d / 2) + 1) + n % 2 ^ d := by
      rw [show 2 * (n / 2 ^ d / 2) + 1 = n / 2 ^ d by omega]
      exact (Nat.div_add_mod n (2 ^ d)).symm
    generalize n / 2 ^ d / 2 = k at hn
    generalize n % 2 ^ d = m at hn hlow
    have hoff : n - 2 ^ d = 2 ^ d * (2 * k) + m := by
      rw [hn, Nat.mul_succ]
      omega
    rw [hoff, hn, Nat.testBit_two_pow_mul_add _ hlow, Nat.testBit_two_pow_mul_add _ hlow]
    split_ifs with hlt
    · rfl
    · obtain ⟨j, hj⟩ : ∃ j, e - d = j + 1 := ⟨e - d - 1, by omega⟩
      rw [hj, Nat.testBit_succ, Nat.testBit_succ]
      congr 1
      omega
  · exact congrArg (fun z : State => z.isUp e) (if_neg hup)

theorem linkL1Entry_spec {s : State} (hfallow : s.pow.fallow ≠ 0) (hlink : s.pow.link = true) :
    let t := linkL1Entry s
    t.pow.link = false ∧ t.isUp 24 = false ∧ (∀ d, d ≠ 24 → t.isUp d = s.isUp d) ∧ t = { s with pow := t.pow } := by
  have hgo : ¬(s.pow.fallow = 0 ∨ (!s.pow.link) = true) := by
    rw [hlink]
    simpa using hfallow
  have hrun : linkL1Entry s = ({ s with pow := { s.pow with link := false } } : State).powerOff 24 := if_neg hgo
  dsimp only
  rw [hrun]
  refine ⟨?_, ?_, fun d hd => isUp_powerOff_other hd, ?_⟩
  · unfold State.powerOff
    split_ifs <;> rfl
  · by_cases hup : s.isUp 24 = true
    · exact isUp_powerOff hup
    · have hoff := congrArg (fun z : State => z.isUp 24) (if_neg hup : ({ s with pow := { s.pow with link := false } } : State).powerOff 24 = _)
      exact hoff.trans (Bool.eq_false_iff.mpr hup)
  · unfold State.powerOff
    split_ifs <;> rfl

/-! ### Queues that fetch again (R436) -/

/-- A queue as the end of a drain leaves it (R436). -/
def drainEnded (s : State) (q : Nat) : State := quFetch q (s.setQu q { s.qu q with drain := false })

theorem drainEnded_alone (s : State) (q : Nat) : QueueAlone q s (drainEnded s q) :=
  queueAlone_trans (queueAlone_setQu q s _) (quFetch_qu q _).1

theorem drainEnded_drain (s : State) (q : Nat) : ((drainEnded s q).qu q).drain = false := by
  obtain ⟨-, asked, hqu, -⟩ := quFetch_qu q (s.setQu q { s.qu q with drain := false })
  rw [State.qu_setQu_self] at hqu
  exact congrArg Queue.drain hqu

theorem endDrain_link (s : State) : endDrain 24 s = s.queuesOn.foldl drainEnded s := by
  have hall : drainers s 24 = s.queuesOn := by
    unfold drainers
    simp
  unfold endDrain
  rw [hall]
  rfl

/-- What the end of a drain leaves of power, start-up and the stacks. -/
theorem drainEnded_fields (s : State) (q : Nat) :
    (drainEnded s q).pow = s.pow ∧ (drainEnded s q).boot = s.boot ∧ (drainEnded s q).stack = s.stack := by
  have hrest := (drainEnded_alone s q).1
  have hpow := congrArg State.pow hrest
  have hboot := congrArg State.boot hrest
  have hstack := congrArg State.stack hrest
  exact ⟨hpow, hboot, hstack⟩

theorem endDrain_fields (s : State) :
    (endDrain 24 s).pow = s.pow ∧ (endDrain 24 s).boot = s.boot ∧ (endDrain 24 s).stack = s.stack := by
  rw [endDrain_link]
  exact ⟨foldl_unchanged State.pow (fun u q => (drainEnded_fields u q).1) _ s,
    foldl_unchanged State.boot (fun u q => (drainEnded_fields u q).2.1) _ s,
    foldl_unchanged State.stack (fun u q => (drainEnded_fields u q).2.2) _ s⟩

/-- A queue that the fold reaches no longer drains, and one that it does not reach is as it was. -/
theorem drainsEnded_qu {q : Nat} (l : List Nat) (s : State) (h : ((l.foldl drainEnded s).qu q).drain = true) :
    q ∉ l ∧ (s.qu q).drain = true := by
  induction l generalizing s with
  | nil => exact ⟨List.not_mem_nil, h⟩
  | cons p l ih =>
    obtain ⟨hnot, hdrain⟩ := ih (drainEnded s p) h
    by_cases hq : q = p
    · subst hq
      rw [drainEnded_drain] at hdrain
      exact absurd hdrain (by decide)
    · rw [(drainEnded_alone s p).2 q hq] at hdrain
      exact ⟨fun hin => (List.mem_cons.mp hin).elim hq hnot, hdrain⟩

/-- A queue that still drains is one that is not enabled. -/
theorem endDrain_drain {q : Nat} {s : State} (h : ((endDrain 24 s).qu q).drain = true) : (s.qu q).st = 0 := by
  rw [endDrain_link] at h
  by_contra hst
  exact (drainsEnded_qu _ s h).1 (mem_queuesOn hst)

/-! ### The end of fallow mode (R541, R542) -/

theorem armComparators_standing (ns : List Nat) (s : State) : (armComparators ns s).standing = s.standing := by
  refine foldl_unchanged State.standing (fun u n => ?_) ns s
  split_ifs
  · unfold beginArming
    dsimp only
    split_ifs <;> rfl
  · rfl

/-- The state in which the device wakes: STATE 1, its grants, and the turns that PD00 has counted (R539). -/
def State.awake (s : State) (turns : Nat) : State :=
  { s.setCad { s.cad with keptTurn := s.cad.keptTurn.map fun t => (t + turns) % 2 ^ 48 } with
    pow := { s.pow with fallow := 0, wake := none, rung := false, link := false, ledger := baseGrants s.cad.now }
    boot := { s.boot with st := 1 } }

/-- A lane that trains on the way out. -/
def wokenLane (s : State) (l : Nat × Nat × LaneRun) : State :=
  if l.1 < 2 ∧ l.2.1 < 32 then trainLane l.1 l.2.1 false l.2.2 s else s

/-- The stacks back in service, and their lanes trained. -/
def wokenStacks (train : Bool) (runs : List (Nat × Nat × LaneRun)) (s : State) : State :=
  let t := wakeStack train 1 (wakeStack train 0 s)
  if train then runs.foldl wokenLane t else t

/-- Comparators armed and queues fetching again. -/
def wokenUnits (s : State) : State := endDrain 24 (armComparators (sleepers s) s)

theorem fallowWake_eq (retrain : Bool) (runs : List (Nat × Nat × LaneRun)) {s : State} (hfallow : s.pow.fallow ≠ 0)
    (hwake : s.pow.wake.isSome = true ∨ s.pow.rung = true) :
    ∃ free turns payload, fallowWake retrain runs s =
      (wokenUnits (wokenStacks (retrain || s.pow.fallow == 1) runs
        (powerUpAll [27, 26, 24, 25, 28, 30, 22, 23] (({ s with free := free } : State).awake turns)))).post evFallowExit payload := by
  have hgo : ¬(s.pow.fallow = 0 ∨ (s.pow.wake.isNone = true ∧ (!s.pow.rung) = true)) := by
    rintro (h | ⟨hnone, hrung⟩)
    · exact hfallow h
    · rcases hwake with h | h
      · rw [Option.isNone_iff_eq_none] at hnone
        rw [hnone] at h
        exact absurd h (by decide)
      · rw [h] at hrung
        exact absurd hrung (by decide)
  generalize hrun : fallowWake retrain runs s = t
  unfold fallowWake at hrun
  rw [if_neg hgo] at hrun
  extract_lets train byLatch at hrun
  split at hrun
  next num v hpick =>
    split at hrun
    next turns u hturns =>
      extract_lets _ u1 _ p _ u2 u3 u4 u5 u6 u7 at hrun
      have hv : { v with free := u.free } = { s with free := u.free } := by
        split at hpick
        all_goals exact (congrArg (fun z : Nat × State => ({ z.2 with free := u.free } : State)) hpick.symm).trans rfl
      have hu := congrArg (fun z : Nat × State => ({ z.2 with free := u.free } : State)) hturns.symm
      have hfree : { s with free := u.free } = u := (hu.trans hv).symm
      have hawake : u2 = u.awake turns := rfl
      have hstacks : u5 = wokenStacks train runs (powerUpAll [27, 26, 24, 25, 28, 30, 22, 23] u2) := rfl
      have hunits : u7 = wokenUnits u5 := rfl
      refine ⟨u.free, turns, [(1, b2n !byLatch), (1, num)], ?_⟩
      rw [hfree, ← hawake, ← hrun, hunits, hstacks]

section
variable (train : Bool) (runs : List (Nat × Nat × LaneRun)) (s : State)

theorem wokenLane_standing (l : Nat × Nat × LaneRun) : (wokenLane s l).standing = s.standing := by
  unfold wokenLane
  split_ifs
  · exact trainLane_standing _ _ _ _ _
  · rfl

theorem wokenStacks_spec : let t := wokenStacks train runs s
    t.pow = s.pow ∧ t.boot = s.boot ∧ t.queue = s.queue ∧ (t.stk 0).st = 0 ∧ (t.stk 1).st = 0 := by
  obtain ⟨hpow0, hboot0, hqueue0, hst0, -⟩ := wakeStack_spec train 0 s
  obtain ⟨hpow1, hboot1, hqueue1, hst1, hother⟩ := wakeStack_spec train 1 (wakeStack train 0 s)
  have hzero := (hother 0 (by decide)).trans hst0
  unfold wokenStacks
  generalize wakeStack train 1 (wakeStack train 0 s) = u at hpow1 hboot1 hqueue1 hst1 hzero
  have hkeep : (if train then runs.foldl wokenLane u else u).standing = u.standing := by
    split_ifs
    · exact foldl_unchanged State.standing wokenLane_standing runs u
    · rfl
  obtain ⟨hpow, hboot, hqueue, h0, h1⟩ := standing_fields hkeep
  exact ⟨hpow.trans (hpow1.trans hpow0), hboot.trans (hboot1.trans hboot0), hqueue.trans (hqueue1.trans hqueue0), h0.trans hzero,
    h1.trans hst1⟩

theorem wokenStacks_health : (wokenStacks false runs s).health = s.health :=
  (wakeStack_health false 1 _).trans (wakeStack_health false 0 s)

theorem wokenUnits_spec : let t := wokenUnits s
    t.pow = s.pow ∧ t.boot = s.boot ∧ (t.stk 0).st = (s.stk 0).st ∧ (t.stk 1).st = (s.stk 1).st ∧ t.health = s.health ∧
      ∀ q, (t.qu q).drain = true → (s.qu q).st = 0 := by
  obtain ⟨hpow, hboot, hqueue, h0, h1⟩ := standing_fields (armComparators_standing (sleepers s) s)
  have hhealth := armComparators_health (sleepers s) s
  unfold wokenUnits
  generalize armComparators (sleepers s) s = u at hpow hboot hqueue h0 h1 hhealth
  obtain ⟨hp, hb, hs⟩ := endDrain_fields u
  have hstk (k : Nat) : (endDrain 24 u).stk k = u.stk k := congrArg (fun t => tget ({} : Stack) t k) hs
  refine ⟨hp.trans hpow, hb.trans hboot, ?_, ?_, (endDrain_health 24 u).trans hhealth, fun q hq => ?_⟩
  · rw [hstk, h0]
  · rw [hstk, h1]
  · have hsame : u.qu q = s.qu q := congrArg (fun t => tget ({} : Queue) t q) hqueue
    exact hsame ▸ endDrain_drain hq

end

theorem fallowWake_spec (retrain : Bool) (runs : List (Nat × Nat × LaneRun)) {s : State} (hfallow : s.pow.fallow ≠ 0)
    (hwake : s.pow.wake.isSome = true ∨ s.pow.rung = true) :
    let t := fallowWake retrain runs s
    t.boot = { s.boot with st := 1 } ∧ t.pow.fallow = 0 ∧ t.pow.wake = none ∧ t.pow.rung = false ∧
      t.pow.ledger = baseGrants s.cad.now ∧ (t.stk 0).st = 0 ∧ (t.stk 1).st = 0 ∧
      (∀ d ∈ [27, 26, 24, 25, 28, 30, 22, 23], d ∉ s.pow.down → t.isUp d = true) ∧
      (retrain = false → s.pow.fallow ≠ 1 → t.health = s.health) ∧ ∀ q, (t.qu q).drain = true → (s.qu q).st = 0 := by
  obtain ⟨free, turns, payload, hrun⟩ := fallowWake_eq retrain runs hfallow hwake
  dsimp only
  rw [hrun]
  have hrest := powerUpAll_rest [27, 26, 24, 25, 28, 30, 22, 23] (({ s with free := free } : State).awake turns)
  have hup (d : Nat) (hd : d < 31) :=
    powerUpAll_isUp [27, 26, 24, 25, 28, 30, 22, 23] (({ s with free := free } : State).awake turns) hd
  generalize powerUpAll [27, 26, 24, 25, 28, 30, 22, 23] (({ s with free := free } : State).awake turns) = v at hrest hup
  have hboot := congrArg State.boot hrest
  have hqueue := congrArg State.queue hrest
  have hhealth := congrArg State.health hrest
  have hpow := congrArg (fun z : State => { z.pow with domains := 0 }) hrest
  have hcold := wokenStacks_health runs v
  obtain ⟨hp1, hb1, hq1, hst0, hst1⟩ := wokenStacks_spec (retrain || s.pow.fallow == 1) runs v
  have htrain (hr : retrain = false) (hf : s.pow.fallow ≠ 1) : (retrain || s.pow.fallow == 1) = false := by
    rw [hr, Bool.false_or, beq_eq_false_iff_ne]
    exact hf
  generalize (retrain || s.pow.fallow == 1) = train at hp1 hb1 hq1 hst0 hst1 htrain
  have hwarm (h : train = false) : (wokenStacks train runs v).health = v.health := h ▸ hcold
  generalize wokenStacks train runs v = w at hp1 hb1 hq1 hst0 hst1 hwarm
  obtain ⟨hp2, hb2, h20, h21, hh2, hdrain⟩ := wokenUnits_spec w
  generalize wokenUnits w = x at hp2 hb2 h20 h21 hh2 hdrain
  obtain ⟨hp3, hb3, hq3, h30, h31⟩ := standing_fields (x.post_standing evFallowExit payload 0)
  have hh3 := State.post_health x evFallowExit payload 0
  generalize x.post evFallowExit payload = y at hp3 hb3 hq3 h30 h31 hh3
  have hyv : y.pow = v.pow := hp3.trans (hp2.trans hp1)
  have hqueues (q : Nat) : w.qu q = s.qu q := congrArg (fun t => tget ({} : Queue) t q) (hq1.trans hqueue)
  rw [hyv]
  refine ⟨hb3.trans (hb2.trans (hb1.trans hboot)), congrArg Pow.fallow hpow, congrArg Pow.wake hpow, congrArg Pow.rung hpow,
    congrArg Pow.ledger hpow, h30.trans (h20.trans hst0), h31.trans (h21.trans hst1), fun d hd hdown => ?_, fun hr hf => ?_,
    fun q hq => ?_⟩
  · have hlt : d < 31 := by
      simp only [List.mem_cons, List.not_mem_nil, or_false] at hd
      omega
    have hyup : y.isUp d = v.isUp d := congrArg (fun p : Pow => p.domains.testBit d) hyv
    exact hyup.trans ((hup d hlt).mpr (.inr ⟨hd, hdown⟩))
  · exact hh3.trans (hh2.trans ((hwarm (htrain hr hf)).trans hhealth))
  · have hx : x.qu q = y.qu q := congrArg (fun t => tget ({} : Queue) t q) hq3.symm
    rw [← hqueues q]
    exact hdrain q (hx ▸ hq)

/-- Settles O59: entry writes the counters back and then waits or begins; waking is power, stacks, then comparators and queues. -/
theorem fallowMode : Obligations.FallowMode := by
  refine ⟨fun r s hfresh hfn hp => ?_, fun retrain runs s => ?_⟩
  · obtain ⟨w, hrun, hcontrol⟩ := completes_fallowEnter hfresh hfn hp
    obtain ⟨-, hmode⟩ := fallowEnterBody_ok hp
    obtain ⟨-, hboot, -, hpow, hhealth, -, hqueue, -⟩ := control_at hcontrol
    have hqu (q : Nat) : w.qu q = s.qu q := congrArg (fun t => tget ({} : Queue) t q) hqueue
    refine ⟨fun hnone => ⟨_, hrun, ?_⟩, fun q hst hdesc => ⟨_, hrun, ?_⟩⟩
    · rw [fallowBegin_now fun q => (congrArg Queue.desc (hqu q)).trans (hnone q)]
      obtain ⟨hfallow, hrest⟩ := fallowRest_spec (r.u 0 1) ([22, 23, 24, 25].foldl (fun s d => abortDrain d s) (w.counted r.env))
      refine ⟨hfallow.trans ?_, hrest⟩
      split_ifs <;> omega
    · obtain ⟨hp, hh, hb⟩ := fallowBegin_drains (r := r) (w := w) (q := q) (by rwa [hqu]) (by rwa [hqu])
      obtain ⟨-, hawake, -⟩ := hfresh
      refine ⟨congrArg Pow.entering hp, ?_, hh.trans hhealth, hb.trans hboot⟩
      have hkept := congrArg Pow.fallow hp
      have hsame := congrArg Pow.fallow hpow
      exact hkept.trans (hsame.trans hawake)
  · refine ⟨fun h => ⟨?_, ?_, ?_⟩, fun hw hr => ?_, fun hf hw => ⟨_, rfl, ?_⟩, fun hf hl => ⟨_, rfl, ?_⟩, fun hf hl => ⟨_, rfl, ?_⟩,
      fun hl => ?_, fun hl => ?_⟩
    · exact congrArg Host.Outcome.next (if_pos (.inl h))
    · exact congrArg Host.Outcome.next (if_pos (.inl h))
    · exact congrArg Host.Outcome.next (if_pos (.inl h))
    · exact congrArg Host.Outcome.next (if_pos (.inr ⟨by rw [hw]; rfl, by rw [hr]; rfl⟩))
    · exact fallowWake_spec retrain runs hf hw
    · exact linkL1Exit_spec hf hl
    · exact linkL1Entry_spec hf hl
    · exact congrArg Host.Outcome.next (if_pos (.inr hl))
    · exact congrArg Host.Outcome.next (if_pos (.inr (by rw [hl]; rfl)))

end Sys2Proof.Machine
end
